-- ==== Sys2Proof/Word.lean ====
section
/-! DEFINITION. The word types of the part: 32-bit little-endian registers (R5), bytes and 64-bit addresses. -/

namespace Sys2Proof

/-- A register value: every register is 32 bits wide (R5). -/
abbrev Word := BitVec 32

/-- A byte of a message, descriptor or memory. -/
abbrev Byte := BitVec 8

/-- A host or internal address carried by a TLP. -/
abbrev Addr := BitVec 64

end Sys2Proof
end

