-- ==== Sys2Proof/Machine/Bits.lean ====
section
/-! DEFINITION. Bit fields of registers, sign extension, byte order, and the modular arithmetic of counts and
sequence numbers. A bit range is written [high:low] as in the manual (00_scope). -/

namespace Sys2Proof.Machine

/-- The field `[hi:lo]` of a register value, as a number. -/
def field (v : Word) (hi lo : Nat) : Nat := v.toNat / 2 ^ lo % 2 ^ (hi + 1 - lo)

/-- The single bit `[n]`. -/
def bit (v : Word) (n : Nat) : Bool := v.getLsbD n

/-- The mask of the bits `[hi:lo]`. -/
def maskOf (hi lo : Nat) : Word := BitVec.ofNat 32 ((2 ^ (hi + 1 - lo) - 1) * 2 ^ lo)

/-- A register value with field `[hi:lo]` replaced by the low bits of `n`. -/
def putField (v : Word) (hi lo n : Nat) : Word :=
  (v &&& ~~~ maskOf hi lo) ||| (BitVec.ofNat 32 (n % 2 ^ (hi + 1 - lo) * 2 ^ lo))

/-- A register value with bit `[n]` set to `b`. -/
def putBit (v : Word) (n : Nat) (b : Bool) : Word := putField v n n (if b then 1 else 0)

/-- A truth value as a bit. -/
def b2n (b : Bool) : Nat := if b then 1 else 0

/-- The signed value of a `w`-bit two's complement number. -/
def sext (w n : Nat) : Int :=
  if n % 2 ^ w < 2 ^ (w - 1) then (n % 2 ^ w : Nat) else ((n % 2 ^ w : Nat) : Int) - 2 ^ w

/-- The low `w` bits of a signed number. -/
def lowBits (w : Nat) (i : Int) : Nat := (i % (2 ^ w : Int)).toNat

/-- A signed number clamped to a symmetric range (TM_SLAVE_STATUS.OFFSET saturates, R34). -/
def clampInt (lo hi i : Int) : Int := max lo (min hi i)

/-- A count that sticks at its maximum. -/
def satAdd (top a b : Nat) : Nat := min top (a + b)

/-- `a − b` modulo `m`: the distances of R103, R105, R111, R284. -/
def modSub (m a b : Nat) : Nat := (a + (m - b % m)) % m

/-- The `n` low bytes of a number, least significant first (R5: little-endian). -/
def leBytes : Nat → Nat → List Byte
  | 0, _ => []
  | n + 1, v => BitVec.ofNat 8 v :: leBytes n (v / 256)

/-- The number a list of bytes holds, byte 0 least significant. -/
def ofBytes : List Byte → Nat
  | [] => 0
  | b :: bs => b.toNat + 256 * ofBytes bs

/-- Quotient rounded up. -/
def ceilDiv (a b : Nat) : Nat := (a + b - 1) / b

/-- One step of a CRC-16 with polynomial 0x1021, most significant bit first (R58). -/
def crc16Bit (c : BitVec 16) (b : Bool) : BitVec 16 :=
  if c.getLsbD 15 ^^ b then (c <<< 1) ^^^ 0x1021#16 else c <<< 1

/-- The CRC-16 of a byte, most significant bit of the byte first. -/
def crc16Byte (c : BitVec 16) (x : Byte) : BitVec 16 :=
  [7, 6, 5, 4, 3, 2, 1, 0].foldl (fun c i => crc16Bit c (x.getLsbD i)) c

/-- The CRC-16 of a byte string: initial value 0xFFFF, no final XOR (R58). -/
def crc16 (bs : List Byte) : BitVec 16 := bs.foldl crc16Byte 0xFFFF#16

/-- One step of a CRC-64 with polynomial 0x42F0_E1EB_A9EA_3693, most significant bit first (R95; DESIGN CHOICE, log entry 117). -/
def crc64Bit (c : BitVec 64) (b : Bool) : BitVec 64 :=
  if c.getLsbD 63 ^^ b then (c <<< 1) ^^^ 0x42F0E1EBA9EA3693#64 else c <<< 1

/-- The CRC-64 of a byte. -/
def crc64Byte (c : BitVec 64) (x : Byte) : BitVec 64 :=
  [7, 6, 5, 4, 3, 2, 1, 0].foldl (fun c i => crc64Bit c (x.getLsbD i)) c

/-- The CRC-64 over a byte string from a value, which is a numeral at each byte, so that the kernel evaluates it. -/
def crc64From : List Byte → BitVec 64 → BitVec 64
  | [], c => c
  | x :: bs, c => match (crc64Byte c x).toNat with
    | 0 => crc64From bs 0#64
    | n + 1 => crc64From bs (BitVec.ofNat 64 (n + 1))

/-- The CRC-64 of a byte string: initial value and final XOR all ones (R95). -/
def crc64 (bs : List Byte) : BitVec 64 := ~~~ (crc64From bs (BitVec.allOnes 64))

/-- One step of CRC-32C, reflected form of the published polynomial 0x1EDC_6F41 (R326 CHECK). -/
def crc32cBit (c : BitVec 32) : BitVec 32 :=
  if c.getLsbD 0 then (c >>> 1) ^^^ 0x82F63B78#32 else c >>> 1

/-- CRC-32C of a byte. -/
def crc32cByte (c : BitVec 32) (x : Byte) : BitVec 32 :=
  (List.range 8).foldl (fun c _ => crc32cBit c) (c ^^^ x.setWidth 32)

/-- CRC-32C of a byte string, with the standard's initial and final inversion. -/
def crc32c (bs : List Byte) : BitVec 32 := ~~~ (bs.foldl crc32cByte 0xFFFFFFFF#32)

/-- The nanoseconds of one second. -/
def nsPerSec : Nat := 1000000000

/-- Fabric time wraps at 2^48 seconds (R23, R33). -/
def ftMod : Nat := 2 ^ 48 * nsPerSec

/-- An FT instant from the three words software writes, with the carry of R33. -/
def ftOf (secHi secLo ns : Nat) : Nat := ((secHi % 65536 * 2 ^ 32 + secLo) * nsPerSec + ns) % ftMod

end Sys2Proof.Machine
end

