-- ==== Sys2Proof/Machine/Map.lean ====
section
/-! DEFINITION. Sparse tables in one canonical form: a list of (key, value) pairs with keys strictly rising and no
entry equal to what an unlisted key reads as. Registers, memories and per-object engine state are held so, so that
equal contents are equal data. -/

namespace Sys2Proof

/-- A table of values by number. -/
abbrev NMap (α : Type) := List (Nat × α)

namespace Machine

/-- The value at key `k`; `d` is what an unlisted key reads as. -/
def tget {α : Type} (d : α) : NMap α → Nat → α
  | [], _ => d
  | (j, v) :: m, k => if j = k then v else tget d m k

/-- The table without key `k`. -/
def terase {α : Type} (m : NMap α) (k : Nat) : NMap α :=
  m.filter fun e => e.1 ≠ k

/-- Insert an entry before the first entry with a larger key. -/
def tinsert {α : Type} : NMap α → Nat → α → NMap α
  | [], k, v => [(k, v)]
  | (j, w) :: m, k, v => if k < j then (k, v) :: (j, w) :: m else (j, w) :: tinsert m k v

/-- Write `v` at `k`: the entry disappears when `v` is what an unlisted key reads as. -/
def tset {α : Type} [DecidableEq α] (d : α) (m : NMap α) (k : Nat) (v : α) : NMap α :=
  if v = d then terase m k else tinsert (terase m k) k v

/-- Change the value at `k` by `f`. -/
def tmod {α : Type} [DecidableEq α] (d : α) (m : NMap α) (k : Nat) (f : α → α) : NMap α :=
  tset d m k (f (tget d m k))

/-- The canonical form: keys strictly rise, and no entry is the unlisted value `d` of its key. -/
def twf {α : Type} [DecidableEq α] (d : Nat → α) (m : NMap α) : Bool :=
  decide (m.Pairwise fun a b => a.1 < b.1) && m.all fun e => decide (e.2 ≠ d e.1)

/-- A memory of bytes: a list of cells (`Host.Cell`) in canonical form. -/
abbrev Memory := NMap Byte

/-- A memory in canonical form: an erased byte of flash reads 0xFF (DESIGN CHOICE, log entry 8), so that is what an unlisted address reads as. -/
def Memory.wf (m : Memory) : Bool := twf (fun _ => 0xFF#8) m

end Machine
end Sys2Proof
end

