-- ==== Sys2Proof/Machine/RegDefs.lean ====
section
/-! DEFINITION. The register index of the part (R438, R441, R442, R447 to R449): for every register word its offset,
its reset value, the bits that are set data (R36), the live bits software may write (RW), and the bits that clear
when 1 is written (W1C). Every other bit is RO, WO or reserved: a plain write leaves it as it is (R6, R7). -/

namespace Sys2Proof.Machine

/-- The members of the family (R1, R2). -/
inductive Part where
  | rh1024
  | rh512
  | rh256
  deriving DecidableEq, Repr

/-- The tiles present (R2). -/
def Part.tiles : Part → List Nat
  | .rh1024 => [0, 1, 2, 3, 4, 5, 6, 7]
  | .rh512 => [0, 1, 4, 5]
  | .rh256 => [0, 1]

/-- Whether tile `t` is present. -/
def Part.hasTile (p : Part) (t : Nat) : Bool := p.tiles.contains t

/-- The tile that holds a port or lane (R49). -/
def tileOf (lane : Nat) : Nat := lane / 128

/-- The port block that holds a port or lane (R49). -/
def pbOf (lane : Nat) : Nat := lane / 16

/-- One 32-bit word of a register row. -/
structure WordDef where
  reset : Nat := 0
  setM : Nat := 0
  rwM : Nat := 0
  w1cM : Nat := 0
  deriving DecidableEq, Repr

/-- A row of the index: `count` objects of `stride` bytes from `base`, each with these words. -/
structure RegRow where
  base : Nat
  stride : Nat
  count : Nat
  words : List WordDef
  deriving DecidableEq, Repr

/-- A word software reads only. -/
def ro (reset : Nat := 0) : WordDef := { reset := reset }
/-- A word of set data (R36). -/
def setW (m : Nat) (reset : Nat := 0) : WordDef := { setM := m, reset := reset }
/-- A live word with writable bits `m` and clear-on-one bits `c`. -/
def rw (m : Nat) (reset : Nat := 0) (c : Nat := 0) : WordDef := { rwM := m, w1cM := c, reset := reset }
/-- All 32 bits. -/
def allM : Nat := 0xFFFFFFFF

/-- The rows of the Ilulys block (R438, R447): HK_, TM_ and SP_ registers. -/
def ilulysRows : List RegRow := [
  ⟨0x00020000, 4, 1, [ro]⟩, ⟨0x00020004, 4, 1, [rw 0x3F]⟩, ⟨0x00020008, 4, 1, [ro]⟩,
  ⟨0x0002000C, 4, 1, [rw 0x7FF]⟩, ⟨0x00020010, 4, 1, [rw 0x3FF]⟩, ⟨0x00020014, 4, 1, [ro]⟩,
  ⟨0x00020020, 4, 1, [rw allM]⟩, ⟨0x00020024, 4, 1, [rw 0x3 0 0x4]⟩, ⟨0x00020040, 4, 8, [rw allM]⟩,
  ⟨0x00020100, 4, 64, [rw allM]⟩, ⟨0x00020800, 4, 1, [rw 0 0 0x2C]⟩, ⟨0x00020804, 4, 1, [rw 0x1B 0x18]⟩,
  ⟨0x00020808, 4, 1, [rw 0 0 0x40]⟩, ⟨0x0002080C, 4, 1, [rw 0x70 0 0x180]⟩, ⟨0x00020810, 4, 1, [ro]⟩] ++ [
  ⟨0x00030000, 4, 1, [rw 0x1F0 0xC0]⟩, ⟨0x00030004, 4, 1, [rw 0 0x100 0x23E00]⟩, ⟨0x00030008, 4, 1, [ro]⟩,
  ⟨0x0003000C, 4, 3, [ro]⟩, ⟨0x00030018, 4, 1, [rw 0xFFFF]⟩, ⟨0x0003001C, 4, 2, [rw allM]⟩,
  ⟨0x00030024, 4, 2, [ro]⟩, ⟨0x00030030, 4, 1, [rw 0xFFFF]⟩, ⟨0x00030034, 4, 2, [rw allM]⟩,
  ⟨0x00030040, 4, 2, [ro]⟩, ⟨0x00030048, 4, 1, [rw 0x0FFFFFFC]⟩, ⟨0x0003004C, 4, 2, [ro]⟩] ++ [
  ⟨0x00800000, 0x40, 128, [rw 0x4, rw 0x01FFFFFF 0x01615000, rw 0x00FFFFFF 0x00D80064, rw allM 0x01F40200,
    rw 0xFFFF 0x9655, rw 0 0x100 0x38000, ro, ro 0x1540]⟩,
  ⟨0x00802000, 4, 8, [ro]⟩, ⟨0x00802020, 4, 1, [rw 0xFFF 0x3FC]⟩,
  ⟨0x00802100, 16, 32, [rw allM, rw 0xFFFF, rw 0x3FFFFFFF, rw 0x3FF 0 0xC00]⟩]

/-- The four words of a TL_BIND entry (R170). -/
def bindWords : List WordDef := [setW 0x1FFFFFFF, setW 0xFFFFF, setW allM, setW 0x3FF]

/-- The rows of the global tables, mailboxes and rings (R438, R447). TL_BIND[4096..4111] lie at their alias (R442). -/
def globalRows : List RegRow := [
  ⟨0x00040000, 4, 64, [setW 0x1FF]⟩,
  ⟨0x00050000, 8, 256, [setW 0x1FFF, setW 0x0FFF0FFF]⟩, ⟨0x00050800, 4, 1, [setW 0x3F]⟩,
  ⟨0x00050C00, 4, 256, [setW 0x1F3F 0x800]⟩, ⟨0x00051000, 4, 8192, [setW 0x1FFFF]⟩,
  ⟨0x00060000, 16, 4096, bindWords⟩, ⟨0x00060000 + 16 * 4112, 16, 12272, bindWords⟩,
  ⟨0x00120000, 16, 16, bindWords⟩] ++ [
  ⟨0x00070000, 4, 1, [rw 0xFFFF]⟩, ⟨0x00070004, 4, 2, [ro]⟩, ⟨0x00070010, 4, 1, [rw 0 0 0x4]⟩,
  ⟨0x00070014, 4, 1, [rw 0xFFFF]⟩, ⟨0x00070018, 4, 2, [rw allM]⟩, ⟨0x00070020, 4, 1, [rw 0x3FF]⟩,
  ⟨0x00070024, 4, 1, [rw 0xFFFFFFC0]⟩, ⟨0x00070028, 4, 1, [rw allM]⟩, ⟨0x0007002C, 4, 1, [rw 0xFFFFFFFC]⟩,
  ⟨0x00070030, 4, 1, [rw allM]⟩, ⟨0x00070034, 4, 1, [rw 0xFFFF0000]⟩, ⟨0x00070038, 4, 1, [rw 0 0 0x7]⟩] ++ [
  ⟨0x000A0000, 16, 32768, [setW 0x03FFFFFF, setW 0xFFFFF000, setW allM]⟩,
  ⟨0x00140000, 4, 1, [rw 0x1F 0xF]⟩, ⟨0x00140004, 4, 1, [rw 0xFFFFF000]⟩, ⟨0x00140008, 4, 1, [rw allM]⟩,
  ⟨0x0014000C, 4, 1, [rw 0 0 0x4]⟩, ⟨0x00140010, 4, 1, [rw 0x1F 0xC]⟩, ⟨0x00140014, 4, 1, [rw 0xFFFFF000]⟩,
  ⟨0x00140018, 4, 1, [rw allM]⟩, ⟨0x0014001C, 4, 1, [rw 0 0 0x4]⟩,
  ⟨0x00141000, 8, 256, [setW allM, setW allM]⟩,
  ⟨0x00200000, 0x100, 4096, List.replicate 16 ro ++ List.replicate 16 (rw allM) ++ [rw 0 0 0x10]⟩,
  ⟨0x00300000, 16, 4096, [setW 0xFFFF0FFF, setW 0x3FFF, setW 0xFFFFF]⟩,
  ⟨0x00310000, 8, 4096, [setW 0x7FFF1FFF, setW 0x07FF3FFF]⟩, ⟨0x00320000, 4, 32768, [setW 0x1FFF]⟩,
  ⟨0x00400000, 128, 4096, List.replicate 32 (setW allM)⟩,
  ⟨0x00500000, 32, 65536, [rw 0xFFFF03FF, rw 0xFFFFFFC0, rw allM, rw 0xFFFFFFFC, rw allM, rw 0xFFFF07FF, ro,
    rw 0 0 0x17]⟩]

/-- The rows of a tile region, by offset from the tile base (R448). -/
def tileRows : List RegRow := [
  ⟨0x0000, 4, 1, [ro]⟩, ⟨0x0004, 4, 1, [rw 0 0 0xC]⟩, ⟨0x0008, 4, 1, [rw 0xFF000 0x64000 0x100000]⟩,
  ⟨0x3000, 4, 1, [ro 0x2000]⟩, ⟨0x4000, 0x100, 3, [rw 0x07FF007F 0x54, rw 0 0 0x80000]⟩,
  ⟨0x6000, 4, 1, [rw 1 1]⟩, ⟨0x6004, 4, 1, [rw 0x1FFFF 0x4000]⟩, ⟨0x6008, 4, 1, [rw 0x1FFFF 0x800]⟩,
  ⟨0x600C, 4, 1, [rw 0x1FFF 0x1000]⟩, ⟨0x6010, 4, 1, [rw 0 0 0x20000]⟩, ⟨0x6014, 4, 1, [rw 0xFFFF 0xC8]⟩,
  ⟨0x6018, 4, 1, [rw 0 0 0x60000]⟩, ⟨0x601C, 4, 1, [rw 0x7F]⟩, ⟨0x6020, 4, 1, [ro]⟩,
  ⟨0x7000, 32, 64, [setW 0xF, setW 0x03FF03FF, setW 0x03FF03FF, setW 0x03FF03FF, setW 0x03FF03FF]⟩,
  ⟨0x7800, 4, 64, [rw 0 0 0x100]⟩] ++ [
  ⟨0x9000, 4, 1, [rw 0x1FF 0xA]⟩, ⟨0x9004, 4, 1, [rw 0 0 0xE00]⟩, ⟨0x9010, 4, 1, [rw 0xFFFF]⟩,
  ⟨0xA000, 4, 5, [ro]⟩, ⟨0xA014, 4, 1, [rw 0 0 0x600]⟩, ⟨0xA018, 4, 1, [rw 0 0 0x4000]⟩, ⟨0xA01C, 4, 1, [ro]⟩,
  ⟨0xB000, 4, 1, [rw allM 0x04000800]⟩, ⟨0xB004, 4, 1, [rw 0x3F]⟩, ⟨0xB008, 4, 1, [rw 0xFFF]⟩,
  ⟨0xB00C, 4, 1, [ro]⟩, ⟨0xB010, 4, 1, [rw 0 0 0x3]⟩, ⟨0xC000, 4, 1, [rw 0x7FFF]⟩,
  ⟨0xD000, 4, 32, [rw 0x1FFFFF]⟩, ⟨0xD080, 4, 8, [rw 0x3FFFFFFF]⟩,
  ⟨0xD100, 32, 4, [rw 0x1FFFFFFF, rw 0x3FFFFF, rw 0xFFFFFF, rw 0xFFFFFF80, rw allM, rw 0xFFFFFFFC, rw allM,
    rw 0xFFFF0000]⟩] ++ [
  ⟨0xE000, 4, 1, [rw 0 0 0x1FF]⟩, ⟨0xE004, 4, 1, [ro]⟩, ⟨0xE008, 4, 1, [rw 1 1]⟩, ⟨0xE400, 4, 256, [ro]⟩,
  ⟨0x10000, 4, 4096, [rw 0x4]⟩, ⟨0x14000, 4, 4096, [rw 0 0 0x70]⟩, ⟨0x18000, 4, 1, [rw 0xFFFF 0xA]⟩,
  ⟨0x20000, 16, 8192, [setW 0x0FFF03FF, setW 0xFFFFF, setW 0xFFFFF, setW allM]⟩,
  ⟨0x40000, 32, 4096, [setW 0x0FFF003F, setW 0xFFFFF000, setW allM, setW 0xFFFFF000, setW allM]⟩,
  ⟨0x60000, 4, 4096, [rw 1]⟩, ⟨0x64000, 4, 4096, [rw 0 0 0x6000]⟩, ⟨0x68000, 4, 1, [setW 0x1F 0x1F]⟩,
  ⟨0x68004, 4, 1, [rw 0 0 0x1000000]⟩, ⟨0x68010, 4, 1, [rw 0xFFF]⟩, ⟨0x68014, 4, 5, [rw allM]⟩,
  ⟨0x80000, 32, 16384, [setW 0x0FFFFFFF, setW 0x0FFFFFFF, setW allM, setW allM, setW 0xFFFF]⟩]

/-- The rows of a port block, by offset from the port-block base (R449). The LK_ block of lane index `i` is at
0x2000 + 0x40 × i, for i = 0, 4, 8 and 12 (R120). -/
def pbRows : List RegRow := [
  ⟨0x0000, 4, 16, [setW 0x3FF]⟩, ⟨0x0040, 4, 16, [rw 0 0 0x6000]⟩, ⟨0x0080, 4, 16, [setW 0xFFFF3FFF]⟩,
  ⟨0x00C0, 4, 16, [setW 0x0FFF0FFF]⟩, ⟨0x0100, 4, 1, [rw 3 3]⟩,
  ⟨0x1000, 4, 16, [rw 0xFF 0x19]⟩, ⟨0x1040, 4, 16, [rw 0 0x7 0x28C0]⟩, ⟨0x1080, 4, 4, [rw 0 0 0x2]⟩,
  ⟨0x1090, 4, 1, [rw 0x1FFFFF 0xA50]⟩, ⟨0x1094, 4, 1, [rw 0xFF03]⟩, ⟨0x1100, 4, 16, [rw 0x3F3F]⟩,
  ⟨0x1140, 4, 16, [rw 0xFFFF]⟩, ⟨0x1180, 4, 1, [rw 0x10F0F]⟩, ⟨0x1184, 4, 2, [rw allM]⟩,
  ⟨0x2000, 0x100, 4, [setW 0x1F, rw 0x3F 0x10, rw 0xFFFFFF, rw allM, rw 0 0 0x2030] ++ List.replicate 20 ro⟩] ++ [
  ⟨0x20000, 32, 1024, [setW 0x0FFF001F, setW 0xFFFFF, setW 0xFFFFF, setW allM, setW 0xFF]⟩,
  ⟨0x30000, 16, 8192, [setW 0x1FF, setW 0xFFFFF, setW 0xFFFFF, setW allM]⟩,
  ⟨0x50000, 32, 16, [setW 0x1FF 0x8, setW 0xFFFFF, setW 0xFFFFF, setW 0xFFFFF, setW allM, setW 0xFF]⟩,
  ⟨0x51000, 8, 512, [setW 0xFFFFFF, setW 0xFFFF03FF]⟩,
  ⟨0x52000, 32, 2, [setW 0x1FF, setW allM, setW allM, setW allM, setW 0xFFFF]⟩,
  ⟨0x52040, 4, 1, [rw 0 0 0x30]⟩, ⟨0x52044, 4, 1, [rw 0xFFFF]⟩, ⟨0x52048, 4, 2, [rw allM]⟩]

/-- The word definition a row gives an offset, if the offset lies in the row. -/
def RegRow.find (r : RegRow) (o : Nat) : Option WordDef :=
  if o < r.base ∨ r.base + r.stride * r.count ≤ o then none
  else r.words[(o - r.base) % r.stride / 4]?

/-- The first row that holds an offset. -/
def findRow (rows : List RegRow) (o : Nat) : Option WordDef := rows.findSome? fun r => r.find o

/-- The base of tile `t`'s region (R438). -/
def tileBase (t : Nat) : Nat := 0x01000000 * (t + 1)

/-- The base of port block `pb` (R441). -/
def pbBase (pb : Nat) : Nat := tileBase (pb / 8) + 0x00100000 * (pb % 8 + 1)

/-- The tile whose region holds an offset (R441). -/
def offTile (o : Nat) : Option Nat := if o < 0x01000000 ∨ 0x09000000 ≤ o then none else some (o / 0x01000000 - 1)

/-- The register word at a 4-byte aligned BAR0 offset (R441): none where the location is reserved. -/
def regDef (o : Nat) : Option WordDef :=
  if o % 4 ≠ 0 then none
  else if o < 0x01000000 then
    if o = 0 then some ro
    else if (0x00020000 ≤ o ∧ o < 0x00031000) ∨ (0x00800000 ≤ o ∧ o < 0x00802300) then findRow ilulysRows o
    else findRow globalRows o
  else match offTile o with
    | none => none
    | some _ =>
      let r := o % 0x01000000
      if r < 0x00100000 then findRow tileRows r
      else if r < 0x00900000 then findRow pbRows (r % 0x00100000)
      else none

/-- Whether an offset lies in the Ilulys block (R438). -/
def inIlulys (o : Nat) : Bool := (0x00020000 ≤ o && o < 0x00031000) || (0x00800000 ≤ o && o < 0x00802300)

/-- Whether an offset lies in the global tables (R438). -/
def inGlobal (o : Nat) : Bool := (0x00040000 ≤ o && o < 0x00480000) || (0x00500000 ≤ o && o < 0x00700000)

/-- The shared-pool cells of the part (R124). -/
def Part.sharedPool : Part → Nat
  | .rh1024 => 72960
  | .rh512 => 119040
  | .rh256 => 128256

/-- The reset value of the register word at an offset (R444, the Reset columns of R447 to R449), by part where the
column says so. -/
def regReset (p : Part) (o : Nat) : Word :=
  match regDef o with
  | none => 0
  | some w =>
    match offTile o with
    | some t => if o % 0x01000000 = 0 then BitVec.ofNat 32 t
                else if o % 0x01000000 = 0x6010 then BitVec.ofNat 32 p.sharedPool
                else BitVec.ofNat 32 w.reset
    | none => BitVec.ofNat 32 w.reset

end Sys2Proof.Machine
end

