-- ==== Sys2Proof/Syntax.lean ====
section
/-! DEFINITION. The commands of the block: one constructor of `Instr` per row of spec/opcode_table.json, family by
family, with the operands that the row's rule names. Numbers that name an object (tile, lane, port, seat,
ring, ...) are plain naturals; `WellFormed` says which of them the part carries. -/

namespace Sys2Proof

/-- The path on which a register access reaches the part (R281, R301, R304, R439): in band through the fabric
function of a partition whose home tile is `tile`, entering on port `port`; by a REG_WRITE or REG_READ command;
over the SMBus/I3C bridge; over the management port. -/
inductive Via where
  | inband (tile port : Nat)
  | command
  | bridge
  | mgmtPort
  deriving DecidableEq, Repr

/-- Who made a request that entered a partition (R227, R228): the host, with the requester ID it presents, or the
function of a binding entry. -/
inductive Requester where
  | host (rid : Nat)
  | func (f : Nat)
  deriving DecidableEq, Repr

/-- The request types of R160, R161 and R185. -/
inductive ReqKind where
  | memRead
  | memWrite
  | atomicOp
  | lockedRead
  | deferrableWrite
  | ioRequest
  deriving DecidableEq, Repr

/-- A memory request TLP as it enters on a port: the header fields that a rule of the manual reads. `atBits` is AT;
`malformed` and `ecrcBad` are the base specification's judgements of the TLP (R78, R341); `be` lists, byte by byte,
whether the byte is enabled (R173). `mc` is the PCI Express multicast group of the address, if any (R93, R142); `ido` the ID-Based
Ordering attribute (R172); `extra` the dwords of prefixes or OHC beside a PASID (R101). -/
structure Req where
  kind : ReqKind
  addr : Addr
  len : Nat
  data : List Byte
  be : List Bool
  rid : Nat
  tag : Nat
  pasid : Option Nat
  tc : Nat
  relaxed : Bool
  poisoned : Bool
  atBits : Nat
  malformed : Bool
  ecrcBad : Bool
  mc : Option Nat
  ido : Bool := false
  extra : Nat := 0
  deriving DecidableEq, Repr

/-- A configuration request TLP of a host (R153): the requester ID and tag, Type 1 or 0, the bus, device and function it
names, the register as a byte offset, the byte enables and data of a write, none for a read. `sriov` is the offset of the
register in the SR-IOV capability of the function addressed, where it lies in one (R154). -/
structure CfgReq where
  rid : Nat
  tag : Nat
  type1 : Bool
  bus : Nat
  devfn : Nat
  reg : Nat
  be : Nat
  sriov : Option Nat
  wr : Option Word
  ecrcBad : Bool := false
  deriving DecidableEq, Repr

/-- The status of a completion (R46, R222, R286). -/
inductive CplStatus where
  | sc
  | ur
  | ca
  deriving DecidableEq, Repr

/-- A completion TLP as it arrives on a port: requester ID and tag, completer ID, the Relaxed Ordering attribute, the
address of its first byte, whether it is the last for its request. -/
structure Cpl where
  rid : Nat
  tag : Nat
  cid : Nat
  relaxed : Bool
  status : CplStatus
  poisoned : Bool
  addr : Addr
  data : List Byte
  last : Bool
  ido : Bool := false
  extra : Nat := 0
  ecrcBad : Bool := false
  deriving DecidableEq, Repr

/-- The types of a message TLP that R80, R161, R306 and R31 name. -/
inductive MsgKind where
  | pmeTurnOff
  | pmeToAck
  | pmPme
  | errMsg (sev : Nat)
  | ltr
  | pageRequest
  | otherBroadcast
  | toRoot
  | byId (target : Nat)
  | vendorDiscard
  deriving DecidableEq, Repr

/-- A link that runs the VFL link layer: a VFL port, or one tile's end of a crossing (R117, R120: `g` = 0 left,
1 right, 2 other row). -/
inductive Link where
  | port (p : Nat)
  | xing (tile g : Nat)
  deriving DecidableEq, Repr

/-- A flit as a receiver sees it (R95 to R97): the symbol errors of the two FEC codewords, and what FEC leaves as bytes 0 to 247 in
31 little-endian words: header, 29 payload chunks, CRC. On a crossing `wires` are the wires that carried the symbols FEC
corrected, each as often as it did (R118). -/
structure Flit where
  symErr0 : Nat
  symErr1 : Nat
  words : List (BitVec 64)
  wires : List Nat := []
  deriving DecidableEq, Repr

/-- A work request descriptor (R211). -/
structure Desc where
  opcode : Nat
  signal : Bool
  notify : Bool
  trig : Bool
  cntOnDone : Bool
  immV : Bool
  access : Nat
  qpn : Nat
  rSw : Nat
  wrId : BitVec 64
  localAddr : Addr
  length : Nat
  rKey : Word
  rOffset : Nat
  trigQpn : Nat
  doneQpn : Nat
  thresh : Nat
  imm : Word
  deriving DecidableEq, Repr

/-- The context bytes 0 to 23 that QP_CREATE carries (R206, R211). -/
structure CtxInit where
  ordered : Bool
  notifyEn : Bool
  ownerSeat : Nat
  cqRing : Nat
  remoteQpn : Nat
  remoteSw : Nat
  backoff : Nat
  retryLimit : Nat
  maxOut : Nat
  rqLog2 : Nat
  rqBase : Addr
  deriving DecidableEq, Repr

/-- The carried header of an engine packet with its fabric identities (R101, R216). -/
structure EngHdr where
  mtype : Nat
  srcSw : Nat
  reqSeat : Nat
  immV : Bool
  aop : Nat
  qpn : Nat
  keyOrImm : Word
  dstQpn : Nat
  code : Nat
  rOffset : Nat
  wrSlot : Nat
  pkt : Nat
  ssn : Nat
  length : Nat
  deriving DecidableEq, Repr

/-- A management command of a TYPE 3 ring (R297). -/
structure Cmd where
  opcode : Nat
  signal : Bool
  cmdId : BitVec 64
  offset : Word
  data : Word
  target : Nat
  kind : Nat
  clear : Bool
  secTop : Nat
  deriving DecidableEq, Repr

/-- How a read of the part's own ended, for a ring fetch or an engine DMA (R286, R295, R296). -/
inductive DmaEnd where
  | ok
  | ur
  | ca
  | poisoned
  | timeout
  | malformed
  deriving DecidableEq, Repr

/-- An entry a ring fetch returned (R285): a work request of a TYPE 0 ring (with the context bytes a QP_CREATE
carries) or a command of a TYPE 3 ring. -/
inductive RingEntry where
  | work (d : Desc) (c : CtxInit)
  | command (c : Cmd)
  deriving DecidableEq, Repr

/-- The supply rails of R389. -/
inductive Rail where
  | core (t : Nat)
  | sda (t : Nat)
  | sdh (t : Nat)
  | io
  | vauxA
  | vauxB
  deriving DecidableEq, Repr

/-- The storages of R343, in its row order. -/
inductive EccStore where
  | cellBuffer (pkt : Nat)
  | wcLine (line : Nat)
  | engineBuffer (wr : Nat)
  | descriptor (pkt : Nat)
  | outstanding (entry : Nat)
  | ctxWorking (qpn : Nat)
  | windowCache (index : Nat)
  | leadSet (offset : Nat)
  | understudySet (offset : Nat)
  | stageManager
  deriving DecidableEq, Repr

/-- The causes of a DPC trigger that R86 and R331 distinguish. -/
inductive DpcCause where
  | software
  | uncorrectable
  | errFatalMsg
  | errNonfatalMsg
  deriving DecidableEq, Repr

/-- What the firmware finds in a flash slot at step 3 of R380. -/
structure SlotCheck where
  keyOk : Bool
  svn : Nat
  codeLenOk : Bool
  sigOk : Bool
  meas : BitVec 256
  deriving DecidableEq, Repr

/-- A record of a configuration image (R378). -/
inductive ImgRec where
  | regWrites (ps : List (Nat × Word))
  | eqSets (es : List (Nat × Nat × BitVec 64))
  | unknown (type : Nat) (critical : Bool)
  deriving DecidableEq, Repr

/-- What the stage manager reads of a configuration image (R377 to R379): the header fields, and the outcomes of the
checks that hash or verify bytes (`checkOk` cause 3, `keySlots` the OWNER_HASH slots its KEY's hash equals, `sigOk`
cause 5). -/
structure Image where
  magicOk : Bool
  totalLen : Nat
  cfgMax : Nat
  checkOk : Bool
  keySlots : List Nat
  sigOk : Bool
  part : Nat
  fuseProgEn : Bool
  imageSeq : Word
  meas : BitVec 256
  records : List ImgRec
  deriving DecidableEq, Repr

/-- Everything a boot senses or reads from outside the part: the directory check, the two firmware slots and the
image (R376, R380); whether each tile reports that it is running (R402); the bad wires that the power-up wire test of the crossings
finds, by tile, group and wire of the receive direction (R119). -/
structure BootInput where
  dirOk : Bool
  slot0 : SlotCheck
  slot1 : Option SlotCheck
  image : Image
  running : List Nat
  wireTest : List (Nat × Nat × Nat) := []
  deriving DecidableEq, Repr

/-- What a packet that arrives over VFL carries (R101): a TLP request (`ap` where an aperture unit formed it, R191), a
configuration request as its source part forwards it, a completion, an INTx or another message of a function, an engine message, a management command. -/
inductive VflBody where
  | req (r : Req) (ap : Bool)
  | cfg (rid tag bus devfn reg be : Nat) (wr : Option Word)
  | cpl (c : Cpl)
  | intx (rid pin : Nat) (assert : Bool)
  | msg (rid : Nat) (m : MsgKind) (data : List Byte)
  | eng (h : EngHdr) (data : List Byte)
  | mgmt
  deriving DecidableEq, Repr

/-- A packet that arrives over VFL with its fabric header (R101); for KIND 3 `dst` is the fabric multicast group. `lens` are HDR_DW and
PAY_LEN where they are not those of the body. -/
structure VflPkt where
  dst : Nat
  src : Nat
  kind : Nat
  ordered : Bool
  ro : Bool
  svc : Nat
  mgmtVc : Bool
  body : VflBody
  lens : Option (Nat × Nat) := none
  deriving DecidableEq, Repr

/-- What a link partner announces in its training sequences at a speed change (R54): the highest
rate it supports and whether it offers flit mode. -/
structure Partner where
  rate : Nat
  flit : Bool
  deriving DecidableEq, Repr

/-- A lane's receive amplitude below the loss threshold (R62): the level, how long it lasted, and
whether an electrical-idle ordered set announced it. -/
structure LosEvent where
  lane : Nat
  mv : Nat
  ns : Nat
  eios : Bool
  deriving DecidableEq, Repr

/-- What the framing of a received message gives beside its kind: the Requester ID, the data and
whether the end-to-end CRC failed (R78, R80). -/
structure MsgHdr where
  rid : Nat
  data : List Byte
  ecrcBad : Bool
  deriving DecidableEq, Repr

/-- What a PCI Express recovery finds (R64, R65): the lanes that still work and their skews. -/
structure Recovery where
  good : List Nat
  skews : List Nat
  deriving DecidableEq, Repr

/-- The commands: one constructor per row of the opcode table. -/
inductive Instr where
  -- Fabric time, sets and the curtain (R23 to R48, R450)
  | ppsEdge
  | ppsEdgeMissing
  | trefClkAbsent
  | todLoad (v : Word)
  | deferredTodApply
  | syncFrame (tile : Nat)
  | ftSnap
  | ftSnapDone
  | setFieldWrite (via : Via) (off : Nat) (v : Word)
  | understudyRead (v : Word)
  | understudyReadDone
  | consistencyCheck (v : Word)
  | consistencyCheckDone
  | curtainArm (v : Word)
  | curtainPrepare (tile : Nat)
  | curtainPrepareAck (tile : Nat)
  | curtainCommit (tile : Nat)
  | curtainCommitAck (tile : Nat)
  | lastCall
  | curtainAbort (v : Word)
  | curtainQuery (tile : Nat)
  | curtainFall (tile : Nat)
  | epochFlip (tile : Nat)
  | oldDrainedReport (tile : Nat)
  | forcedRetirement
  | copyForwardDone
  | registerWrite (via : Via) (off : Nat) (v : Word)
  -- Lanes (R49 to R72)
  | partnerDetected (port : Nat)
  | linkUp2g5 (port width : Nat) (reversed : Bool) (polInv : List Nat) (skews : List Nat) (partnerVfl : Bool)
  | vflConfirmTimeout (port : Nat)
  | equalisationPhaseDone (lane rate : Nat) (limitsOk reached : Bool) (converged : BitVec 64)
  | speedChangeDone (port : Nat) (partner : Partner) (skews : List Nat)
  | eiExitDetect (lane mv : Nat)
  | l0sEntry (port : Nat)
  | l1Entry (port : Nat) (pciPm : Bool)
  | linkPowerExit (port : Nat)
  | losDetect (e : LosEvent)
  | laneLol (lane : Nat)
  | quadPllLol (quad : Nat)
  | quadPllRelock (quad : Nat)
  | eiHoldRelease (lane : Nat) (v : Word)
  | vflMarker (lane : Nat) (marker : BitVec 128)
  | markerLoss (lane : Nat)
  | patternModeEnter (lane : Nat) (v : Word)
  | patternModeExit (lane : Nat) (v : Word)
  | injectOne (lane : Nat) (v : Word)
  | cntClear (lane : Nat) (v : Word)
  | checkerLock (lane : Nat)
  | checkerUnlock (lane : Nat)
  | laneMbxRead (agent pb : Nat) (v : Word)
  | laneMbxWrite (agent pb : Nat) (v : Word)
  | laneMbxDone (agent pb : Nat)
  -- PCI Express ports and slots (R73 to R93, R306)
  | replayNumRollover (port : Nat)
  | pcieLinkDown (port : Nat)
  | dpcTrigger (part vdp : Nat) (cause : DpcCause)
  | dpcTriggerStatusClear (part vdp : Nat)
  | slotPowerOn (part vdp : Nat)
  | slotPowerOff (part vdp : Nat)
  | slotIndicatorWrite (part vdp attn pwr : Nat)
  | commandCompleted (port : Nat)
  | slotSidebandMessage (port : Nat)
  | presenceSample (port : Nat) (present : Bool)
  | attentionButton (port : Nat)
  -- Vangolo Fabric Link and crossings (R94 to R121, R345)
  | flitReceive (link : Link) (flit : Flit)
  | packetItemAccept (link : Link)
  | initSend (port : Nat)
  | initReceive (port proto vcCount : Nat) (rxSeen : Bool) (fid : Nat) (bufs : List Nat)
  | initTimeout (port : Nat)
  | initMismatchRetry (port : Nat)
  | ackDue (link : Link)
  | replayTimeout (link : Link)
  | linkRetrainDone (link : Link) (ok : Bool) (width : Nat)
  | vflLinkDown (port : Nat)
  | routeHopRestore (tile port : Nat)
  | injectBadCrc (port : Nat) (v : Word)
  | injectDropAck (port : Nat) (v : Word)
  | injectStaleCredit (port : Nat) (v : Word)
  | injectSkipSeq (port : Nat) (v : Word)
  | injectFecSym (port : Nat) (v : Word)
  | wireFailure (tile g wire : Nat)
  | wireRepairDone (tile g : Nat)
  | crossingWireInject (tile g : Nat) (v : Word)
  | crossingBulkLoss (x : Nat)
  | crossingStateNotice (tile x state : Nat)
  -- Switch core (R122 to R147)
  | cellSlot (tile : Nat)
  | admissionRetry (tile pkt : Nat)
  | ticketReturn (tile fromTile dest count : Nat)
  | sprayRecompute (tile : Nat)
  | egressArrival (tile pkt : Nat)
  | voidNotice (tile src dest seq : Nat)
  | reorderGapTimeout (tile src dest : Nat)
  | ticketQuery (agent tile : Nat) (v : Word)
  | ticketQueryDone (agent tile : Nat)
  -- Partitions and routing (R148 to R170)
  | hostMemoryRequest (port : Nat) (req : Req)
  | functionMemoryRequest (port : Nat) (req : Req)
  | hostConfigRequest (port : Nat) (req : CfgReq)
  | functionLevelReset (part f rid tag : Nat) (vfs : List Nat)
  | secondaryBusReset (part vdp : Nat)
  | partitionReset (part : Nat)
  | fabricFunctionPowerState (part : Nat) (d3hot : Bool)
  | intxControlChange (part : Nat) (intDisable msixEnable : Bool)
  | msixUnmask (part : Nat) (vector : Option Nat)
  | completionArrival (port : Nat) (cpl : Cpl)
  | outstandingEntryAlloc (port : Nat)
  | completionTimeout (tile entry : Nat)
  | vflPacketArrival (port : Nat) (pkt : VflPkt)
  | intxMessage (port : Nat) (hdr : MsgHdr) (pin : Nat) (assert : Bool)
  | messageReceived (port : Nat) (hdr : MsgHdr) (msg : MsgKind)
  -- Apertures, write combining and fences (R173 to R193, R204)
  | bar4Write (part : Nat) (who : Requester) (req : Req)
  | bar4Read (part : Nat) (who : Requester) (req : Req)
  | wcLineTimeout (tile line : Nat)
  | wcFlushAdmit (tile line : Nat)
  | fenceRead (part : Nat) (who : Requester) (seat : Nat) (req : Req)
  | flushReadComplete (tile fence stream : Nat) (status : CplStatus) (poisoned synthetic : Bool) (code : Nat)
  | fenceTimeout (tile fence : Nat)
  | apContReadState (agent tile : Nat) (v : Word)
  | apContClear (agent tile : Nat) (v : Word)
  | apContContain (agent tile : Nat) (v : Word)
  | apContDone (agent tile : Nat)
  -- Windows (R194 to R204)
  | windowTableInit (v : Word)
  | windowTableInitDone
  | windowFetchDone (tile index : Nat)
  | revokeDrained (tile index : Nat)
  | revokeFlushDone (tile index : Nat)
  | windowViolationIntervalEnd (tile index : Nat)
  -- Remote-memory engine (R205 to R226)
  | qpTableInit (v : Word)
  | qpTableInitDone
  | contextFetchDone (tile qpn : Nat)
  | nop (ring : Nat) (d : Desc)
  | write (ring : Nat) (d : Desc)
  | read (ring : Nat) (d : Desc)
  | send (ring : Nat) (d : Desc)
  | recvPost (ring : Nat) (d : Desc)
  | fetchAdd8 (ring : Nat) (d : Desc)
  | cmpSwap8 (ring : Nat) (d : Desc)
  | cmpSwap16 (ring : Nat) (d : Desc)
  | fence (ring : Nat) (d : Desc)
  | countAdd (ring : Nat) (d : Desc)
  | winOpen (ring : Nat) (d : Desc)
  | winRevoke (ring : Nat) (d : Desc)
  | qpCreate (ring : Nat) (d : Desc) (c : CtxInit)
  | qpDestroy (ring : Nat) (d : Desc)
  | qpDestroyDone (qpn : Nat)
  | workRequestStart (wr : Nat)
  | engineWritePacket (hdr : EngHdr) (data : List Byte)
  | readReq (hdr : EngHdr)
  | readResp (hdr : EngHdr) (data : List Byte)
  | sendPacket (hdr : EngHdr) (entryAddr : Addr) (entryLen : Nat) (entryWrId : BitVec 64) (data : List Byte)
  | atomicReq (hdr : EngHdr) (data : List Byte)
  | atomicResp (hdr : EngHdr) (data : List Byte)
  | engineAck (hdr : EngHdr)
  | notReady (hdr : EngHdr)
  | notReadyBackoff (wr pkt : Nat)
  | notify (hdr : EngHdr)
  | workRequestTimeout (wr : Nat)
  | dmaReadCompletion (dma : Nat) (cpl : Cpl)
  -- Seats (R227 to R242)
  | ringDoorbell (part : Nat) (who : Requester) (seat k : Nat) (req : Req)
  | poolDoorbell (part : Nat) (who : Requester) (seat : Nat) (req : Req)
  | bar2Atomic (part : Nat) (who : Requester) (seat : Nat) (req : Req)
  | mbxT2mWrite (part : Nat) (who : Requester) (seat off : Nat) (req : Req)
  | t2mPost (part : Nat) (who : Requester) (seat : Nat) (req : Req)
  | t2mAck (via : Via) (seat : Nat) (v : Word)
  | mbxM2tWrite (via : Via) (seat off : Nat) (v : Word)
  | m2tPost (via : Via) (seat : Nat) (v : Word)
  | m2tAck (part : Nat) (who : Requester) (seat : Nat) (req : Req)
  | seatReset (via : Via) (tile seat : Nat) (v : Word)
  | seatRemove (via : Via) (tile seat : Nat) (v : Word)
  | seatEscalate (via : Via) (tile seat : Nat) (v : Word)
  | drainTimeout (seat : Nat)
  | seatResetDone (seat : Nat)
  | poolRingHandover (ring : Nat)
  | seatStop (via : Via) (tile seat : Nat) (v : Word)
  -- Protection units (R243 to R258)
  | puDisable (tile seat : Nat) (v : Word)
  | puDisabled (tile seat : Nat)
  | puEnable (tile seat : Nat) (v : Word)
  | puHoldTimeout (tile held : Nat)
  | puEdit (agent tile : Nat) (v : Word)
  | puEditDone (agent tile : Nat)
  | puViolationIntervalEnd (tile seat : Nat)
  -- Scheduling and policing (R259 to R278)
  | schedulingRound (tile : Nat)
  | schedulePacketStart (port : Nat)
  | takeoverArm (pb : Nat) (v : Word)
  | takeoverCancel (pb : Nat) (v : Word)
  | takeover (pb : Nat)
  | backlogRead (agent tile : Nat) (v : Word)
  | backlogReadDone (agent tile : Nat)
  -- Rings, commands and management (R279 to R307, R451)
  | ringEnable (ring : Nat) (v : Word)
  | ringDisable (ring : Nat) (v : Word)
  | ringFetch (ring : Nat)
  | ringFetchComplete (ring : Nat) (how : DmaEnd) (entries : List RingEntry)
  | ringFetchResume (ring : Nat) (v : Word)
  | recordWrite (ring : Nat)
  | shadowWrite (ring : Nat)
  | irqModTimeout (ring : Nat)
  | regWrite (ring : Nat) (c : Cmd)
  | regRead (ring : Nat) (c : Cmd)
  | stop (ring : Nat) (c : Cmd)
  | barrier (ring : Nat) (c : Cmd)
  | waitFt (ring : Nat) (c : Cmd)
  | waitFtReached (ring : Nat)
  | tlStopApply (agent tile : Nat) (v : Word)
  | tlStopRelease (agent tile : Nat) (v : Word)
  | stopPropagate (tile stopId : Nat)
  | bridgeWrite (off : Nat) (v : Word) (pecOk : Bool)
  | bridgeRead (off : Nat) (pecOk : Bool)
  | bridgeStatus
  | hkBridgeTimeout (mgmt : Bool)
  | i3cPrivateWrite (bytes : List Byte)
  | i3cPrivateRead (ready : Bool)
  | entdaa (addr : Nat)
  | mgmtPortAccess (off len : Nat) (wr : Option Word)
  -- Counters, telemetry and box-office meters (R308 to R328)
  | counterRead (agent : Nat) (v : Word)
  | counterReadDone (agent : Nat)
  | counterWrap (block index : Nat)
  | ctProgWrite (tile k : Nat) (v : Word)
  | snapshotArm (v : Word)
  | snapshot (block : Nat)
  | snapshotDone
  | histogramClear (tile h : Nat) (v : Word)
  | captureEnable (tile c : Nat) (v : Word)
  | captureRecordWrite (tile c : Nat)
  | minuteMarkLatch (tile : Nat)
  | boContribution (tile : Nat)
  | boCollectDeadline
  -- Containment (R329 to R352, R452)
  | eccCorrectable (tile : Nat)
  | eccUncorrectable (tile : Nat) (store : EccStore)
  | eccScrub (tile : Nat)
  | injCell (tile : Nat) (v : Word)
  | injTable (tile : Nat) (v : Word)
  | tileLoss (tile : Nat)
  | tileRejoin (tile : Nat)
  | serviceLinkLoss (tile : Nat)
  | serviceLinkReturn (tile : Nat)
  -- Slot power (R353 to R371)
  | spEnable (ch : Nat) (fromSlot : Bool)
  | spDisable (ch : Nat) (fromSlot : Bool)
  | mgrOffSet (ch : Nat) (v : Word)
  | mgrOffClear (ch : Nat) (v : Word)
  | slotPowerTick (ch vsense vout vin : Nat) (inLimit : Bool)
  | fastTripLatch (ch : Nat)
  | fastTrip (ch : Nat)
  | thermalTrip (ch : Nat)
  | faultTimerTrip (ch : Nat)
  | stoppingGateOff (ch : Nat)
  | vinStart (ch : Nat)
  | vinLowTimeout (ch : Nat)
  | powerGood (ch : Nat)
  | perstDeassert (ch : Nat)
  | retryStart (ch : Nat)
  | attemptsReset (ch : Nat)
  | spSeqArm (e : Nat) (v : Word)
  | spSeqFire (e : Nat)
  -- Boot, fuses and trust (R372 to R388)
  | boot (b : BootInput)
  | fuseSelect (v : Word)
  | fuseSelectDone
  | fuseBlow (via : Via) (v : Word)
  | fuseBlowDone (verified : Bool)
  | attReadWord (v : Word)
  | attFormReport (v : Word)
  | attLoadModulus (v : Word)
  | attDone
  | devkeyReady
  | flashRead (v : Word)
  | flashProgram (v : Word)
  | flashErase (v : Word)
  | flashDone
  | jtagInstruction (isPrivate : Bool) (code : Nat)
  -- Supplies, clocks and reset (R389 to R405, R416, R436, R453)
  | railGood (rail : Rail)
  | railLost (rail : Rail)
  | vauxInputLost (b : Bool)
  | vauxLoss
  | refclkBad (b : Bool) (within300ppm : Bool)
  | refclkGood (b : Bool) (spread : Bool)
  | refclkRevert (within300ppm : Bool)
  | refclkForce (v : Word) (within300ppm : Bool)
  | warmReset (via : Via) (v : Word)
  | coldReset (via : Via) (v : Word)
  | ilulysRestart (cause : Nat)
  | tileReset (via : Via) (v : Word)
  | keyErr (via : Via) (v : Word)
  | sysReset
  | watchdogExpiry
  | strapSample (vddIoGood addr0 addr1 : Bool)
  | tempSample (tile : Nat) (sensors : List Int)
  | tileOvertemp (tile : Nat)
  | ilulysOvertemp
  | trefClkPresent
  | l0pEntry (port width : Nat)
  | pcieRecoveryDone (port : Nat) (link : Recovery)
  | dllpReceive (port kind : Nat) (seq hdr dat : Nat)
  | ptmRequest (port : Nat)
  | egressPacketSent (port pkt : Nat)
  | boIndexSwWrite (v : Word)
  | corePllRelock (tile : Nat)
  deriving DecidableEq, Repr

end Sys2Proof
end

