-- ==== Sys2Proof/Machine/State.lean ====
section
/-! DEFINITION. The state of the part as plain data: the register file (live words and the two set copies), and the
state of every engine that the manual names and no register shows. INVENTORY.md lists each piece with its rule. -/

namespace Sys2Proof.Machine

/-- A time-of-day load latched by TM_CTRL.TOD_LOAD (R28). -/
structure TodPending where
  value : Nat
  atOnce : Bool
  deferred : Bool
  deriving DecidableEq, Repr

/-- Fabric time: the master counter, its discipline and the tiles' slave counters (R23 to R31). `now` is the time
since reset in ns; `slaveOff t` is slave minus master in tenths of a nanosecond. -/
structure TimeSt where
  now : Nat := 0
  ft : Nat := 0
  lastEdge : Option Nat := none
  misses : Nat := 0
  inRow : Nat := 0
  slew : Int := 0
  tod : Option TodPending := none
  snap : Option Nat := none
  slaveOff : NMap Int := []
  slewing : NMap Bool := []
  skipped : List (Nat × Nat) := []
  deriving DecidableEq, Repr

/-- The curtain in progress (R40 to R44, R450). -/
structure CurtainSt where
  tc : Nat := 0
  prepSent : List Nat := []
  prepAckSent : List Nat := []
  prepAcks : List Nat := []
  commitSent : List Nat := []
  commitAckSent : List Nat := []
  commitAcks : List Nat := []
  lastCall : Bool := false
  tileTc : NMap Nat := []
  held : List Nat := []
  flipped : List Nat := []
  drained : List Nat := []
  retired : Bool := false
  usRead : Bool := false
  deriving DecidableEq, Repr

/-- How a packet ends when an error ends it (R333, R336). -/
inductive PClass where
  | posted
  | nonPosted
  | cpl
  | engine
  deriving DecidableEq, Repr

/-- Whose request a packet carries: a host, a function bound to a partition of this part, a function on a port of this part that
no such binding names, a remote part (by the VFL port it came on and its fabric ID), or the part itself. -/
inductive Origin where
  | host (p : Nat)
  | func (f : Nat)
  | port (port : Nat)
  | vfl (port fid : Nat)
  | self (p : Nat)
  deriving DecidableEq, Repr

/-- Why a non-posted request leaves the part, and so what its completion or its end does (R344). -/
inductive Purpose where
  | forward
  | ringFetch (r : Nat)
  | dma (id : Nat)
  | apRead (entry tc : Nat)
  | flush (tile fence stream : Nat)
  | winFlush (index : Nat)
  | fetch (isWin : Bool) (key : Nat)
  | issue (id : Nat)
  | perf (key : Nat)
  | apWrite (entry : Nat) (stores : List Nat)
  | write
  | record
  deriving DecidableEq, Repr

/-- The content of a packet. A `cfg` is a Type 0 configuration request, an `flr` one that initiates a Function Level Reset. -/
inductive Body where
  | req (r : Req)
  | cfg (bus devfn reg be : Nat) (wr : Option Word)
  | flr (bus devfn : Nat)
  | cpl (c : Cpl)
  | msg (m : MsgKind) (data : List Byte)
  | intx (pin : Nat) (assert : Bool)
  | eng (h : EngHdr) (data : List Byte)
  | mgmt
  deriving DecidableEq, Repr

/-- What the part does to a forwarded configuration request when it completes (R154): the bits it serves itself, and the
value its copy of Memory Space Enable takes. -/
structure CfgNote where
  mask : Word := 0
  value : Word := 0
  mse : Option Bool := none
  deriving DecidableEq, Repr

/-- Where a packet stands on its way through the part. -/
inductive Loc where
  | refused
  | red
  | voq
  | arriving
  | egress
  deriving DecidableEq, Repr

/-- A packet and its descriptor (R123). `dest` is the destination index of R130 (0-63 port block, 64+t engine,
72+t management channel); `ports` are the ports whose pointer of the packet is still queued (R142). `path` is the column of
the vertical hop, 8 for the shortest surviving path, 15 before one is chosen (R134). `seqs` are its sequence numbers by
destination, `held` the destinations whose stream still holds it (R138), `rel` its place in the order of release of each port block, `ptrs`
its cells in its tile's cell buffer, `crossed` the slot counters and cells of its
crossings, whose class is settled when its cells are kept or discarded (R144). `colour` is 0 green, 1 yellow, 2 red or
not yet coloured, in the red queue of `meter` (R275). `onWire` are the ports it is leaving on, with the latency measured there; `npWait`
marks a request that waits for an outstanding entry or tag (R158). `func` is the binding entry of the function a request is
sent to, or that made a request a remote part forwards; `fmc` the group of a fabric multicast packet (R169); `sfid` the
SRC_FID of a packet that came over VFL, `lens` HDR_DW and PAY_LEN where they are not those of its body. -/
structure Packet where
  id : Nat
  cls : PClass
  body : Body
  origin : Origin
  purpose : Purpose := .forward
  rRid : Nat := 0
  rTag : Nat := 0
  part : Option Nat := none
  epoch : Bool := false
  mgmt : Bool := false
  ordered : Bool := true
  seat : Option Nat := none
  colour : Nat := 0
  meter : Option Nat := none
  onWire : List (Nat × Nat) := []
  npWait : Bool := false
  svc : Nat := 0
  stamp : Nat := 0
  inPort : Option Nat := none
  tile : Nat := 0
  srcTile : Nat := 0
  src : Nat := 0
  chan : Nat := 0
  dest : Nat := 0
  ports : List Nat := []
  cells : Nat := 1
  ptrs : List Nat := []
  chLen : Nat := 0
  path : Nat := 15
  seqs : List (Nat × Nat) := []
  held : List Nat := []
  rel : List (Nat × Nat) := []
  crossed : List (Nat × Nat) := []
  poisoned : Bool := false
  target : Nat := 0
  injected : Bool := false
  func : Option Nat := none
  fmc : Option Nat := none
  sfid : Option Nat := none
  lens : Option (Nat × Nat) := none
  note : Option CfgNote := none
  loc : Loc := .voq
  deriving DecidableEq, Repr

/-- A sequenced packet in flight, as its source tile records it (R140). -/
structure Flight where
  srcTile : Nat
  stream : Nat
  seqNo : Nat
  dest : Nat
  cells : Nat
  mgmt : Bool
  deriving DecidableEq, Repr

/-- A matched input and output pair (R131, R133): `left` cells of packet `pkt` are still to cross. -/
structure CoreLock where
  tile : Nat
  inp : Nat
  out : Nat
  pkt : Nat
  left : Nat
  deriving DecidableEq, Repr

/-- A match that a matcher has made for the next cell slot (R131, R132). -/
structure CoreMatch where
  inp : Nat
  out : Nat
  dest : Nat
  mgmt : Bool
  deriving DecidableEq, Repr

/-- A matcher's schedule for a slot: its matches, and the class of every output it leaves unmatched (R144). -/
structure CoreSched where
  pairs : List CoreMatch := []
  idle : List (Nat × Nat) := []
  deriving DecidableEq, Repr

/-- The switch cores (R124 to R145). Tickets are held as tickets spent (256, or 8 for management, less what is
available); spray weights as 16 less the weight. `sched` holds what the matchers have set, by tile and slot modulo 4, `relNext` numbers
the releases to egress queues. -/
structure CoreSt where
  shareHeld : NMap Nat := []
  mgmtUsed : NMap Nat := []
  transitUsed : NMap Nat := []
  egressUsed : NMap Nat := []
  spent : NMap Nat := []
  freedCount : NMap Nat := []
  acceptedCount : NMap Nat := []
  ptr : NMap Nat := []
  slot : NMap Nat := []
  locks : List CoreLock := []
  sched : NMap CoreSched := []
  unweight : NMap Nat := []
  sprayPtr : NMap Nat := []
  seqNext : NMap Nat := []
  expected : NMap Nat := []
  arrived : NMap (List Nat) := []
  flights : List Flight := []
  relNext : Nat := 0
  deriving DecidableEq, Repr

/-- An entry of a tile's outstanding-request table (R158): `fid` is the fabric ID a request left for over VFL,
`attr` its Relaxed Ordering and ID-Based Ordering attributes. -/
structure OutEntry where
  id : Nat
  tile : Nat
  port : Nat
  rid : Nat
  tag : Nat
  newTag : Nat
  carRid : Nat := 0
  origin : Origin
  purpose : Purpose
  part : Option Nat
  epoch : Bool
  mgmt : Bool
  seat : Option Nat
  len : Nat
  svc : Nat := 0
  srcTile : Nat
  inPort : Option Nat := none
  fid : Nat := 0
  injected : Bool := false
  func : Option Nat := none
  note : Option CfgNote := none
  attr : Bool × Bool := (false, false)
  deriving DecidableEq, Repr

/-- The kinds of error an AER log takes (R78, R88, R339 to R341). -/
inductive AerKind where
  | unsupportedRequest
  | unexpectedCompletion
  | poisonedTlp
  | malformedTlp
  | ecrc
  | completionTimeout
  | acsViolation
  | mcBlocked
  | surpriseDown
  | dataLinkProtocol
  | replayRollover
  deriving DecidableEq, Repr

/-- A virtual bridge of a partition (R149, R159, R161, R162) with the DPC and slot state its port shows it
(R86 to R90). `aerHdr` is the free number of the header its AER log holds, `ecrcGen` and `ecrcCheck` the enables of R78, `badMsgs` the
unsupported messages counted (R80). -/
structure VPort where
  prim : Nat := 0
  sec : Nat := 0
  sub : Nat := 0
  mse : Bool := false
  bme : Bool := false
  memBase : Nat := 0
  memLimit : Nat := 0
  prefBase : Nat := 0
  prefLimit : Nat := 0
  ari : Bool := false
  acsCtrl : Nat := 0
  egressVec : Nat := 0
  mcReceive : Nat := 0
  mcBlock : Nat := 0
  mcUntrans : Nat := 0
  dllsc : Bool := false
  presenceChanged : Bool := false
  dpcStatus : Bool := false
  dpcReason : Nat := 0
  dpcExt : Nat := 0
  dpcEnable : Nat := 0
  mpsCode : Nat := 0
  aspm : Nat := 0
  linkDisable : Bool := false
  busReset : Bool := false
  aer : List AerKind := []
  aerHdr : Option Nat := none
  ecrcGen : Bool := false
  ecrcCheck : Bool := false
  badMsgs : Nat := 0
  deriving DecidableEq, Repr

/-- The configuration of a partition's fabric function (R279, R280, R292, R293); its AER as an upstream port's (R76). -/
structure FabFn where
  bar0 : Nat := 0
  bar2 : Nat := 0
  bar4 : Nat := 0
  mse : Bool := false
  bme : Bool := false
  intDisable : Bool := false
  msixEnable : Bool := false
  funcMask : Bool := false
  mpsCode : Nat := 0
  mrrsCode : Nat := 2
  tag10 : Bool := false
  tag14 : Bool := false
  d3hot : Bool := false
  intxSent : Bool := false
  aer : List AerKind := []
  aerHdr : Option Nat := none
  ecrcGen : Bool := false
  ecrcCheck : Bool := false
  deriving DecidableEq, Repr

/-- The host's view of the partitions: virtual bridges (key 64p + d, d = 32 the upstream bridge), fabric functions,
BAR copies of address map entries, MSE copies of binding entries (R149, R154, R159); the sources that assert each host pin, as
4 × binding entry + pin by 4 × partition + host pin (R306); the virtual ports whose PME_TO_Ack a partition awaits. -/
structure HostView where
  vp : NMap VPort := []
  ff : NMap FabFn := []
  amBar : NMap (BitVec 64) := []
  bindMse : NMap Bool := []
  pins : NMap (List Nat) := []
  pmeWait : NMap (List Nat) := []
  deriving DecidableEq, Repr

/-- Engine state of a ring beside its registers (R285 to R293): `fetchN` entries asked for by the fetch outstanding, `got`
those it returned and not yet accepted, `recs` the completion records by the seat whose work formed them and `evs` the event records not yet written; `oldOwner` is the owner
whose work holds up the handover of a pool ring, `heldDb` the new owner's doorbell (R237). -/
structure RingSt where
  fetching : Bool := false
  fetchN : Nat := 0
  got : List RingEntry := []
  paused : Bool := false
  heldDb : Option Nat := none
  oldOwner : Option Nat := none
  sinceSig : Nat := 0
  firstUnsig : Option Nat := none
  shadowDue : Bool := false
  intx : Bool := false
  recs : List (Nat × List Byte) := []
  evs : List (List Byte) := []
  deriving DecidableEq, Repr

/-- A management command taken and not yet recorded (R298): whether it has started, the stop it waits for, its CODE and data. -/
structure CmdRun where
  id : Nat
  ring : Nat
  cmd : Cmd
  started : Bool := false
  stop : Option Nat := none
  result : Option (Nat × Word) := none
  deriving DecidableEq, Repr

/-- A DMA read of the engine in progress (R294, R295): for a work request's local data, or for a packet accepted at a
window. `reqs` are its requests, as the next byte owed and the end; `pieces` the data received. -/
structure Dma where
  id : Nat
  tile : Nat
  part : Nat
  wr : Option Nat
  issue : Option Nat
  start : Nat
  reqs : List (Nat × Nat)
  pieces : List (Nat × List Byte) := []
  deriving DecidableEq, Repr

/-- The last stop a tile applied to a target (R300). -/
structure StopStamp where
  ft : Nat
  tile : Nat
  on : Bool
  deriving DecidableEq, Repr

/-- A stop on its way to other tiles (R299, R300). -/
structure StopMsg where
  id : Nat
  kind : Nat
  num : Nat
  on : Bool
  ft : Nat
  tile : Nat
  was : Bool
  waiting : List Nat
  deriving DecidableEq, Repr

/-- The out-of-band bridge (R301 to R304). -/
structure BridgeSt where
  status : Nat := 0
  readOff : Option Nat := none
  replyReady : Bool := false
  reply : List Byte := []
  i3cAddr : Option Nat := none
  mgmtReply : Option Word := none
  deriving DecidableEq, Repr

/-- The host interface: rings, MSI-X tables, commands, DMA reads, stops, bridge. `stopSel` is the stop that the last write of
each TL_STOP instance issued, by the instance's offset, as its number plus 1; 0 where that write issued none; `dieEvents` the
event records that wait in the Ilulys die for a service link. -/
structure HostSt where
  ring : NMap RingSt := []
  msix : NMap Word := []
  pba : NMap Word := []
  cmds : List CmdRun := []
  dmas : List Dma := []
  stamps : NMap StopStamp := []
  stops : List StopMsg := []
  stopSel : NMap Nat := []
  stopCtr : Nat := 0
  bridge : BridgeSt := {}
  sideband : NMap (List Nat) := []
  dieEvents : List (List Byte) := []
  deriving DecidableEq, Repr

/-- A counter of 48 bits with its overflow bit (R309, R312). -/
structure Ctr where
  n : Nat := 0
  ovf : Bool := false
  deriving DecidableEq, Repr

/-- Occurrences of an event counter's event, at a time of State.tm.now, with the overflow bit before them: a capture within 20 ns may not
include them (R315). -/
structure Fresh where
  key : Nat
  time : Nat
  n : Nat
  ovf : Bool
  deriving DecidableEq, Repr

/-- A capture unit beside its registers (R320 to R322). -/
structure CapSt where
  countdown : Nat := 0
  queue : List (List Byte) := []
  matched : Nat := 0
  lost : Nat := 0
  deriving DecidableEq, Repr

/-- Box-office accumulators of one seat on one tile, or a sum of them (R323). -/
structure Bo where
  green : Nat := 0
  yellow : Nat := 0
  egress : Nat := 0
  engine : Nat := 0
  aperture : Nat := 0
  discard : Nat := 0
  work : Nat := 0
  deriving DecidableEq, Repr

/-- Counters, capture and box-office meters. Counter keys are 4096 × SPACE + NUM (R313): `fresh` are the occurrences of the last 20 ns, `held` is the snapshot bank under
SPACE 2 and 3, `counted` the captures on their way to the mailboxes by serving agent, with NA. Meters: `bo` counts, `latched`
what a tile's latch took, `sum` what the collector has summed, `carry` the bytes carried to the next minute (R325), by seat;
`mark` the mark being collected, `minutes` how many it covers; `steps` the further marks that a step skipped, as the next
mark and their number; `recs` the records not yet written. -/
structure TelSt where
  ctr : NMap Ctr := []
  wraps : List (Nat × Nat) := []
  fresh : List Fresh := []
  held : NMap Ctr := []
  counted : NMap (Option (Ctr × Bool)) := []
  snapDone : List Nat := []
  cap : NMap CapSt := []
  bo : NMap Bo := []
  latched : NMap Bo := []
  latchedTiles : List Nat := []
  gotTiles : List Nat := []
  sum : NMap Bo := []
  carry : NMap Bo := []
  markAt : Nat := 0
  mark : Nat := 0
  minutes : Nat := 0
  deferred : Bool := false
  collecting : Bool := false
  stepped : Bool := false
  unqual : Bool := false
  steps : Nat × Nat := (0, 0)
  recs : List (List Byte) := []
  rebound : List Nat := []
  finals : List Nat := []
  deriving DecidableEq, Repr

/-- Containment state that no register shows (R334, R346, R339, R352). Keys: port number, partition number. `lost` are the
tiles that are lost or held in reset: all of them until a boot releases them (R390); `cut` are those of them that are cut off from
the mesh and still run (R346). -/
structure ContSt where
  lost : List Nat := [0, 1, 2, 3, 4, 5, 6, 7]
  cut : List Nat := []
  dpc : NMap Bool := []
  upstream : NMap Bool := []
  injCell : List Nat := []
  injTable : List Nat := []
  deriving DecidableEq, Repr

/-- A write-combining line (R175). A line in `flushing` is to be flushed, the `order`th flush of the part; one that is `formed` holds
for the admission of its writes `pkts` (R177). `stores` are the numbers of the stores with bytes in it (R180). -/
structure WcLine where
  id : Nat
  tile : Nat
  seat : Nat
  entry : Nat
  addr : Nat
  epoch : Bool
  data : List Byte
  mask : BitVec 64
  flushing : Bool := false
  bad : Bool := false
  stores : List Nat := []
  order : Nat := 0
  formed : Bool := false
  pkts : List Nat := []
  deriving DecidableEq, Repr

/-- A piece of a store that waits for a free line (R175). -/
structure WcPiece where
  tile : Nat
  seat : Nat
  entry : Nat
  epoch : Bool
  addr : Nat
  data : List Byte
  be : List Bool
  store : Nat
  deriving DecidableEq, Repr

/-- A seat's discards since its last fence (R180): how many, the first code, the entries to contain (R182), the numbers
of the stores of lines already counted. -/
structure Tally where
  n : Nat := 0
  code : Nat := 0
  entries : List Nat := []
  stores : List Nat := []
  deriving DecidableEq, Repr

/-- A stream that has carried a seat's writes since its last completed fence (R179): destination, last target and the number it had,
every entry that sent into it with the number of its last write (R182). -/
structure ApStream where
  dest : Nat
  entry : Nat
  addr : Nat
  last : Nat := 0
  entries : List (Nat × Nat) := []
  deriving DecidableEq, Repr

/-- A fence accepted and not yet completed (R179 to R181). `reads` are the streams whose flush read is owed. -/
structure Fence where
  id : Nat
  tile : Nat
  part : Nat
  seat : Nat
  origin : Origin
  rid : Nat
  tag : Nat
  tc : Nat
  len : Nat
  epoch : Bool
  reads : List ApStream
  tally : Tally
  unconf : Bool := false
  ended : Bool := false
  deriving DecidableEq, Repr

/-- Write combining and fences (R175 to R182). `stuck` are the pieces that wait for a line, `overflow` the number of a seat's last write
into a stream past the 32 that are tracked. Keys: 4096 × tile + seat; 16384 × tile + entry. -/
structure WcSt where
  lines : List WcLine := []
  streams : NMap (List ApStream) := []
  overflow : NMap Nat := []
  stuck : List WcPiece := []
  tally : NMap Tally := []
  fences : List Fence := []
  contained : NMap Bool := []
  deriving DecidableEq, Repr

/-- A window table entry (R194) with its in-flight count (R199). STATE: 0 free, 1 open, 2 revoking, 3 retired. -/
structure WinEnt where
  gen : Nat := 1
  state : Nat := 0
  owner : Nat := 0
  access : Nat := 0
  base : Nat := 0
  len : Nat := 0
  pasid : Option Nat := none
  inflight : Nat := 0
  deriving DecidableEq, Repr

/-- A revocation between its revoke point and its report (R201). `wr` is the revoking work request, if any. -/
structure Revoke where
  index : Nat
  wr : Option Nat
  seat : Option Nat
  flushing : Bool := false
  deriving DecidableEq, Repr

/-- A window's open 10 µs violation interval (R203) and the rejections counted in it. -/
structure WinViol where
  n : Nat
  key : Nat
  fid : Nat
  code : Nat
  offset : Nat
  seat : Nat
  deriving DecidableEq, Repr

/-- Windows (R194 to R203). A tile's free list is its indices never used, ascending from `fresh`, then `freed` in order
of their return. `lru` lists a tile's cached indices, least recently used first. -/
structure WinSt where
  tbl : NMap WinEnt := []
  fresh : NMap Nat := []
  freed : NMap (List Nat) := []
  lru : NMap (List Nat) := []
  revokes : List Revoke := []
  viol : NMap (Option WinViol) := []
  deriving DecidableEq, Repr

/-- A receive message being placed (R217). -/
structure RecvMsg where
  ssn : Nat
  addr : Nat
  entryLen : Nat
  wrId : BitVec 64
  len : Nat
  got : Nat
  imm : Option Word
  srcQpn : Nat
  srcSw : Nat
  code : Nat := 0
  done : Bool := false
  deriving DecidableEq, Repr

/-- A queue-pair context (R206): bytes 0 to 39 and the engine state the rules give it. STATE: 0 free, 1 ready,
2 destroying. -/
structure Qp where
  state : Nat := 0
  ordered : Bool := false
  notifyEn : Bool := false
  owner : Nat := 0
  cq : Nat := 0
  rQpn : Nat := 0
  rSw : Nat := 0
  backoff : Nat := 0
  retryLimit : Nat := 0
  maxOut : Nat := 0
  rqLog2 : Nat := 0
  rqBase : Nat := 0
  pi : Nat := 0
  ci : Nat := 0
  trig : Nat := 0
  ssn : Nat := 0
  recv : List RecvMsg := []
  destroyer : Option Nat := none
  deriving DecidableEq, Repr

/-- Where a work request stands. -/
inductive WrState where
  | held
  | started
  | done
  deriving DecidableEq, Repr

/-- A work request (R211 to R224). `q` is the queue pair in whose order it stands, `sent` counts packets sent, `owed` answers still owed, `refused` the packets in
back-off with the resends made of them, `slot` the outstanding-work index of one that has started (R216). -/
structure Wr where
  id : Nat
  tile : Nat
  seat : Nat
  ring : Nat
  d : Desc
  ctx : Option CtxInit := none
  q : Option Nat := none
  st : WrState := .held
  code : Nat := 0
  triggered : Bool := false
  retries : Nat := 0
  bytes : Nat := 0
  sent : Nat := 0
  owed : Nat := 0
  unread : Nat := 0
  buf : List Byte := []
  ofs : Nat := 0
  ssn : Nat := 0
  key : Nat := 0
  notified : Bool := false
  refused : List (Nat × Nat) := []
  resent : List (Nat × Nat) := []
  waitedFail : Bool := false
  slot : Nat := 0
  deriving DecidableEq, Repr

/-- What the miss buffer parks (R209). -/
inductive ParkItem where
  | desc (ring : Nat) (d : Desc) (c : Option CtxInit)
  | pkt (h : EngHdr) (data : List Byte) (entryAddr : Addr) (entryLen : Nat) (entryWrId : BitVec 64)
  deriving DecidableEq, Repr

/-- A miss-buffer entry: the context (or window) it waits for. -/
structure Parked where
  tile : Nat
  isWin : Bool
  key : Nat
  item : ParkItem
  deriving DecidableEq, Repr

/-- A packet accepted at a window and issued on its owner's port, until it has been issued or answered (R199, R216). -/
structure Issue where
  id : Nat
  tile : Nat
  index : Option Nat
  hdr : EngHdr
  data : List Byte := []
  owed : Nat := 0
  deriving DecidableEq, Repr

/-- The last WRITE of a queue pair into a stream of this part, not yet shown performed (R183): the work request, the window's home tile,
the port and its partition, the flush read that was sent behind it. -/
structure QpWrite where
  qpn : Nat
  wr : Nat
  tile : Nat
  port : Nat
  part : Nat
  seat : Nat
  addr : Nat
  asked : Option Nat := none
  deriving DecidableEq, Repr

/-- The remote-memory engine (R205 to R224). `writes` are those not yet shown performed (R183). `lru` lists a tile's cached QPNs, least recently used first. -/
structure EngSt where
  qps : NMap Qp := []
  lru : NMap (List Nat) := []
  wrs : List Wr := []
  parked : List Parked := []
  issues : List Issue := []
  writes : List QpWrite := []
  deriving DecidableEq, Repr

/-- What a disabled protection unit holds (R253): a BAR4 access, a fence read, or a work request at check 6. -/
inductive HeldItem where
  | bar4 (part : Nat) (who : Requester) (req : Req) (epoch : Bool)
  | fence (part : Nat) (who : Requester) (req : Req) (epoch : Bool)
  | work (ring : Nat) (d : Desc) (c : Option CtxInit)
  deriving DecidableEq, Repr

/-- An access held (R253). -/
structure HeldAcc where
  id : Nat
  tile : Nat
  seat : Nat
  item : HeldItem
  deriving DecidableEq, Repr

/-- The faults of a seat counted in its open 10 µs interval (R252), with the first of them. -/
structure PuViol where
  n : Nat
  space : Nat
  kind : Nat
  cause : Nat
  rule : Nat
  addr : Nat
  len : Nat
  deriving DecidableEq, Repr

/-- Protection units (R252 to R255). Keys 4096 × tile + seat. -/
structure PuSt where
  held : List HeldAcc := []
  viol : NMap (Option PuViol) := []
  deriving DecidableEq, Repr

/-- A seat's sequence and mailbox (R233, R239 to R241). `st` is ST_STATUS.STATE: 0 unbound, 1 active, 2 resetting by
drain, 3 resetting by squash, 4 closed. `closing` marks a removal, `rebound` a sequence that a curtain began or took
over. `t2m` and `m2t` are the page's buffers MBX_T2M and MBX_M2T by word. -/
structure SeatSt where
  st : Nat := 0
  closing : Bool := false
  rebound : Bool := false
  t2m : NMap Word := []
  m2t : NMap Word := []
  dropped : Bool := false
  deriving DecidableEq, Repr

/-- The data-link layer of a PCI Express port (R81, R82). `rolls` counts Recoveries by REPLAY_NUM rollover since the last
acknowledged TLP, `unacked` the TLPs in the replay buffer by sequence number, `limit` and `used` the partner's credits by
class (0 P, 1 NP, 2 CPL) as headers and data; a class with no limit received is not bounded (log entry 30). `train` is 0 in
Detect, 1 in Polling, 2 linked at 2.5 GT/s, 3 at its highest rate (R54 to R56); `trainWidth` the width fixed at 2.5 GT/s;
`rxSeq` is the sequence number of the next TLP to receive, `owed` the credits of received TLPs not yet returned, `given` those
returned since they were advertised; `l0pWidth` the width L0p left, 0 outside L0p (R84); `upAt` when a VFL port reached its rate, from which its markers run, and `marks` how many it has sent (R66). -/
structure PortSt where
  rolls : Nat := 0
  seqNo : Nat := 0
  unacked : List (Nat × Packet) := []
  limit : NMap (Option (Nat × Nat)) := []
  used : NMap (Nat × Nat) := []
  rxSeq : Nat := 0
  owed : NMap (Nat × Nat) := []
  given : NMap (Nat × Nat) := []
  recovering : Bool := false
  train : Nat := 0
  trainWidth : Nat := 0
  l0pWidth : Nat := 0
  upAt : Nat := 0
  marks : Nat := 0
  deriving DecidableEq, Repr

/-- A hot-plug slot (R90, R91). `off` is Power Controller Control (1 powers the slot off), `held` a command that waits for
the service link (0 off, 1 on, 2 indicators), `waiting` a Command Completed owed, `sampled` the presence last sampled by the
expanders. -/
structure SlotSt where
  off : Bool := true
  attn : Nat := 0
  pwr : Nat := 0
  cmdDone : Bool := false
  fault : Bool := false
  present : Bool := false
  presChanged : Bool := false
  attnPressed : Bool := false
  held : Option Nat := none
  waiting : Bool := false
  sampled : Bool := false
  deriving DecidableEq, Repr

/-- A lane's test hardware and equalisation (R57 to R59, R66 to R70, R72): `saved` by rate code, `inForce` in the saved-set
layout, `capErrs` the error count captured with the last read of the compared bits, `marker` the SEQ of the last marker and
`markAt` when it came, `bad` a lane whose signal, lock, markers or skew was lost since its port trained. `eqSaved`, `eqUse` and
`eqTag` are what the equalisation in progress read at the start of its first phase; `eqLast` the last rate equalised in this
training, 0 none; `eqSkip` a bypass to the highest rate. `pllLost` on a quad's first lane: its PLL has lost lock (R64); `margin` the command in its Margining Lane Control (R76). -/
structure LaneSt where
  saved : NMap Nat := []
  inForce : Nat := 0
  user : Nat := 0
  bits : Nat := 0
  errs : Nat := 0
  capErrs : Nat := 0
  marker : Option Nat := none
  markAt : Nat := 0
  bad : Bool := false
  eqSaved : NMap Nat := []
  eqUse : Bool := false
  eqTag : Nat := 0
  eqLast : Nat := 0
  eqSkip : Bool := false
  pllLost : Bool := false
  margin : Nat := 0
  deriving DecidableEq, Repr

/-- A slot-power channel beside its registers (R357 to R367): the model temperature in units of 2^-16 °C, the fault timer,
the ticks clear of limit, the fast-trip latch, an enable held in STOPPING, and the commands accepted since the last tick (0
enable, 1 disable, 2 MGR_OFF set, 3 MGR_OFF cleared; whether the slot sent it); the MGR_OFF in force, and whether a setting has
changed since the last tick (R48). -/
structure SpSt where
  temp : Int := 5570560
  timer : Nat := 0
  clear : Nat := 0
  latched : Bool := false
  heldEnable : Bool := false
  cmds : List (Nat × Bool) := []
  mgrOff : Bool := false
  changed : Bool := false
  deriving DecidableEq, Repr

/-- An outstanding DATA flit (R102, R106): SEQ, FIRST_PKT and payload as first sent, and the packets that end in it. -/
structure TxFlit where
  seqNo : Nat
  first : Nat := 31
  chunks : List (BitVec 64) := []
  pkts : List Packet := []
  deriving DecidableEq, Repr

/-- An item that waits to be sent, or the rest of one (R100): `fresh` while its tag has not left. -/
structure TxItem where
  chunks : List (BitVec 64)
  fresh : Bool := true
  pkt : Option Packet := none
  deriving DecidableEq, Repr

/-- The item a VFL receiver is reading (R100, R114, R115): its tag, the chunks of its header and body so far. -/
structure RxPart where
  vc : Nat
  hc : Bool
  ze : Bool
  bodyLen : Nat
  mask : Nat
  hdr : List Word := []
  full : List Word := []
  hdrDone : Bool := false
  body : List Byte := []
  deriving DecidableEq, Repr

/-- A whole item accepted in order that waits to move into the cell buffer: its VC, its full header, its blocks. -/
structure RxItem where
  vc : Nat
  hdr : List Word
  body : List Byte
  blocks : Nat
  deriving DecidableEq, Repr

/-- The link layer of a VFL port or of one end of a crossing (R99 to R116). Keyed by port, or 2000 + 4 × tile + group.
`tx` are the items that wait to be sent, `resend` the SEQs a replay has still to send, `refTx` and `refRx` the reference headers,
`vcPtr` the tenant VC whose turn it is (R108); `bufs` and `cap` the receive buffer of each VC and the replay buffer as fixed at
link-up; `slots` the flit slots used since `base`. `sent` holds the counts C last sent, `items` the whole items accepted, `moved` those
moved to the cell buffer whose packet has yet to be routed; `hold` a port held down by an INIT mismatch, `stopped` a retrain or
wire repair in progress, `wires` the failed wires of a crossing's receive direction with the spare each is mapped onto, 672 for
none, `wireErrs` the corrected symbols of the last millisecond by wire and time; the five injections wait for the flit they act on. -/
structure LinkSt where
  seenInit : Bool := false
  initSent : Bool := false
  nextSeq : Nat := 0
  expected : Nat := 0
  outst : List TxFlit := []
  limit : NMap Nat := []
  consumed : NMap Nat := []
  freed : NMap Nat := []
  inUse : NMap Nat := []
  sent : NMap Nat := []
  refRx : NMap (List Word) := []
  part : Option RxPart := none
  items : List RxItem := []
  sinceAck : Nat := 0
  dupRun : Nat := 0
  idleEsc : Bool := false
  peer : Option Nat := none
  badCrc : Bool := false
  dropAck : Bool := false
  staleCredit : Bool := false
  skipSeq : Bool := false
  fecSym : Nat := 0
  crTurn : Nat := 0
  hold : Bool := false
  stopped : Bool := false
  tx : List TxItem := []
  resend : List Nat := []
  refTx : NMap (List Word) := []
  vcPtr : Nat := 0
  bufs : List Nat := []
  cap : Nat := 0
  base : Nat := 0
  slots : Nat := 0
  moved : List RxItem := []
  wires : List (Nat × Nat) := []
  wireErrs : List (Nat × Nat) := []
  deriving DecidableEq, Repr

/-- What the next release of the Ilulys die's reset runs: a boot (R380), an Ilulys restart (R401), or a boot that may find
tiles running after a loss of VAUX (R402). -/
inductive Release where
  | boot
  | restart
  | rejoin
  deriving DecidableEq, Repr

/-- Boot, fuses and trust (R372 to R388): the two copies of each fuse bit, the values sensed at boot, the flash, what the
running image gave. `fuseRead`, `blows` (bit numbers, oldest first), `attOp` and `flashOp` (operation and address) are in
progress; `blowReset` a reset that waits for a blow, true for cold (R400); `att` the attestation buffer, `attRuns` the signatures
made; `jtag` the JTAG instruction in force, none BYPASS. -/
structure BootSt where
  fuseA : BitVec 2048 := 0
  fuseB : BitVec 2048 := 0
  sensed : BitVec 2048 := 0
  flash : Memory := []
  fuseRead : Bool := false
  blows : List Nat := []
  blowReset : Option Bool := none
  att : List Byte := []
  attOp : Option Nat := none
  attRuns : Nat := 0
  flashOp : Option (Nat × Nat) := none
  fwMeas : BitVec 256 := 0
  cfgMeas : BitVec 256 := 0
  imageSeq : Word := 0
  fuseProgEn : Bool := false
  eqSets : List (Nat × Nat × Nat) := []
  jtag : Option Nat := none
  deriving DecidableEq, Repr

/-- Supplies, clocks and resets (R389 to R405, R416, R436, R453): the tiles whose rails are good, VDD_IO and the VAUX inputs;
whether HK_PWR_STATUS is valid; the sampled straps; the tiles' temperatures in 0.25 °C, those that have warned, those held for
over-temperature; the beginnings of recent Ilulys restarts; the tiles whose core PLL relocks; the release due; the tiles whose
slave was qualified when its service link was lost. -/
structure PwrSt where
  core : List Nat := []
  sda : List Nat := []
  sdh : List Nat := []
  io : Bool := false
  vauxA : Bool := true
  vauxB : Bool := false
  valid : Bool := false
  strap : Option Nat := none
  temps : NMap Int := []
  warned : List Nat := []
  hot : List Nat := []
  restarts : List Nat := []
  relocking : List Nat := []
  due : Option Release := some .boot
  qualAtLoss : List Nat := []
  deriving DecidableEq, Repr

/-- Token buckets, deficits, round-robin pointers and withheld seats (R264, R266, R276). `missing` holds what each bucket
lacks of full, in units of 2^-20 byte, so that an unlisted bucket is full (R267). `roundAt` is the FT of a tile's last round, at
which its gates were evaluated (R270); `late` names port blocks whose armed takeover had passed (R271). -/
structure SchedSt where
  missing : NMap Nat := []
  deficit : NMap Nat := []
  ptr : NMap Nat := []
  withheld : List Nat := []
  roundAt : NMap Nat := []
  late : List Nat := []
  deriving DecidableEq, Repr

/-- What a lane's pattern generator sends (R67, R69): the pattern, the user pattern where that is it, inverted by TX_POL_INV, one
bit in every 2^k inverted. -/
structure GenOut where
  pattern : Nat
  user : Nat
  inverted : Bool
  every : Option Nat
  deriving DecidableEq, Repr

/-- Something that leaves the part, or passes from the core to an engine: the model's own log. `ecrc` marks a TLP that leaves with an
ECRC of the part's own (R78). A `dllp` is of kind 0 Ack, 1 Nak, 2 to 4 UpdateFC, 5 to 7 InitFC of dedicated and 8 to 10 of shared
credits, each for posted, non-posted and completions (R81). -/
inductive Emission where
  | tlp (port : Nat) (p : Packet) (ecrc : Bool)
  | dllp (port kind n hdr dat : Nat)
  | linkFlit (l : Link) (words : List (BitVec 64)) (symErr : Nat)
  | idleFlits (port count symErr : Nat)
  | ptmResponse (port : Nat) (value : Nat)
  | sidebandFrame (what : Nat) (port : Nat)
  | engineIn (tile : Nat) (p : Packet)
  | mgmtIn (tile : Nat) (p : Packet)
  | bridgeReply (bytes : List Byte)
  | bridgeNack
  | bitInverted (lane : Nat)
  | generator (lane : Nat) (g : Option GenOut)
  | markers (port first count : Nat)
  deriving DecidableEq, Repr

/-- The machine. `arrivals` are the headers that wait in the ports' receive buffers while ingress is held (R44, R276); `seqLate` the timed
commands whose time had passed when they were armed (R368). -/
structure State where
  part : Part := .rh1024
  live : NMap Word := []
  set0 : NMap Word := []
  set1 : NMap Word := []
  tm : TimeSt := {}
  cur : CurtainSt := {}
  core : CoreSt := {}
  sch : SchedSt := {}
  arrivals : List Instr := []
  pkts : List Packet := []
  outs : List OutEntry := []
  idCtr : Nat := 0
  ilulysReset : Bool := false
  hv : HostView := {}
  host : HostSt := {}
  tel : TelSt := {}
  cont : ContSt := {}
  wc : WcSt := {}
  win : WinSt := {}
  eng : EngSt := {}
  pu : PuSt := {}
  seats : NMap SeatSt := []
  ports : NMap PortSt := []
  lanes : NMap LaneSt := []
  sp : NMap SpSt := []
  seqLate : List Nat := []
  slots : NMap SlotSt := []
  links : NMap LinkSt := []
  boot : BootSt := {}
  pwr : PwrSt := {}
  wire : List Emission := []
  freeCtr : Nat := 0
  pending : List Instr := []
  deriving DecidableEq, Repr

/-- The machine right after reset: every register at its Reset column (an unlisted key reads so), every engine empty. -/
def State.reset : State := {}

/-- The reasons for which a command stops the machine. No meaning of this model raises one: every command has the
effect the manual gives it. -/
inductive Fault where
  /-- Raised by nobody. Safe. -/
  | none
  deriving DecidableEq, Repr

/-- The reasons for which a command is refused. -/
inductive Refusal where
  /-- The arm of a command that has no meaning yet, by its mnemonic. Safe. -/
  | notModelled (mnemonic : String)
  deriving DecidableEq, Repr

end Sys2Proof.Machine
end

