-- ==== Sys2Proof/Config.lean ====
section
/-! DEFINITION. What the manual leaves open: the free values (log entry 2) and the functions whose published
standards the model names and does not compute (log entry 4). Nothing in Lean can evaluate one of them. -/

namespace Sys2Proof.Config

/-- The n-th free value of a run. -/
opaque freeNat : Nat → Nat

/-- The n-th free register word of a run. -/
opaque freeWord : Nat → Word

/-- The errors a margin sampler finds in a run of bits: by the run, its phase and voltage offset and its eye (R70). -/
opaque marginErrors : Nat → Int → Int → Nat → Nat

/-- Whether the link and the completer below a downstream port permit 10-bit tags outside flit mode (R158). -/
opaque tenBitTags : Nat → Bool

/-- The carried header of a TLP or management command as the base specification lays it out (log entry 4): by a packet's
number, as bytes. -/
opaque tlpHeader : Nat → List Byte

/-- Bytes 40 to 255 of a queue-pair context as the engine writes it back (R206; log entry 126): by write. -/
opaque ctxState : Nat → List Byte

/-- The headers and prefixes that an AER log holds (R76; log entry 61): by the log's free number and by dword. -/
opaque loggedHeader : Nat → Nat → Word

/-- SHA-256 of a byte string, as 32 bytes (log entry 4). -/
opaque sha256 : List Byte → List Byte

/-- The RSASSA-PSS signature of a message by the device key of a seed, as 384 bytes (R385; log entry 4): salted, so by the
number of signatures made before. -/
opaque rsaSign : Nat → List Byte → Nat → List Byte

/-- The modulus of the device key of a seed (R384), as 384 bytes. -/
opaque deviceModulus : Nat → List Byte

end Sys2Proof.Config
end

