-- ==== Sys2Proof/Machine/Ops.lean ====
section
/-! DEFINITION. The named operations over the register file, time, the packet list, the output log and the free
values; every meaning works through them. -/

namespace Sys2Proof.Machine

/-- A meaning's result: the next state. -/
abbrev Out := Host.Outcome State Fault Refusal

/-! ### Registers (R36, R444) -/

/-- The live word at an offset. -/
def State.lv (s : State) (o : Nat) : Word := tget (regReset s.part o) s.live o

/-- The instance of a tile mailbox that a serving agent uses (R446): 0 to 7 the tile's own, 8 the stage manager's. -/
def mbx (agent o : Nat) : Nat := if 8 ≤ agent then o + 0x10000000 else o
/-- The instance of a global mailbox that a serving agent uses (R446): one for each tile, one for the stage manager. -/
def gmbx (agent o : Nat) : Nat := o + 0x10000000 * (agent + 1)

/-- Replace the live word at an offset. -/
def State.setLv (s : State) (o : Nat) (v : Word) : State :=
  { s with live := tset (regReset s.part o) s.live o v }

/-- The set copy named by an epoch (R35). -/
def State.copyOf (s : State) (e : Bool) : NMap Word := if e then s.set1 else s.set0

/-- The word at an offset in the copy of epoch `e`. -/
def State.conf (s : State) (e : Bool) (o : Nat) : Word := tget (regReset s.part o) (s.copyOf e) o

/-- Replace the word at an offset in the copy of epoch `e`. -/
def State.setConf (s : State) (e : Bool) (o : Nat) (v : Word) : State :=
  if e then { s with set1 := tset (regReset s.part o) s.set1 o v }
  else { s with set0 := tset (regReset s.part o) s.set0 o v }

/-- A field of a live word. -/
def State.fld (s : State) (o hi lo : Nat) : Nat := field (s.lv o) hi lo
/-- A bit of a live word. -/
def State.flag (s : State) (o n : Nat) : Bool := bit (s.lv o) n
/-- Write a field of a live word. -/
def State.setFld (s : State) (o hi lo n : Nat) : State := s.setLv o (putField (s.lv o) hi lo n)
/-- Write a bit of a live word. -/
def State.setFlag (s : State) (o n : Nat) (b : Bool) : State := s.setLv o (putBit (s.lv o) n b)
/-- Set a sticky bit of a live word. -/
def State.sticky (s : State) (o n : Nat) : State := s.setFlag o n true
/-- A field of a word of the copy of epoch `e`. -/
def State.cfld (s : State) (e : Bool) (o hi lo : Nat) : Nat := field (s.conf e o) hi lo
/-- A bit of a word of the copy of epoch `e`. -/
def State.cflag (s : State) (e : Bool) (o n : Nat) : Bool := bit (s.conf e o) n

/-- The effect of a write on the live fields of a word (R6, R7): RW bits take the value written, W1C bits written
as 1 clear, every other bit keeps its value. -/
def State.plainWrite (s : State) (o : Nat) (v : Word) : State :=
  match regDef o with
  | none => s
  | some d =>
    let rwM := BitVec.ofNat 32 d.rwM
    let cM := BitVec.ofNat 32 d.w1cM
    let old := s.lv o
    s.setLv o (((old &&& ~~~rwM) ||| (v &&& rwM)) &&& ~~~(v &&& cM))

/-- TM_STATUS.LEAD_EPOCH (R34). -/
def State.leadEpoch (s : State) : Bool := s.flag 0x00030004 5
/-- The epoch that tile `t` stamps, TM_SLAVE_STATUS.EPOCH (R34). -/
def State.tileEpoch (s : State) (t : Nat) : Bool := s.flag (tileBase t + 0x3000) 10

/-- What a read of a word returns: lead values in its set fields, the current value elsewhere (R36). -/
def State.readWord (s : State) (e : Bool) (o : Nat) : Word :=
  match regDef o with
  | none => 0
  | some d =>
    let m := BitVec.ofNat 32 d.setM
    (s.conf e o &&& m) ||| (s.lv o &&& ~~~m)

/-! ### Tiles (R10, R22, R346) -/

/-- Whether tile `t` is present and not lost: a lost tile is treated as absent. -/
def State.here (s : State) (t : Nat) : Bool := s.part.hasTile t && !s.cont.lost.contains t
/-- Whether tile `t` runs: it is present, or cut off from the mesh and still running (R346). -/
def State.operates (s : State) (t : Nat) : Bool := s.here t || (s.part.hasTile t && s.cont.cut.contains t)
/-- Whether tile `t` takes tile `u` for present: itself while it runs, another where both are in the mesh (R346). -/
def State.sees (s : State) (t u : Nat) : Bool := if t = u then s.operates t else s.here t && s.here u
/-- The present tiles. -/
def State.present (s : State) : List Nat := s.part.tiles.filter fun t => s.here t
/-- The tiles that run: the present ones and those cut off from the mesh (R346). -/
def State.running (s : State) : List Nat := s.part.tiles.filter fun t => s.operates t
/-- Run an operation for each element of a list, in order. -/
def State.each {α : Type} (s : State) (l : List α) (f : State → α → State) : State := l.foldl f s
/-- Whether tile `t` is headless (R16, R19). -/
def State.headless (s : State) (t : Nat) : Bool := s.flag (tileBase t + 0x04) 0

/-- The two tiles a crossing joins (R352 index order). -/
def xgEnds (x : Nat) : Nat × Nat :=
  [(0, 1), (1, 2), (2, 3), (4, 5), (5, 6), (6, 7), (0, 4), (1, 5), (2, 6), (3, 7)].getD x (0, 0)

/-- The row and column of a tile (R10). -/
def rowOf (t : Nat) : Nat := t / 4
/-- The column of a tile. -/
def colOf (t : Nat) : Nat := t % 4

/-- The crossing between two neighbouring tiles, if there is one. -/
def xgBetween (a b : Nat) : Option Nat :=
  (List.range 10).find? fun x => xgEnds x == (a, b) || xgEnds x == (b, a)

/-- The tile on the far side of crossing group `g` of tile `t`: 0 left, 1 right, 2 other row (R12, R120). -/
def xgPeer (t g : Nat) : Option Nat :=
  if g = 0 then (if colOf t = 0 then none else some (t - 1))
  else if g = 1 then (if colOf t = 3 then none else some (t + 1))
  else if g = 2 then (if t < 4 then some (t + 4) else some (t - 4))
  else none

/-- The crossing of group `g` of tile `t`, if both its tiles exist on this part. -/
def Part.xgOf (p : Part) (t g : Nat) : Option Nat :=
  match xgPeer t g with
  | some u => if p.hasTile t && p.hasTile u then xgBetween t u else none
  | none => none

/-- The group of tile `t` that leads to its neighbour `u`. -/
def xgGroup (t u : Nat) : Nat := if rowOf t ≠ rowOf u then 2 else if u < t then 0 else 1

/-! ### Fabric time (R23, R29, R32) -/

/-- The FT that tile `t` reads on its slave counter. -/
def State.tileFt (s : State) (t : Nat) : Nat :=
  lowBits 96 (((s.tm.ft : Int) * 10 + tget 0 s.tm.slaveOff t) / 10 + ftMod) % ftMod
/-- The nanoseconds word of the FT seen by tile `t`, the master's for the Ilulys die (R288 FT_NS). -/
def State.nsOf (s : State) (t : Nat) : Nat := (if t < 8 then s.tileFt t else s.tm.ft) % nsPerSec
/-- TM_STATUS.CURTAIN_STATE. -/
def State.curtainState (s : State) : Nat := s.fld 0x00030004 7 6
/-- FT is locked: TM_STATUS.QUALIFIED. -/
def State.qualified (s : State) : Bool := s.flag 0x00030004 0

/-! ### Free values, log, numbering -/

/-- What arrives waits in its port's receive buffer. -/
def State.hold (s : State) (i : Instr) : State := { s with arrivals := s.arrivals ++ [i] }
/-- The next free number. -/
def State.freeN (s : State) : Nat := Config.freeNat s.freeCtr
/-- The next free number below `k`. -/
def State.freeBelow (s : State) (k : Nat) : Nat := Config.freeNat s.freeCtr % k
/-- The next free word. -/
def State.freeW (s : State) : Word := Config.freeWord s.freeCtr
/-- Take a free value: the next one is another. -/
def State.used (s : State) : State := { s with freeCtr := s.freeCtr + 1 }
/-- Log something that leaves the part. -/
def State.emit (s : State) (e : Emission) : State := { s with wire := s.wire ++ [e] }

/-! ### Packets (R122, R124) -/

/-- The carried header of a request, in dwords (R101; log entry 10). -/
def reqHdrDw (r : Req) : Nat := (if r.addr.toNat < 2 ^ 32 then 3 else 4) + (if r.pasid.isSome then 1 else 0) + r.extra

/-- The carried header and payload of a packet's body (R101). -/
def bodyLen : Body → Nat × Nat
  | .req r => (reqHdrDw r, r.data.length)
  | .cfg _ _ _ _ w => (3, if w.isSome then 4 else 0)
  | .flr _ _ => (3, 4)
  | .cpl c => (3 + c.extra, c.data.length)
  | .msg _ d => (4, d.length)
  | .intx _ _ => (4, 0)
  | .eng _ d => (8, d.length)
  | .mgmt => (0, 0)

/-- The charged length L of a packet (R266). -/
def lenOf (b : Body) : Nat := 4 * (bodyLen b).1 + (bodyLen b).2
/-- HDR_DW and PAY_LEN of a packet (R101): as its fabric header gave them, or those of its body. -/
def Packet.len2 (p : Packet) : Nat × Nat := p.lens.getD (bodyLen p.body)
/-- The cells a packet occupies (R122). -/
def Packet.cellCount (p : Packet) : Nat := ceilDiv (8 + 4 * p.len2.1 + p.len2.2) 256
/-- The charged length L of a packet. -/
def Packet.charged (p : Packet) : Nat := 4 * p.len2.1 + p.len2.2

/-- Add a packet to the part under the next number. -/
def State.addPkt (s : State) (p : Packet) : State :=
  { s with pkts := s.pkts ++ [{ p with id := s.idCtr, cells := p.cellCount, chLen := p.charged }],
           idCtr := s.idCtr + 1 }
/-- The packet of a number. -/
def State.pkt (s : State) (n : Nat) : Option Packet := s.pkts.find? fun p => p.id == n
/-- Change the packet of a number. -/
def State.modPkt (s : State) (n : Nat) (f : Packet → Packet) : State :=
  { s with pkts := s.pkts.map fun p => if p.id == n then f p else p }
/-- Drop the packet of a number. -/
def State.dropPkt (s : State) (n : Nat) : State := { s with pkts := s.pkts.filter fun p => p.id != n }

/-- Change the core state. -/
def State.modCore (s : State) (f : CoreSt → CoreSt) : State := { s with core := f s.core }

/-- TL_BUF_STATUS of a tile. -/
def bufStatus (t : Nat) : Nat := tileBase t + 0x6010
/-- The key of a tile's input channel. -/
def chanKey (t c : Nat) : Nat := 64 * t + c
/-- The key of a tile's destination (0 to 79). -/
def destKey (t d : Nat) : Nat := 128 * t + d

/-- The input channel of a port block (R12). -/
def portChan (port : Nat) : Nat := pbOf port % 8
/-- The tile of a destination of R130. -/
def destTile (d : Nat) : Nat := if d < 64 then d / 8 else d % 8

/-- The cells that a tile's management reserve gives to management packets that enter at the tile (R127). -/
def mgmtEntry : Nat := 312
/-- The cells of the management packets that have entered at a tile and stand there. -/
def State.mgmtHeld (s : State) (t : Nat) : Nat :=
  s.pkts.foldl (fun n p => if p.tile == t && p.mgmt && p.srcTile == t && p.loc != .refused then n + p.cells else n) 0
/-- Whether a packet is refused admission to the shared pool of its tile (R125). -/
def State.refuses (s : State) (t chan n : Nat) : Bool :=
  let pool := s.part.sharedPool
  let lim := min pool (s.fld (tileBase t + 0x6004) 16 0)
  decide (lim ≤ tget 0 s.core.shareHeld (chanKey t chan)) ||
    decide (s.fld (bufStatus t) 16 0 < s.fld (tileBase t + 0x6008) 16 0 + n)

/-- Whether a packet of a source and class waits for admission: what follows it from that source waits behind it; management never
waits behind tenant traffic (R18). -/
def State.waits (s : State) (t src : Nat) (mgmt : Bool) : Bool :=
  s.pkts.any fun p => p.tile == t && p.src == src && p.mgmt == mgmt && p.loc == .refused
/-- Whether a packet finds no room as it enters a tile (R125). A management packet beyond the 312 cells of R127 waits as a tenant
packet does (DESIGN CHOICE, log entry 120). -/
def State.noRoom (s : State) (p : Packet) : Bool :=
  if p.mgmt then decide (mgmtEntry < s.mgmtHeld p.tile + p.cells) else s.refuses p.tile p.chan p.cells
/-- The numbers of free cells of a tile's buffer, as many as asked for: the lowest that no resident packet points to (DESIGN CHOICE,
log entry 121). -/
def State.freePtrs (s : State) (t n : Nat) : List Nat :=
  let held := (s.pkts.filter fun p => p.tile == t && p.loc != .refused).flatMap (·.ptrs)
  ((List.range (held.length + n)).filter fun k => !held.contains k).take n

/-- TL_BUF_STATUS.SHARED_LOW_SEEN, when `n` cells reach the low threshold (R125). -/
def State.lowSeen (s : State) (t n : Nat) : State :=
  if s.fld (bufStatus t) 16 0 < s.fld (tileBase t + 0x6008) 16 0 + n then s.sticky (bufStatus t) 17 else s

/-- Take a packet's cells: of the management reserve, or of the shared pool (R124). -/
def State.takeCells (s : State) (p : Packet) : State :=
  if p.mgmt then s.modCore fun c => { c with mgmtUsed := tmod 0 c.mgmtUsed p.tile (· + p.cells) }
  else
    let s := s.modCore fun c => { c with shareHeld := tmod 0 c.shareHeld (chanKey p.tile p.chan) (· + p.cells) }
    s.setFld (bufStatus p.tile) 16 0 (s.fld (bufStatus p.tile) 16 0 - p.cells)

/-- A packet enters the core of its tile on its input channel: it is admitted, or refused and kept (R125).
Its first cell takes an error that TL_ECC_CTRL.INJ_CELL has armed (R352). -/
def State.enter (s : State) (p : Packet) : State :=
  let inj := s.cont.injCell.contains p.tile
  let p := { p with cells := p.cellCount, chLen := p.charged, injected := inj }
  let s := { s with cont := { s.cont with injCell := s.cont.injCell.filter (· != p.tile) } }
  if s.noRoom p || s.waits p.tile p.src p.mgmt then
    (if p.mgmt then s else s.lowSeen p.tile p.cells).addPkt { p with loc := .refused }
  else
    (s.takeCells p).addPkt { p with loc := if p.colour = 2 then .red else .voq, ptrs := s.freePtrs p.tile p.cells }

/-- Whether a refused packet is the next of its source and class on its tile, and finds room (R125). -/
def State.admissible (s : State) (p : Packet) : Bool :=
  p.loc == .refused && !s.noRoom p &&
    (s.pkts.find? fun q => q.tile == p.tile && q.src == p.src && q.mgmt == p.mgmt && q.loc == .refused).map (·.id) == some p.id
/-- Free a packet's cells where it stands; a packet that came over a crossing owes its tickets back (R128). -/
def State.freeCells (s : State) (p : Packet) : State :=
  if p.loc == .refused then s
  else if p.mgmt then
    s.modCore fun c => { c with
      mgmtUsed := tmod 0 c.mgmtUsed p.tile (· - p.cells)
      freedCount := if p.srcTile ≠ p.tile ∧ destTile p.dest = p.tile then
        tmod 0 c.freedCount (destKey p.srcTile (72 + p.tile)) fun n => (n + p.cells) % 2 ^ 24 else c.freedCount }
  else if p.srcTile = p.tile then
    let s := s.modCore fun c => { c with shareHeld := tmod 0 c.shareHeld (chanKey p.tile p.chan) (· - p.cells) }
    s.setFld (bufStatus p.tile) 16 0 (s.fld (bufStatus p.tile) 16 0 + p.cells)
  else if destTile p.dest = p.tile then
    s.modCore fun c => { c with
      egressUsed := tmod 0 c.egressUsed p.tile (· - p.cells)
      freedCount := tmod 0 c.freedCount (destKey p.srcTile p.dest) fun n => (n + p.cells) % 2 ^ 24 }
  else s.modCore fun c => { c with transitUsed := tmod 0 c.transitUsed p.tile (· - p.cells) }

/-- Remove a packet, free its cells and unlock its channels. -/
def State.retire (s : State) (p : Packet) : State :=
  ((s.freeCells p).dropPkt p.id).modCore fun c => { c with locks := c.locks.filter fun l => l.pkt != p.id }

end Sys2Proof.Machine
end

