-- ==== Sys2Proof/Machine/Operands.lean ====
section
/-! DEFINITION. The fields of the set tables under their register names, and the lookups over them: partitions,
virtual ports, bindings, ports, seats, rings. `e` is the epoch whose copy is read (R45). -/

namespace Sys2Proof.Machine

/-! ### Partitions (R148, R170, R307) -/

/-- TL_PART_CFG[p]. -/
def partCfg (p : Nat) : Nat := 0x00050000 + 8 * p
/-- TL_PART_CFG[p].EN. -/
def State.partEn (s : State) (e : Bool) (p : Nat) : Bool := p < 256 && s.cflag e (partCfg p) 0
/-- TL_PART_CFG[p].UP_PORT. -/
def State.upPort (s : State) (e : Bool) (p : Nat) : Nat := s.cfld e (partCfg p) 10 1
/-- TL_PART_CFG[p].P2P_EN. -/
def State.p2pEn (s : State) (e : Bool) (p : Nat) : Bool := s.cflag e (partCfg p) 11
/-- TL_PART_CFG[p].RO_EN. -/
def State.partRo (s : State) (e : Bool) (p : Nat) : Bool := s.cflag e (partCfg p) 12
/-- The home tile of a partition: the tile of its upstream port (R15). -/
def State.homeTile (s : State) (e : Bool) (p : Nat) : Nat := tileOf (s.upPort e p)
/-- TL_PART_BUS[p].BASE and LIMIT. -/
def State.busRange (s : State) (e : Bool) (p : Nat) : Nat × Nat :=
  (s.cfld e (0x00050004 + 8 * p) 11 0, s.cfld e (0x00050004 + 8 * p) 27 16)
/-- The proxy RID of a partition: its proxy bus, device 0, function 0 (R148). -/
def State.proxyRid (s : State) (e : Bool) (p : Nat) : Nat := (s.busRange e p).1 * 256
/-- TL_FABRIC_CFG.SWITCH_NUM. -/
def State.switchNum (s : State) (e : Bool) : Nat := s.cfld e 0x00050800 5 0
/-- TL_PART_FF[p].BAR4_LOG2. -/
def State.bar4Log2 (s : State) (e : Bool) (p : Nat) : Nat := s.cfld e (0x00050C00 + 4 * p) 5 0
/-- TL_PART_FF[p].CPL_TO, at most 16 (R296). -/
def State.cplTo (s : State) (e : Bool) (p : Nat) : Nat := min 16 (s.cfld e (0x00050C00 + 4 * p) 12 8)
/-- The partition whose upstream port is `port`. -/
def State.partOfUp (s : State) (e : Bool) (port : Nat) : Option Nat :=
  (List.range 256).find? fun p => s.partEn e p && s.upPort e p == port

/-! ### Ports (R92, R151) -/

/-- The register of lane index `port % 16` in a port-block array at `base`. -/
def pbReg (base port : Nat) : Nat := pbBase (pbOf port) + base + 4 * (port % 16)
/-- PB_PORT_CFG of a port. -/
def portCfg (port : Nat) : Nat := pbReg 0x0000 port
/-- PB_PORT_STATUS of a port. -/
def portStatus (port : Nat) : Nat := pbReg 0x0040 port
/-- PB_SLOT_CFG of a port. -/
def slotCfg (port : Nat) : Nat := pbReg 0x0080 port
/-- PB_PORT_BUS of a port. -/
def portBus (port : Nat) : Nat := pbReg 0x00C0 port
/-- PB_PORT_CFG.EN. -/
def State.portEn (s : State) (e : Bool) (port : Nat) : Bool := port < 1024 && s.cflag e (portCfg port) 0
/-- PB_PORT_CFG.MODE = 1: a VFL port. -/
def State.isVfl (s : State) (e : Bool) (port : Nat) : Bool := s.cflag e (portCfg port) 1
/-- PB_PORT_STATUS.DL_ACTIVE. -/
def State.dlActive (s : State) (port : Nat) : Bool := s.flag (portStatus port) 0
/-- PB_SLOT_CFG.OWNER. -/
def State.slotOwner (s : State) (e : Bool) (port : Nat) : Nat := s.cfld e (slotCfg port) 23 16
/-- The lanes of a width code (R92). -/
def widthLanes (c : Nat) : Nat := if c = 0 then 0 else 2 ^ (c - 1)
/-- The internal bus of a function behind a port: the high bits of SEC (R151). -/
def State.portRid (s : State) (e : Bool) (port rid : Nat) : Nat :=
  s.cfld e (portBus port) 11 8 * 65536 + rid % 65536

/-! ### Virtual downstream ports and bindings (R149, R150, R152) -/

/-- TL_VDP[p][d]. -/
def vdpReg (p d : Nat) : Nat := 0x00051000 + 4 * (32 * p + d)
/-- TL_VDP[p][d].EN. -/
def State.vdpEn (s : State) (e : Bool) (p d : Nat) : Bool := p < 256 && d < 32 && s.cflag e (vdpReg p d) 0
/-- TL_VDP[p][d].PORT. -/
def State.vdpPort (s : State) (e : Bool) (p d : Nat) : Nat := s.cfld e (vdpReg p d) 10 1
/-- TL_VDP[p][d].SW. -/
def State.vdpSw (s : State) (e : Bool) (p d : Nat) : Nat := s.cfld e (vdpReg p d) 16 11
/-- A virtual port whose physical port is this part's own. -/
def State.vdpLocal (s : State) (e : Bool) (p d : Nat) : Bool := s.vdpSw e p d == s.switchNum e
/-- The lowest virtual port of partition `p` that names physical port `port` of this part (R150). -/
def State.vdpOf (s : State) (e : Bool) (p port : Nat) : Option Nat :=
  (List.range 32).find? fun d => s.vdpEn e p d && s.vdpLocal e p d && s.vdpPort e p d == port
/-- Whether a virtual port presents functions: it is the lowest that names its physical port (R150). -/
def State.vdpPresents (s : State) (e : Bool) (p d : Nat) : Bool :=
  (List.range 32).all fun k => !(decide (k < d) && s.vdpEn e p k && s.vdpPort e p k == s.vdpPort e p d
    && s.vdpSw e p k == s.vdpSw e p d)
/-- All (partition, virtual port) pairs that name physical port `port` of this part. -/
def State.vdpsOf (s : State) (e : Bool) (port : Nat) : List (Nat × Nat) :=
  (List.range 256).filterMap fun p =>
    if s.partEn e p then (s.vdpOf e p port).map fun d => (p, d) else none

/-- TL_BIND[f] word `w`; entries 4,096 to 4,111 lie at their alias (R442). -/
def bindReg (f w : Nat) : Nat :=
  (if 4096 ≤ f ∧ f < 4112 then 0x00120000 + 16 * (f - 4096) else 0x00060000 + 16 * f) + 4 * w
/-- TL_BIND[f].VALID. -/
def State.bindValid (s : State) (e : Bool) (f : Nat) : Bool := f < 16384 && s.cflag e (bindReg f 0) 0
/-- TL_BIND[f].VF. -/
def State.bindVf (s : State) (e : Bool) (f : Nat) : Bool := s.cflag e (bindReg f 0) 1
/-- TL_BIND[f].PART. -/
def State.bindPart (s : State) (e : Bool) (f : Nat) : Nat := s.cfld e (bindReg f 0) 9 2
/-- TL_BIND[f].VDP. -/
def State.bindVdp (s : State) (e : Bool) (f : Nat) : Nat := s.cfld e (bindReg f 0) 14 10
/-- TL_BIND[f].HOST_FN. -/
def State.bindFn (s : State) (e : Bool) (f : Nat) : Nat := s.cfld e (bindReg f 0) 22 15
/-- TL_BIND[f].PART_SW. -/
def State.bindSw (s : State) (e : Bool) (f : Nat) : Nat := s.cfld e (bindReg f 0) 28 23
/-- TL_BIND[f].INT_RID. -/
def State.bindRid (s : State) (e : Bool) (f : Nat) : Nat := s.cfld e (bindReg f 1) 19 0
/-- TL_BIND[f].REMOTE_UP. -/
def State.bindUp (s : State) (e : Bool) (f : Nat) : Nat := s.cfld e (bindReg f 3) 9 0
/-- The binding entries with a word listed in the copy of epoch `e`. -/
def State.bindEntries (s : State) (e : Bool) : List Nat :=
  ((s.copyOf e).filterMap fun x =>
    if 0x00120000 ≤ x.1 ∧ x.1 < 0x00120100 then some (4096 + (x.1 - 0x00120000) / 16)
    else if 0x00060000 ≤ x.1 ∧ x.1 < 0x000A0000 then some ((x.1 - 0x00060000) / 16) else none).eraseDups.filter
    fun f => s.bindValid e f
/-- The physical port on which a bound function stands, by its entry's virtual port. -/
def State.bindPort (s : State) (e : Bool) (f : Nat) : Nat := s.vdpPort e (s.bindPart e f) (s.bindVdp e f)

/-- TL_AMAP[x] word `w`. -/
def amapReg (x w : Nat) : Nat := 0x000A0000 + 16 * x + 4 * w
/-- The address map entries with a word listed in the copy of epoch `e`. -/
def State.amapEntries (s : State) (e : Bool) : List Nat :=
  ((s.copyOf e).filterMap fun x =>
    if 0x000A0000 ≤ x.1 ∧ x.1 < 0x00120000 then some ((x.1 - 0x000A0000) / 16) else none).eraseDups
/-- TL_AMAP[x].FUNC. -/
def State.amapFunc (s : State) (e : Bool) (x : Nat) : Nat := s.cfld e (amapReg x 0) 14 1
/-- TL_AMAP[x].BAR. -/
def State.amapBar (s : State) (e : Bool) (x : Nat) : Nat := s.cfld e (amapReg x 0) 17 15
/-- TL_AMAP[x].SIZE_LOG2. -/
def State.amapLog2 (s : State) (e : Bool) (x : Nat) : Nat := s.cfld e (amapReg x 0) 23 18
/-- TL_AMAP[x].INT_BASE. -/
def State.amapBase (s : State) (e : Bool) (x : Nat) : Nat :=
  (s.conf e (amapReg x 2)).toNat * 2 ^ 32 + (s.conf e (amapReg x 1)).toNat / 4096 * 4096
/-- Whether an entry acts as valid (R159, R170): VALID, BAR 0 to 5, SIZE_LOG2 12 to 40. -/
def State.amapValid (s : State) (e : Bool) (x : Nat) : Bool :=
  x < 32768 && s.cflag e (amapReg x 0) 0 && decide (s.amapBar e x ≤ 5) &&
    decide (12 ≤ s.amapLog2 e x ∧ s.amapLog2 e x ≤ 40)

/-! ### Host view -/

/-- The key of a partition's virtual bridge; `d` = 32 is the virtual upstream port. -/
def vpKey (p d : Nat) : Nat := 64 * p + d
/-- A virtual bridge's state. -/
def State.vport (s : State) (p d : Nat) : VPort := tget {} s.hv.vp (vpKey p d)
/-- Change a virtual bridge's state. -/
def State.modVport (s : State) (p d : Nat) (f : VPort → VPort) : State :=
  { s with hv := { s.hv with vp := tmod {} s.hv.vp (vpKey p d) f } }
/-- A partition's fabric function. -/
def State.fab (s : State) (p : Nat) : FabFn := tget {} s.hv.ff p
/-- Change a partition's fabric function. -/
def State.modFab (s : State) (p : Nat) (f : FabFn → FabFn) : State :=
  { s with hv := { s.hv with ff := tmod {} s.hv.ff p f } }
/-- Log an error in a virtual port's AER (R339), with the header of the TLP that has it, which is free (log entry 61). -/
def State.logAer (s : State) (p d : Nat) (k : AerKind) : State :=
  (s.modVport p d fun v => { v with aer := v.aer ++ [k], aerHdr := some s.freeCtr }).used
/-- The virtual port at which a PCI Express port of this part is seen: its partition's upstream bridge, or its owner's virtual
port. -/
def State.seenAt (s : State) (e : Bool) (port : Nat) : Nat × Nat :=
  match s.partOfUp e port with
  | some p => (p, 32)
  | none => (s.slotOwner e port, (s.vdpOf e (s.slotOwner e port) port).getD 0)
/-- The virtual bridge whose enables govern a PCI Express port's ECRC (R78); on an upstream port those of the fabric function govern it
too (DEDUCED, log entry 61). -/
def State.ecrcAt (s : State) (e : Bool) (port : Nat) : VPort := s.vport (s.seenAt e port).1 (s.seenAt e port).2
/-- Whether a TLP leaves a port with an ECRC generated afresh: the port's partition has enabled it (R78). -/
def State.ecrcOut (s : State) (e : Bool) (port : Nat) : Bool :=
  !s.isVfl e port && ((s.ecrcAt e port).ecrcGen || (s.partOfUp e port).any fun p => (s.fab p).ecrcGen)
/-- Whether a TLP whose ECRC does not check is found out on a port: the port's partition has enabled the check (R78). -/
def State.ecrcFails (s : State) (e : Bool) (port : Nat) (bad : Bool) : Bool :=
  bad && ((s.ecrcAt e port).ecrcCheck || (s.partOfUp e port).any fun p => (s.fab p).ecrcCheck)
/-- Log an error in a fabric function's AER (R281, R340). -/
def State.logFabAer (s : State) (p : Nat) (k : AerKind) : State :=
  (s.modFab p fun v => { v with aer := v.aer ++ [k], aerHdr := some s.freeCtr }).used
/-- A partition's Max_Payload_Size in bytes. -/
def State.mps (s : State) (p : Nat) : Nat := min 1024 (128 * 2 ^ (s.fab p).mpsCode)
/-- A partition's Max_Read_Request_Size in bytes. -/
def State.mrrs (s : State) (p : Nat) : Nat := 128 * 2 ^ (s.fab p).mrrsCode
/-- The routing ID of a partition's fabric function as the host numbers it (R149). -/
def State.ffRid (s : State) (p : Nat) : Nat := (s.vport p 32).prim % 256 * 256 + 1
/-- The host-view routing ID of a bound function (R157). -/
def State.hostRid (s : State) (e : Bool) (f : Nat) : Nat :=
  (s.vport (s.bindPart e f) (s.bindVdp e f)).sec * 256 + s.bindFn e f

/-! ### Manager ports (R373, R282) -/

/-- The ports that valid MGR_PORT fuse entries name, in the order of the entries; P0 where none is valid. -/
def State.mgrPorts (s : State) : List Nat :=
  let l := (List.range 4).filterMap fun k =>
    let v := s.boot.sensed.toNat / 2 ^ (1620 + 11 * k) % 2048
    let port := v % 1024
    if v / 1024 = 1 && port % 16 = 0 && s.part.hasTile (tileOf port) then some port else none
  if l.isEmpty then [0] else l
/-- Whether the BAR0 and BAR2 requests of an origin, and their completions, are of the management class: a host's that enter on
a manager port (R282). -/
def State.barMgmt (s : State) (e : Bool) : Origin → Bool
  | .host p => s.mgrPorts.contains (s.upPort e p)
  | _ => false

/-! ### Seats and rings (R227, R236, R283) -/

/-- ST_BIND[s] word `w`. -/
def stBind (seat w : Nat) : Nat := 0x00300000 + 16 * seat + 4 * w
/-- ST_BIND[s].VALID. -/
def State.bound (s : State) (e : Bool) (seat : Nat) : Bool := seat < 4096 && s.cflag e (stBind seat 0) 0
/-- ST_BIND[s].PART. -/
def State.seatPart (s : State) (e : Bool) (seat : Nat) : Nat := s.cfld e (stBind seat 0) 8 1
/-- ST_BIND[s].KIND = 1: bound to a function. -/
def State.seatKind1 (s : State) (e : Bool) (seat : Nat) : Bool := s.cflag e (stBind seat 0) 9
/-- ST_BIND[s].RID_ANY. -/
def State.seatAny (s : State) (e : Bool) (seat : Nat) : Bool := s.cflag e (stBind seat 0) 10
/-- ST_BIND[s].RID. -/
def State.seatRid (s : State) (e : Bool) (seat : Nat) : Nat := s.cfld e (stBind seat 0) 31 16
/-- ST_BIND[s].FUNC. -/
def State.seatFunc (s : State) (e : Bool) (seat : Nat) : Nat := s.cfld e (stBind seat 1) 13 0
/-- The PASID a seat is bound with, if any. -/
def State.seatPasid (s : State) (e : Bool) (seat : Nat) : Option Nat :=
  if s.cflag e (stBind seat 0) 11 then some (s.cfld e (stBind seat 2) 19 0) else none
/-- The seats bound in the copy of epoch `e`, in ascending order. -/
def State.boundSeats (s : State) (e : Bool) : List Nat :=
  ((s.copyOf e).filterMap fun x =>
    if 0x00300000 ≤ x.1 ∧ x.1 < 0x00310000 ∧ x.1 % 16 = 0 then some ((x.1 - 0x00300000) / 16) else none).filter
    fun k => s.bound e k
/-- The home tile of a seat's partition. -/
def State.seatHome (s : State) (e : Bool) (seat : Nat) : Nat := s.homeTile e (s.seatPart e seat)

/-- The seat to which a request entering partition `p` is attributed (R228). -/
def State.seatOf (s : State) (e : Bool) (p : Nat) (who : Requester) (pasid : Option Nat) : Option Nat :=
  let mine := (s.boundSeats e).filter fun k => s.seatPart e k == p && s.seatPasid e k == pasid
  match who with
  | .host rid =>
    (mine.find? fun k => !s.seatKind1 e k && !s.seatAny e k && s.seatRid e k == rid).orElse
      fun _ => mine.find? fun k => !s.seatKind1 e k && s.seatAny e k
  | .func f => mine.find? fun k => s.seatKind1 e k && s.seatFunc e k == f

/-- A seat's sequence and mailbox. -/
def State.seatSt (s : State) (seat : Nat) : SeatSt := tget {} s.seats seat
/-- Change a seat's sequence and mailbox. -/
def State.modSeat (s : State) (seat : Nat) (f : SeatSt → SeatSt) : State :=
  { s with seats := tmod {} s.seats seat f }
/-- Whether a seat's sequence runs, or the seat is closed: its new accesses act under step 2 of R239 (R241). -/
def State.seatRefuses (s : State) (seat : Nat) : Bool := decide (2 ≤ (s.seatSt seat).st)

/-- RM_RING[r] word `w`. -/
def ringReg (r w : Nat) : Nat := 0x00500000 + 32 * r + 4 * w
/-- RM_RING[r].EN. -/
def State.ringEn (s : State) (r : Nat) : Bool := r < 65536 && s.flag (ringReg r 0) 0
/-- RM_RING[r].TYPE. -/
def State.ringType (s : State) (r : Nat) : Nat := s.fld (ringReg r 0) 2 1
/-- The entries of a ring. -/
def State.ringLen (s : State) (r : Nat) : Nat := 2 ^ s.fld (ringReg r 0) 7 3
/-- RM_RING[r].HW_INDEX. -/
def State.hwIndex (s : State) (r : Nat) : Nat := s.fld (ringReg r 6) 15 0
/-- RM_RING[r].SW_INDEX. -/
def State.swIndex (s : State) (r : Nat) : Nat := s.fld (ringReg r 6) 31 16
/-- RM_RING[r].BASE. -/
def State.ringBase (s : State) (r : Nat) : Nat :=
  (s.lv (ringReg r 2)).toNat * 2 ^ 32 + (s.lv (ringReg r 1)).toNat / 64 * 64
/-- RM_RING[r].SHADOW. -/
def State.ringShadow (s : State) (r : Nat) : Nat :=
  (s.lv (ringReg r 4)).toNat * 2 ^ 32 + (s.lv (ringReg r 3)).toNat / 4 * 4
/-- The owner of a ring: seat r/8, or the seat that a valid ST_POOL entry names (R236, R283). -/
def State.ringOwner (s : State) (e : Bool) (r : Nat) : Option Nat :=
  if r < 32768 then some (r / 8)
  else if s.cflag e (0x00320000 + 4 * (r - 32768)) 12 then some (s.cfld e (0x00320000 + 4 * (r - 32768)) 11 0)
  else none
/-- The owner of a ring that is served: bound in the lead set (R283). -/
def State.servedOwner (s : State) (r : Nat) : Option Nat :=
  (s.ringOwner s.leadEpoch r).filter fun k => s.bound s.leadEpoch k
/-- The pool rings of a seat, ascending. -/
def State.poolRings (s : State) (e : Bool) (seat : Nat) : List Nat :=
  ((s.copyOf e).filterMap fun x =>
    if 0x00320000 ≤ x.1 ∧ x.1 < 0x00340000 then some (32768 + (x.1 - 0x00320000) / 4) else none).filter
    fun r => s.ringOwner e r == some seat
/-- The rings a seat owns, ascending (R236). -/
def State.ringsOf (s : State) (e : Bool) (seat : Nat) : List Nat :=
  (List.range 8).map (8 * seat + ·) ++ s.poolRings e seat
/-- The engine state of a ring. -/
def State.ringSt (s : State) (r : Nat) : RingSt := tget {} s.host.ring r
/-- The seat whose work a ring's entries are: an owner that a curtain has replaced, until its work has completed (R237), else the
served owner. -/
def State.workOwner (s : State) (r : Nat) : Option Nat := (s.ringSt r).oldOwner.orElse fun _ => s.servedOwner r
/-- Change the engine state of a ring. -/
def State.modRing (s : State) (r : Nat) (f : RingSt → RingSt) : State :=
  { s with host := { s.host with ring := tmod {} s.host.ring r f } }

end Sys2Proof.Machine
end

