-- ==== Sys2Proof/Machine/Flags.lean ====
section
/-! DEFINITION. Event counters, programmable counters, sticky status, event records: the part's flags. The event
catalogue is R310 and R350; the records are R288, R289 and R351. -/

namespace Sys2Proof.Machine

/-- Tile events by their local index (R310, R350). -/
inductive TEv where
  | pbLos | pbLol | pbQuadLol | pbModeMismatch | pbEgressMps | pbMcNoTarget | pbLinkDown | pbReplayDown | pbPortDrop
  | lkCrcErr | lkFecCorr | lkBadFtype | lkInitMismatch | lkBadKind | lkDupDiscard | lkOosDiscard | lkStaleAck
  | lkTimeout | lkVcRemap | lkStaleCredit | lkDropAtDown | lkRxPartial | lkBadToken | xgWireRepair
  | tlReorderGap | tlFlrWithheld | tlSrcInvalid | tlUnrouted | tlFabricUnreachable | tlFmcLoop
  | apWcDiscard | apContained | apBadSize | apUnmapped | apImportRefused | apRdErr
  | rmWinRetired | rmWinNoOwner | rmNotReadySent | rmRetry | rmBadMtype | rmLateResponse
  | stUnseated | stDbRefused | stBar0Refused | stNoEventRing | stBadVector | puViolation | puHoldFull
  | puHoldTimeout | scInherit | mtWithhold | ctCapLost
  | eccCorr | eccUncorr | eccDrop | setEcc | malformed | ecrcErr | poisonFwd | poisonDrop | unexpCpl | cplTimeout
  | synthCpl | blackoutEnter | blackoutDrop | stopIgnored | xgDown | xgHalf | tileLost | tileDrop | tileReturn
  deriving DecidableEq, Repr

/-- The local index of a tile event. -/
def TEv.idx : TEv → Nat
  | .pbLos => 0 | .pbLol => 1 | .pbQuadLol => 2 | .pbModeMismatch => 3 | .pbEgressMps => 4 | .pbMcNoTarget => 5
  | .pbLinkDown => 6 | .pbReplayDown => 7 | .pbPortDrop => 8
  | .lkCrcErr => 16 | .lkFecCorr => 17 | .lkBadFtype => 18 | .lkInitMismatch => 19 | .lkBadKind => 20
  | .lkDupDiscard => 21 | .lkOosDiscard => 22 | .lkStaleAck => 23 | .lkTimeout => 24 | .lkVcRemap => 25
  | .lkStaleCredit => 26 | .lkDropAtDown => 27 | .lkRxPartial => 28 | .lkBadToken => 29 | .xgWireRepair => 30
  | .tlReorderGap => 40 | .tlFlrWithheld => 41 | .tlSrcInvalid => 42 | .tlUnrouted => 43
  | .tlFabricUnreachable => 44 | .tlFmcLoop => 45
  | .apWcDiscard => 56 | .apContained => 57 | .apBadSize => 58 | .apUnmapped => 59 | .apImportRefused => 60
  | .apRdErr => 61
  | .rmWinRetired => 72 | .rmWinNoOwner => 73 | .rmNotReadySent => 74 | .rmRetry => 75 | .rmBadMtype => 76
  | .rmLateResponse => 77
  | .stUnseated => 88 | .stDbRefused => 89 | .stBar0Refused => 90 | .stNoEventRing => 91 | .stBadVector => 92
  | .puViolation => 93 | .puHoldFull => 94 | .puHoldTimeout => 95 | .scInherit => 96 | .mtWithhold => 97
  | .ctCapLost => 98
  | .eccCorr => 104 | .eccUncorr => 105 | .eccDrop => 106 | .setEcc => 107 | .malformed => 108 | .ecrcErr => 109
  | .poisonFwd => 110 | .poisonDrop => 111 | .unexpCpl => 112 | .cplTimeout => 113 | .synthCpl => 114
  | .blackoutEnter => 115 | .blackoutDrop => 116 | .stopIgnored => 117 | .xgDown => 118 | .xgHalf => 119
  | .tileLost => 120 | .tileDrop => 121 | .tileReturn => 122

/-- The key of a counter: SPACE and NUM (R313). -/
def ctrKey (space num : Nat) : Nat := 4096 * space + num
/-- A counter. -/
def State.ctr (s : State) (space num : Nat) : Ctr := tget {} s.tel.ctr (ctrKey space num)

/-- A counter after `k` more occurrences: 48 bits, wrapping to the remainder with its sticky overflow bit (R312). -/
def Ctr.add (c : Ctr) (k : Nat) : Ctr :=
  if c.n + k < 2 ^ 48 then { c with n := c.n + k } else { n := (c.n + k) % 2 ^ 48, ovf := true }

/-- The occurrences that a capture now may leave out: those of the last 20 ns (R315). -/
def State.freshNow (s : State) : List Fresh := s.tel.fresh.filter fun x => decide (s.tm.now ≤ x.time + 20)
/-- Advance a counter; a wrap owes a CT_WRAP record (R312). -/
def State.bump (s : State) (space num k : Nat) : State :=
  let c := s.ctr space num
  { s with tel := { s.tel with
      ctr := tset {} s.tel.ctr (ctrKey space num) (c.add k)
      fresh := if space = 0 then s.freshNow ++ [{ key := num, time := s.tm.now, n := k, ovf := c.ovf }] else s.tel.fresh
      wraps := if c.n + k < 2 ^ 48 then s.tel.wraps else s.tel.wraps ++ [(space, num)] } }

/-- CT_PROG[k] of a tile. -/
def ctProg (t k : Nat) : Nat := tileBase t + 0xD000 + 4 * k

/-- Whether a programmable counter's selection counts an occurrence (R311). -/
def progCounts (v : Word) (ev : Nat) (port seat : Option Nat) : Bool :=
  field v 6 0 == ev &&
    (match field v 8 7 with
     | 1 => port == some (field v 20 9)
     | 2 => seat == some (field v 20 9)
     | _ => true)

/-- The bit of TL_ERR_STATUS that an event sets (R352). -/
def errBit : TEv → Option Nat
  | .eccCorr => some 0 | .eccUncorr => some 1 | .setEcc => some 2 | .poisonFwd => some 3 | .poisonDrop => some 3
  | .malformed => some 4 | .ecrcErr => some 4 | .unexpCpl => some 5 | .tileLost => some 6 | .xgDown => some 7
  | .xgHalf => some 7 | .stopIgnored => some 8
  | _ => none

/-- Count `k` occurrences of a tile event that concern a port and a seat, where one exists (R310, R311). -/
def State.countN (s : State) (t : Nat) (ev : TEv) (port seat : Option Nat) (k : Nat) : State :=
  if !s.operates t || k == 0 then s
  else
    let s := match errBit ev with
      | some b => s.sticky (tileBase t + 0xE000) b
      | none => s
    (s.bump 0 (256 * t + ev.idx) k).each (List.range 32) fun s j =>
      if progCounts (s.lv (ctProg t j)) ev.idx port seat then s.bump 0 (256 * t + 128 + j) k else s

/-- Count one occurrence. -/
def State.count (s : State) (t : Nat) (ev : TEv) (port : Option Nat := none) (seat : Option Nat := none) : State :=
  s.countN t ev port seat 1

/-- Count an event of the Ilulys die by its local index. -/
def State.countHk (s : State) (idx : Nat) : State := s.bump 0 (256 * 8 + idx) 1

/-- The box-office key of a seat on a tile. -/
def boKey (t seat : Nat) : Nat := 4096 * t + seat
/-- Change a seat's box-office accumulators on a tile (R323); a packet without a seat has none. -/
def State.modBo (s : State) (t : Nat) (seat : Option Nat) (f : Bo → Bo) : State :=
  match seat with
  | none => s
  | some k => { s with tel := { s.tel with bo := tmod {} s.tel.bo (boKey t k) f } }

/-! ### Event records (R288, R289, R451) -/

/-- An event record: its header (R288) and its body from byte 8, padded with zeros to 32 bytes. -/
def State.eventRec (s : State) (type seat tile : Nat) (body : List Byte) : List Byte :=
  let b := leBytes 2 type ++ leBytes 2 (seat % 4096 + 4096 * (tile % 16)) ++ leBytes 4 (s.nsOf tile) ++ body
  (b ++ List.replicate 32 0).take 32

/-- The event records a ring holds or owes: HW_INDEX less SW_INDEX, and those not yet written. -/
def State.ringUsed (s : State) (r : Nat) : Nat :=
  modSub 65536 (s.hwIndex r) (s.swIndex r) + (s.ringSt r).evs.length
/-- Whether an event ring has room for one more record. -/
def State.ringRoom (s : State) (r : Nat) : Bool := decide (s.ringUsed r < s.ringLen r)
/-- Whether a completion ring is full (R287). -/
def State.ringFull (s : State) (r : Nat) : Bool :=
  decide (s.ringLen r ≤ modSub 65536 (s.hwIndex r) (s.swIndex r))
/-- Queue a completion record of a seat's work on a ring; FULL_SEEN where it must wait (R287): for room, or as for a full ring
where the ring is disabled, is not of TYPE 1 or is not the seat's (R283, R237; DEDUCED, log entry 106). -/
def State.pushRec (s : State) (r seat : Nat) (b : List Byte) : State :=
  let s := s.modRing r fun q => { q with recs := q.recs ++ [(seat, b)] }
  if s.ringEn r && s.ringType r == 1 && s.ringOwner s.leadEpoch r == some seat && !s.ringFull r then s
  else s.sticky (ringReg r 7) 1
/-- Queue an event record on a ring. -/
def State.pushEv (s : State) (r : Nat) (b : List Byte) : State := s.modRing r fun q => { q with evs := q.evs ++ [b] }

/-- A seat's event ring: the lowest-numbered enabled TYPE 2 ring it owns while it is bound (R289). -/
def State.eventRing (s : State) (seat : Nat) : Option Nat :=
  if s.bound s.leadEpoch seat then
    (s.ringsOf s.leadEpoch seat).find? fun r => s.ringEn r && s.ringType r == 2
  else none

/-- Put an EV_LOST record on a ring with room whose LOST field counts lost records (R289). -/
def State.flushLost (s : State) (r owner tile : Nat) : State :=
  let lost := s.fld (ringReg r 7) 31 16
  if lost = 0 || !s.ringRoom r then s
  else (s.pushEv r (s.eventRec 0x0021 owner tile (leBytes 4 lost))).setFld (ringReg r 7) 31 16 0

/-- Send an event record to a seat's event ring (R289). -/
def State.sendRecord (s : State) (dst tile : Nat) (b : List Byte) : State :=
  match s.eventRing dst with
  | none => s.count (if tile < 8 then tile else s.seatHome s.leadEpoch dst) .stNoEventRing none (some dst)
  | some r =>
    let s := s.flushLost r dst tile
    if s.ringRoom r then s.pushEv r b
    else s.setFld (ringReg r 7) 31 16 (satAdd 65535 (s.fld (ringReg r 7) 31 16) 1)

/-- Send an event of the given type to a seat's event ring (R289): `concerned` is the header's SEAT. -/
def State.event (s : State) (dst type concerned tile : Nat) (body : List Byte) : State :=
  s.sendRecord dst tile (s.eventRec type concerned tile body)

/-- Whether some tile service link is up: the Ilulys die's events leave it over them (R16). -/
def State.svcUp (s : State) : Bool := !s.ilulysReset && s.present.any fun t => !s.headless t

/-- Send an event that concerns no single seat to seat 0: its header names the ring's owner (R451). A record of the Ilulys die
(`tile` 15) waits there while every service link is down (R16; log entry 111). -/
def State.eventMgr (s : State) (type tile : Nat) (body : List Byte) : State :=
  if tile = 15 && !s.svcUp then
    { s with host := { s.host with dieEvents := s.host.dieEvents ++ [s.eventRec type 0 tile body] } }
  else s.event 0 type 0 tile body

/-- The records that waited in the Ilulys die leave it once a service link is up. -/
def State.dieEventsOut (s : State) : State :=
  if !s.svcUp then s
  else
    let l := s.host.dieEvents
    ({ s with host := { s.host with dieEvents := [] } } : State).each l fun s b => s.sendRecord 0 15 b

end Sys2Proof.Machine
end

