-- ==== Sys2Proof/Machine/FlitOps.lean ====
section
/-! DEFINITION. Flits as they are sent (R94 to R96, R98, R102, R106, R111): the header word, the CRC, the packing of items into
payloads, the flit slots of a VFL port; and the state of links and ports under their register names. -/

namespace Sys2Proof.Machine

/-! ### Links and ports -/

/-- A port's data-link state. -/
def State.portSt (s : State) (port : Nat) : PortSt := tget {} s.ports port
/-- Change a port's data-link state. -/
def State.modPort (s : State) (port : Nat) (f : PortSt → PortSt) : State :=
  { s with ports := tmod {} s.ports port f }
/-- The key of a link's state. -/
def linkKey : Link → Nat
  | .port p => p
  | .xing t g => 2000 + 4 * t + g
/-- A link's state. -/
def State.linkSt (s : State) (l : Link) : LinkSt := tget {} s.links (linkKey l)
/-- Change a link's state. -/
def State.modLink (s : State) (l : Link) (f : LinkSt → LinkSt) : State :=
  { s with links := tmod {} s.links (linkKey l) f }

/-- LK_ block of a VFL port (R120). -/
def lkReg (port o : Nat) : Nat := pbBase (pbOf port) + 0x2000 + 0x40 * (port % 16) + o
/-- LK_STATUS of a VFL port. -/
def lkStatus (port : Nat) : Nat := lkReg port 0x10
/-- XG_CTRL of a crossing's end. -/
def xgCtrl (t g : Nat) : Nat := tileBase t + 0x4000 + 0x100 * g
/-- XG_STATUS of a crossing's end. -/
def xgStatus (t g : Nat) : Nat := xgCtrl t g + 4

/-- Whether a link carries flits. -/
def State.linkUp (s : State) : Link → Bool
  | .port p => s.flag (lkStatus p) 0
  | .xing t g => s.flag (xgStatus t g) 0
/-- The VCs that a VC_COUNT field codes: 2, 4 or 8 (R108). -/
def vcCode (c : Nat) : Nat := if c = 0 then 2 else if c = 1 then 4 else 8
/-- The VC count of a link; 2 on a crossing (R117). -/
def State.vcs (s : State) : Link → Nat
  | .port p => vcCode (s.fld (lkStatus p) 7 6)
  | .xing _ _ => 2
/-- The receive buffer of a VC in blocks (R109, R117): a VFL port's as it was divided at link-up. -/
def State.vcBuf (s : State) (l : Link) (v : Nat) : Nat :=
  match l with
  | .xing _ _ => if v = 0 then 1792 else if v = 1 then 256 else 0
  | .port _ => (s.linkSt l).bufs.getD v 0
/-- The replay buffer of a link in flits (R102, R117): a VFL port's by its width at link-up. -/
def State.replayCap (s : State) : Link → Nat
  | .xing _ _ => 1024
  | .port p => (s.linkSt (.port p)).cap
/-- The cumulative count C of a VC (R110). -/
def State.cOf (s : State) (l : Link) (v : Nat) : Nat := (s.vcBuf l v + tget 0 (s.linkSt l).freed v) % 65536

/-! ### Flits (R95, R96) -/

/-- The fields of a flit header. -/
structure FlitHdr where
  ftype : Nat := 0
  seq : Nat := 0
  ack : Nat := 0
  ackV : Bool := false
  crVc : Nat := 0
  crCount : Nat := 0
  crV : Bool := false
  replay : Bool := false
  first : Nat := 0
  deriving DecidableEq, Repr

/-- The header word of a flit. -/
def FlitHdr.word (h : FlitHdr) : BitVec 64 :=
  BitVec.ofNat 64 (h.ftype % 16 + h.seq % 4096 * 2 ^ 4 + h.ack % 4096 * 2 ^ 16 + b2n h.ackV * 2 ^ 28 + h.crVc % 8 * 2 ^ 29 +
    h.crCount % 65536 * 2 ^ 32 + b2n h.crV * 2 ^ 48 + b2n h.replay * 2 ^ 49 + h.first % 32 * 2 ^ 50)
/-- Bits `hi` to `lo` of a chunk. -/
def chunkFld (c : BitVec 64) (hi lo : Nat) : Nat := c.toNat / 2 ^ lo % 2 ^ (hi + 1 - lo)
/-- The fields of a header word; a receiver ignores the reserved bits. -/
def flitHdr (w : BitVec 64) : FlitHdr :=
  { ftype := chunkFld w 3 0, seq := chunkFld w 15 4, ack := chunkFld w 27 16, ackV := w.getLsbD 28, crVc := chunkFld w 31 29
    crCount := chunkFld w 47 32, crV := w.getLsbD 48, replay := w.getLsbD 49, first := chunkFld w 54 50 }
/-- The CRC-64 of a flit's first 30 words, over bytes 0 to 239. -/
def flitCrc (ws : List (BitVec 64)) : BitVec 64 := crc64 ((ws.take 30).flatMap fun w => leBytes 8 w.toNat)
/-- A flit as its bytes 0 to 247: header, 29 chunks, CRC. The 8 bytes of FEC are not formed: the layout gives neither the field's
polynomial nor the code's generator (log entry 117). -/
def flitWords (h : FlitHdr) (cs : List (BitVec 64)) (inverted : Bool) : List (BitVec 64) :=
  let ws := h.word :: (cs ++ List.replicate 29 0).take 29
  ws ++ [if inverted then ~~~ flitCrc ws else flitCrc ws]

/-! ### Sending -/

/-- The VC whose count a flit carries: the next in turn whose C has changed since last sent, else the next in turn
(R111). -/
def State.crVc (s : State) (l : Link) : Nat :=
  let k := s.linkSt l
  let n := s.vcs l
  let order := (List.range n).map fun i => (k.crTurn + i) % n
  (order.find? fun v => s.cOf l v != tget (s.vcBuf l v % 65536) k.sent v).getD (k.crTurn % n)

/-- Send a DATA flit: fresh ACK and CR fields, and the injections that wait for it (R106, R111, R121). A new flit that SKIP_SEQ
withholds is not sent. -/
def State.sendData (s : State) (l : Link) (seq first : Nat) (replay : Bool) (cs : List (BitVec 64)) : State :=
  let k := s.linkSt l
  if !replay && k.skipSeq then s.modLink l fun k => { k with skipSeq := false }
  else
    let v := s.crVc l
    let c := s.cOf l v
    let h : FlitHdr := {
      ftype := 1, seq := seq, ack := (k.expected + 4095) % 4096, ackV := true, crVc := v, crV := true, replay := replay, first := first
      crCount := if k.staleCredit then tget (s.vcBuf l v % 65536) k.sent v else c }
    let s := s.emit (.linkFlit l (flitWords h cs k.badCrc) k.fecSym)
    s.modLink l fun k => { k with
      sent := tset (s.vcBuf l v % 65536) k.sent v c, crTurn := (v + 1) % s.vcs l, staleCredit := false, fecSym := 0, sinceAck := 0
      badCrc := false, slots := k.slots + 1 }

/-- LK_STATUS.REPLAY_FULL follows the replay buffer (R102). -/
def State.syncFull (s : State) (l : Link) : State :=
  match l with
  | .port p => s.setFlag (lkStatus p) 3 (decide (s.replayCap l ≤ (s.linkSt l).outst.length))
  | .xing _ _ => s

/-- What a payload takes of the items that wait: its chunks, the index of the first tag in it, the packets that end in it, what
is left (R100). -/
structure Packed where
  chunks : List (BitVec 64) := []
  first : Option Nat := none
  pkts : List Packet := []
  rest : List TxItem := []

/-- Pack items back to back into `room` chunks. -/
def pack (room : Nat) : List TxItem → Packed
  | [] => {}
  | i :: is =>
    if room = 0 then { rest := i :: is }
    else if room < i.chunks.length then
      { chunks := i.chunks.take room, first := if i.fresh then some 0 else none
        rest := { i with chunks := i.chunks.drop room, fresh := false } :: is }
    else
      let n := i.chunks.length
      let r := pack (room - n) is
      { chunks := i.chunks ++ r.chunks, first := if i.fresh then some 0 else r.first.map (n + ·)
        pkts := i.pkt.toList ++ r.pkts, rest := r.rest }

/-- The chunks that wait to be sent. -/
def LinkSt.waiting (k : LinkSt) : Nat := k.tx.foldl (fun n i => n + i.chunks.length) 0
/-- Whether a new DATA flit may go: the link runs, nothing is left to resend, the replay buffer has room (R102, R106). -/
def State.canSendData (s : State) (l : Link) : Bool :=
  let k := s.linkSt l
  s.linkUp l && !k.stopped && k.resend.isEmpty && decide (k.outst.length < s.replayCap l)
/-- Send the next new DATA flit; it takes the next SEQ (R102). -/
def State.nextData (s : State) (l : Link) : State :=
  let k := s.linkSt l
  let r := pack 29 k.tx
  let f : TxFlit := { seqNo := k.nextSeq, first := r.first.getD 31, chunks := r.chunks, pkts := r.pkts }
  ((s.sendData l f.seqNo f.first false f.chunks).modLink l fun k => { k with
    nextSeq := (k.nextSeq + 1) % 4096, tx := r.rest, outst := k.outst ++ [f] }).syncFull l
/-- Send new DATA flits, at most as many as given, while at least `least` chunks wait. -/
def State.sendFlits (s : State) (l : Link) (least : Nat) : Nat → State
  | 0 => s
  | f + 1 =>
    if s.canSendData l && decide (least ≤ (s.linkSt l).waiting) && (s.linkSt l).waiting != 0 then (s.nextData l).sendFlits l least f else s
/-- Send every full payload that waits. -/
def State.sendFull (s : State) (l : Link) : State := s.sendFlits l 29 (s.linkSt l).waiting
/-- Send everything that waits, the last flit padded. -/
def State.sendAll (s : State) (l : Link) : State := s.sendFlits l 1 (s.linkSt l).waiting

/-- Resend every outstanding flit in SEQ order before any new one (R106): a VFL port one in each flit slot (REPLAYING), a crossing,
whose slot is a fifth of a nanosecond, at once. -/
def State.resend (s : State) (l : Link) : State :=
  match l with
  | .port p =>
    let s := s.modLink l fun k => { k with resend := k.outst.map (·.seqNo) }
    s.setFlag (lkStatus p) 2 (!(s.linkSt l).outst.isEmpty)
  | .xing _ _ => s.each (s.linkSt l).outst fun s f => s.sendData l f.seqNo f.first true f.chunks
/-- Drop from a replay the flits that are outstanding no more (R106). -/
def State.resendTrim (s : State) (l : Link) : State :=
  let s := s.modLink l fun k => { k with resend := k.resend.filter fun q => k.outst.any fun f => f.seqNo == q }
  match l with
  | .port p => if (s.linkSt l).resend.isEmpty then s.setFlag (lkStatus p) 2 false else s
  | .xing _ _ => s

/-! ### The flit slots of a VFL port (R94, R98) -/

/-- The time of a flit in ns: 2,048 bits over the lanes of the linked width. -/
def State.flitNs (s : State) (port : Nat) : Nat :=
  2048 / max 1 (widthLanes (s.fld (portStatus port) 3 1) * (if s.fld (portStatus port) 6 4 = 5 then 64 else 32))
/-- A slot's flit: the next of a replay, else the next DATA flit, padded when nothing more waits. -/
def State.flitSlot (s : State) (port : Nat) : State :=
  let l := Link.port port
  match (s.linkSt l).resend with
  | q :: qs =>
    let s := match (s.linkSt l).outst.find? fun f => f.seqNo == q with
      | some f => s.sendData l q f.first true f.chunks
      | none => s
    (s.modLink l fun k => { k with resend := qs }).resendTrim l
  | [] => s.sendFlits l 1 1
/-- IDLE flits fill slots with nothing to send. -/
def State.idleFlits (s : State) (port n : Nat) : State :=
  if n = 0 then s
  else
    let l := Link.port port
    (s.emit (.idleFlits port n (s.linkSt l).fecSym)).modLink l fun k => { k with fecSym := 0, slots := k.slots + n }
/-- Fill flit slots: replayed and new flits first, then IDLE. -/
def State.flitSlots (s : State) (port : Nat) : Nat → State
  | 0 => s
  | n + 1 =>
    let k := s.linkSt (.port port)
    if !k.resend.isEmpty || (s.canSendData (.port port) && k.waiting != 0) then (s.flitSlot port).flitSlots port n
    else s.idleFlits port (n + 1)
/-- The slots that pass on the VFL ports that are up while `n` ns pass; a retrain sends nothing. -/
def State.flitsOut (s : State) (n : Nat) : State :=
  s.each (s.links.filter fun x => decide (x.1 < 1024) && s.linkUp (.port x.1) && !x.2.stopped) fun s x =>
    s.flitSlots x.1 ((s.tm.now + n - x.2.base) / s.flitNs x.1 - x.2.slots)

end Sys2Proof.Machine
end

