-- ==== Sys2Proof/Machine/Time.lean ====
section
/-! DEFINITION. Fabric time: the PPS edge and its validity, steps and slews, time-of-day loads, the tiles' slave
counters, and the snapshot mailbox (R23 to R34). -/

namespace Sys2Proof.Machine

/-- TM_CTRL. -/
def tmCtrl : Nat := 0x00030000
/-- TM_STATUS. -/
def tmStatus : Nat := 0x00030004
/-- TM_SLAVE_STATUS of a tile. -/
def slaveStatus (t : Nat) : Nat := tileBase t + 0x3000

/-- Change the time state. -/
def State.modTm (s : State) (f : TimeSt → TimeSt) : State := { s with tm := f s.tm }

/-- The slave counters read on while the master moves by `d` ns: their distance to it changes (R33 case). -/
def State.shiftSlaves (s : State) (d : Int) : State :=
  s.modTm fun m => { m with slaveOff := s.part.tiles.foldl (fun o t => tmod 0 o t (· - 10 * d)) m.slaveOff }

/-- Move the master to `v`: a step or a load (R27, R28). The skipped interval of a forward move is kept for the
minute marks in it (R33). -/
def State.moveFt (s : State) (v : Nat) : State :=
  let old := s.tm.ft
  let s := s.shiftSlaves ((v : Int) - old)
  (s.modTm fun m => { m with ft := v, slew := 0,
                             skipped := if old < v then m.skipped ++ [(old, v)] else m.skipped }).sticky tmStatus 11

/-- Enter Locked when four edges in a row were within 50 ns and the time of day is valid (R25). -/
def State.lockIfDue (s : State) : State :=
  if 4 ≤ s.tm.inRow && s.flag tmStatus 2 then (s.setFlag tmStatus 0 true).setFlag tmStatus 1 false else s

/-- Apply a time-of-day value (R28): it sets TOD_VALID and counts as a step. -/
def State.applyTod (s : State) (v : Nat) : State :=
  (((s.moveFt v).modTm fun m => { m with tod := none }).setFlag tmStatus 2 true).lockIfDue

/-- The phase error at an edge: FT less the nearest whole second; which of two equally near seconds is taken is
free (log entry 5). -/
def State.phaseErr (s : State) : Int :=
  let r := s.tm.ft % nsPerSec
  if r < 500000000 then r
  else if r = 500000000 && s.freeBelow 2 = 0 then r
  else (r : Int) - nsPerSec

/-- Whether an edge that arrives now is valid (R26). -/
def State.edgeValid (s : State) : Bool :=
  match s.tm.lastEdge with
  | none => true
  | some l =>
    let d := s.tm.now - l
    if 2 ≤ s.tm.misses || 2000001000 < d then true
    else (decide (999999000 ≤ d) && decide (d ≤ 1000001000)) || (decide (1999999000 ≤ d) && decide (d ≤ 2000001000))

/-- Remove a measured error (R27): a small one, or a large one without STEP_EN, by slewing; a large one with STEP_EN
by a step, deferred while a curtain is in progress. -/
def State.correct (s : State) (err : Int) : State :=
  if err.natAbs ≤ 1000 ∨ !s.flag tmCtrl 5 then s.modTm fun m => { m with slew := err }
  else if s.curtainState ≠ 0 then s.modTm fun m => { m with slew := err }
  else s.moveFt (lowBits 96 (((s.tm.ft : Int) - err + ftMod) % ftMod))

/-- A valid edge: phase measured, discipline state advanced, load or correction made (R25 to R28). -/
def State.validEdge (s : State) : State :=
  let err := s.phaseErr
  let gap := s.tm.lastEdge.isNone || decide (2 ≤ s.tm.misses)
  let row := if err.natAbs ≤ 50 then (if gap then 1 else s.tm.inRow + 1) else 0
  let s := s.used.modTm fun m => { m with lastEdge := some m.now, misses := 0, inRow := min 4 row }
  let s := (s.setLv 0x00030028 (BitVec.ofInt 32 err)).setFlag tmStatus 3 true
  let s := (s.setLv 0x00030024 s.freeW).used
  let s := s.lockIfDue
  match s.tm.tod with
  | some q => if !q.atOnce && s.curtainState = 0 then s.applyTod q.value else s.correct err
  | none => s.correct err

/-- PPS_EDGE (R26): an edge on TREF_PPS. -/
def ppsEdge (s : State) : State :=
  if s.ilulysReset || !s.pwr.io || !s.flag tmCtrl 6 then s
  else if s.edgeValid then s.validEdge
  else s.countHk 0

/-- PPS_EDGE_MISSING (R26): a window closes with no valid edge; the second miss in a row ends Locked (R25). -/
def ppsEdgeMissing (s : State) : State :=
  if s.ilulysReset || s.tm.lastEdge.isNone || decide (2 ≤ s.tm.misses) then s
  else
    let s := (s.modTm fun m => { m with misses := m.misses + 1, inRow := 0 }).setFlag tmStatus 3 false
    if s.tm.misses = 2 && s.qualified then (s.setFlag tmStatus 0 false).setFlag tmStatus 1 true else s

/-- TREF_CLK_ABSENT (R26). -/
def trefClkAbsent (s : State) : State := if s.ilulysReset then s else s.setFlag tmStatus 4 false
/-- TREF_CLK_PRESENT (R34): CLK10_PRESENT reads 1. -/
def trefClkPresent (s : State) : State := if s.ilulysReset then s else s.setFlag tmStatus 4 true

/-- The FT that three consecutive words give (R33). -/
def State.ftWords (s : State) (o : Nat) : Nat :=
  ftOf (s.lv o).toNat (s.lv (o + 4)).toNat (s.lv (o + 8)).toNat

/-- The effect of TM_CTRL.TOD_LOAD (R28): the value and TOD_NOW are latched, replacing a pending load; with TOD_NOW
and no curtain it is loaded at once. -/
def State.todLoadAct (s : State) : State :=
  let v := s.ftWords 0x00030018
  let now := s.flag tmCtrl 4
  if now && s.curtainState = 0 then s.applyTod v
  else s.modTm fun m => { m with tod := some { value := v, atOnce := now, deferred := s.curtainState ≠ 0 } }

/-- The RW fields of a TM_CTRL write. -/
def State.tmFields (s : State) (v : Word) : State := s.plainWrite tmCtrl v

/-- TOD_LOAD (R28): a write of TM_CTRL with bit 3. -/
def todLoad (v : Word) (s : State) : State :=
  if s.ilulysReset then s
  else
    let s := s.tmFields v
    if bit v 3 then s.todLoadAct else s

/-- DEFERRED_TOD_APPLY (R28): a deferred load with TOD_NOW = 1 is made once the curtain is idle. -/
def deferredTodApply (s : State) : State :=
  match s.tm.tod with
  | some q => if q.atOnce && s.curtainState = 0 && !s.ilulysReset then s.applyTod q.value else s
  | none => s

/-- The error bound of a corrected slave: free within 2 ns, in tenths (R29). -/
def State.freeSlave (s : State) : Int := (s.freeBelow 41 : Int) - 20

/-- The slave offset after a frame (R29, R30): corrected at once, or, after its service link returned, stepped when
the error exceeds 1 µs and else slewed by 100 ppm, 0.1 ns a frame. -/
def State.slaveNext (s : State) (t : Nat) : Int :=
  let off := tget 0 s.tm.slaveOff t
  if tget false s.tm.slewing t && off.natAbs ≤ 10000 then
    (if off.natAbs ≤ 20 then off else if 0 < off then off - 1 else off + 1)
  else s.freeSlave

/-- SYNC_FRAME (R29): a frame with the master FT reaches a tile whose service link is up. -/
def syncFrame (t : Nat) (s : State) : State :=
  if s.ilulysReset || !s.operates t || s.headless t then s
  else
    let off := tget 0 s.tm.slaveOff t
    let nxt := s.slaveNext t
    let near := decide (nxt.natAbs ≤ 20)
    let s := s.used.modTm fun m => { m with slaveOff := tset 0 m.slaveOff t nxt,
                                            slewing := if near then tset false m.slewing t false else m.slewing }
    let s := s.setFld (slaveStatus t) 7 0 (lowBits 8 (clampInt (-127) 127 ((off - nxt).tdiv 10)))
    (s.setFlag (slaveStatus t) 8 (near && s.qualified)).setFlag (slaveStatus t) 9 false

/-- FT_SNAP (R34): a write of TM_FT_SNAP captures the master FT and clears VALID. -/
def ftSnap (s : State) : State :=
  if s.ilulysReset then s
  else (s.setFlag 0x00030008 0 false).modTm fun m => { m with snap := some m.ft }

/-- FT_SNAP_DONE (R34): the capture stands in the three words and VALID is set. -/
def ftSnapDone (s : State) : State :=
  match s.tm.snap with
  | none => s
  | some v =>
    let sec := v / nsPerSec
    let s := (s.setLv 0x0003000C (BitVec.ofNat 32 (sec / 2 ^ 32))).setLv 0x00030010 (BitVec.ofNat 32 sec)
    let s := (s.setLv 0x00030014 (BitVec.ofNat 32 (v % nsPerSec))).setFlag 0x00030008 0 true
    s.modTm fun m => { m with snap := none }

/-! ### The passing of time -/

/-- What a slew takes from the master while `n` ns pass: 1 ns in each 10 µs, which is 100 ppm (R27). -/
def TimeSt.slewed (m : TimeSt) (n : Nat) : Int :=
  m.slew.sign * ((min m.slew.natAbs ((m.now + n) / 10000 - m.now / 10000) : Nat) : Int)

/-- The slaves of headless tiles hold over while `n` ns pass (R20, R30): they do not follow the master's correction, and in each
second each drifts by a free amount of at most 2.5 ns, so that two drift apart by at most 5 ns (log entry 109). -/
def State.holdOver (s : State) (n : Nat) : State :=
  let corr := s.tm.slewed n
  let k := (s.tm.now + n) / nsPerSec - s.tm.now / nsPerSec
  s.each (s.running.filter fun t => s.headless t) fun s t =>
    let d : Int := ((s.freeBelow (50 * k + 1) : Nat) : Int) - 25 * (k : Int)
    (if k = 0 then s else s.used).modTm fun m => { m with slaveOff := tmod 0 m.slaveOff t (· + 10 * corr + d) }

/-- The period in ns of a VFL port's alignment markers (R66): every 65,536 bits of a lane, or 8,192 with VFL_SRIS. -/
def State.markPeriod (s : State) (port : Nat) : Nat :=
  (if s.flag (pbBase (pbOf port) + 0x1090) 20 then 8192 else 65536) / (if s.fld (portStatus port) 6 4 = 5 then 64 else 32)
/-- The markers that the VFL ports at their rate send while `n` ns pass; a port that retrains sends none (R61, R66). -/
def State.markersOut (s : State) (n : Nat) : State :=
  s.each (s.ports.filter fun x => x.2.train == 3 && s.isVfl (s.tileEpoch (tileOf x.1)) x.1 && !(tget {} s.links x.1).stopped)
    fun s x =>
      let at_ := s.tm.now - x.2.upAt
      let k := (at_ + n) / s.markPeriod x.1 - at_ / s.markPeriod x.1
      if k = 0 then s
      else { s with ports := tset {} s.ports x.1 { x.2 with marks := x.2.marks + k } }.emit (.markers x.1 (x.2.marks % 256) k)

/-- `n` ns of the master clock pass: the master and every slave advance, a slew moves the master by 100 ppm (R27), and the VFL
ports send their markers and flits (R66, R94). -/
def State.pass (s : State) (n : Nat) : State :=
  (((s.markersOut n).flitsOut n).holdOver n).modTm fun m => { m with
    now := m.now + n
    ft := lowBits 96 (((m.ft : Int) + n - m.slewed n + ftMod) % ftMod)
    slew := m.slew - m.slewed n }

/-- The counter `see` has reached `at_` (R32): a command that stands for an instant of fabric time says that the instant has come,
so what is missing passes first (log entry 12). A slew can slow the counter, so this is repeated. -/
def State.reach (s : State) (see : State → Nat) (at_ : Nat) : State :=
  s.each (List.range 10) fun s _ => if see s < at_ then s.pass (at_ - see s) else s

/-- A nanosecond passes with no command waiting (log entry 3). -/
def tick (s : State) : State := s.pass 1

/-! ### The meanings -/

/-- PPS_EDGE. -/
def execPpsEdge (s : State) : Out := .next (ppsEdge s)
/-- PPS_EDGE_MISSING. -/
def execPpsEdgeMissing (s : State) : Out := .next (ppsEdgeMissing s)
/-- TREF_CLK_ABSENT. -/
def execTrefClkAbsent (s : State) : Out := .next (trefClkAbsent s)
/-- TREF_CLK_PRESENT. -/
def execTrefClkPresent (s : State) : Out := .next (trefClkPresent s)
/-- TOD_LOAD. -/
def execTodLoad (v : Word) (s : State) : Out := .next (todLoad v s)
/-- DEFERRED_TOD_APPLY. -/
def execDeferredTodApply (s : State) : Out := .next (deferredTodApply s)
/-- SYNC_FRAME. -/
def execSyncFrame (t : Nat) (s : State) : Out := .next (syncFrame t s)
/-- FT_SNAP. -/
def execFtSnap (s : State) : Out := .next (ftSnap s)
/-- FT_SNAP_DONE. -/
def execFtSnapDone (s : State) : Out := .next (ftSnapDone s)

end Sys2Proof.Machine
end

