-- ==== Sys2Proof/Machine/Curtain.lean ====
section
/-! DEFINITION. The two sets and the curtain up to its fall: writes to set fields, understudy reads, arming in two
phases, last call, abort, the query of a cut-off tile, the drained reports (R35 to R44, R450). -/

namespace Sys2Proof.Machine

/-- Change the curtain's state. -/
def State.modCur (s : State) (f : CurtainSt → CurtainSt) : State := { s with cur := f s.cur }
/-- TM_STATUS.CURTAIN_STATE := `n`. -/
def State.setCurtain (s : State) (n : Nat) : State := s.setFld tmStatus 7 6 n
/-- TM_CHECK_STATUS.STATE. -/
def State.checkState (s : State) : Nat := s.fld 0x00030040 1 0
/-- The sensed fuse bits LOCK (R372, R374). -/
def State.lockFuse (s : State) (n : Nat) : Bool := s.boot.sensed.getLsbD (1712 + n)

/-- Whether a LOCK fuse makes the word at an offset ignore writes (R374). -/
def State.locked (s : State) (o : Nat) : Bool :=
  let r := o % 0x01000000
  match offTile o with
  | some _ =>
    (s.lockFuse 0 && r == 0x68000) || (s.lockFuse 1 && decide (0x40000 ≤ r ∧ r < 0x40800)) ||
      (s.lockFuse 5 && decide (0x7000 ≤ r ∧ r < 0x7800))
  | none =>
    (s.lockFuse 2 && o == 0x00050800) ||
      (s.lockFuse 3 && (decide (0x00300000 ≤ o ∧ o < 0x00300010) || o == partCfg (s.seatPart s.leadEpoch 0))) ||
      (s.lockFuse 4 && decide (0x00141000 ≤ o ∧ o < 0x00141800))

/-- Whether a word exists now: its tile is present (R3, R347), its crossing exists (R120), and an LK_ block's port is
a VFL port in either copy (R441). The Ilulys block is closed while that die is in reset (R19); through a tile whose own service link
alone is down it is served, of which the manual says nothing (R16; DESIGN CHOICE, log entry 129). -/
def State.wordHere (s : State) (o : Nat) : Bool :=
  match offTile o with
  | none => if inIlulys o then !s.ilulysReset else true
  | some t =>
    let r := o % 0x01000000
    if !s.here t then false
    else if 0x4000 ≤ r ∧ r < 0x4300 then (s.part.xgOf t ((r - 0x4000) / 0x100)).isSome
    else if 0x00100000 ≤ r ∧ 0x2000 ≤ r % 0x00100000 ∧ r % 0x00100000 < 0x2400 then
      let port := 16 * (8 * t + r / 0x00100000 - 1) + (r % 0x00100000 - 0x2000) / 0x100 * 4
      (s.portEn false port && s.isVfl false port) || (s.portEn true port && s.isVfl true port)
    else true

/-- Live fields of an LK_ block return to reset when neither copy holds a VFL port at its index (R441). -/
def State.lkClean (s : State) : State :=
  { s with live := s.live.filter fun x =>
      x.1 % 0x01000000 < 0x00100000 || x.1 % 0x00100000 < 0x2000 || 0x2400 ≤ x.1 % 0x00100000 || x.1 < 0x01000000 ||
        0x09000000 ≤ x.1 || s.wordHere x.1 }

/-- The set bits of the word at an offset (R36). -/
def setMask (o : Nat) : Word :=
  match regDef o with
  | some d => BitVec.ofNat 32 d.setM
  | none => 0

/-- A write to the set fields of a word (R36): into the understudy copy, unless it does not accept writes. -/
def State.setWrite (s : State) (o : Nat) (v : Word) : State :=
  if setMask o = 0 || !s.wordHere o || s.locked o then s
  else if s.curtainState ≠ 0 || !s.flag tmStatus 8 then s.sticky tmStatus 9
  else
    let u := !s.leadEpoch
    let m := setMask o
    (s.setConf u o ((s.conf u o &&& ~~~m) ||| (v &&& m))).lkClean.setFld 0x00030040 1 0 0

/-- Whether an access path is open: the bridge and the management port are not while the Ilulys die is in reset
(R19, R305), and the bridge is not while VDD_IO is lost (R392). -/
def State.viaOpen (s : State) : Via → Bool
  | .inband _ _ => true
  | .command => true
  | .bridge => !s.ilulysReset && s.pwr.io
  | .mgmtPort => !s.ilulysReset

/-- SET_FIELD_WRITE (R36). -/
def setFieldWrite (via : Via) (o : Nat) (v : Word) (s : State) : State :=
  if s.viaOpen via then s.setWrite o v else s

/-- UNDERSTUDY_READ (R37): a write of TM_US_RD_ADDR starts a read. -/
def understudyRead (v : Word) (s : State) : State :=
  if s.ilulysReset then s
  else (s.setLv 0x00030048 (v &&& 0x0FFFFFFC#32)).modCur fun c => { c with usRead := true }

/-- UNDERSTUDY_READ_DONE (R37, R34): the understudy value, or NOT_SET with data zero. -/
def understudyReadDone (s : State) : State :=
  if !s.cur.usRead || s.ilulysReset then s
  else
    let o := (s.lv 0x00030048).toNat / 4 % 2 ^ 26 * 4
    let isSet := setMask o ≠ 0 && s.wordHere o
    let s := s.setLv 0x0003004C (if isSet then s.conf (!s.leadEpoch) o &&& setMask o else 0)
    let s := s.setLv 0x00030048 (BitVec.ofNat 32 o ||| (if isSet then 1 else 3))
    s.modCur fun c => { c with usRead := false }

/-- The effect of TM_CTRL.CHECK (R38): the check starts, or starts again; ignored while a curtain is in progress. -/
def State.checkAct (s : State) : State :=
  if s.curtainState = 0 then s.setFld 0x00030040 1 0 1 else s

/-- CONSISTENCY_CHECK (R38): a write of TM_CTRL with bit 0. -/
def consistencyCheck (v : Word) (s : State) : State :=
  if s.ilulysReset then s
  else
    let s := s.tmFields v
    if bit v 0 then s.checkAct else s

/-- The first cause of R40, in its order, that refuses an arming; 0 where none does. -/
def State.armCause (s : State) : Nat :=
  if s.curtainState ≠ 0 then 6
  else if s.checkState ≠ 2 then 1
  else if s.ftWords 0x00030030 < s.tm.ft + 20000 then 2
  else if !s.flag tmStatus 8 then 3
  else if s.present.any fun t => s.headless t then 5
  else 0

/-- The effect of TM_CTRL.ARM (R40, R41): a refusal records its cause; an accepted arming sends prepares. -/
def State.armAct (s : State) : State :=
  match s.armCause with
  | 0 => (s.setCurtain 1).modCur fun c => { c with
      tc := s.ftWords 0x00030030, prepSent := s.present, prepAckSent := [], prepAcks := [], commitSent := [],
      commitAckSent := [], commitAcks := [], lastCall := false, held := [], flipped := [], drained := [],
      retired := false }
  | 6 => (s.setFld tmStatus 16 14 6).sticky tmStatus 17
  | k => (s.setFld tmStatus 16 14 k).sticky tmStatus 12

/-- CURTAIN_ARM (R40): a write of TM_CTRL with bit 1. -/
def curtainArm (v : Word) (s : State) : State :=
  if s.ilulysReset then s
  else
    let s := s.tmFields v
    if bit v 1 then s.armAct else s

/-- CURTAIN_PREPARE (R41 step 2): the tile loads the time, sets PREPARED and acknowledges. -/
def curtainPrepare (t : Nat) (s : State) : State :=
  if s.ilulysReset || !s.here t || s.headless t || !s.cur.prepSent.contains t || s.curtainState ≠ 1 then s
  else (s.setFlag (slaveStatus t) 11 true).modCur fun c => { c with
    tileTc := tset 0 c.tileTc t c.tc, prepSent := c.prepSent.erase t, prepAckSent := c.prepAckSent ++ [t] }

/-- Commits go out once every present tile has acknowledged its prepare (R41 step 3). -/
def State.commitIfReady (s : State) : State :=
  if s.curtainState = 1 && (s.cur.commitSent ++ s.cur.commitAckSent ++ s.cur.commitAcks).isEmpty &&
      s.present.all fun t => s.cur.prepAcks.contains t then
    s.modCur fun c => { c with commitSent := s.present }
  else s

/-- CURTAIN_PREPARE_ACK (R41 step 3). -/
def curtainPrepareAck (t : Nat) (s : State) : State :=
  if s.ilulysReset || !s.cur.prepAckSent.contains t then s
  else (s.modCur fun c => { c with prepAckSent := c.prepAckSent.erase t, prepAcks := c.prepAcks ++ [t] }).commitIfReady

/-- CURTAIN_COMMIT (R41 step 4). -/
def curtainCommit (t : Nat) (s : State) : State :=
  if s.ilulysReset || !s.here t || s.headless t || !s.cur.commitSent.contains t || s.curtainState ≠ 1 then s
  else (s.setFlag (slaveStatus t) 12 true).modCur fun c => { c with
    commitSent := c.commitSent.erase t, commitAckSent := c.commitAckSent ++ [t] }

/-- The arming is armed once every present tile has acknowledged its commit (R41 step 5). -/
def State.armedIfReady (s : State) : State :=
  if s.curtainState = 1 && !s.cur.commitAcks.isEmpty && s.present.all fun t => s.cur.commitAcks.contains t then
    s.setCurtain 2
  else s

/-- CURTAIN_COMMIT_ACK (R41 step 5). -/
def curtainCommitAck (t : Nat) (s : State) : State :=
  if s.ilulysReset || !s.cur.commitAckSent.contains t then s
  else (s.modCur fun c => { c with
    commitAckSent := c.commitAckSent.erase t, commitAcks := c.commitAcks ++ [t] }).armedIfReady

/-- Every tile drops its prepared and committed curtain (R41, R43). -/
def State.dropCurtain (s : State) : State :=
  s.each s.running fun s t => (s.setFlag (slaveStatus t) 11 false).setFlag (slaveStatus t) 12 false

/-- The arming ends without a curtain: state idle, ABORTED set (R41, R43). -/
def State.abortCurtain (s : State) : State :=
  let s := (s.dropCurtain.setCurtain 0).sticky tmStatus 12
  s.modCur fun c => { c with prepSent := [], prepAckSent := [], prepAcks := [], commitSent := [], commitAckSent := [],
                             commitAcks := [], lastCall := false }

/-- Whether every present tile holds COMMITTED: the arming is complete (R41). -/
def State.armComplete (s : State) : Bool := s.present.all fun t => s.flag (slaveStatus t) 12

/-- LAST_CALL (R41, R43), 10 µs before the curtain: an incomplete arming is aborted with ARM_ERR 4; a complete one can no longer
be. -/
def lastCall (s : State) : State :=
  if s.ilulysReset || (s.curtainState ≠ 1 && s.curtainState ≠ 2) then s
  else
    let s := s.reach (·.tm.ft) (s.cur.tc - 10000)
    if s.armComplete then s.modCur fun c => { c with lastCall := true }
    else s.abortCurtain.setFld tmStatus 16 14 4

/-- The effect of TM_CTRL.ABORT (R43). -/
def State.abortAct (s : State) : State :=
  if s.curtainState = 0 then s
  else if s.curtainState = 3 || s.cur.lastCall then s.sticky tmStatus 13
  else s.abortCurtain

/-- CURTAIN_ABORT (R43): a write of TM_CTRL with bit 2. -/
def curtainAbort (v : Word) (s : State) : State :=
  if s.ilulysReset then s
  else
    let s := s.tmFields v
    if bit v 2 then s.abortAct else s

/-- CURTAIN_QUERY (R42): a prepared tile that lost its service link keeps the curtain when all present tiles hold
COMMITTED, and drops it otherwise. -/
def curtainQuery (t : Nat) (s : State) : State :=
  if !s.here t || !s.headless t || !s.flag (slaveStatus t) 11 then s
  else if s.armComplete then s
  else (s.setFlag (slaveStatus t) 11 false).setFlag (slaveStatus t) 12 false

/-- CURTAIN_FALL (R44 step 4): a committed tile whose slave counter has reached the time in its comparator stops admitting
headers; the state is draining until step 8, and the understudy accepts no writes. -/
def curtainFall (t : Nat) (s : State) : State :=
  if !s.operates t || !s.flag (slaveStatus t) 12 || s.cur.held.contains t then s
  else (((s.reach (·.tileFt t) (tget 0 s.cur.tileTc t)).setCurtain 3).setFlag tmStatus 8 false).modCur fun c => { c with
    held := c.held ++ [t] }

/-- The epoch of an access held at a disabled unit. -/
def heldEpoch : HeldItem → Option Bool
  | .bar4 _ _ _ e => some e
  | .fence _ _ _ e => some e
  | .work _ _ _ => none

/-- Whether a packet, an open line or a held access of the retiring epoch stands on tile `t` (R44). -/
def State.oldResident (s : State) (t : Nat) : Bool :=
  (s.pkts.any fun p => p.tile == t && p.epoch != s.tileEpoch t) ||
    (s.wc.lines.any fun l => l.tile == t && l.epoch != s.tileEpoch t) ||
    (s.wc.stuck.any fun k => k.tile == t && k.epoch != s.tileEpoch t) ||
    s.pu.held.any fun h => h.tile == t && heldEpoch h.item == some (!s.tileEpoch t)

/-- The old set is retired without force once every present tile has reported (R44 step 6, R47). -/
def State.retireIfDrained (s : State) : State :=
  if !s.cur.retired && !s.cur.drained.isEmpty && s.present.all fun t => s.cur.drained.contains t then
    (s.setLv 0x00030050 0).modCur fun c => { c with retired := true }
  else s

/-- OLD_DRAINED_REPORT (R44 step 6): a flipped tile with no old-epoch packet reports. -/
def oldDrainedReport (t : Nat) (s : State) : State :=
  if !s.here t || !s.cur.flipped.contains t || s.cur.drained.contains t || s.oldResident t then s
  else ((s.setFlag (slaveStatus t) 13 true).modCur fun c => { c with drained := c.drained ++ [t] }).retireIfDrained

/-- COPY_FORWARD_DONE (R44 step 8): the understudy storage equals the new lead set and accepts writes. -/
def copyForwardDone (s : State) : State :=
  if !s.cur.retired then s
  else
    let s := if s.leadEpoch then { s with set0 := s.set1 } else { s with set1 := s.set0 }
    ((s.lkClean.setFlag tmStatus 8 true).setCurtain 0).modCur fun c => { c with
      retired := false, held := [], flipped := [], drained := [], lastCall := false }

/-! ### The meanings -/

/-- SET_FIELD_WRITE. -/
def execSetFieldWrite (via : Via) (o : Nat) (v : Word) (s : State) : Out := .next (setFieldWrite via o v s)
/-- UNDERSTUDY_READ. -/
def execUnderstudyRead (v : Word) (s : State) : Out := .next (understudyRead v s)
/-- UNDERSTUDY_READ_DONE. -/
def execUnderstudyReadDone (s : State) : Out := .next (understudyReadDone s)
/-- CONSISTENCY_CHECK. -/
def execConsistencyCheck (v : Word) (s : State) : Out := .next (consistencyCheck v s)
/-- CURTAIN_ARM. -/
def execCurtainArm (v : Word) (s : State) : Out := .next (curtainArm v s)
/-- CURTAIN_PREPARE. -/
def execCurtainPrepare (t : Nat) (s : State) : Out := .next (curtainPrepare t s)
/-- CURTAIN_PREPARE_ACK. -/
def execCurtainPrepareAck (t : Nat) (s : State) : Out := .next (curtainPrepareAck t s)
/-- CURTAIN_COMMIT. -/
def execCurtainCommit (t : Nat) (s : State) : Out := .next (curtainCommit t s)
/-- CURTAIN_COMMIT_ACK. -/
def execCurtainCommitAck (t : Nat) (s : State) : Out := .next (curtainCommitAck t s)
/-- LAST_CALL. -/
def execLastCall (s : State) : Out := .next (lastCall s)
/-- CURTAIN_ABORT. -/
def execCurtainAbort (v : Word) (s : State) : Out := .next (curtainAbort v s)
/-- CURTAIN_QUERY. -/
def execCurtainQuery (t : Nat) (s : State) : Out := .next (curtainQuery t s)
/-- CURTAIN_FALL. -/
def execCurtainFall (t : Nat) (s : State) : Out := .next (curtainFall t s)
/-- OLD_DRAINED_REPORT. -/
def execOldDrainedReport (t : Nat) (s : State) : Out := .next (oldDrainedReport t s)
/-- COPY_FORWARD_DONE. -/
def execCopyForwardDone (s : State) : Out := .next (copyForwardDone s)

end Sys2Proof.Machine
end

