-- ==== Sys2Proof/Machine/TelOps.lean ====
section
/-! DEFINITION. What telemetry does as packets pass: header capture (R320 to R322) and latency histograms (R318, R319). -/

namespace Sys2Proof.Machine

/-! ### The packet image (R101, R216) -/

/-- The carried header of an engine packet (R216). -/
def engHdrBytes (h : EngHdr) : List Byte :=
  leBytes 4 (h.mtype % 16 + h.reqSeat % 4096 * 16 + b2n h.immV * 2 ^ 16 + h.aop % 8 * 2 ^ 17) ++
  leBytes 4 (h.qpn % 2 ^ 24) ++ leBytes 4 h.keyOrImm.toNat ++
  leBytes 4 (h.dstQpn % 2 ^ 24 + h.code % 256 * 2 ^ 24) ++ leBytes 8 h.rOffset ++
  leBytes 4 (h.wrSlot % 2 ^ 15 + h.ssn % 65536 * 65536) ++ leBytes 4 h.length

/-- The payload of a packet's body. -/
def payload : Body → List Byte
  | .req r => r.data
  | .cfg _ _ _ _ (some w) => leBytes 4 w.toNat
  | .cfg _ _ _ _ none => []
  | .flr _ _ => leBytes 4 0x8000
  | .cpl c => c.data
  | .msg _ d => d
  | .intx _ _ => []
  | .eng _ d => d
  | .mgmt => []

/-- LK_CFG.RO_EN of a VFL port (R172). -/
def State.roEn (s : State) (e : Bool) (port : Nat) : Bool :=
  s.isVfl e port && s.cflag e (pbBase (pbOf port) + 0x2000 + 0x40 * (port % 16)) 4
/-- The Relaxed Ordering attribute of a TLP. -/
def relaxedOf : Body → Bool
  | .req r => r.relaxed
  | .cpl c => c.relaxed
  | _ => false

/-- The Relaxed Ordering and ID-Based Ordering attributes of a TLP. -/
def attrOf : Body → Bool × Bool
  | .req r => (r.relaxed, r.ido)
  | .cpl c => (c.relaxed, c.ido)
  | _ => (false, false)

/-- A packet's full header (R101): the fabric header, and the carried header of its kind. -/
def State.fullHdr (s : State) (p : Packet) : List Byte :=
  let own := s.cfld p.epoch 0x00050800 5 0
  let dst := match p.fmc with
    | some g => g
    | none => if p.target ≠ 0 then p.target else own * 1024 + p.ports.headD 0
  let src := p.sfid.getD (own * 1024 + p.inPort.getD 0)
  let kind := if p.fmc.isSome then 3 else match p.body with
    | .eng _ _ => 1
    | .mgmt => 2
    | _ => 0
  let n := p.len2
  let ro := relaxedOf p.body && !p.ordered && s.roEn p.epoch (p.ports.headD 0)
  let fab := leBytes 2 dst ++ leBytes 2 src ++
    leBytes 4 (kind + b2n p.ordered * 16 + b2n ro * 32 + p.svc % 8 * 64 + n.1 % 16 * 512 + n.2 % 2048 * 8192)
  let hdr := match p.body with
    | .eng h _ => engHdrBytes h
    | _ => ((Config.tlpHeader p.id) ++ List.replicate (4 * n.1) 0).take (4 * n.1)
  fab ++ hdr
/-- The first 64 bytes of a packet's image: header and payload (R322). -/
def State.image (s : State) (p : Packet) : List Byte :=
  (s.fullHdr p ++ payload p.body ++ List.replicate 64 0).take 64

/-! ### Capture units -/

/-- CT_CAP[c] of tile `t`, word `w`. -/
def ctCap (t c w : Nat) : Nat := tileBase t + 0xD100 + 32 * c + 4 * w
/-- The state of a capture unit. -/
def State.cap (s : State) (t c : Nat) : CapSt := tget {} s.tel.cap (4 * t + c)
/-- Change a capture unit. -/
def State.modCap (s : State) (t c : Nat) (f : CapSt → CapSt) : State :=
  { s with tel := { s.tel with cap := tmod {} s.tel.cap (4 * t + c) f } }
/-- The records of a capture ring (R320). -/
def State.capSize (s : State) (t c : Nat) : Nat := 2 ^ (min 11 (s.fld (ctCap t c 0) 9 6) + 4)

/-- Whether a unit's filter matches a packet at a capture point (R320). -/
def State.capMatch (s : State) (t c point : Nat) (p : Packet) (port : Option Nat) : Bool :=
  let w0 := s.lv (ctCap t c 0)
  let w1 := s.lv (ctCap t c 1)
  bit w0 0 && (field w0 1 1 == point) &&
    (bit w0 2 || (port == some (field w1 9 0) && tileOf (field w1 9 0) == t)) &&
    (bit w0 3 || p.seat == some (field w1 21 10)) && bit w0 (13 + p.svc) && (!p.mgmt || bit w0 4)

/-- A capture record (R322). -/
def State.capRecord (s : State) (t point : Nat) (p : Packet) (out : Option Nat) (matched lost : Nat) : List Byte :=
  let ft := s.tileFt t
  let unq := !s.flag (tileBase t + 0x3000) 8
  let col := if p.meter.isSome then 2 else p.colour
  s.image p ++ leBytes 6 (ft / nsPerSec) ++ leBytes 2 0 ++ leBytes 4 (ft % nsPerSec + b2n unq * 2 ^ 30) ++
  leBytes 2 (p.inPort.getD 0x3FF) ++ leBytes 2 (out.getD 0x3FF) ++
  leBytes 2 (p.seat.getD 0 % 4096 + b2n p.seat.isNone * 4096) ++
  leBytes 1 (p.svc % 8 + col % 4 * 8 + b2n p.epoch * 32 + b2n p.ordered * 64 + point * 128) ++ leBytes 1 0 ++
  leBytes 4 p.charged ++ leBytes 4 matched ++ leBytes 4 lost ++ List.replicate 32 0

/-- OUT_PORT of a capture record (R322): at egress the port; at ingress that of a packet formed inside the part, and not yet known of one
that comes in, since its lookup follows (R45; DEDUCED, log entry 128). -/
def Packet.outSeen (p : Packet) (point : Nat) (port : Option Nat) : Option Nat :=
  if point = 1 then port else if p.inPort.isNone then p.ports.head? else none
/-- A packet passes a capture unit whose filter it matches (R321, R322). -/
def State.capOne (s : State) (t c point : Nat) (p : Packet) (port : Option Nat) : State :=
  let q := s.cap t c
  let n := s.fld (ctCap t c 2) 23 0
  let m := satAdd 0xFFFFFFFF q.matched 1
  if q.countdown ≠ 0 then s.modCap t c fun k => { k with countdown := k.countdown - 1, matched := m }
  else
    let reload := if s.flag (ctCap t c 0) 5 then s.freeBelow (2 * n + 1) else n
    let used := modSub 65536 (s.fld (ctCap t c 7) 15 0) (s.fld (ctCap t c 7) 31 16) + q.queue.length
    if 16 ≤ q.queue.length || s.capSize t c ≤ used then
      (s.used.modCap t c fun k => { k with countdown := reload, matched := m, lost := satAdd 0xFFFFFFFF k.lost 1 }).count t
        .ctCapLost
    else
      let r := s.capRecord t point p (p.outSeen point port) m q.lost
      s.used.modCap t c fun k => { k with countdown := reload, matched := 0, lost := 0, queue := k.queue ++ [r] }

/-- A packet passes a capture point of a tile (R320): 0 ingress, 1 egress. -/
def State.capture (s : State) (t point : Nat) (p : Packet) (port : Option Nat) : State :=
  s.each (List.range 4) fun s c => if s.capMatch t c point p port then s.capOne t c point p port else s

/-! ### The collector (R324) -/

/-- The collector tile: CT_BO_CFG.COLLECTOR, or the lowest-numbered present tile where that one is absent or lost. -/
def State.collector (s : State) : Nat :=
  let c := s.fld 0x00070020 9 7
  if s.here c then c else s.present.headD 0
/-- What is lost with the collector: the records not yet written, and what was summed for them (R327). -/
def State.collectorLost (s : State) : State :=
  { s with tel := { s.tel with recs := [], sum := [], steps := (0, 0), collecting := false } }

/-! ### Histograms -/

/-- CT_HIST_CFG[h] of tile `t`. -/
def ctHist (t h : Nat) : Nat := tileBase t + 0xD080 + 4 * h
/-- The bucket of a latency (R319): the number of boundaries ⌊32 × 2^(k/2)⌋ at or below it. -/
def bucketOf (l : Nat) : Nat := (List.range 31).countP fun k => decide (2 ^ (10 + k) < (l + 1) * (l + 1))
/-- Measure a packet that has left on a port (R318). -/
def State.measure (s : State) (port : Nat) (p : Packet) (lat : Nat) : State :=
  let t := tileOf port
  if p.mgmt then s
  else s.each (List.range 8) fun s h =>
    let w := s.lv (ctHist t h)
    if bit w 0 && field w 21 12 == port && bit w (22 + p.svc) && (bit w 1 || p.inPort == some (field w 11 2)) then
      s.bump 4 (256 * t + 32 * h + bucketOf lat) 1
    else s

end Sys2Proof.Machine
end

