-- ==== Sys2Proof/Machine/Meter.lean ====
section
/-! DEFINITION. Rate words and buckets (R265, R266), ingress meters and red queues (R273 to R276), and the entry of every
packet into the core: coloured on the tile where it is stamped, then admitted. -/

namespace Sys2Proof.Machine

/-! ### Rates and buckets (R265, R266) -/

/-- What a bucket gains in a round, in units of 2^-20 byte. -/
def rateGain (w : Word) : Nat := if bit w 19 then field w 18 0 else field w 18 0 * 4096
/-- Whether a rate word gives a rate. -/
def rateSet (w : Word) : Bool := field w 19 0 != 0
/-- A burst of `b` units of 64 bytes, at least 17 units, in units of 2^-20 byte. -/
def burstOf (b : Nat) : Nat := max 17 b * 64 * 2 ^ 20
/-- Bytes in bucket units. -/
def tokens (bytes : Nat) : Nat := bytes * 2 ^ 20

/-- The key of a bucket: kind 0 port, 1 and 2 default node, 3 and 4 seat node, 5 and 6 service node, 7 and 8 meter,
committed before peak. -/
def bucketKey (kind idx : Nat) : Nat := kind * 2 ^ 24 + idx
/-- What a bucket lacks of full. -/
def State.missing (s : State) (k : Nat) : Nat := tget 0 s.sch.missing k
/-- Change the scheduler's state. -/
def State.modSch (s : State) (f : SchedSt → SchedSt) : State := { s with sch := f s.sch }
/-- Take tokens from a bucket. -/
def State.debit (s : State) (k n : Nat) : State := s.modSch fun c => { c with missing := tmod 0 c.missing k (· + n) }
/-- Give tokens to a bucket, up to full. -/
def State.credit (s : State) (k n : Nat) : State := s.modSch fun c => { c with missing := tmod 0 c.missing k (· - n) }

/-! ### Meters (R273, R274) -/

/-- MT_METER[m] of tile `t`, word `w`. -/
def meterReg (t m w : Nat) : Nat := tileBase t + 0x20000 + 16 * m + 4 * w
/-- The meters of tile `t` with a word listed in the copy of epoch `e`. -/
def State.meters (s : State) (e : Bool) (t : Nat) : List Nat :=
  ((s.copyOf e).filterMap fun y =>
    if meterReg t 0 0 ≤ y.1 ∧ y.1 < meterReg t 8192 0 then some ((y.1 - meterReg t 0 0) / 16) else none).eraseDups
/-- The meter of a seat's class on a tile. -/
def State.meterOf (s : State) (e : Bool) (t seat cls : Nat) : Option Nat :=
  (s.meters e t).find? fun m => s.cflag e (meterReg t m 0) 0 && s.cfld e (meterReg t m 0) 27 16 == seat &&
    s.cflag e (meterReg t m 0) (2 + cls)
/-- The committed burst and the peak or excess burst of a meter. -/
def State.meterBursts (s : State) (e : Bool) (t m : Nat) : Nat × Nat :=
  (burstOf (s.cfld e (meterReg t m 3) 15 0), burstOf (s.cfld e (meterReg t m 3) 31 16))
/-- The buckets of a meter: committed, and peak or excess. -/
def meterKeys (t m : Nat) : Nat × Nat := (bucketKey 7 (8192 * t + m), bucketKey 8 (8192 * t + m))

/-- Whether a bucket of burst `full` holds `n` tokens. -/
def State.holds (s : State) (k full n : Nat) : Bool := decide (s.missing k + n ≤ full)

/-- Colour a packet of `len` bytes by a meter (R274): 0 green, 1 yellow, 2 red; tokens are taken. A peak rate word of 0
sets no limit (R265). -/
def State.colour (s : State) (e : Bool) (t m len : Nat) : State × Nat :=
  let n := tokens len
  let b := s.meterBursts e t m
  let k := meterKeys t m
  if s.cflag e (meterReg t m 0) 1 then
    if s.holds k.1 b.1 n then (s.debit k.1 n, 0)
    else if s.holds k.2 b.2 n then (s.debit k.2 n, 1)
    else (s, 2)
  else
    let lim := rateSet (s.conf e (meterReg t m 2))
    let pay := fun (s : State) => if lim then s.debit k.2 n else s
    if lim && !s.holds k.2 b.2 n then (s, 2)
    else if !s.holds k.1 b.1 n then (pay s, 1)
    else ((pay s).debit k.1 n, 0)

/-- Refill a meter's buckets by one round (R266, R274): in mode 1 the committed bucket's overflow fills the excess one. -/
def State.refillMeter (s : State) (e : Bool) (t m : Nat) : State :=
  let k := meterKeys t m
  let g := rateGain (s.conf e (meterReg t m 1))
  if s.cflag e (meterReg t m 0) 1 then
    let excess := g - s.missing k.1
    (s.credit k.1 g).credit k.2 excess
  else (s.credit k.1 g).credit k.2 (rateGain (s.conf e (meterReg t m 2)))

/-! ### Red queues and withholding (R275, R276) -/

/-- The packets in a meter's red queue, the head first. -/
def State.redQueue (s : State) (t m : Nat) : List Packet :=
  s.pkts.filter fun p => p.tile == t && p.meter == some m && p.colour == 2
/-- A seat's red backlog on a tile, in cells. -/
def State.backlog (s : State) (t seat : Nat) : Nat :=
  s.pkts.foldl (fun n p => if p.tile == t && p.loc == .red && p.seat == some seat then n + p.cells else n) 0
/-- Whether ingress is withheld for a seat on a tile. -/
def State.withheld (s : State) (t seat : Nat) : Bool := s.sch.withheld.contains (4096 * t + seat)

/-- MT_STATUS of a tile. -/
def mtStatus (t : Nat) : Nat := tileBase t + 0xB010

/-- Withholding starts above RED_HI and ends at RED_LO, which acts as RED_HI when it is larger. -/
def State.setWithheld (s : State) (t seat : Nat) : State :=
  let hi := s.fld (tileBase t + 0xB000) 15 0
  let lo := min hi (s.fld (tileBase t + 0xB000) 31 16)
  let n := s.backlog t seat
  if s.withheld t seat then
    if n ≤ lo then s.modSch fun c => { c with withheld := c.withheld.filter (· != 4096 * t + seat) } else s
  else if hi < n then
    ((s.modSch fun c => { c with withheld := c.withheld ++ [4096 * t + seat] }).count t .mtWithhold none (some seat)).sticky
      (mtStatus t) 0
  else s

/-- A packet leaves colouring green or yellow (R323). -/
def State.countColour (s : State) (t : Nat) (seat : Option Nat) (c len : Nat) : State :=
  s.modBo t seat fun b => if c = 0 then { b with green := b.green + len } else { b with yellow := b.yellow + len }

/-- Stamp a packet on its tile and hand it to the core (R125, R260, R273 to R275): a seated tenant packet is coloured by its
meter, or joins the meter's red queue; an unmetered one, of the management class too (R261, R323), counts as green. -/
def State.ingress (s : State) (p : Packet) : State :=
  let s := s.capture p.tile 0 p p.inPort
  match p.seat with
  | none => s.enter p
  | some k =>
    let len := p.charged
    match (if p.mgmt then none else s.meterOf p.epoch p.tile k p.svc) with
    | none => (s.enter p).countColour p.tile (some k) 0 len
    | some m =>
      let (s, c) := if (s.redQueue p.tile m).isEmpty then s.colour p.epoch p.tile m len else (s, 2)
      if c = 2 then (s.enter { p with colour := 2, meter := some m }).setWithheld p.tile k
      else (s.enter { p with colour := c }).countColour p.tile (some k) c len

end Sys2Proof.Machine
end

