-- ==== Sys2Proof/Machine/RingOps.lean ====
section
/-! DEFINITION. Blackout as seen by the engines, requests that the part forms itself, and the packets it sends:
cuts at Max_Payload_Size, Max_Read_Request_Size and 4 KiB (R294), the fabric function as requester (R157), replies. -/

namespace Sys2Proof.Machine

/-! ### The route table (R164 to R166) -/

/-- A fabric ID: switch number and port number (R164). -/
def fidOf (sw port : Nat) : Nat := sw % 64 * 1024 + port % 1024
/-- The switch number of a fabric ID. -/
def fidSw (f : Nat) : Nat := f / 1024 % 64
/-- TL_ROUTE[k] of tile `t`, word `w`. -/
def routeReg (t k w : Nat) : Nat := tileBase t + 0x7000 + 32 * k + 4 * w
/-- TL_ROUTE_LIVE[k] of tile `t`. -/
def routeLive (t k : Nat) : Nat := tileBase t + 0x7800 + 4 * k
/-- TL_ROUTE[k].COUNT, at most 8. -/
def State.hopCount (s : State) (e : Bool) (t k : Nat) : Nat := min 8 (s.cfld e (routeReg t k 0) 3 0)
/-- TL_ROUTE[k].HOP i. -/
def State.hop (s : State) (e : Bool) (t k i : Nat) : Nat :=
  field (s.conf e (routeReg t k (1 + i / 2))) (9 + 16 * (i % 2)) (16 * (i % 2))
/-- Whether hop `i` of entry `k` is live (R166). -/
def State.hopLive (s : State) (t k i : Nat) : Bool := s.flag (routeLive t k) i
/-- The slot of a source and destination pair (R165 steps 1 and 2). -/
def routeSlot (src dst : Nat) : Nat :=
  let h := src ^^^ dst
  (h % 64) ^^^ (h / 64 % 64) ^^^ (h / 4096 % 16)
/-- The next hop toward switch `fidSw dst` (R165): none where no hop is live. -/
def State.nextHop (s : State) (e : Bool) (t src dst : Nat) : Option Nat :=
  let k := fidSw dst
  let n := s.hopCount e t k
  let j := routeSlot src dst
  let live := (List.range n).filter fun i => s.hopLive t k i
  if n = 0 || live.isEmpty then none
  else if s.hopLive t k (j % n) then some (s.hop e t k (j % n))
  else (live[j / n % live.length]?).map fun i => s.hop e t k i

/-! ### Blackout as a predicate (R334) -/

/-- The key of a stop's target at a tile: kind 0 port, 1 partition, 2 seat. -/
def stopKey (tile kind num : Nat) : Nat := (tile * 4 + kind) * 4096 + num
/-- The stamp of a target to which no stop has been applied. -/
def noStop : StopStamp := { ft := 0, tile := 0, on := false }
/-- Whether tile `t` holds the manager's blackout of a target (R300). -/
def State.mgrHolds (s : State) (t kind num : Nat) : Bool := (tget noStop s.host.stamps (stopKey t kind num)).on
/-- Whether a port is in blackout: a manager or a DPC holder (R334). -/
def State.portBlack (s : State) (port : Nat) : Bool :=
  s.mgrHolds (tileOf port) 0 port || tget false s.cont.dpc port
/-- Whether the upstream holder of a partition is set as tile `t` sees it (R334): a tile that is cut off holds every partition
whose upstream port is elsewhere, and its own where that port is down or stopped (R346, R347; log entry 25). -/
def State.upHeld (s : State) (t p : Nat) : Bool :=
  if s.cont.cut.contains t then
    let up := s.upPort (s.tileEpoch t) p
    tileOf up != t || !s.dlActive up || s.mgrHolds t 0 up
  else tget false s.cont.upstream p
/-- Whether a partition is in blackout as tile `t` sees it: manager or upstream holder (R334). -/
def State.partBlack (s : State) (t p : Nat) : Bool :=
  s.mgrHolds t 1 p || s.upHeld t p
/-- Whether a seat is in blackout as tile `t` sees it: its own, or its partition's (R334). -/
def State.seatBlack (s : State) (t seat : Nat) : Bool :=
  s.mgrHolds t 2 seat || (s.bound s.leadEpoch seat && s.partBlack t (s.seatPart s.leadEpoch seat))
/-- A port that is up: its link is active and it is not in blackout. -/
def State.portUp (s : State) (port : Nat) : Bool := s.dlActive port && !s.portBlack port

/-! ### A ring that stops (R286) -/

/-- A ring's fetch has failed: fetching stops, FETCH_ERR is set, RING_FAULT goes to the owner and to seat 0. -/
def State.ringFail (s : State) (r cause : Nat) : State :=
  let s := (s.modRing r fun q => { q with fetching := false }).sticky (ringReg r 7) 2
  match s.servedOwner r with
  | none => s
  | some k =>
    let t := s.seatHome s.leadEpoch k
    let b := leBytes 2 r ++ leBytes 1 cause ++ leBytes 1 0 ++ leBytes 2 (s.hwIndex r)
    let s := s.event k 0x0020 k t b
    if k = 0 then s else s.event 0 0x0020 k t b

/-! ### Sending -/

/-- Cut a range at `mx` bytes and at 4 KiB boundaries (R294). -/
def cuts : Nat → Nat → Nat → Nat → List (Nat × Nat)
  | 0, _, _, _ => []
  | f + 1, a, n, mx =>
    if n = 0 then []
    else
      let k := min n (min (max mx 1) (4096 - a % 4096))
      (a, k) :: cuts f (a + k) (n - k) mx

/-- A plain request of the part's own, with every byte enabled. -/
def ownReq (kind : ReqKind) (addr len : Nat) (data : List Byte) (rid : Nat) (pasid : Option Nat) (tc : Nat) : Req :=
  { kind := kind, addr := BitVec.ofNat 64 addr, len := len, data := data, be := List.replicate data.length true,
    rid := rid, tag := 0, pasid := pasid, tc := tc, relaxed := false, poisoned := false, atBits := 0,
    malformed := false, ecrcBad := false, mc := none }

/-- The class of engine packets of a tile, MT_CLASS_MAP.ENG_CLASS (R259). -/
def State.engClass (s : State) (t : Nat) : Nat := s.fld (tileBase t + 0xB004) 2 0
/-- The class of aperture-unit packets of a tile, MT_CLASS_MAP.AP_CLASS (R259). -/
def State.apClass (s : State) (t : Nat) : Nat := s.fld (tileBase t + 0xB004) 5 3

/-- Whether a tile's upstream requests for partition `p` can be issued: Bus Master Enable, upstream port (R280). -/
def State.canIssue (s : State) (p : Nat) : Bool := (s.fab p).bme

/-- What a packet formed at tile `t` carries beside its body: a destination, a stream, a seat. -/
structure Forming where
  tile : Nat
  dest : Nat
  ports : List Nat
  src : Nat
  part : Option Nat
  seat : Option Nat
  mgmt : Bool
  epoch : Bool
  svc : Nat
  origin : Origin
  purpose : Purpose
  rRid : Nat := 0
  rTag : Nat := 0
  ordered : Bool := true
  target : Nat := 0

/-- Form a packet at a tile and hand it to the core: the engine's channel, or the management channel (R12). -/
def State.form (s : State) (f : Forming) (cls : PClass) (b : Body) : State :=
  s.ingress { id := 0, cls := cls, body := b, origin := f.origin, purpose := f.purpose, rRid := f.rRid, rTag := f.rTag,
              part := f.part, epoch := f.epoch, mgmt := f.mgmt, ordered := f.ordered, seat := f.seat, svc := f.svc,
              stamp := s.tileFt f.tile, tile := f.tile, srcTile := f.tile, src := f.src,
              chan := if f.mgmt then 39 else 38, dest := f.dest, ports := f.ports, target := f.target }

/-- The forming of a request of the part's own on a partition's upstream port (R157, R282). -/
def State.upForm (s : State) (e : Bool) (t p : Nat) (seat : Option Nat) (mgmt : Bool) (svc : Nat) (pu : Purpose) :
    Forming :=
  let up := s.upPort e p
  { tile := t, dest := pbOf up, ports := [up], src := 1024 + t, part := some p, seat := seat, mgmt := mgmt,
    epoch := e, svc := svc, origin := .self p, purpose := pu }

/-- Discard `n` bytes of a posted write of the part's own that cannot be issued (R280, R333). -/
def State.dropOwn (s : State) (t : Nat) (port seat : Option Nat) (n : Nat) : State :=
  (s.count t .blackoutDrop port seat).modBo t seat fun b => { b with discard := b.discard + n }

/-- Write bytes into a partition's host memory, as posted writes of its fabric function in service class `svc` (R294). The
last of them carries `pu`. -/
def State.hostWriteAs (s : State) (svc : Nat) (e : Bool) (t p : Nat) (seat : Option Nat) (mgmt : Bool) (pasid : Option Nat)
    (pu : Purpose) (addr : Nat) (data : List Byte) : State :=
  if !s.canIssue p then s.dropOwn t (some (s.upPort e p)) seat (16 + data.length)
  else
    let cs := cuts (data.length + 1) addr data.length (s.mps p)
    s.each cs.zipIdx fun s c =>
      let a := c.1.1
      let d := (data.drop (a - addr)).take c.1.2
      s.form (s.upForm e t p seat mgmt svc (if c.2 + 1 = cs.length then pu else .write)) .posted
        (.req (ownReq .memWrite a c.1.2 d (s.ffRid p) pasid svc))
/-- The same in the class of engine packets (R259). -/
def State.hostWrite (s : State) (e : Bool) (t p : Nat) (seat : Option Nat) (mgmt : Bool) (pasid : Option Nat)
    (pu : Purpose) (addr : Nat) (data : List Byte) : State :=
  s.hostWriteAs (s.engClass t) e t p seat mgmt pasid pu addr data

/-- Read bytes of a partition's host memory: non-posted requests of its fabric function (R294). -/
def State.hostRead (s : State) (e : Bool) (t p : Nat) (seat : Option Nat) (mgmt : Bool) (pasid : Option Nat)
    (pu : Purpose) (addr len : Nat) : State :=
  s.each (cuts (len + 1) addr len (s.mrrs p)) fun s c =>
    s.form (s.upForm e t p seat mgmt (s.engClass t) pu) .nonPosted
      (.req (ownReq .memRead c.1 c.2 [] (s.ffRid p) pasid (s.engClass t)))

/-! ### Replies (R157, R332) -/

/-- The port on which an origin's completions leave tile `t`, and the fabric ID they are sent to over VFL: the partition's upstream
port, the function's port, the way back to the part that the request came from. `src` is the port of the completion's SRC_FID
(R165); none where no next hop is live (R166). -/
def State.replyWay (s : State) (t : Nat) (e : Bool) (src : Nat) : Origin → Option (Nat × Nat)
  | .host p => some (s.upPort e p, 0)
  | .func f =>
    let d := s.bindVdp e f
    let fid := fidOf (s.vdpSw e (s.bindPart e f) d) (s.bindPort e f)
    if s.vdpLocal e (s.bindPart e f) d then some (s.bindPort e f, 0)
    else (s.nextHop e t (fidOf (s.switchNum e) src) fid).map fun h => (h, fid)
  | .port port => some (port, 0)
  | .vfl _ fid => (s.nextHop e t (fidOf (s.switchNum e) src) fid).map fun h => (h, fid)
  | .self p => some (s.upPort e p, 0)

/-- The completer ID of a completion of the part's own (R157): the fabric function's toward its host, the proxy RID toward a
function; free toward another part, where the manual names no partition. -/
def State.ownCid (s : State) (e : Bool) : Origin → Nat
  | .host p => s.ffRid p % 65536
  | .func f => s.proxyRid e (s.bindPart e f) % 65536
  | .self p => s.ffRid p % 65536
  | .port _ => s.freeBelow 65536
  | .vfl _ _ => s.freeBelow 65536

/-- Form a completion with completer ID `cid` at tile `t` for a non-posted request of `origin` (R332): with the original
requester ID and tag. One that no live hop can carry is discarded and counted (R166). -/
def State.replyBy (s : State) (t : Nat) (e mgmt : Bool) (o : Origin) (cid rid tag tc : Nat) (st : CplStatus)
    (data : List Byte) (addr : Addr := 0) (last : Bool := true) (attr : Bool × Bool := (false, false)) : State :=
  match s.replyWay t e 0 o with
  | none => s.count t .tlFabricUnreachable
  | some w =>
  s.form { tile := t, dest := pbOf w.1, ports := [w.1], src := 1040 + t, part := none, seat := none, mgmt := mgmt, epoch := e,
           svc := tc, origin := o, purpose := .forward, rRid := rid, rTag := tag, target := w.2 } .cpl
    (.cpl { rid := rid, tag := tag, cid := cid, relaxed := attr.1, status := st, poisoned := false, addr := addr, data := data,
            last := last, ido := attr.2 })
/-- A completion of the part's own. -/
def State.reply (s : State) (t : Nat) (e mgmt : Bool) (o : Origin) (rid tag tc : Nat) (st : CplStatus)
    (data : List Byte) : State := s.replyBy t e mgmt o (s.ownCid e o) rid tag tc st data

/-- The requester ID of a partition's virtual upstream port, as its host numbers it (R149). -/
def State.upRid (s : State) (p : Nat) : Nat := (s.vport p 32).prim % 256 * 256
/-- The completer ID of a UR that the part forms for a request (R332): toward a host the virtual downstream port's through which it
would have left, or the virtual upstream port's where it goes up or to another part; else as R157 has it. -/
def State.synthCid (s : State) (e : Bool) (o : Origin) (port : Option Nat) : Nat :=
  match o with
  | .host p => (match port.bind (s.vdpOf e p) with
    | some d => (s.vport p 32).sec * 256 + 8 * d
    | none => s.upRid p) % 65536
  | _ => s.ownCid e o
/-- A UR that the part forms for a request that would leave through `port`, with the request's attributes (R332). -/
def State.replyUr (s : State) (t : Nat) (e mgmt : Bool) (o : Origin) (rid tag tc : Nat) (port : Option Nat) (attr : Bool × Bool) :
    State := s.replyBy t e mgmt o (s.synthCid e o port) rid tag tc .ur [] 0 true attr
/-- A synthetic completion with status UR (R332), counted at the tile that forms it. -/
def State.synthUr (s : State) (t : Nat) (e mgmt : Bool) (o : Origin) (rid tag tc : Nat) (port : Option Nat := none)
    (attr : Bool × Bool := (false, false)) : State :=
  (s.count t .synthCpl).replyUr t e mgmt o rid tag tc port attr

/-- The data of a read the part cannot complete from its target: every byte 0xFF (R192). -/
def allOnes (n : Nat) : List Byte := List.replicate n 0xFF#8

end Sys2Proof.Machine
end

