-- ==== Sys2Proof/Machine/Maps.lean ====
section
/-! DEFINITION. Address map entries (R159), aperture entries and their targets (R190). -/

namespace Sys2Proof.Machine

/-! ### Address map (R159) -/

/-- The BAR value a host has written for an address map entry, without its type bits. -/
def State.barBase (s : State) (e : Bool) (x : Nat) : Nat :=
  (tget 0 s.hv.amBar x).toNat / 2 ^ s.amapLog2 e x * 2 ^ s.amapLog2 e x
/-- Whether `[b, b + n)` lies wholly in a bridge's memory or prefetchable window. -/
def VPort.covers (v : VPort) (b n : Nat) : Bool :=
  (decide (v.memBase ≤ b ∧ b + n ≤ v.memLimit + 1)) || (decide (v.prefBase ≤ b ∧ b + n ≤ v.prefLimit + 1))
/-- Whether an address map entry is active (R159). -/
def State.amapActive (s : State) (e : Bool) (x : Nat) : Bool :=
  let f := s.amapFunc e x
  let v := s.vport (s.bindPart e f) (s.bindVdp e f)
  s.amapValid e x && s.bindValid e f && s.vdpPresents e (s.bindPart e f) (s.bindVdp e f) && tget false s.hv.bindMse f && v.mse &&
    v.covers (s.barBase e x) (2 ^ s.amapLog2 e x)
/-- The active entry of partition `p` that covers host address `a`. -/
def State.amapHit (s : State) (e : Bool) (p a : Nat) : Option Nat :=
  (s.amapEntries e).find? fun x => s.amapActive e x && s.bindPart e (s.amapFunc e x) == p &&
    decide (s.barBase e x ≤ a ∧ a < s.barBase e x + 2 ^ s.amapLog2 e x)
/-- The internal address of a host address in an active entry (R159). -/
def State.amapTo (s : State) (e : Bool) (x a : Nat) : Nat := s.amapBase e x + (a - s.barBase e x)
/-- The function of partition `p` whose active entry covers an internal address (R190). -/
def State.amapInternal (s : State) (e : Bool) (p t : Nat) : Option Nat :=
  ((s.amapEntries e).find? fun x => s.amapActive e x && s.bindPart e (s.amapFunc e x) == p &&
    decide (s.amapBase e x ≤ t ∧ t < s.amapBase e x + 2 ^ s.amapLog2 e x)).map (s.amapFunc e)

/-! ### Aperture entries (R188 to R190, R204) -/

/-- AP_ENT[x] of tile `t`, word `w`. -/
def apReg (t x w : Nat) : Nat := tileBase t + 0x00080000 + 32 * x + 4 * w
/-- AP_ENT.TYPE = device. -/
def State.apDevice (s : State) (e : Bool) (t x : Nat) : Bool := s.cflag e (apReg t x 0) 1
/-- AP_ENT.TGT_KIND. -/
def State.apKind (s : State) (e : Bool) (t x : Nat) : Nat := s.cfld e (apReg t x 0) 2 2
/-- AP_ENT.PART. -/
def State.apPart (s : State) (e : Bool) (t x : Nat) : Nat := s.cfld e (apReg t x 0) 19 12
/-- AP_ENT.T_PART. -/
def State.apTPart (s : State) (e : Bool) (t x : Nat) : Nat := s.cfld e (apReg t x 0) 27 20
/-- AP_ENT.SIZE_LOG2. -/
def State.apLog2 (s : State) (e : Bool) (t x : Nat) : Nat := s.cfld e (apReg t x 0) 11 6
/-- AP_ENT.BAR4_OFS in bytes. -/
def State.apOfs (s : State) (e : Bool) (t x : Nat) : Nat := s.cfld e (apReg t x 1) 27 0 * 4096
/-- AP_ENT.T_ADDR. -/
def State.apAddr (s : State) (e : Bool) (t x : Nat) : Nat :=
  (s.conf e (apReg t x 3)).toNat * 2 ^ 32 + (s.conf e (apReg t x 2)).toNat / 4096 * 4096
/-- AP_ENT.T_SW. -/
def State.apSw (s : State) (e : Bool) (t x : Nat) : Nat := s.cfld e (apReg t x 4) 5 0
/-- AP_ENT.T_PORT. -/
def State.apTPort (s : State) (e : Bool) (t x : Nat) : Nat := s.cfld e (apReg t x 4) 15 6
/-- Whether an entry is in use on tile `t` (R188). -/
def State.apUsed (s : State) (e : Bool) (t x : Nat) : Bool :=
  let p := s.apPart e t x
  x < 16384 && s.cflag e (apReg t x 0) 0 && s.partEn e p && s.homeTile e p == t &&
    (s.apKind e t x == 0 || s.apSw e t x == s.switchNum e)
/-- The aperture entries of tile `t` with a word listed in the copy of epoch `e`. -/
def State.apEntries (s : State) (e : Bool) (t : Nat) : List Nat :=
  ((s.copyOf e).filterMap fun y =>
    if apReg t 0 0 ≤ y.1 ∧ y.1 < apReg t 16384 0 then some ((y.1 - apReg t 0 0) / 32) else none).eraseDups
/-- The entry of partition `p` that holds BAR4 offset `o` (R189 step 2). -/
def State.apHit (s : State) (e : Bool) (t p o : Nat) : Option Nat :=
  (s.apEntries e t).find? fun x => s.apUsed e t x && s.apPart e t x == p &&
    decide (s.apOfs e t x ≤ o ∧ o < s.apOfs e t x + 2 ^ s.apLog2 e t x)

/-- Whether the traffic between a partition and a virtual port is blacked out by a DPC trigger that holds no link (R88). -/
def State.vdpDark (s : State) (e : Bool) (p d : Nat) : Bool :=
  (s.vport p d).dpcStatus && !(s.vdpLocal e p d && s.slotOwner e (s.vdpPort e p d) == p)
/-- Where an aperture access leaves (R190): a port of the part with the address and the requester ID it carries, or no
target that is up (code 0x07 or 0x0A); `noHop` where no next hop to its switch is live (R166). -/
structure ApDest where
  port : Nat
  addr : Nat
  rid : Nat
  part : Option Nat
  fid : Nat
  dead : Option Nat
  noHop : Bool := false
  deriving DecidableEq, Repr

/-- Why a target port takes nothing: blackout (0x0A) or link down (0x07) (R177, R192). -/
def State.portDead (s : State) (port : Nat) : Option Nat :=
  if s.portBlack port then some 0x0A else if !s.dlActive port || !s.here (tileOf port) then some 0x07 else none

/-- The target of an access at target address `a` of an entry (R190). A partition's blackout, and Bus Master Enable 0 of its
fabric function, count as a blackout of its upstream port (R336, R280); where that port's own link went down and nothing
else holds it, the code is link down (DEDUCED, log entries 101 and 102). -/
def State.apDest (s : State) (e : Bool) (t x a : Nat) : ApDest :=
  let own := s.switchNum e
  let p := s.apTPart e t x
  if s.apKind e t x = 0 then
    if s.apSw e t x = own then
      let up := s.upPort e p
      { port := up, addr := a, rid := s.ffRid p, part := some p, fid := 0,
        dead := if s.mgrHolds t 1 p then some 0x0A else match s.portDead up with
          | some c => some c
          | none => if s.upHeld t p || !s.canIssue p then some 0x0A else none }
    else
      let fid := fidOf (s.apSw e t x) (s.apTPort e t x)
      match s.nextHop e t (fidOf own 0) fid with
      | some h => { port := h, addr := a, rid := s.proxyRid e (s.apPart e t x) % 65536, part := none, fid := fid, dead := s.portDead h }
      | none => { port := 0, addr := a, rid := 0, part := none, fid := fid, dead := some 0x07, noHop := true }
  else match s.amapInternal e p a with
    | some f =>
      let d := s.bindVdp e f
      let fid := fidOf (s.vdpSw e p d) (s.bindPort e f)
      let to_ := if s.vdpLocal e p d then some (s.bindPort e f) else s.nextHop e t (fidOf own 0) fid
      match to_ with
      | some h => { port := h, addr := a, rid := s.proxyRid e p % 65536, part := some p, fid := if s.vdpLocal e p d then 0 else fid,
                    dead := if s.vdpDark e p d then some 0x0A else s.portDead h }
      | none => { port := 0, addr := a, rid := 0, part := some p, fid := fid, dead := some 0x07, noHop := true }
    | none => { port := 0, addr := a, rid := 0, part := some p, fid := 0, dead := some 0x07 }

end Sys2Proof.Machine
end

