-- ==== Sys2Proof/Machine/WcOps.lean ====
section
/-! DEFINITION. The write-combining buffer's own operations: discard tallies (R180), flushes and the writes they form
(R176, R177), flush reads and the end of a fence (R179 to R182), containment of an entry (R182, R193). -/

namespace Sys2Proof.Machine

/-- AP_WC_STATUS of a tile. -/
def wcStatus (t : Nat) : Nat := tileBase t + 0x9004
/-- The key of a seat's aperture state on a tile. -/
def wcKey (t seat : Nat) : Nat := 4096 * t + seat
/-- The key of an aperture entry. -/
def entKey (t x : Nat) : Nat := 16384 * t + x
/-- Change the write-combining state. -/
def State.modWc (s : State) (f : WcSt → WcSt) : State := { s with wc := f s.wc }
/-- AP_WC_STATUS.LINES_OPEN follows the buffer. -/
def State.syncLines (s : State) (t : Nat) : State :=
  s.setFld (wcStatus t) 8 0 (s.wc.lines.countP fun l => l.tile == t)
/-- Whether an aperture entry is contained (R182). -/
def State.contained (s : State) (t x : Nat) : Bool := tget false s.wc.contained (entKey t x)

/-- A tally after a discard under `code`; `xs` are the entries to contain, for a cause at their target (R180, R182). -/
def Tally.add (q : Tally) (code : Nat) (xs : List Nat) : Tally :=
  { n := satAdd 0xFFFFFFFF q.n 1, code := if q.n = 0 then code else q.code,
    entries := q.entries ++ xs.filter fun k => !q.entries.contains k
    stores := q.stores }

/-- A tally after the discard of a write that carried bytes of the numbered stores: each store counts once
(DEDUCED, log entry 100). -/
def Tally.addStores (q : Tally) (code : Nat) (xs ids : List Nat) : Tally :=
  let new := ids.filter fun k => !q.stores.contains k
  { q.add code xs with n := satAdd 0xFFFFFFFF q.n new.length, stores := q.stores ++ new }

/-- Tally a discarded store of a seat for its next fence (R180); its bytes go to DISCARD (R323, R330). -/
def State.tallyDrop (s : State) (t seat code len : Nat) : State :=
  (s.modWc fun w => { w with tally := tmod {} w.tally (wcKey t seat) fun q => q.add code [] }).modBo t (some seat)
    fun b => { b with discard := b.discard + len }

/-- Tally a discarded write of numbered stores (R180). -/
def State.tallyIds (s : State) (t seat code : Nat) (xs ids : List Nat) : State :=
  s.modWc fun w => { w with tally := tmod {} w.tally (wcKey t seat) fun q => q.addStores code xs ids }
/-- The same, its bytes going to DISCARD (R323, R330). -/
def State.tallyStores (s : State) (t seat code : Nat) (xs ids : List Nat) (len : Nat) : State :=
  (s.tallyIds t seat code xs ids).modBo t (some seat) fun b => { b with discard := b.discard + len }

/-- A stream after write number `n` of entry `x` at target address `a` into it. -/
def ApStream.note (q : ApStream) (x a n : Nat) : ApStream :=
  { q with entry := x, addr := a, last := n, entries := q.entries.filter (·.1 != x) ++ [(x, n)] }
/-- Note that a stream has carried a write of the seat; at most 32 are tracked (R179). -/
def State.noteStream (s : State) (t seat dest x a : Nat) : State :=
  s.modWc fun w =>
    let old := tget [] w.streams (wcKey t seat)
    let l := old.filter fun q => q.dest != dest
    let q := (old.find? fun q => q.dest == dest).getD { dest := dest, entry := x, addr := a }
    if l.length < 32 then { w with streams := tset [] w.streams (wcKey t seat) (l ++ [q.note x a s.idCtr]) }
    else { w with overflow := tset 0 w.overflow (wcKey t seat) s.idCtr }
/-- A fence of number `n` has completed: what a stream carried before its acceptance is confirmed or reported (R179). -/
def State.forgetStreams (s : State) (t seat n : Nat) : State :=
  s.modWc fun w =>
    let l := (tget [] w.streams (wcKey t seat)).filter fun q => decide (n < q.last)
    let past := tget 0 w.overflow (wcKey t seat)
    { w with streams := tset [] w.streams (wcKey t seat)
               (l.map fun q => { q with entries := q.entries.filter fun x => decide (n < x.2) })
             overflow := tset 0 w.overflow (wcKey t seat) (if n < past then past else 0) }

/-- The forming of an aperture-unit packet (R157, R259, R172). -/
def State.apForm (s : State) (e : Bool) (t : Nat) (d : ApDest) (seat : Nat) (pu : Purpose) : Forming :=
  { tile := t, dest := pbOf d.port, ports := [d.port], src := 1032 + t, part := d.part, seat := some seat, mgmt := false,
    epoch := e, svc := s.apClass t, origin := .self (d.part.getD 0), purpose := pu, target := d.fid }

/-- Form one aperture write of the numbered stores, or discard it where its target takes nothing (R177, R192). -/
def State.apWrite (s : State) (e : Bool) (t x seat a : Nat) (data : List Byte) (be : List Bool) (ids : List Nat) : State :=
  let d := s.apDest e t x a
  let r := { ownReq .memWrite d.addr data.length data d.rid none (s.apClass t) with be := be }
  match d.dead with
  | some code =>
    let s := if d.noHop then s.count t .tlFabricUnreachable none (some seat) else s
    ((s.count t .apWcDiscard (some d.port) (some seat)).sticky (wcStatus t) 11).tallyStores t seat code [x]
      ids (lenOf (.req r))
  | none => (s.form (s.apForm e t d seat (.apWrite x ids)) .posted (.req r)).noteStream t seat (pbOf d.port) x a

/-- The runs of consecutive set bytes of a line's mask, ascending: start and length (R177). -/
def runs (mask : BitVec 64) : List (Nat × Nat) :=
  ((List.range 64).foldl (fun (acc : List (Nat × Nat)) i =>
    if mask.getLsbD i then
      match acc with
      | (a, n) :: r => if a + n = i then (a, n + 1) :: r else (i, 1) :: acc
      | [] => [(i, 1)]
    else acc) []).reverse

/-- Insert a line by an ascending key. -/
def insLine (key : WcLine → Nat) (l : WcLine) : List WcLine → List WcLine
  | [] => [l]
  | k :: ks => if key l ≤ key k then l :: k :: ks else k :: insLine key l ks

/-- A line leaves the buffer, or holds for the writes `ids` that the cell buffer refuses (R177). -/
def State.lineDone (s : State) (n : Nat) (ids : List Nat) : State :=
  if ids.isEmpty then s.modWc fun w => { w with lines := w.lines.filter fun k => k.id != n }
  else s.modWc fun w => { w with lines := w.lines.map fun k => if k.id = n then { k with formed := true, pkts := ids } else k }
/-- Form a flushed line's writes, one for each run, in ascending address order (R177). -/
def State.formLine (s : State) (l : WcLine) : State :=
  let id0 := s.idCtr
  let s := s.each (runs l.mask) fun s r =>
    s.apWrite l.epoch l.tile l.entry l.seat (l.addr + r.1) ((l.data.drop r.1).take r.2) (List.replicate r.2 true) l.stores
  let s := if l.bad then { s with pkts := s.pkts.map fun p => if id0 ≤ p.id then { p with poisoned := true } else p } else s
  let ids := (s.pkts.filter fun p => decide (id0 ≤ p.id) && p.loc == .refused && p.src == 1032 + l.tile).map (·.id)
  (s.lineDone l.id ids).syncLines l.tile
/-- The lines of a seat that are to be flushed and are not formed, in the order of their flushes. -/
def State.dueLines (s : State) (t seat : Nat) : List WcLine :=
  (s.wc.lines.filter fun l => l.tile == t && l.seat == seat && l.flushing && !l.formed).foldr (insLine (·.order)) []
/-- The lines of a seat that are to be flushed are, unless the seat is withheld (R276). -/
def State.formDue (s : State) (t seat : Nat) : State :=
  if s.withheld t seat then s else s.each (s.dueLines t seat) State.formLine
/-- Flush a line (R177), behind the flushes of its seat that wait for the end of its withholding. -/
def State.sendLine (s : State) (l : WcLine) : State :=
  let s := s.modWc fun w => { w with lines := w.lines.map fun k =>
    if k.id = l.id ∧ !k.flushing then { k with flushing := true, order := s.idCtr } else k }
  State.formDue { s with idCtr := s.idCtr + 1 } l.tile l.seat
/-- A write of a line is no longer refused: the line leaves with the last (R177). -/
def State.lineAdmit (s : State) (t n : Nat) : State :=
  (s.modWc fun w => { w with lines :=
    (w.lines.map fun k => { k with pkts := k.pkts.filter (· != n) }).filter fun k => !(k.formed && k.pkts.isEmpty) }).syncLines t

/-- Flush the open lines of tile `t` that a test picks, in ascending target address (R176). -/
def State.flushLines (s : State) (t : Nat) (pick : WcLine → Bool) : State :=
  let ls := (s.wc.lines.filter fun l => l.tile == t && !l.flushing && pick l).foldr (insLine (·.addr)) []
  s.each ls State.sendLine

/-- The bytes that a piece or a line would write. -/
def maskLen (be : List Bool) : Nat := be.countP id
/-- Discard the open lines, and the pieces that wait, whose seat and epoch a test picks, under `code`, at the issuing side (R239,
R336). -/
def State.discardLines (s : State) (t : Nat) (pick : Nat → Bool → Bool) (code : Nat) : State :=
  let gone := fun (l : WcLine) => l.tile == t && !l.formed && pick l.seat l.epoch
  let off := fun (k : WcPiece) => k.tile == t && pick k.seat k.epoch
  let s := s.each (s.wc.lines.filter gone) fun s l =>
    (s.count t .apWcDiscard none (some l.seat)).tallyStores t l.seat code [] l.stores
      (16 + (runs l.mask).foldl (fun n r => n + r.2) 0)
  let s := s.each (s.wc.stuck.filter off) fun s k =>
    (s.count t .apWcDiscard none (some k.seat)).tallyStores t k.seat code [] [k.store] (16 + maskLen k.be)
  (s.modWc fun w => { w with lines := w.lines.filter fun l => !gone l, stuck := w.stuck.filter fun k => !off k }).syncLines t

/-- Contain an entry (R193): flush its lines, then enter the state, raising AP_CONTAINED once. -/
def State.contain (s : State) (t x : Nat) : State :=
  if s.contained t x then s
  else
    let s := s.flushLines t fun l => l.entry == x
    (s.modWc fun w => { w with contained := tset false w.contained (entKey t x) true }).count t .apContained

/-! ### Fences -/

/-- The status word of a fence (R180). -/
def fenceWord (q : Tally) (unconf : Bool) : Word :=
  let code := if q.n ≠ 0 then q.code else if unconf then 0x08 else 0x01
  BitVec.ofNat 32 (code + (if unconf then 2 ^ 30 else 0) + (if q.n ≠ 0 then 2 ^ 31 else 0))

/-- The data of a fence's completion (R180): the word, and the discards for an 8-byte read. -/
def fenceData (f : Fence) : List Byte :=
  let w := leBytes 4 (fenceWord f.tally f.unconf).toNat
  if f.len = 8 then w ++ leBytes 4 f.tally.n else w

/-- Complete a fence: its entries are contained (R182), its read completes successfully (R179). -/
def State.completeFence (s : State) (f : Fence) : State :=
  let s := s.modWc fun w => { w with fences := w.fences.filter fun k => k.id != f.id }
  let s := (s.forgetStreams f.tile f.seat f.id).each f.tally.entries fun s x => s.contain f.tile x
  let s := if f.unconf then s.sticky (wcStatus f.tile) 10 else s
  let e := s.tileEpoch f.tile
  s.reply f.tile e (s.barMgmt e f.origin) f.origin f.rid f.tag f.tc .sc (fenceData f)

/-- Complete the seat's ended fences in order of acceptance, up to the first that still waits (case of R182). -/
def State.completeFences (s : State) (t seat : Nat) : State :=
  let mine := s.wc.fences.filter fun f => f.tile == t && f.seat == seat
  s.each (mine.takeWhile fun f => f.ended || f.reads.isEmpty) State.completeFence

/-- The seat's tally goes to a fence being accepted, and starts anew (R180). -/
def State.takeTally (s : State) (t seat : Nat) : State × Tally :=
  (s.modWc fun w => { w with tally := tset {} w.tally (wcKey t seat) {} }, tget {} s.wc.tally (wcKey t seat))

/-- Send one flush read behind the seat's stores of a stream (R179). -/
def State.flushRead (s : State) (e : Bool) (t seat fence : Nat) (q : ApStream) : State :=
  let d := s.apDest e t q.entry q.addr
  s.form (s.apForm e t d seat (.flush t fence q.dest)) .nonPosted
    (.req (ownReq .memRead d.addr 0 [] d.rid none (s.apClass t)))

/-- A flush read of a fence has ended (R179, R180, R191): `ok` when it completed, `code` when it ended with a synthetic
completion, which counts as a discard. A UR, CA or poisoned completion leaves the fence waiting, and a fence that has ended takes
nothing more (R181). The entries whose covered stores were dropped with it are contained where the cause is at the target
(`atTarget`, R182). -/
def State.flushDone (s : State) (t fence stream : Nat) (ok : Bool) (code : Option Nat) (atTarget : Bool := true) : State :=
  match s.wc.fences.find? fun f => f.id == fence && f.tile == t && !f.ended with
  | none => s
  | some f =>
    match f.reads.find? fun q => q.dest == stream with
    | none => s
    | some q =>
      if !ok && code.isNone then s
      else
        let f' := { f with reads := f.reads.filter fun k => k.dest != stream,
                           tally := match code with
                             | some c => f.tally.add c (if c = 0x06 ∨ !atTarget then [] else q.entries.map (·.1))
                             | none => f.tally }
        (s.modWc fun w => { w with fences := w.fences.map fun k => if k.id = f.id then f' else k }).completeFences t f.seat

end Sys2Proof.Machine
end

