-- ==== Sys2Proof/Machine/EngOps.lean ====
section
/-! DEFINITION. The engine's own operations: windows and their caches (R194 to R202), queue pairs, work requests and
their records (R205 to R224), engine packets (R215, R216), trigger counters (R219). -/

namespace Sys2Proof.Machine

/-! ### Tables and registers -/

/-- RM_WIN_STATUS.READY. -/
def State.winReady (s : State) : Bool := s.flag 0x0014000C 0
/-- N, RM_WIN_CFG.TBL_LOG2 clamped to 15 to 24 (R204). -/
def State.winN (s : State) : Nat := max 15 (min 24 (s.fld 0x00140000 4 0))
/-- RM_QP_STATUS.READY. -/
def State.qpReady (s : State) : Bool := s.flag 0x0014001C 0
/-- Q, RM_QP_CFG.TBL_LOG2 clamped to 12 to 24 (R226). -/
def State.qpQ (s : State) : Nat := max 12 (min 24 (s.fld 0x00140010 4 0))
/-- The home tile of a window index (R194). -/
def State.winTile (s : State) (i : Nat) : Nat := i / 2 ^ (s.winN - 3) % 8
/-- The home tile of a QPN (R205). -/
def State.qpTile (s : State) (n : Nat) : Nat := n / 2 ^ (s.qpQ - 3) % 8

/-- Change the window state. -/
def State.modWin (s : State) (f : WinSt → WinSt) : State := { s with win := f s.win }
/-- Change the engine state. -/
def State.modEng (s : State) (f : EngSt → EngSt) : State := { s with eng := f s.eng }
/-- A window table entry. -/
def State.window (s : State) (i : Nat) : WinEnt := tget {} s.win.tbl i
/-- Change a window table entry. -/
def State.modWindow (s : State) (i : Nat) (f : WinEnt → WinEnt) : State :=
  s.modWin fun w => { w with tbl := tmod {} w.tbl i f }
/-- A queue-pair context. -/
def State.qp (s : State) (n : Nat) : Qp := tget {} s.eng.qps n
/-- Change a queue-pair context. -/
def State.modQp (s : State) (n : Nat) (f : Qp → Qp) : State :=
  s.modEng fun g => { g with qps := tmod {} g.qps n f }
/-- A work request. -/
def State.wr (s : State) (id : Nat) : Option Wr := s.eng.wrs.find? fun w => w.id == id
/-- Change a work request. -/
def State.modWr (s : State) (id : Nat) (f : Wr → Wr) : State :=
  s.modEng fun g => { g with wrs := g.wrs.map fun w => if w.id = id then f w else w }
/-- The work requests of a queue pair, in the order accepted. -/
def State.wrsOf (s : State) (n : Nat) : List Wr := s.eng.wrs.filter fun w => w.q == some n

/-- The indices of tile `t`'s window range in use or retired: never free again until initialised. -/
def State.winCount (s : State) (t st : Nat) : Nat :=
  s.win.tbl.countP fun x => s.winTile x.1 == t && x.2.state == st
/-- The free indices of a tile (R194, RM_WIN_FREE). -/
def State.winFree (s : State) (t : Nat) : Nat :=
  2 ^ (s.winN - 3) - tget 0 s.win.fresh t + (tget [] s.win.freed t).length
/-- Whether a cached window is pinned (R196). -/
def WinEnt.pinned (w : WinEnt) : Bool := w.inflight != 0 || w.state == 2
/-- Whether a context is pinned (R208). -/
def State.qpPinned (s : State) (n : Nat) : Bool :=
  (s.qp n).state == 2 || (s.eng.wrs.any fun w => w.st != .done && (w.d.qpn == n || (w.d.trig && w.d.trigQpn == n))) ||
    s.eng.parked.any fun k => !k.isWin && k.key == n

/-- The status registers of a tile's engine slice follow its state (R204, R226). -/
def State.syncEng (s : State) (t : Nat) : State :=
  let b := tileBase t
  let winC := tget [] s.win.lru t
  let ctxC := tget [] s.eng.lru t
  let s := s.setFld (b + 0xA000) 21 0 (if s.winReady then s.winFree t else 0)
  let s := (s.setFld (b + 0xA004) 14 0 winC.length).setFld (b + 0xA004) 30 16
    (winC.countP fun i => (s.window i).pinned)
  let s := (s.setFld (b + 0xA008) 21 0 (s.winCount t 3)).setFld (b + 0xA00C) 14 0 (s.winCount t 2)
  let s := (s.setFld (b + 0xA010) 12 0 ctxC.length).setFld (b + 0xA010) 28 16 (ctxC.countP fun n => s.qpPinned n)
  let s := s.setFld (b + 0xA014) 8 0 (s.eng.parked.countP fun k => k.tile == t)
  let s := s.setFld (b + 0xA018) 13 0 (s.eng.wrs.countP fun w => w.tile == t && w.st == .held)
  s.setFld (b + 0xA01C) 15 0 (s.eng.wrs.countP fun w => w.tile == t && w.st == .started)

/-! ### Records of work requests (R224) -/

/-- The completion record of a work request. -/
def State.wrRec (s : State) (w : Wr) : List Byte :=
  leBytes 8 w.d.wrId.toNat ++ leBytes 3 w.d.qpn ++ leBytes 1 w.d.opcode ++ leBytes 1 w.code ++
  leBytes 1 (if w.triggered then 2 else 0) ++ leBytes 1 (min 255 w.retries) ++ leBytes 1 0 ++
  leBytes 4 w.bytes ++ leBytes 4 w.key ++ leBytes 4 0 ++ leBytes 4 (s.nsOf w.tile)

/-- The completion record of a received message (R217, R224). -/
def State.recvRec (s : State) (n t : Nat) (m : RecvMsg) : List Byte :=
  leBytes 8 m.wrId.toNat ++ leBytes 3 n ++ leBytes 1 0x83 ++ leBytes 1 m.code ++
  leBytes 1 (if m.imm.isSome then 1 else 0) ++ leBytes 2 0 ++ leBytes 4 m.len ++
  leBytes 4 ((m.imm.map BitVec.toNat).getD 0) ++ leBytes 4 (m.srcQpn % 2 ^ 24 + m.srcSw % 64 * 2 ^ 24) ++
  leBytes 4 (s.nsOf t)

/-- The ring that takes a work request's record: its QP's CQ_RING; for a command whose QP names no ready queue pair of
the seat, the seat's lowest enabled completion ring (log entry 20). -/
def State.wrRing (s : State) (w : Wr) : Option Nat :=
  let q := s.qp w.d.qpn
  if q.state ≠ 0 && q.owner == w.seat then some q.cq
  else (s.ringsOf s.leadEpoch w.seat).find? fun r => s.ringEn r && s.ringType r == 1

/-- Advance a trigger counter (R219). -/
def State.advTrig (s : State) (n k : Nat) : State := s.modQp n fun q => { q with trig := (q.trig + k) % 2 ^ 64 }

/-- A completed work request leaves: its record, its count (R219, R224). -/
def State.reapOne (s : State) (w : Wr) : State :=
  let s := s.modEng fun g => { g with wrs := g.wrs.filter fun k => k.id != w.id }
  let s := if w.code ≠ 0 || w.d.signal then
      match s.wrRing w with
      | some r => s.pushRec r w.seat (s.wrRec w)
      | none => s
    else s
  if w.code = 0 && w.d.cntOnDone then s.advTrig w.d.doneQpn 1 else s

/-- Completed work requests leave, those of one queue pair in the order they were accepted (R224). -/
def State.reap (s : State) : State :=
  s.each s.eng.wrs fun s w =>
    match s.wr w.id with
    | none => s
    | some k =>
      if k.st == .done && (k.q.isNone || ((s.eng.wrs.filter fun j => j.q == k.q).head?.map (·.id) == some k.id)) then
        s.reapOne k
      else s

/-- A work request ends with a code (R222); a fence behind it learns of a failure (R212). -/
def State.finishWr (s : State) (id code : Nat) : State :=
  match s.wr id with
  | none => s
  | some w =>
    if w.st == .done then s
    else
      let s := s.modWr id fun k => { k with st := .done, code := if k.code ≠ 0 then k.code else code }
      let bad := w.code ≠ 0 || code ≠ 0
      State.reap <| s.modEng fun g => { g with wrs := g.wrs.map fun k =>
        if bad && k.q.isSome && k.q == w.q && k.d.opcode == 0x08 && k.st == .held && k.id != id then
          { k with waitedFail := true } else k }

/-! ### Engine packets (R215, R216) -/

/-- Cut `n` bytes from offset `a` at 1,024-byte boundaries (R215). -/
def pktCuts : Nat → Nat → Nat → List (Nat × Nat)
  | 0, _, _ => []
  | f + 1, a, n =>
    if n = 0 then []
    else (a, min n (1024 - a % 1024)) :: pktCuts f (a + min n (1024 - a % 1024)) (n - min n (1024 - a % 1024))

/-- Where an engine packet for switch `sw` and home tile `home` goes: the tile's engine, or a next hop (R164). -/
def State.engDest (s : State) (t sw home : Nat) : Option (Nat × List Nat × Nat) :=
  let e := s.tileEpoch t
  let own := s.switchNum e
  if sw = own then (if s.here home then some (64 + home, [], 0) else none)
  else (s.nextHop e t (fidOf own 0) (fidOf sw 0)).bind fun h =>
    if (s.portDead h).isNone then some (pbOf h, [h], fidOf sw 0) else none

/-- Form an engine packet at tile `t` (R216); false where nothing can carry it. -/
def State.sendEng (s : State) (t sw home seat : Nat) (ordered : Bool) (h : EngHdr) (data : List Byte) : State × Bool :=
  match s.engDest t sw home with
  | none => (if sw = s.switchNum (s.tileEpoch t) then s.count t .tileDrop none (some seat)
             else s.count t .tlFabricUnreachable none (some seat), false)
  | some (dest, ports, fid) =>
    (s.form { tile := t, dest := dest, ports := ports, src := 1024 + t, part := none, seat := some seat, mgmt := false,
              epoch := s.tileEpoch t, svc := s.engClass t, origin := .self 0, purpose := .forward, ordered := ordered,
              target := fid } .engine (.eng h data), true)

/-- Form an engine packet of a work request; its payload counts in ENGINE (R323). A packet that nothing carries ends
its work request with 0x07. -/
def State.sendWr (s : State) (w : Wr) (sw home : Nat) (h : EngHdr) (data : List Byte) : State :=
  let (s, ok) := s.sendEng w.tile sw home w.seat (s.qp w.d.qpn).ordered h data
  let s := s.modBo w.tile (some w.seat) fun b => { b with engine := b.engine + data.length }
  if ok then s.modWr w.id fun k => { k with sent := k.sent + 1, owed := k.owed + 1 }
  else s.modWr w.id fun k => { k with sent := k.sent + 1, code := if k.code = 0 then 0x07 else k.code }

/-- The first index from `c` on that is not taken, in a circle of 32,768. -/
def slotFrom (taken : List Nat) (c : Nat) : Nat → Nat
  | 0 => c % 32768
  | f + 1 => if taken.contains (c % 32768) then slotFrom taken (c + 1) f else c % 32768
/-- The outstanding-work index that a starting work request of a tile takes (R216): the manual does not say which, so it is a
free value among those that no started work request of the tile holds (log entry 96). -/
def State.freeSlot (s : State) (t : Nat) : Nat :=
  let taken := (s.eng.wrs.filter fun w => w.tile == t && w.st == .started).map (·.slot)
  slotFrom taken s.freeN taken.length

/-- The carried header of a work request's packet at offset `o` (R216). -/
def State.wrHdr (s : State) (w : Wr) (mtype o len : Nat) : EngHdr :=
  { mtype := mtype, srcSw := s.switchNum (s.tileEpoch w.tile), reqSeat := w.seat, immV := w.d.immV,
    aop := w.d.opcode - 0x05, qpn := w.d.qpn, keyOrImm := if mtype = 3 then w.d.imm else w.d.rKey,
    dstQpn := (s.qp w.d.qpn).rQpn, code := 0, rOffset := o, wrSlot := w.slot, pkt := w.id, ssn := w.ssn,
    length := len }

/-- Answer an engine packet with an ACK (6) or NOT_READY (7) carrying a code (R216). -/
def State.answer (s : State) (t : Nat) (h : EngHdr) (mtype code : Nat) (data : List Byte) : State :=
  (s.sendEng t h.srcSw (s.qpTile h.qpn) h.reqSeat false
    { h with mtype := mtype, code := code, srcSw := s.switchNum (s.tileEpoch t) } data).1

/-- Send the packets of a WRITE or SEND whose bytes have been gathered (R215). -/
def State.sendReady (s : State) (id : Nat) : Nat → State
  | 0 => s
  | f + 1 =>
    match s.wr id with
    | none => s
    | some w =>
      let o := if w.d.opcode = 0x03 then w.ofs else w.d.rOffset + w.ofs
      let n := min (w.d.length - w.ofs) (1024 - o % 1024)
      if w.st ≠ .started ∨ w.ofs ≥ w.d.length ∨ w.buf.length < w.ofs + n then s
      else
        let sw := if w.d.opcode = 0x03 then (s.qp w.d.qpn).rSw else w.d.rSw
        let home := if w.d.opcode = 0x03 then s.qpTile (s.qp w.d.qpn).rQpn else s.winTile (w.d.rKey.toNat / 256)
        let h := s.wrHdr w (if w.d.opcode = 0x03 then 3 else 0) o (if w.d.opcode = 0x03 then w.d.length else n)
        let s := s.sendWr w sw home h ((w.buf.drop w.ofs).take n)
        (s.modWr id fun k => { k with ofs := k.ofs + n, bytes := k.bytes + n }).sendReady id f

/-- Every packet of a work request has been answered: a WRITE with NOTIFY sends it (R218), any other completes. -/
def State.settleWr (s : State) (id : Nat) : State :=
  match s.wr id with
  | none => s
  | some w =>
    if w.st != .started || w.owed != 0 || !w.refused.isEmpty || (w.code = 0 && w.unread != 0) then s
    else if w.d.opcode = 0x01 && w.d.notify && w.code = 0 && !w.notified then
      let q := s.qp w.d.qpn
      (s.modWr id fun k => { k with notified := true }).sendWr { w with notified := true } q.rSw (s.qpTile q.rQpn)
        (s.wrHdr w 8 0 0) []
    else s.finishWr id 0

/-- An answer to one packet of a work request (R216, R223): the first code that is not SUCCESS is kept. -/
def State.wrAnswer (s : State) (id code : Nat) : State :=
  (s.modWr id fun k => { k with owed := k.owed - 1, code := if k.code = 0 then code else k.code }).settleWr id

/-- The work request that an answer names: by WR_SLOT and QPN (R216). -/
def State.wrBySlot (s : State) (h : EngHdr) : Option Nat :=
  (s.eng.wrs.find? fun w => w.st == .started && w.slot == h.wrSlot && w.d.qpn == h.qpn).map (·.id)

/-- Settle the packet that an answer names; no such work request is a late answer (R223). -/
def State.answered (s : State) (t : Nat) (h : EngHdr) (code : Nat) : State :=
  match s.wrBySlot h with
  | some id => s.wrAnswer id code
  | none => s.count t .rmLateResponse

/-- An engine packet that an error ends (R332, R333): its work request is answered with the code, here or by an ACK to
the requester's part. A response for a remote requester ends unseen. -/
def State.endEng (s : State) (t : Nat) (h : EngHdr) (toHere : Bool) (code : Nat) : State :=
  if h.mtype = 2 ∨ h.mtype = 5 ∨ h.mtype = 6 ∨ h.mtype = 7 then (if toHere then s.answered t h code else s)
  else if h.srcSw = s.switchNum (s.tileEpoch t) then s.answered t h code
  else s.answer t h 6 code []

/-! ### Caches (R196, R208, R237) -/

/-- The seat whose share a cached window or context counts in. -/
def State.cacheOwner (s : State) (isWin : Bool) (k : Nat) : Nat := if isWin then (s.window k).owner else (s.qp k).owner
/-- A seat's cache reservation, ST_SHARE (R237). -/
def State.cacheShare (s : State) (isWin : Bool) (seat : Nat) : Nat :=
  if isWin then s.cfld s.leadEpoch (0x00310000 + 8 * seat) 30 16 else s.cfld s.leadEpoch (0x00310000 + 8 * seat) 12 0
/-- The cached keys of a tile, least recently used first. -/
def State.cached (s : State) (isWin : Bool) (t : Nat) : List Nat :=
  if isWin then tget [] s.win.lru t else tget [] s.eng.lru t
/-- Replace the cached keys of a tile. -/
def State.setCached (s : State) (isWin : Bool) (t : Nat) (l : List Nat) : State :=
  if isWin then s.modWin fun w => { w with lru := tset [] w.lru t l }
  else s.modEng fun g => { g with lru := tset [] g.lru t l }
/-- The entries of a tile's cache that a seat holds. -/
def State.cacheHeld (s : State) (isWin : Bool) (t seat : Nat) : Nat :=
  (s.cached isWin t).countP fun k => s.cacheOwner isWin k == seat
/-- Whether an entry may be evicted. -/
def State.evictable (s : State) (isWin : Bool) (k : Nat) : Bool :=
  if isWin then !(s.window k).pinned else !s.qpPinned k
/-- The entry that a fetch for a seat evicts from a full cache (R237). -/
def State.victim (s : State) (isWin : Bool) (t seat : Nat) : Option Nat :=
  let l := (s.cached isWin t).filter fun k => s.evictable isWin k
  let above := l.find? fun k =>
    let o := s.cacheOwner isWin k
    o != seat && decide (s.cacheShare isWin o < s.cacheHeld isWin t o)
  let own := l.find? fun k => s.cacheOwner isWin k == seat
  if s.cacheHeld isWin t seat < s.cacheShare isWin seat then above else own.orElse fun _ => above

/-- Whether an entry is cached at its home tile. -/
def State.isCached (s : State) (isWin : Bool) (t k : Nat) : Bool := (s.cached isWin t).contains k

/-! ### Table traffic (R17, R194, R196, R205, R208, R209) -/

/-- The next free index after a free one in its tile's list (R194). -/
def State.winNext (s : State) (i : Nat) : Nat :=
  (((tget [] s.win.freed (s.winTile i)).dropWhile (· != i))[1]?).getD 0xFFFFFF
/-- A window table entry as memory holds it (R194). -/
def State.winBytes (s : State) (i : Nat) : List Byte :=
  let w := s.window i
  leBytes 4 (w.gen % 256 + w.state % 4 * 256 + w.owner % 4096 * 1024 + w.access % 8 * 2 ^ 22) ++ leBytes 4 (s.winNext i) ++
    leBytes 8 w.base ++ leBytes 8 w.len ++ leBytes 4 (w.pasid.getD 0 % 2 ^ 20 + b2n w.pasid.isSome * 2 ^ 20) ++ leBytes 4 0
/-- A queue-pair context as memory holds it (R206). -/
def State.ctxBytes (s : State) (n : Nat) : List Byte :=
  let q := s.qp n
  leBytes 4 (q.state % 4 + b2n q.ordered * 4 + b2n q.notifyEn * 8 + q.owner % 4096 * 16 + q.cq % 65536 * 65536) ++
    leBytes 4 (q.rQpn % 2 ^ 24 + q.rSw % 64 * 2 ^ 24) ++
    leBytes 4 (q.backoff % 16 + q.retryLimit % 8 * 16 + q.maxOut % 256 * 256 + q.rqLog2 % 32 * 65536) ++ leBytes 4 0 ++
    leBytes 8 q.rqBase ++ leBytes 4 (q.pi % 65536 + q.ci % 65536 * 65536) ++ leBytes 4 0 ++ leBytes 8 q.trig ++
    (Config.ctxState s.freeCtr ++ List.replicate 216 0).take 216
/-- Where an entry of the window table or of the context table stands in host memory. -/
def State.tableAddr (s : State) (isWin : Bool) (k : Nat) : Nat :=
  let o := if isWin then 0x00140004 else 0x00140014
  (s.lv (o + 4)).toNat * 2 ^ 32 + (s.lv o).toNat / 4096 * 4096 + (if isWin then 32 else 256) * k
/-- The partition whose memory holds both tables: seat 0's. -/
def State.tablePart (s : State) : Option Nat :=
  if s.bound s.leadEpoch 0 then some (s.seatPart s.leadEpoch 0) else none
/-- The part writes an entry of a table, in the management class. -/
def State.tableWrite (s : State) (isWin : Bool) (t k : Nat) : State :=
  match s.tablePart with
  | none => s
  | some p => s.used.hostWrite (s.tileEpoch t) t p none true none .write (s.tableAddr isWin k)
      (if isWin then s.winBytes k else s.ctxBytes k)
/-- A tile fetches an entry of a table over the management class. That the entry has come is WINDOW_FETCH_DONE or
CONTEXT_FETCH_DONE (log entry 126). -/
def State.tableRead (s : State) (isWin : Bool) (t k : Nat) : State :=
  match s.tablePart with
  | none => s
  | some p => if s.canIssue p then
      s.hostRead (s.tileEpoch t) t p none true none (.fetch isWin k) (s.tableAddr isWin k) (if isWin then 32 else 256) else s
/-- A descriptor or packet takes a miss-buffer entry; the first for its object starts the fetch (R209). -/
def State.park (s : State) (t : Nat) (isWin : Bool) (k : Nat) (i : ParkItem) : State :=
  let first := !s.isCached isWin t k && !s.eng.parked.any fun j => j.isWin == isWin && j.key == k
  let s := s.modEng fun g => { g with parked := g.parked ++ [{ tile := t, isWin := isWin, key := k, item := i }] }
  if first then s.tableRead isWin t k else s

/-- Bring an entry into a tile's cache: none where nothing can be evicted; an evicted context is
written to the table first (R196, R208, R237). -/
def State.cacheIn (s : State) (isWin : Bool) (t k : Nat) : Option State :=
  let l := s.cached isWin t
  if l.contains k then some (s.setCached isWin t (l.filter (· != k) ++ [k]))
  else if l.length < (if isWin then 16384 else 6144) then some (s.setCached isWin t (l ++ [k]))
  else (s.victim isWin t (s.cacheOwner isWin k)).map fun v =>
    (if isWin then s else s.tableWrite false t v).setCached isWin t (l.filter (· != v) ++ [k])

/-- Use a cached entry: it becomes the most recently used. -/
def State.touch (s : State) (isWin : Bool) (t k : Nat) : State :=
  s.setCached isWin t ((s.cached isWin t).filter (· != k) ++ [k])

/-! ### Windows -/

/-- The count of a packet issued or answered leaves its window (R199). -/
def State.winDec (s : State) (i : Nat) : State := s.modWindow i fun w => { w with inflight := w.inflight - 1 }

/-- Receive messages in SSN order: each that is done consumes its entry and writes its record (R217). -/
def State.recvReap (s : State) (t n : Nat) : Nat → State
  | 0 => s
  | f + 1 =>
    let q := s.qp n
    match q.recv.find? fun m => m.ssn == q.ci && m.done with
    | none => s
    | some m =>
      ((s.modQp n fun k => { k with ci := (k.ci + 1) % 65536, recv := k.recv.filter fun j => j.ssn != m.ssn }).pushRec q.cq
        q.owner (s.recvRec n t m)).recvReap t n f

/-- End a receive message with a code (R217). -/
def State.recvEnd (s : State) (t n ssn code : Nat) : State :=
  (s.modQp n fun k => { k with recv := k.recv.map fun m => if m.ssn = ssn then { m with done := true, code := code } else m }
    ).recvReap t n ((s.qp n).recv.length + 1)

/-- A packet of a receive message has been issued, or has ended with a code: with its last byte issued the message is
done (R217). -/
def State.recvPlaced (s : State) (t : Nat) (h : EngHdr) (n code : Nat) : State :=
  let q := h.dstQpn
  let m := h.ssn % 65536
  if code ≠ 0 then s.recvEnd t q m code
  else
    let s := s.modQp q fun k => { k with recv := k.recv.map fun j => if j.ssn = m then { j with got := j.got + n } else j }
    match (s.qp q).recv.find? fun j => j.ssn == m with
    | some r => if r.len ≤ r.got && !r.done then s.recvEnd t q m 0 else s
    | none => s

/-- A WRITE packet of a work request of this part has been issued at its window's home tile: until a flush read behind it ends, it is
not shown performed (R183). The last of a queue pair and stream stands for those before it. -/
def State.noteWrite (s : State) (k : Issue) : State :=
  match k.index with
  | none => s
  | some i =>
    let w := s.window i
    let p := s.seatPart s.leadEpoch w.owner
    let up := s.upPort (s.tileEpoch k.tile) p
    if k.hdr.mtype ≠ 0 ∨ k.hdr.srcSw ≠ s.switchNum s.leadEpoch then s
    else s.modEng fun g => { g with writes :=
      (g.writes.filter fun x => !(x.qpn == k.hdr.qpn && x.tile == k.tile && x.port == up)) ++
        [{ qpn := k.hdr.qpn, wr := k.hdr.pkt, tile := k.tile, port := up, part := p, seat := w.owner, addr := w.base + k.hdr.rOffset }] }
/-- The flush read of a number has ended: the writes before it are shown performed. -/
def State.shown (s : State) (key : Nat) : State :=
  s.modEng fun g => { g with writes := g.writes.filter fun x => x.asked != some key }
/-- A packet accepted at a window, or placed in a receive buffer, has been issued on the owner's port, or ended there
with a code (R199, R216): its ACK returns. -/
def State.issued (s : State) (id code : Nat) : State :=
  match s.eng.issues.find? fun k => k.id == id with
  | none => s
  | some k =>
    let s := s.modEng fun g => { g with issues := g.issues.filter fun j => j.id != id }
    let s := if code = 0 then s.noteWrite k else s
    let s := match k.index with
      | some i => s.winDec i
      | none => if k.hdr.mtype = 3 then s.recvPlaced k.tile k.hdr k.data.length code else s
    s.answer k.tile k.hdr 6 code []

/-- A DMA read of the engine ends with a code (R222, R295): its work request takes the code; a packet accepted at a
window is answered with it. -/
def State.dmaEnd (s : State) (id code : Nat) : State :=
  match s.host.dmas.find? fun d => d.id == id with
  | none => s
  | some d =>
    let s := { s with host := { s.host with dmas := s.host.dmas.filter fun k => k.id != id } }
    let s := match d.wr with
      | some w => (s.modWr w fun k => { k with unread := 0, code := if k.code = 0 then code else k.code }).settleWr w
      | none => s
    match d.issue with
    | some i => s.issued i code
    | none => s

end Sys2Proof.Machine
end

