-- ==== Sys2Proof/Machine/Ending.lean ====
section
/-! DEFINITION. How packets, outstanding requests and work end (R330 to R333, R336, R344). -/

namespace Sys2Proof.Machine

/-- The causes of R333 for which the part ends a packet; the blackout of a seat is a cause at the issuing side (R182). -/
inductive EndCause where
  | portDown
  | vflDown
  | blackout
  | seatBlackout
  | tileLost
  | ecc
  | mps
  | forced
  deriving DecidableEq, Repr

/-- The event a posted packet or completion is counted in (R333); a forced retirement has TM_FORCE_DISCARDS (R47). -/
def EndCause.event : EndCause → Option TEv
  | .portDown => some .pbPortDrop
  | .vflDown => some .lkDropAtDown
  | .blackout => some .blackoutDrop
  | .seatBlackout => some .blackoutDrop
  | .tileLost => some .tileDrop
  | .ecc => some .eccDrop
  | .mps => some .pbEgressMps
  | .forced => none

/-- The code of an engine packet that the cause ends (R222, R333). -/
def EndCause.code : EndCause → Nat
  | .portDown => 0x07
  | .vflDown => 0x07
  | .blackout => 0x0A
  | .seatBlackout => 0x0A
  | .tileLost => 0x07
  | .ecc => 0x09
  | .mps => 0x07
  | .forced => 0x0A

/-- Count a discard (R330, R333): in the event of its cause, and in the seat's DISCARD. -/
def State.countDrop (s : State) (t : Nat) (port seat : Option Nat) (len : Nat) (c : EndCause) : State :=
  let s := match c.event with
    | some ev => s.count t ev port seat
    | none => s
  s.modBo t seat fun b => { b with discard := b.discard + len }

/-- A packet that ends as no discard is counted where a VFL link-down ends it (R113). -/
def State.countLost (s : State) (t : Nat) (port : Option Nat) (c : EndCause) : State :=
  if c == .vflDown then s.count t .lkDropAtDown port else s

/-- End a non-posted request by its purpose, with a synthetic completion (R332, R344). -/
def State.endRequest (s : State) (t : Nat) (epoch mgmt : Bool) (o : Origin) (pu : Purpose) (rid tag tc len : Nat)
    (code : Nat) (port : Option Nat) (attr : Bool × Bool) : State :=
  match pu with
  | .forward => s.synthUr t epoch mgmt o rid tag tc port attr
  | .apRead _ tc =>
    ((s.count t .synthCpl).count t .apRdErr).reply t epoch mgmt o rid tag tc .sc (allOnes len)
  | .flush ft fence stream => (s.count t .synthCpl).flushDone ft fence stream false (some code)
  | .dma id => s.dmaEnd id code
  | .issue id => s.issued id code
  | .ringFetch r => s.ringFail r 0
  | .winFlush _ => s
  | .fetch _ _ => s
  | .perf key => s.shown key
  | .apWrite _ _ => s
  | .write => s
  | .record => s

/-- The port a packet is bound for, if one is known. -/
def Packet.port (p : Packet) : Option Nat := p.ports.head?
/-- The traffic class of a packet's request. -/
def Packet.tc (p : Packet) : Nat := p.svc
/-- The bytes a packet's request asks for. -/
def Packet.reqLen (p : Packet) : Nat :=
  match p.body with
  | .req r => r.len
  | _ => 0

/-- Class the slots that carried a packet's cells: 0 retired when they are kept, 1 wasted when discarded (R144). -/
def State.settle (s : State) (p : Packet) (cls : Nat) : State :=
  s.each p.crossed fun s x => s.bump 1 (x.1 + cls) x.2

/-- An aperture write has ended in the part: its seat's tally takes its stores (R180), with its entry where the cause is at the
target (R182). -/
def State.apEnded (s : State) (p : Packet) (x : Nat) (ids : List Nat) (c : EndCause) : State :=
  (s.tallyIds p.srcTile (p.seat.getD 0) c.code (if c == .forced || c == .seatBlackout then [] else [x]) ids).lineAdmit p.srcTile p.id

/-- End a packet (R330, R336, R343): it leaves the part; posted packets and completions are discarded and counted,
non-posted requests answered, engine packets settled with the cause's code. A request whose first symbol has left has its entry,
which answers it. Its sequence number, if it has one, is voided by the notice of R140. -/
def State.endPacket (s : State) (p : Packet) (c : EndCause) : State :=
  let s := (s.settle p 1).retire p
  match p.cls with
  | .posted =>
    let s := s.countDrop p.tile p.port p.seat p.chLen c
    match p.purpose with
    | .issue id => s.issued id c.code
    | .apWrite x ids => s.apEnded p x ids c
    | _ => s
  | .cpl => s.countDrop p.tile p.port p.seat p.chLen c
  | .nonPosted =>
    let s := s.countLost p.tile p.port c
    if !p.onWire.isEmpty then s
    else match p.purpose, c with
    | .flush ft fence stream, .forced => (s.count p.tile .synthCpl).flushDone ft fence stream false (some 0x0A) false
    | _, _ => s.endRequest p.tile p.epoch p.mgmt p.origin p.purpose p.rRid p.rTag p.tc p.reqLen c.code p.port
        (attrOf p.body)
  | .engine =>
    match p.body with
    | .eng h _ => (s.countLost p.tile p.port c).endEng p.tile h (decide (64 ≤ p.dest)) c.code
    | _ => s

/-- Whether a packet is of a PCI Express or fabric multicast group (R142). -/
def Packet.isMc (p : Packet) : Bool :=
  p.fmc.isSome || match p.body with
    | .req r => r.mc.isSome && r.kind == .memWrite
    | _ => false
/-- The cause by which a discarded pointer is counted: a multicast packet's in the port's drop event, whether the port went down or
blacked out (R142, R333). -/
def Packet.pointerCause (p : Packet) (c : EndCause) : EndCause :=
  if p.isMc && (c == .blackout || c == .vflDown) then .portDown else c
/-- One port drops its pointer of a packet (R142): a multicast copy lives on for its other ports; the last pointer
takes the packet with it. -/
def State.dropPointer (s : State) (p : Packet) (port : Nat) (c : EndCause) : State :=
  if p.ports.length ≤ 1 then s.endPacket p (p.pointerCause c)
  else ((s.modPkt p.id fun q => { q with
      ports := q.ports.filter (· != port), onWire := q.onWire.filter fun w => w.1 != port
      held := if (q.ports.filter (· != port)).any fun k => pbOf k == pbOf port then q.held else q.held.filter (· != pbOf port) }).countDrop
    (tileOf port) (some port) p.seat p.chLen (p.pointerCause c))

/-- End every packet bound for a port (R83, R113, R336). -/
def State.endToPort (s : State) (port : Nat) (c : EndCause) : State :=
  s.each (s.pkts.filter fun p => p.ports.contains port) fun s p =>
    match s.pkt p.id with
    | some q => s.dropPointer q port c
    | none => s

/-- Release an outstanding-request entry with a synthetic completion, formed now under the tile's epoch (R45, R83, R113). -/
def State.releaseOut (s : State) (o : OutEntry) (code : Nat) : State :=
  let s := { s with outs := s.outs.filter fun k => k.id != o.id }
  s.endRequest o.tile (s.tileEpoch o.tile) o.mgmt o.origin o.purpose o.rid o.tag o.svc o.len code (some o.port) o.attr

/-- Release every outstanding request that left through a port (R83, R113). -/
def State.releasePort (s : State) (port code : Nat) : State :=
  s.each (s.outs.filter fun o => o.port == port) fun s o => s.releaseOut o code

end Sys2Proof.Machine
end

