-- ==== Sys2Proof/Machine/PuOps.lean ====
section
/-! DEFINITION. The decision of a protection unit (R246 to R249) and the report of a fault (R251, R252). -/

namespace Sys2Proof.Machine

/-- PU_RULE[r] of tile `t`, word `w`. -/
def puRule (t r w : Nat) : Nat := tileBase t + 0x00040000 + 32 * r + 4 * w
/-- PU_SEAT_CTRL[s] of tile `t`. -/
def puCtrl (t seat : Nat) : Nat := tileBase t + 0x00060000 + 4 * seat
/-- PU_SEAT_STATUS[s] of tile `t`. -/
def puStatus (t seat : Nat) : Nat := tileBase t + 0x00064000 + 4 * seat

/-- Whether a held item takes an entry of the tile's hold queue: a BAR4 access that a packet carries (R253). A fence read waits
behind it and a work request in place, outside the queue of 1,024 (DEDUCED, log entry 104). -/
def HeldAcc.queued (h : HeldAcc) : Bool :=
  match h.item with
  | .bar4 .. => true
  | _ => false

/-- The kinds of access (R247): 0 RD, 1 WR, 2 AT. -/
abbrev PuKind := Nat

/-- A rule's fields, decoded from its words 0 to 4 (R246). -/
structure PuRule where
  valid : Bool
  space : Nat
  kinds : Nat
  seat : Nat
  base : Nat
  limit : Nat
  deriving DecidableEq, Repr

/-- Decode a rule from its words. -/
def puDecode (w : Nat → Word) : PuRule :=
  { valid := bit (w 0) 0, space := field (w 0) 2 1, kinds := field (w 0) 5 3, seat := field (w 0) 27 16,
    base := (w 2).toNat * 2 ^ 32 + (w 1).toNat / 4096 * 4096,
    limit := (w 4).toNat * 2 ^ 32 + (w 3).toNat / 4096 * 4096 + 4095 }

/-- Whether a rule permits a kind. -/
def PuRule.permits (r : PuRule) (k : PuKind) : Bool := r.kinds.testBit k

/-- The numbers of the rules of tile `t` with a word listed in the copy of epoch `e`. -/
def State.puRules (s : State) (e : Bool) (t : Nat) : List Nat :=
  ((s.copyOf e).filterMap fun y =>
    if puRule t 0 0 ≤ y.1 ∧ y.1 < puRule t 4096 0 then some ((y.1 - puRule t 0 0) / 32) else none).eraseDups
/-- A rule of the copy of epoch `e`. -/
def State.puRuleAt (s : State) (e : Bool) (t r : Nat) : PuRule := puDecode fun w => s.conf e (puRule t r w)

/-- The matching rules of an access (R247), with their numbers. -/
def State.puMatches (s : State) (e : Bool) (t seat space a last : Nat) : List (Nat × PuRule) :=
  ((s.puRules e t).map fun r => (r, s.puRuleAt e t r)).filter fun x =>
    x.2.valid && x.2.seat == seat && x.2.space == space && decide (x.2.base ≤ last ∧ a ≤ x.2.limit)

/-- Whether rules together cover every byte from `a` to `last`. -/
def puCovers (rs : List PuRule) (last : Nat) : Nat → Nat → Bool
  | 0, a => decide (last < a)
  | f + 1, a =>
    if last < a then true
    else match rs.find? fun r => decide (r.base ≤ a ∧ a ≤ r.limit) with
      | some r => puCovers rs last f (r.limit + 1)
      | none => false

/-- Whether a seat is privileged (R248): seat 0, or its upstream port is a PRIV_PORT fuse entry. -/
def State.privileged (s : State) (e : Bool) (seat : Nat) : Bool :=
  seat == 0 || (s.bound e seat && (List.range 4).any fun k =>
    s.boot.sensed.getLsbD (1664 + 11 * k + 10) &&
      (s.boot.sensed.toNat / 2 ^ (1664 + 11 * k) % 1024 == s.upPort e (s.seatPart e seat)))

/-- Whether the default map permits a kind (R249). -/
def State.puDefault (s : State) (e : Bool) (t space : Nat) (k : PuKind) : Bool :=
  s.cflag e (tileBase t + 0x68000) (if space = 0 then k else 3 + k)

/-- The decision on an access (R247): none where it is permitted, else the cause and the denying rule. -/
def State.puFaultOf (s : State) (e : Bool) (t seat space : Nat) (k : PuKind) (a len : Nat) : Option (Nat × Nat) :=
  let last := a + max len 1 - 1
  let ms := s.puMatches e t seat space a last
  let priv := s.privileged e seat
  match ms with
  | [] => if priv then (if s.puDefault e t space k then none else some (3, 0xFFF)) else some (0, 0xFFF)
  | _ =>
    match ms.find? fun x => !x.2.permits k with
    | some x => some (1, x.1)
    | none =>
      if puCovers (ms.map (·.2)) last (ms.length + 1) a then none
      else if priv then (if s.puDefault e t space k then none else some (3, 0xFFF))
      else some (2, 0xFFF)

/-- Whether the unit of a seat is disabled on a tile: it holds new accesses (R253). -/
def State.puOff (s : State) (t seat : Nat) : Bool := s.flag (puCtrl t seat) 0

/-- The body of a PU_VIOLATION record (R252). -/
def puBody (t seat : Nat) (v : PuViol) : List Byte :=
  leBytes 2 (seat % 4096 + t % 8 * 4096) ++ leBytes 1 (v.space % 4 + v.kind % 4 * 4 + v.cause % 16 * 16) ++ leBytes 1 0 ++
  leBytes 4 v.len ++ leBytes 8 v.addr ++ leBytes 4 v.n ++ leBytes 2 (v.rule % 4096) ++ leBytes 2 0

/-- Send a PU_VIOLATION record to seat 0 and to the faulting seat (R252, R451). -/
def State.puReport (s : State) (t seat : Nat) (v : PuViol) : State :=
  let s := s.event 0 0x0011 seat t (puBody t seat v)
  if seat = 0 then s else s.event seat 0x0011 seat t (puBody t seat v)

/-- The key of a seat's violation interval on a tile. -/
def puKey (t seat : Nat) : Nat := 4096 * t + seat

/-- Record the state of a seat's interval. -/
def State.setViol (s : State) (key : Nat) (v : Option PuViol) : State :=
  { s with pu := { s.pu with viol := tset none s.pu.viol key v } }

/-- A fault (R252): counted, shown in the seat's status, reported at once or counted in the open interval. -/
def State.puFault (s : State) (t seat space : Nat) (k : PuKind) (cause rule a len : Nat) : State :=
  let s := (s.count t .puViolation none (some seat)).sticky (puStatus t seat) 14
  let s := if cause = 4 then (s.count t .puHoldTimeout none (some seat)).sticky (puStatus t seat) 13
           else if cause = 5 then (s.count t .puHoldFull none (some seat)).sticky (tileBase t + 0x68004) 24 else s
  let v : PuViol := { n := 1, space := space, kind := k, cause := cause, rule := rule, addr := a, len := len }
  match tget none s.pu.viol (puKey t seat) with
  | none =>
    (s.puReport t seat v).setViol (puKey t seat) (some { v with n := 0 })
  | some w => s.setViol (puKey t seat) (some (if w.n = 0 then v else { w with n := satAdd 0xFFFFFFFF w.n 1 }))

/-- Check an engine's range under the set in force at the tile (R250): the state with the fault reported, or none where
every kind is permitted. -/
def State.puCheck (s : State) (t seat space a len : Nat) (kinds : List PuKind) : Option State :=
  kinds.findSome? fun k =>
    (s.puFaultOf (s.tileEpoch t) t seat space k a len).map fun c => s.puFault t seat space k c.1 c.2 a len

end Sys2Proof.Machine
end

