-- ==== Sys2Proof/Machine/Window.lean ====
section
/-! DEFINITION. Windows: the table's initialisation, opening, the checks of engine packets, revocation, and the report
of rejections (R194 to R203). -/

namespace Sys2Proof.Machine

/-- The effect of RM_WIN_CFG.INIT (R194): ignored and marked while READY = 1. -/
def State.winInitAct (s : State) : State :=
  if s.winReady then s.sticky 0x0014000C 2 else s.setFlag 0x0014000C 1 true

/-- WINDOW_TABLE_INIT (R194, R204): a write of RM_WIN_CFG; while READY = 1 it is ignored and marked. -/
def windowTableInit (v : Word) (s : State) : State :=
  if s.winReady then s.sticky 0x0014000C 2
  else
    let s := s.plainWrite 0x00140000 v
    if bit v 5 then s.winInitAct else s

/-- WINDOW_TABLE_INIT_DONE (R194): every entry free with GEN 1, every free list whole, READY set. -/
def windowTableInitDone (s : State) : State :=
  if !s.flag 0x0014000C 1 then s
  else
    let s := s.modWin fun w => { w with tbl := [], fresh := [], freed := [], lru := [], revokes := [] }
    (s.setFlag 0x0014000C 1 false).setFlag 0x0014000C 0 true

/-- Whether tile `t` has a free window index. -/
def State.winHead (s : State) (t : Nat) : Option Nat :=
  if !s.winReady then none
  else if tget 0 s.win.fresh t < 2 ^ (s.winN - 3) then some (t * 2 ^ (s.winN - 3) + tget 0 s.win.fresh t)
  else (tget [] s.win.freed t).head?

/-- Take the head of a tile's free list. -/
def State.winTake (s : State) (t : Nat) : State :=
  s.modWin fun w =>
    if tget 0 w.fresh t < 2 ^ (s.winN - 3) then { w with fresh := tmod 0 w.fresh t (· + 1) }
    else { w with freed := tmod [] w.freed t List.tail }

/-- The kinds that an ACCESS field grants. -/
def accessKinds (a : Nat) : List PuKind := [0, 1, 2].filter fun k => a.testBit k

/-- Carry out an open command at tile `t` (R197): the completion code and the key. -/
def State.winOpen (s : State) (t seat : Nat) (d : Desc) : State × Nat × Nat :=
  match s.winHead t with
  | none => (s, 0x05, 0)
  | some i =>
    let base := d.localAddr.toNat
    if base % 4096 ≠ 0 ∨ d.rOffset % 4096 ≠ 0 ∨ d.rOffset < 4096 ∨ 2 ^ 40 < d.rOffset then (s, 0x01, 0)
    else if d.access % 8 = 0 then (s, 0x02, 0)
    else match s.puCheck t seat 0 base d.rOffset (accessKinds d.access) with
      | some s => (s, 0x02, 0)
      | none =>
        let pas := s.seatPasid s.leadEpoch seat
        let s := (s.winTake t).modWindow i fun w =>
          { w with state := 1, owner := seat, access := d.access % 8, base := base, len := d.rOffset, pasid := pas,
                   inflight := 0 }
        let s := s.tableWrite true t i
        ((s.cacheIn true t i).getD s, 0x00, i * 256 + (s.window i).gen)

/-- Revoke an open window (R200): in one step GEN rises and STATE becomes revoking. -/
def State.revokeWin (s : State) (i : Nat) (wr seat : Option Nat) : State :=
  ((s.modWindow i fun w => { w with gen := w.gen + 1, state := 2 }).tableWrite true (s.winTile i) i).modWin fun w =>
    { w with revokes := w.revokes ++ [{ index := i, wr := wr, seat := seat }] }

/-- REVOKE_DRAINED (R201): no packet of the window is in flight; one flush read, owed order, goes behind its writes. -/
def revokeDrained (t i : Nat) (s : State) : State :=
  if s.winTile i ≠ t || !s.here t || (s.window i).inflight ≠ 0 ||
      !s.win.revokes.any fun r => r.index == i && !r.flushing then s
  else
    let w := s.window i
    let s := s.modWin fun x => { x with revokes := x.revokes.map fun r =>
      if r.index = i then { r with flushing := true } else r }
    let e := s.tileEpoch t
    let p := s.seatPart s.leadEpoch w.owner
    if !s.canIssue p then s
    else s.form (s.upForm e t p (some w.owner) false (s.engClass t) (.winFlush i)) .nonPosted
      (.req (ownReq .memRead w.base 0 [] (s.ffRid p) w.pasid (s.engClass t)))

/-- The end of a revocation (step 5 of R201): the entry is written free or retired, and the revoke completes. -/
def State.revokeEnd (s : State) (t : Nat) (r : Revoke) : State :=
  let s := s.modWin fun x => { x with revokes := x.revokes.filter fun k => k.index != r.index }
  let s :=
    if (s.window r.index).gen = 0xFF then
      (s.modWindow r.index fun w => { w with state := 3 }).count t .rmWinRetired none (some (s.window r.index).owner)
    else (s.modWindow r.index fun w => { w with state := 0 }).modWin fun x =>
      { x with freed := tmod [] x.freed t (· ++ [r.index]) }
  let s := s.tableWrite true t r.index
  match r.wr with
  | some w => s.finishWr w 0
  | none => s

/-- REVOKE_FLUSH_DONE (R201). -/
def revokeFlushDone (t i : Nat) (s : State) : State :=
  if s.winTile i ≠ t || !s.here t then s
  else match s.win.revokes.find? fun r => r.index == i && r.flushing with
    | some r => s.revokeEnd t r
    | none => s

/-- Check an engine packet against the window it names (R198): the code of the first failure. `k` is 0 for a read, 1 for
a write, 2 for an atomic. -/
def State.winCheck (s : State) (t : Nat) (h : EngHdr) (k len : Nat) : Option Nat :=
  let i := h.keyOrImm.toNat / 256
  let w := s.window i
  if 2 ^ s.winN ≤ i ∨ s.winTile i ≠ t then some 0x03
  else if w.state ≠ 1 ∨ w.gen ≠ h.keyOrImm.toNat % 256 then some 0x04
  else if !w.access.testBit k then some 0x03
  else if w.len < h.rOffset + len then some 0x03
  else none

/-- The body of an RM_WIN_VIOLATION record (R203). -/
def violBody (v : WinViol) : List Byte :=
  leBytes 4 v.key ++ leBytes 2 v.fid ++ leBytes 1 v.code ++ leBytes 1 0 ++ leBytes 8 v.offset ++ leBytes 4 v.n ++
  leBytes 2 (v.seat % 4096) ++ leBytes 2 0

/-- Record the state of a window's violation interval. -/
def State.setWinViol (s : State) (i : Nat) (v : Option WinViol) : State :=
  s.modWin fun w => { w with viol := tset none w.viol i v }

/-- Report a rejection to the window's owner (R203). -/
def State.winReport (s : State) (t : Nat) (h : EngHdr) (code : Nat) : State :=
  let i := h.keyOrImm.toNat / 256
  let w := s.window i
  let v : WinViol := { n := 1, key := h.keyOrImm.toNat, fid := fidOf h.srcSw 0, code := code, offset := h.rOffset,
                       seat := h.reqSeat }
  if 2 ^ s.winN ≤ i || s.winTile i != t || w.state == 0 || w.state == 3 then s.count t .rmWinNoOwner
  else match tget none s.win.viol i with
    | none => (s.event w.owner 0x0010 w.owner t (violBody v)).setWinViol i (some { v with n := 0 })
    | some q => s.setWinViol i (some (if q.n = 0 then v else { q with n := satAdd 0xFFFFFFFF q.n 1 }))

/-- Reject an engine packet (R198, R203): an ACK with the code, and the owner's report. -/
def State.winReject (s : State) (t : Nat) (h : EngHdr) (code : Nat) : State :=
  (s.answer t h 6 code []).winReport t h code

/-- WINDOW_VIOLATION_INTERVAL_END (R203): a counted event is sent and opens the next interval. -/
def windowViolationIntervalEnd (t i : Nat) (s : State) : State :=
  if s.winTile i ≠ t then s
  else match tget none s.win.viol i with
    | none => s
    | some q =>
      if q.n = 0 then s.setWinViol i none
      else
        let o := (s.window i).owner
        (s.event o 0x0010 o t (violBody q)).setWinViol i (some { q with n := 0 })

/-! ### The meanings -/

/-- WINDOW_TABLE_INIT. -/
def execWindowTableInit (v : Word) (s : State) : Out := .next (windowTableInit v s)
/-- WINDOW_TABLE_INIT_DONE. -/
def execWindowTableInitDone (s : State) : Out := .next (windowTableInitDone s)
/-- REVOKE_DRAINED. -/
def execRevokeDrained (t i : Nat) (s : State) : Out := .next (revokeDrained t i s)
/-- REVOKE_FLUSH_DONE. -/
def execRevokeFlushDone (t i : Nat) (s : State) : Out := .next (revokeFlushDone t i s)
/-- WINDOW_VIOLATION_INTERVAL_END. -/
def execWindowViolationIntervalEnd (t i : Nat) (s : State) : Out := .next (windowViolationIntervalEnd t i s)

end Sys2Proof.Machine
end

