-- ==== Sys2Proof/Machine/Engine.lean ====
section
/-! DEFINITION. The remote-memory engine: descriptors accepted, held and started (R211 to R219), local DMA (R294, R295),
engine packets served and answered (R198, R215 to R218, R220), retries (R210), destroys (R221), timeouts (R223). -/

namespace Sys2Proof.Machine

/-! ### Opcodes (R212) -/

/-- Whether an opcode is listed. -/
def opListed (o : Nat) : Bool := decide (o ≤ 9) || o == 0x10 || o == 0x11 || o == 0x20 || o == 0x21
/-- Whether an opcode is an atomic. -/
def opAtomic (o : Nat) : Bool := decide (5 ≤ o ∧ o ≤ 7)
/-- The bytes of an atomic's operand block, read from LOCAL_ADDR. -/
def operandLen (o : Nat) : Nat := if o = 5 then 8 else if o = 6 then 16 else 32
/-- The bytes of an atomic's operand and of its original value. -/
def atomLen (o : Nat) : Nat := if o = 7 then 16 else 8

/-- The local range and kinds that check 6 of R213 tests. -/
def localRange (d : Desc) : Option (Nat × List PuKind) :=
  if d.opcode = 1 ∨ d.opcode = 3 then some (d.length, [0])
  else if d.opcode = 2 then some (d.length, [1])
  else if opAtomic d.opcode then some (operandLen d.opcode, [0, 1])
  else none

/-- Whether a queue pair is ready, of the seat, and homed on the tile (check 5 of R213). -/
def State.ownQp (s : State) (t seat n : Nat) : Bool :=
  decide (n < 2 ^ s.qpQ) && (s.qp n).state == 1 && (s.qp n).owner == seat && s.qpTile n == t

/-- Checks 1 to 5 of R213: the code of the first failure. -/
def State.descCode (s : State) (t seat : Nat) (d : Desc) (c : Option CtxInit) : Option Nat :=
  let q := s.qp d.qpn
  let o := d.opcode
  let known := decide (d.qpn < 2 ^ s.qpQ)
  let ctxOk := match c with
    | some c => s.qpReady && known && q.state != 1 && q.state != 2 && decide (4 ≤ c.rqLog2 ∧ c.rqLog2 ≤ 16) &&
        c.rqBase.toNat % 64 == 0 && (s.ringOwner s.leadEpoch c.cqRing == some c.ownerSeat)
    | none => false
  if !opListed o then some 0x0C
  else if (o = 0x20 || o = 0x21) && seat ≠ 0 then some 0x02
  else if (decide (o ≤ 9) || o == 0x21) && !(known && q.state == 1) then some 0x0C
  else if o = 0x20 && !ctxOk then some 0x0C
  else if o ≤ 9 && q.owner ≠ seat then some 0x02
  else if o ≤ 0x11 && 2 ^ 30 < d.length then some 0x01
  else if opAtomic o && d.rOffset % atomLen o ≠ 0 then some 0x01
  else if o = 4 && (d.length = 0 || 2 ^ q.rqLog2 - modSub 65536 q.pi q.ci < d.length) then some 0x01
  else if (d.trig && !s.ownQp t seat d.trigQpn) || ((d.cntOnDone || o = 9) && !s.ownQp t seat d.doneQpn) then some 0x0C
  else none

/-- The code with which a seat's state ends a new descriptor (R239, R334): squashed, or in blackout. -/
def State.seatCode (s : State) (t seat : Nat) : Option Nat :=
  if s.seatRefuses seat then some 0x06 else if s.seatBlack t seat then some 0x0A else none

/-! ### DMA (R294, R295) -/

/-- The data that stands from offset `o` on without a gap. -/
def gather (ps : List (Nat × List Byte)) : Nat → Nat → List Byte
  | 0, _ => []
  | f + 1, o =>
    match ps.find? fun p => p.1 == o && !p.2.isEmpty with
    | some p => p.2 ++ gather ps f (o + p.2.length)
    | none => []

/-- Start a DMA read of a partition's host memory, for a work request or for a packet accepted at a window. Without Bus
Master Enable it ends as in blackout (R280). -/
def State.dmaStart (s : State) (t part seat : Nat) (pasid : Option Nat) (wr issue : Option Nat) (addr len : Nat) :
    State :=
  let id := s.idCtr
  let rs := (cuts (len + 1) addr len (s.mrrs part)).map fun c => (c.1, c.1 + c.2)
  let d : Dma := { id := id, tile := t, part := part, wr := wr, issue := issue, start := addr, reqs := rs }
  let s := { s with idCtr := s.idCtr + 1, host := { s.host with dmas := s.host.dmas ++ [d] } }
  if s.canIssue part then s.hostRead (s.tileEpoch t) t part (some seat) false pasid (.dma id) addr len
  else s.dmaEnd id 0x0A

/-- Drop the outstanding entries of a DMA read that has ended (R158). -/
def State.dmaForget (s : State) (id : Nat) : State :=
  { s with outs := s.outs.filter fun o => o.purpose != .dma id }

/-- Local data of a work request has been gathered up to a point: send what is complete (R215, R220). -/
def State.wrData (s : State) (id : Nat) (buf : List Byte) : State :=
  match s.wr id with
  | none => s
  | some w =>
    if w.st != .started then s
    else
      let need := if opAtomic w.d.opcode then operandLen w.d.opcode else w.d.length
      let s := s.modWr id fun k => { k with buf := buf, unread := need - buf.length }
      if opAtomic w.d.opcode then
        if buf.length < need then s
        else s.sendWr { w with buf := buf } w.d.rSw (s.winTile (w.d.rKey.toNat / 256))
          (s.wrHdr w 4 w.d.rOffset (atomLen w.d.opcode)) buf
      else s.sendReady id (w.d.length / 1024 + 2)

/-- The data of a READ_REQ has been read: READ_RESP, and the window's count falls (R199, R216). -/
def State.readDone (s : State) (id mtype : Nat) (data : List Byte) : State :=
  match s.eng.issues.find? fun k => k.id == id with
  | none => s
  | some k =>
    let s := s.modEng fun g => { g with issues := g.issues.filter fun j => j.id != id }
    let s := match k.index with
      | some i => s.winDec i
      | none => s
    s.answer k.tile k.hdr mtype 0 data

/-- A piece of a completion to a DMA read (R295). -/
def State.dmaPiece (s : State) (id : Nat) (c : Cpl) : State :=
  match s.host.dmas.find? fun d => d.id == id with
  | none => s
  | some d =>
    let a := c.addr.toNat
    let n := c.data.length
    if c.status ≠ .sc then (s.dmaEnd id (if d.wr.isSome then 0x02 else 0x03)).dmaForget id
    else if c.poisoned then (s.dmaEnd id 0x09).dmaForget id
    else match d.reqs.find? fun r => r.1 == a && decide (r.1 < r.2) with
      | none => ((s.count d.tile .malformed).dmaEnd id 0x08).dmaForget id
      | some r =>
        if n = 0 ∨ r.2 < a + n ∨ (a + n < r.2 ∧ ((a + n) % 64 ≠ 0 ∨ c.last)) then
          ((s.count d.tile .malformed).dmaEnd id 0x08).dmaForget id
        else
          let d' := { d with reqs := d.reqs.map fun q => if q = r then (a + n, r.2) else q,
                             pieces := d.pieces ++ [(a - d.start, c.data)] }
          let full := d'.reqs.all fun q => q.1 == q.2
          let buf := gather d'.pieces (d'.pieces.length + 1) 0
          let s := { s with host := { s.host with
            dmas := if full then s.host.dmas.filter fun k => k.id != id
                    else s.host.dmas.map fun k => if k.id = id then d' else k } }
          let s := if full then s.dmaForget id else s
          match d.wr, d.issue with
          | some w, _ => s.wrData w buf
          | none, some i => if full then s.readDone i 2 buf else s
          | none, none => s

/-! ### Starting (R214, R219) -/

/-- Whether a trigger is met (R219). -/
def State.trigMet (s : State) (d : Desc) : Bool :=
  !d.trig || decide (modSub (2 ^ 64) (s.qp d.trigQpn).trig d.thresh < 2 ^ 63)

/-- The records of a queue pair's work requests that wait at its completion ring: they keep their MAX_OUT places
(R287). -/
def State.recsWaiting (s : State) (n : Nat) : Nat :=
  ((s.ringSt (s.qp n).cq).recs.countP fun b =>
    ofBytes ((b.2.drop 8).take 3) == n && ofBytes ((b.2.drop 11).take 1) != 0x83)

/-- Whether a held work request may start (R183, R214), but for the writes before it that are not shown performed. -/
def State.mayStart (s : State) (w : Wr) : Bool :=
  let mine := if w.q.isSome then s.eng.wrs.filter fun k => k.q == w.q else []
  let before := mine.takeWhile fun k => k.id != w.id
  let q := s.qp w.d.qpn
  w.st == .held && !s.withheld w.tile w.seat && (before.all fun k => k.st != .held) &&
    (w.q.isNone || decide ((mine.countP fun k => k.st != .held) + s.recsWaiting w.d.qpn < max 1 q.maxOut)) &&
    decide ((s.eng.wrs.countP fun k => k.tile == w.tile && k.st == .started) < 32768) &&
    s.trigMet w.d &&
    (before.all fun k => k.st == .done || k.d.opcode != 8) &&
    (w.d.opcode != 8 || before.all fun k => k.st == .done) &&
    (!(w.q.isSome && q.ordered && (w.d.opcode == 2 || opAtomic w.d.opcode)) ||
      before.all fun k => k.st == .done || k.d.opcode != 1)
/-- Whether a work request waits for earlier writes of its queue pair to be performed (R183): a read or an atomic of an ordered queue
pair, and a FENCE. A WRITE to another part is taken as performed when it has completed (DESIGN CHOICE, log entry 127). -/
def State.unshown (s : State) (w : Wr) : Bool :=
  w.q.isSome && (w.d.opcode == 8 || ((s.qp w.d.qpn).ordered && (w.d.opcode == 2 || opAtomic w.d.opcode))) &&
    s.eng.writes.any fun k => k.qpn == w.d.qpn && decide (k.wr < w.id)
/-- Whether a held work request may start (R183, R214). -/
def State.canStart (s : State) (w : Wr) : Bool := s.mayStart w && !s.unshown w
/-- A flush read goes behind the last WRITE of a queue pair into a stream (R183, R179). -/
def State.askOne (s : State) (k : QpWrite) : State :=
  let key := s.idCtr
  let s := { s with idCtr := key + 1, eng := { s.eng with writes := s.eng.writes.map fun x => if x = k then { x with asked := some key } else x } }
  let e := s.tileEpoch k.tile
  if s.canIssue k.part then
    s.form (s.upForm e k.tile k.part (some k.seat) false (s.engClass k.tile) (.perf key)) .nonPosted
      (.req (ownReq .memRead k.addr 0 [] (s.ffRid k.part) none (s.engClass k.tile)))
  else s.shown key
/-- The home tiles of the windows are asked to show the writes of a queue pair performed, where a work request that could else start
waits for them. -/
def State.askShown (s : State) (w : Wr) : State :=
  if s.mayStart w && s.unshown w then
    s.each (s.eng.writes.filter fun k => k.qpn == w.d.qpn && k.asked.isNone) State.askOne
  else s

/-- Start the local gather of a work request. -/
def State.gatherWr (s : State) (w : Wr) (len : Nat) : State :=
  let p := s.seatPart s.leadEpoch w.seat
  (s.modWr w.id fun k => { k with unread := len }).dmaStart w.tile p w.seat (s.seatPasid s.leadEpoch w.seat)
    (some w.id) none w.d.localAddr.toNat len

/-- NOP completes as it starts (R212). -/
def State.startNop (s : State) (w : Wr) : State := s.finishWr w.id 0
/-- WRITE gathers its data (R215); one of no bytes has no packet. -/
def State.startWrite (s : State) (w : Wr) : State :=
  if w.d.length = 0 then s.settleWr w.id else s.gatherWr w w.d.length
/-- READ sends one READ_REQ per cut (R215). -/
def State.startRead (s : State) (w : Wr) : State :=
  let s := s.each (pktCuts (w.d.length + 1) w.d.rOffset w.d.length) fun s c =>
    s.sendWr w w.d.rSw (s.winTile (w.d.rKey.toNat / 256)) (s.wrHdr w 1 c.1 c.2) []
  s.settleWr w.id
/-- SEND takes the next message number and gathers its data (R215, R217). -/
def State.startSend (s : State) (w : Wr) : State :=
  let q := s.qp w.d.qpn
  let w := { w with ssn := q.ssn }
  let s := (s.modQp w.d.qpn fun k => { k with ssn := (k.ssn + 1) % 65536 }).modWr w.id fun k => { k with ssn := q.ssn }
  if w.d.length = 0 then (s.sendWr w q.rSw (s.qpTile q.rQpn) (s.wrHdr w 3 0 0) []).settleWr w.id
  else s.gatherWr w w.d.length
/-- RECV_POST raises RQ_PI (R212). -/
def State.startRecvPost (s : State) (w : Wr) : State :=
  (s.modQp w.d.qpn fun k => { k with pi := (k.pi + w.d.length) % 65536 }).finishWr w.id 0
/-- An atomic gathers its operand block (R220). -/
def State.startAtomic (s : State) (w : Wr) : State := s.gatherWr w (operandLen w.d.opcode)
/-- FENCE completes as it starts, with FENCE_DISCARD where one it waited for failed (R212). -/
def State.startFence (s : State) (w : Wr) : State := s.finishWr w.id (if w.waitedFail then 0x0B else 0)
/-- COUNT_ADD advances a counter (R212, R219). -/
def State.startCountAdd (s : State) (w : Wr) : State := (s.advTrig w.d.doneQpn w.d.imm.toNat).finishWr w.id 0
/-- WIN_OPEN (R197). -/
def State.startWinOpen (s : State) (w : Wr) : State :=
  let r := s.winOpen w.tile w.seat w.d
  (r.1.modWr w.id fun k => { k with key := r.2.2 }).finishWr w.id r.2.1
/-- WIN_REVOKE (R200). -/
def State.startWinRevoke (s : State) (w : Wr) : State :=
  let i := w.d.rKey.toNat / 256
  let e := s.window i
  if 2 ^ s.winN ≤ i ∨ e.state ≠ 1 ∨ e.gen ≠ w.d.rKey.toNat % 256 then s.finishWr w.id 0x04
  else if w.seat ≠ 0 ∧ e.owner ≠ w.seat then s.finishWr w.id 0x02
  else s.revokeWin i (some w.id) none
/-- QP_CREATE writes the context of a free queue pair (R206, R212). -/
def State.startQpCreate (s : State) (w : Wr) : State :=
  match w.ctx with
  | none => s.finishWr w.id 0x0C
  | some c =>
    let s := s.modQp w.d.qpn fun _ => {
      state := 1, ordered := c.ordered, notifyEn := c.notifyEn, owner := c.ownerSeat,
      cq := c.cqRing, rQpn := c.remoteQpn, rSw := c.remoteSw, backoff := c.backoff, retryLimit := c.retryLimit,
      maxOut := c.maxOut, rqLog2 := c.rqLog2, rqBase := c.rqBase.toNat }
    s.finishWr w.id 0
/-- Squash the work requests of a queue pair that have not started, in order (R221, R239). -/
def State.squashHeld (s : State) (n code : Nat) : State :=
  s.each ((s.wrsOf n).filter fun w => w.st == .held) fun s w => s.finishWr w.id code
/-- QP_DESTROY sets the queue pair destroying (R221). -/
def State.startQpDestroy (s : State) (w : Wr) : State :=
  (s.modQp w.d.qpn fun k => { k with state := 2, destroyer := some w.id }).squashHeld w.d.qpn 0x06

/-- Start a work request, by its opcode (R212, R214). -/
def State.startWr (s : State) (w : Wr) : State :=
  let i := s.freeSlot w.tile
  let s := s.used.modWr w.id fun k => { k with st := .started, slot := i }
  let w := { w with st := .started, slot := i }
  if w.d.opcode = 0x00 then s.startNop w
  else if w.d.opcode = 0x01 then s.startWrite w
  else if w.d.opcode = 0x02 then s.startRead w
  else if w.d.opcode = 0x03 then s.startSend w
  else if w.d.opcode = 0x04 then s.startRecvPost w
  else if opAtomic w.d.opcode then s.startAtomic w
  else if w.d.opcode = 0x08 then s.startFence w
  else if w.d.opcode = 0x09 then s.startCountAdd w
  else if w.d.opcode = 0x10 then s.startWinOpen w
  else if w.d.opcode = 0x11 then s.startWinRevoke w
  else if w.d.opcode = 0x20 then s.startQpCreate w
  else s.startQpDestroy w

/-- WORK_REQUEST_START (R214): a held work request whose conditions are met starts; of those that wait on one counter the
first accepted goes first (R219). -/
def workRequestStart (id : Nat) (s : State) : State :=
  match s.wr id with
  | none => s
  | some w =>
    if !s.here w.tile then s
    else if !s.canStart w then s.askShown w
    else if w.d.trig && (s.eng.wrs.takeWhile fun k => k.id != id).any fun k =>
        k.d.trig && k.d.trigQpn == w.d.trigQpn && s.canStart k then s
    else s.startWr w

/-! ### Accepting descriptors (R209, R211 to R214, R253) -/

/-- A new work request of a descriptor: it stands in the order of its queue pair where that is its seat's. -/
def State.newWr (s : State) (t seat ring : Nat) (d : Desc) (c : Option CtxInit) (st : WrState) (code : Nat) : Wr :=
  let q := s.qp d.qpn
  { id := s.idCtr, tile := t, seat := seat, ring := ring, d := d, ctx := c, st := st, code := code,
    q := if d.opcode ≠ 0x20 && d.opcode ≠ 0x21 && q.state ≠ 0 && q.owner == seat then some d.qpn else none,
    triggered := d.trig && !s.trigMet d }

/-- Add a work request. -/
def State.addWr (s : State) (w : Wr) : State :=
  { s with idCtr := s.idCtr + 1, eng := { s.eng with wrs := s.eng.wrs ++ [w] } }

/-- A descriptor that fails a check completes at once with its code (R213). -/
def State.failDesc (s : State) (t seat ring : Nat) (d : Desc) (c : Option CtxInit) (code : Nat) : State :=
  (s.addWr (s.newWr t seat ring d c .done code)).reap

/-- RM_MISS_STATUS and RM_HOLD_STATUS of a tile. -/
def missStatus (t : Nat) : Nat := tileBase t + 0xA014
/-- RM_HOLD_STATUS of a tile. -/
def holdStatus (t : Nat) : Nat := tileBase t + 0xA018

/-- Pause a ring's fetching (R209, R214, R253). -/
def State.pauseRing (s : State) (ring : Nat) : State := s.modRing ring fun q => { q with paused := true }

/-- Hold an access at a disabled unit (R253). -/
def State.puHold (s : State) (t seat : Nat) (it : HeldItem) : State :=
  { s with idCtr := s.idCtr + 1
           pu := { s.pu with held := s.pu.held ++ [{ id := s.idCtr, tile := t, seat := seat, item := it }] } }

/-- Whether earlier work of a queue pair waits at a disabled unit. -/
def State.workHeld (s : State) (t n : Nat) : Bool :=
  s.pu.held.any fun k => k.tile == t && match k.item with
    | .work _ d _ => d.opcode != 0x10 && d.qpn == n
    | _ => false

/-- The engine of tile `t` takes a descriptor that passed checks 1 to 5 and is not held: check 6, then it starts or takes
a hold entry (R213, R214). False where no hold entry is free. -/
def State.enginePass (s : State) (t seat ring : Nat) (d : Desc) (c : Option CtxInit) : State × Bool :=
  match (localRange d).bind fun r => s.puCheck t seat 0 d.localAddr.toNat r.1 r.2 with
  | some s => (s.failDesc t seat ring d c 0x02, true)
  | none =>
    let w := s.newWr t seat ring d c .held 0
    let s' := s.addWr w
    if s'.canStart w then (s'.startWr w, true)
    else if 8192 ≤ s.eng.wrs.countP fun k => k.tile == t && k.st == .held then
      ((s.sticky (holdStatus t) 14).pauseRing ring, false)
    else (s'.askShown w, true)

/-- The engine of tile `t` checks a descriptor (R213): false where the descriptor must wait at its ring. -/
def State.engineAccept (s : State) (t seat ring : Nat) (d : Desc) (c : Option CtxInit) : State × Bool :=
  let checked := localRange d |>.isSome
  match (if opListed d.opcode then s.seatCode t seat else none).orElse fun _ => s.descCode t seat d c with
  | some code => (s.failDesc t seat ring d c code, true)
  | none =>
    if s.puOff t seat && (checked || d.opcode == 0x10) then
      let s := s.puHold t seat (.work ring d c)
      (if d.opcode = 0x10 then s.pauseRing ring else s, true)
    else if d.opcode ≤ 9 && s.workHeld t d.qpn then (s.puHold t seat (.work ring d c), true)
    else s.enginePass t seat ring d c

/-- The entries of a tile's miss buffer in use. -/
def State.missUsed (s : State) (t : Nat) : Nat := s.eng.parked.countP fun k => k.tile == t

/-- The object a descriptor needs in its home tile's cache: a window for WIN_REVOKE, else a context. -/
def descKey (d : Desc) : Option (Bool × Nat) :=
  if d.opcode = 0x10 then none
  else if d.opcode = 0x11 then some (true, d.rKey.toNat / 256)
  else some (false, d.qpn)

/-- The home tile of a descriptor (R211). -/
def State.descTile (s : State) (seat : Nat) (d : Desc) : Nat :=
  if d.opcode = 0x10 then s.seatHome s.leadEpoch seat
  else if d.opcode = 0x11 then s.winTile (d.rKey.toNat / 256)
  else s.qpTile d.qpn

/-- A descriptor of a ring reaches its home tile's engine (R209, R211, R213): false where it waits at its ring. A
descriptor for a lost tile is consumed without a record and counted (R347). -/
def State.engineTake (s : State) (ring : Nat) (d : Desc) (c : Option CtxInit) : State × Bool :=
  match s.workOwner ring with
  | none => (s, false)
  | some seat =>
    let t := s.descTile seat d
    if !s.here t then
      (s.count (s.seatHome s.leadEpoch seat) .tileDrop none (some seat), true)
    else match descKey d with
      | none => s.engineAccept t seat ring d c
      | some (isWin, k) =>
        if s.isCached isWin t k && !s.eng.parked.any fun j => j.isWin == isWin && j.key == k then
          (s.touch isWin t k).engineAccept t seat ring d c
        else if (if isWin then 2 ^ s.winN ≤ k else 2 ^ s.qpQ ≤ k) then s.engineAccept t seat ring d c
        else if s.missUsed t < 256 then
          (s.park t isWin k (.desc ring d c), true)
        else ((s.sticky (missStatus t) 9).pauseRing ring, false)

/-! ### Engine packets at their home tile -/

/-- Refuse an engine packet with NOT_READY (R209, R210). -/
def State.notReadySend (s : State) (t : Nat) (h : EngHdr) : State :=
  ((s.count t .rmNotReadySent).sticky (missStatus t) 10).answer t h 7 0x05 []

/-- A packet that passed its checks, to be issued on the owner's port. -/
def State.addIssue (s : State) (t : Nat) (index : Option Nat) (h : EngHdr) (data : List Byte) : State :=
  { s with idCtr := s.idCtr + 1
           eng := { s.eng with issues := s.eng.issues ++
             [{ id := s.idCtr, tile := t, index := index, hdr := h, data := data }] } }

/-- Issue posted writes to a partition's host memory for an accepted packet: its ACK returns once they are issued, or
with the code of blackout without Bus Master Enable (R216, R280). -/
def State.issueWrite (s : State) (t part seat : Nat) (pasid : Option Nat) (id addr : Nat) (data : List Byte) : State :=
  let s' := s.hostWrite (s.tileEpoch t) t part (some seat) false pasid (.issue id) addr data
  if !s.canIssue part then s'.issued id 0x0A
  else if data.isEmpty then s.issued id 0
  else s'

/-- A packet that names a window, its entry cached (R198, R216, R220). -/
def State.winPkt (s : State) (t : Nat) (h : EngHdr) (data : List Byte) : State :=
  let i := h.keyOrImm.toNat / 256
  let k := if h.mtype = 0 then 1 else if h.mtype = 1 then 0 else 2
  let n := if h.mtype = 0 then data.length else if h.mtype = 1 then h.length else atomLen (h.aop + 5)
  match s.winCheck t h k n with
  | some code => s.winReject t h code
  | none =>
    let w := s.window i
    let p := s.seatPart s.leadEpoch w.owner
    let id := s.idCtr
    let s := (s.modWindow i fun w => { w with inflight := w.inflight + 1 }).addIssue t (some i) h data
    if h.mtype = 0 then s.issueWrite t p w.owner w.pasid id (w.base + h.rOffset) data
    else if h.mtype = 1 then
      if h.length = 0 then s.readDone id 2 [] else s.dmaStart t p w.owner w.pasid none (some id) (w.base + h.rOffset) h.length
    else if !s.canIssue p then s.issued id 0x0A
    else s.form (s.upForm (s.tileEpoch t) t p (some w.owner) false (s.engClass t) (.issue id)) .nonPosted
      (.req (ownReq .atomicOp (w.base + h.rOffset) n data (s.ffRid p) w.pasid (s.engClass t)))

/-- A SEND packet at the peer's home tile, its context cached (R217): `ea`, `el`, `ew` are the receive entry's ADDR, LEN
and WR_ID as the engine reads them. -/
def State.sendPkt (s : State) (t : Nat) (h : EngHdr) (ea : Nat) (el : Nat) (ew : BitVec 64) (data : List Byte) : State :=
  let n := h.dstQpn
  let q := s.qp n
  let m := h.ssn % 65536
  let old := q.recv.find? fun k => k.ssn == m
  let e := s.tileEpoch t
  if !(decide (n < 2 ^ s.qpQ) && q.state == 1 && q.rSw == h.srcSw && q.rQpn == h.qpn) then s.answer t h 6 0x03 []
  else if old.isNone && (decide (1 ≤ modSub 65536 q.ci m ∧ modSub 65536 q.ci m ≤ 32768)) then s.answer t h 6 0x03 []
  else if old.isNone && !(decide (1 ≤ modSub 65536 q.pi m ∧ modSub 65536 q.pi m ≤ 2 ^ q.rqLog2)) then s.notReadySend t h
  else if s.puOff t q.owner then s.notReadySend t h
  else
    let r : RecvMsg := old.getD {
      ssn := m, addr := ea, entryLen := el, wrId := ew, len := h.length, got := 0,
      imm := if h.immV then some h.keyOrImm else none, srcQpn := h.qpn, srcSw := h.srcSw }
    let s := if old.isNone then s.modQp n fun k => { k with recv := k.recv ++ [r] } else s
    if r.done then s.answer t h 6 0x03 []
    else if r.entryLen < r.len then (s.answer t h 6 0x03 []).recvEnd t n m 0x01
    else
      match (if old.isNone then s.puCheck t q.owner 0 r.addr r.len [1] else none) with
      | some s => (s.answer t h 6 0x03 []).recvEnd t n m 0x02
      | none =>
        let p := s.seatPart e q.owner
        let id := s.idCtr
        (s.addIssue t none h data).issueWrite t p q.owner (s.seatPasid s.leadEpoch q.owner) id (r.addr + h.rOffset) data

/-- A NOTIFY at the peer's home tile, its context cached (R218). -/
def State.notifyPkt (s : State) (t : Nat) (h : EngHdr) : State :=
  let q := s.qp h.dstQpn
  if decide (h.dstQpn < 2 ^ s.qpQ) && q.state == 1 && q.notifyEn && q.rSw == h.srcSw && q.rQpn == h.qpn then
    (s.advTrig h.dstQpn 1).answer t h 6 0x00 []
  else s.answer t h 6 0x03 []

/-- The object that an engine packet needs cached: a window (WRITE, READ_REQ, ATOMIC_REQ) or a context. -/
def State.pktKey (s : State) (h : EngHdr) : Bool × Nat × Nat :=
  if h.mtype = 0 ∨ h.mtype = 1 ∨ h.mtype = 4 then (true, h.keyOrImm.toNat / 256, s.winTile (h.keyOrImm.toNat / 256))
  else (false, h.dstQpn, s.qpTile h.dstQpn)

/-- Serve an engine packet whose object is cached. -/
def State.servePkt (s : State) (t : Nat) (h : EngHdr) (data : List Byte) (ea el : Nat) (ew : BitVec 64) : State :=
  if h.mtype = 3 then s.sendPkt t h ea el ew data
  else if h.mtype = 8 then s.notifyPkt t h
  else s.winPkt t h data

/-- The seat that owns the window or queue pair an engine packet names, if one does. -/
def State.objOwner (s : State) (isWin : Bool) (k : Nat) : Option Nat :=
  if isWin then (if (s.window k).state = 1 ∨ (s.window k).state = 2 then some (s.window k).owner else none)
  else if (s.qp k).state = 0 then none else some (s.qp k).owner

/-- A request packet arrives at its home tile (R198, R209, R217): rejected where its
owner is in blackout (R336), served, parked, or refused with NOT_READY. -/
def State.arrivePkt (s : State) (h : EngHdr) (data : List Byte) (ea el : Nat) (ew : BitVec 64) : State :=
  let (isWin, k, t) := s.pktKey h
  if !s.here t then s
  else if (if isWin then 2 ^ s.winN ≤ k else 2 ^ s.qpQ ≤ k) then s.servePkt t h data ea el ew
  else if (s.objOwner isWin k).any fun o => s.seatBlack t o then s.answer t h 6 0x0A []
  else if s.isCached isWin t k && !s.eng.parked.any fun j => j.isWin == isWin && j.key == k then
    (s.touch isWin t k).servePkt t h data ea el ew
  else if s.missUsed t < 256 then s.park t isWin k (.pkt h data (BitVec.ofNat 64 ea) el ew)
  else (s.sticky (missStatus t) 9).notReadySend t h

/-- A fetched object is cached: parked entries are taken in arrival order (R196, R208, R209). -/
def State.fetchDone (s : State) (isWin : Bool) (t k : Nat) : State :=
  match s.cacheIn isWin t k with
  | none => s
  | some s =>
    let mine := s.eng.parked.filter fun j => j.tile == t && j.isWin == isWin && j.key == k
    let s := s.modEng fun g => { g with parked := g.parked.filter fun j => !(j.tile == t && j.isWin == isWin && j.key == k) }
    s.each mine fun s j =>
      match j.item with
      | .desc ring d c =>
        match s.workOwner ring with
        | some seat =>
          match s.engineAccept t seat ring d c with
          | (s, true) => s
          | (s, false) => s.modEng fun g => { g with parked := g.parked ++ [j] }
        | none => s
      | .pkt h data ea el ew => s.servePkt t h data ea.toNat el ew

/-- WINDOW_FETCH_DONE (R196): a fetched entry found revoking has its revocation completed first. -/
def windowFetchDone (t i : Nat) (s : State) : State :=
  if !s.here t || !s.winReady || s.winTile i ≠ t || 2 ^ s.winN ≤ i then s
  else
    let s := if (s.window i).state = 2 && !s.win.revokes.any fun r => r.index == i then
      s.modWin fun w => { w with revokes := w.revokes ++ [{ index := i, wr := none, seat := none }] } else s
    s.fetchDone true t i

/-- CONTEXT_FETCH_DONE (R209). -/
def contextFetchDone (t n : Nat) (s : State) : State :=
  if !s.here t || !s.qpReady || s.qpTile n ≠ t || 2 ^ s.qpQ ≤ n then s else s.fetchDone false t n

/-! ### Tables and destroys -/

/-- QP_TABLE_INIT (R205, R226): a write of RM_QP_CFG; while READY = 1 it is ignored and marked. -/
def qpTableInit (v : Word) (s : State) : State :=
  if s.qpReady then s.sticky 0x0014001C 2
  else
    let s := s.plainWrite 0x00140010 v
    if bit v 5 then s.setFlag 0x0014001C 1 true else s

/-- QP_TABLE_INIT_DONE (R205). -/
def qpTableInitDone (s : State) : State :=
  if !s.flag 0x0014001C 1 then s
  else
    let s := s.modEng fun g => { g with qps := [], lru := [] }
    (s.setFlag 0x0014001C 1 false).setFlag 0x0014001C 0 true

/-- QP_DESTROY_DONE (R221): no work of a destroying queue pair is outstanding: its context is written free. -/
def qpDestroyDone (n : Nat) (s : State) : State :=
  if (s.qp n).state ≠ 2 || !(s.wrsOf n).isEmpty || !s.here (s.qpTile n) then s
  else
    let d := (s.qp n).destroyer
    let s := s.modQp n fun _ => {}
    match d with
    | some w => s.finishWr w 0
    | none => s

/-! ### Answers at the requester -/

/-- READ_RESP (R215): the data is written to LOCAL_ADDR, behind the packet's place in the transfer. -/
def readResp (h : EngHdr) (data : List Byte) (s : State) : State :=
  let t := s.qpTile h.qpn
  if !s.here t then s
  else match (s.wrBySlot h).bind s.wr with
    | none => s.count t .rmLateResponse
    | some w =>
      let s := s.hostWrite (s.tileEpoch t) t (s.seatPart s.leadEpoch w.seat) (some w.seat) false
        (s.seatPasid s.leadEpoch w.seat) .write (w.d.localAddr.toNat + (h.rOffset - w.d.rOffset)) data
      (s.modWr w.id fun k => { k with bytes := k.bytes + data.length }).wrAnswer w.id 0

/-- ATOMIC_RESP (R220): the original value is written to LOCAL_ADDR. -/
def atomicResp (h : EngHdr) (data : List Byte) (s : State) : State :=
  let t := s.qpTile h.qpn
  if !s.here t then s
  else match (s.wrBySlot h).bind s.wr with
    | none => s.count t .rmLateResponse
    | some w =>
      let s := s.hostWrite (s.tileEpoch t) t (s.seatPart s.leadEpoch w.seat) (some w.seat) false
        (s.seatPasid s.leadEpoch w.seat) .write w.d.localAddr.toNat data
      (s.modWr w.id fun k => { k with bytes := k.bytes + data.length }).wrAnswer w.id 0

/-- ACK (R216). -/
def engineAck (h : EngHdr) (s : State) : State :=
  if s.here (s.qpTile h.qpn) then s.answered (s.qpTile h.qpn) h h.code else s

/-- NOT_READY (R210): the packet is resent after the backoff, or, after RETRY_LIMIT resends, ends its work request. -/
def notReady (h : EngHdr) (s : State) : State :=
  let t := s.qpTile h.qpn
  if !s.here t then s
  else match (s.wrBySlot h).bind s.wr with
    | none => s.count t .rmLateResponse
    | some w =>
      let made := w.resent.countP fun r => r.1 == h.rOffset
      if (s.qp w.d.qpn).retryLimit ≤ made then s.wrAnswer w.id 0x05
      else s.modWr w.id fun k => { k with refused := k.refused ++ [(h.rOffset, made)] }

/-- The packet of a work request at offset `o`, formed again: its header and payload (R210, R215). -/
def State.rebuild (s : State) (w : Wr) (o : Nat) : Nat × Nat × EngHdr × List Byte :=
  let q := s.qp w.d.qpn
  let home := s.winTile (w.d.rKey.toNat / 256)
  if w.notified then (q.rSw, s.qpTile q.rQpn, s.wrHdr w 8 0 0, [])
  else if w.d.opcode = 3 then
    (q.rSw, s.qpTile q.rQpn, s.wrHdr w 3 o w.d.length, (w.buf.drop o).take (min (w.d.length - o) (1024 - o % 1024)))
  else if w.d.opcode = 1 then
    let n := min (w.d.rOffset + w.d.length - o) (1024 - o % 1024)
    (w.d.rSw, home, s.wrHdr w 0 o n, (w.buf.drop (o - w.d.rOffset)).take n)
  else if w.d.opcode = 2 then
    (w.d.rSw, home, s.wrHdr w 1 o (min (w.d.rOffset + w.d.length - o) (1024 - o % 1024)), [])
  else (w.d.rSw, home, s.wrHdr w 4 o (atomLen w.d.opcode), w.buf)

/-- NOT_READY_BACKOFF (R210): the refused packet at offset `o` is resent and the resend counted. -/
def notReadyBackoff (id o : Nat) (s : State) : State :=
  match s.wr id with
  | none => s
  | some w =>
    if w.st != .started || !(w.refused.any fun r => r.1 == o) || !s.here w.tile then s
    else
      let s := s.modWr id fun k => { k with
        refused := k.refused.filter fun r => r.1 != o, resent := k.resent ++ [(o, 0)], retries := k.retries + 1 }
      let s := s.count w.tile .rmRetry none (some w.seat)
      let (sw, home, h, data) := s.rebuild w o
      let r := s.sendEng w.tile sw home w.seat (s.qp w.d.qpn).ordered h data
      if r.2 then r.1 else r.1.wrAnswer id 0x07

/-- WORK_REQUEST_TIMEOUT (R223): a started work request with packets unanswered completes, with 0x08 unless an answer
had failed. -/
def workRequestTimeout (id : Nat) (s : State) : State :=
  match s.wr id with
  | none => s
  | some w => if w.st == .started && w.owed != 0 && s.here w.tile then s.finishWr id 0x08 else s

/-- DMA_READ_COMPLETION (R295). -/
def dmaReadCompletion (id : Nat) (c : Cpl) (s : State) : State := s.dmaPiece id c

/-! ### The meanings -/

/-- WINDOW_FETCH_DONE. -/
def execWindowFetchDone (t i : Nat) (s : State) : Out := .next (windowFetchDone t i s)
/-- QP_TABLE_INIT. -/
def execQpTableInit (v : Word) (s : State) : Out := .next (qpTableInit v s)
/-- QP_TABLE_INIT_DONE. -/
def execQpTableInitDone (s : State) : Out := .next (qpTableInitDone s)
/-- CONTEXT_FETCH_DONE. -/
def execContextFetchDone (t n : Nat) (s : State) : Out := .next (contextFetchDone t n s)
/-- NOP: a descriptor with opcode 0x00 reaches the engine. -/
def execNop (ring : Nat) (d : Desc) (s : State) : Out := .next (s.engineTake ring { d with opcode := 0x00 } none).1
/-- WRITE. -/
def execWrite (ring : Nat) (d : Desc) (s : State) : Out := .next (s.engineTake ring { d with opcode := 0x01 } none).1
/-- READ. -/
def execRead (ring : Nat) (d : Desc) (s : State) : Out := .next (s.engineTake ring { d with opcode := 0x02 } none).1
/-- SEND. -/
def execSend (ring : Nat) (d : Desc) (s : State) : Out := .next (s.engineTake ring { d with opcode := 0x03 } none).1
/-- RECV_POST. -/
def execRecvPost (ring : Nat) (d : Desc) (s : State) : Out := .next (s.engineTake ring { d with opcode := 0x04 } none).1
/-- FETCH_ADD8. -/
def execFetchAdd8 (ring : Nat) (d : Desc) (s : State) : Out := .next (s.engineTake ring { d with opcode := 0x05 } none).1
/-- CMP_SWAP8. -/
def execCmpSwap8 (ring : Nat) (d : Desc) (s : State) : Out := .next (s.engineTake ring { d with opcode := 0x06 } none).1
/-- CMP_SWAP16. -/
def execCmpSwap16 (ring : Nat) (d : Desc) (s : State) : Out := .next (s.engineTake ring { d with opcode := 0x07 } none).1
/-- FENCE. -/
def execFence (ring : Nat) (d : Desc) (s : State) : Out := .next (s.engineTake ring { d with opcode := 0x08 } none).1
/-- COUNT_ADD. -/
def execCountAdd (ring : Nat) (d : Desc) (s : State) : Out := .next (s.engineTake ring { d with opcode := 0x09 } none).1
/-- WIN_OPEN. -/
def execWinOpen (ring : Nat) (d : Desc) (s : State) : Out := .next (s.engineTake ring { d with opcode := 0x10 } none).1
/-- WIN_REVOKE. -/
def execWinRevoke (ring : Nat) (d : Desc) (s : State) : Out := .next (s.engineTake ring { d with opcode := 0x11 } none).1
/-- QP_CREATE. -/
def execQpCreate (ring : Nat) (d : Desc) (c : CtxInit) (s : State) : Out :=
  .next (s.engineTake ring { d with opcode := 0x20 } (some c)).1
/-- QP_DESTROY. -/
def execQpDestroy (ring : Nat) (d : Desc) (s : State) : Out := .next (s.engineTake ring { d with opcode := 0x21 } none).1
/-- QP_DESTROY_DONE. -/
def execQpDestroyDone (n : Nat) (s : State) : Out := .next (qpDestroyDone n s)
/-- WORK_REQUEST_START. -/
def execWorkRequestStart (id : Nat) (s : State) : Out := .next (workRequestStart id s)
/-- ENGINE_WRITE_PACKET. -/
def execEngineWritePacket (h : EngHdr) (data : List Byte) (s : State) : Out :=
  .next (s.arrivePkt { h with mtype := 0 } data 0 0 0)
/-- READ_REQ. -/
def execReadReq (h : EngHdr) (s : State) : Out := .next (s.arrivePkt { h with mtype := 1 } [] 0 0 0)
/-- READ_RESP. -/
def execReadResp (h : EngHdr) (data : List Byte) (s : State) : Out := .next (readResp h data s)
/-- SEND_PACKET. -/
def execSendPacket (h : EngHdr) (ea : Addr) (el : Nat) (ew : BitVec 64) (data : List Byte) (s : State) : Out :=
  .next (s.arrivePkt { h with mtype := 3 } data ea.toNat el ew)
/-- ATOMIC_REQ. -/
def execAtomicReq (h : EngHdr) (data : List Byte) (s : State) : Out :=
  .next (s.arrivePkt { h with mtype := 4 } data 0 0 0)
/-- ATOMIC_RESP. -/
def execAtomicResp (h : EngHdr) (data : List Byte) (s : State) : Out := .next (atomicResp h data s)
/-- ACK. -/
def execEngineAck (h : EngHdr) (s : State) : Out := .next (engineAck h s)
/-- NOT_READY. -/
def execNotReady (h : EngHdr) (s : State) : Out := .next (notReady h s)
/-- NOT_READY_BACKOFF. -/
def execNotReadyBackoff (id o : Nat) (s : State) : Out := .next (notReadyBackoff id o s)
/-- NOTIFY. -/
def execNotify (h : EngHdr) (s : State) : Out := .next (s.arrivePkt { h with mtype := 8 } [] 0 0 0)
/-- WORK_REQUEST_TIMEOUT. -/
def execWorkRequestTimeout (id : Nat) (s : State) : Out := .next (workRequestTimeout id s)
/-- DMA_READ_COMPLETION. -/
def execDmaReadCompletion (id : Nat) (c : Cpl) (s : State) : Out := .next (dmaReadCompletion id c s)

end Sys2Proof.Machine
end

