-- ==== Sys2Proof/Machine/Aperture.lean ====
section
/-! DEFINITION. Accesses to BAR4 (R189 to R192), the write-combining buffer (R173 to R178), fences (R179 to R182), the
contained-state mailbox (R193, R204), and what a disabled protection unit holds (R253, R254). -/

namespace Sys2Proof.Machine

/-! ### Requests that reach the part's own BARs -/

/-- The origin of a request that entered partition `p` (R157). -/
def whoOrigin (p : Nat) : Requester → Origin
  | .host _ => .host p
  | .func f => .func f

/-- Whether a request asks for data and so takes a completion. -/
def reqNp (r : Req) : Bool :=
  r.kind == .memRead || r.kind == .atomicOp || r.kind == .lockedRead || r.kind == .ioRequest || r.kind == .deferrableWrite

/-- Answer a request at the home tile of its partition: a successful completion with data (R157). -/
def State.bar4Data (s : State) (e : Bool) (p : Nat) (who : Requester) (r : Req) (data : List Byte) : State :=
  s.reply (s.homeTile e p) e false (whoOrigin p who) r.rid r.tag r.tc .sc data
/-- Answer a request of BAR0 or BAR2 (R282). -/
def State.barReply (s : State) (e : Bool) (p : Nat) (who : Requester) (r : Req) (st : CplStatus) (data : List Byte) : State :=
  s.reply (s.homeTile e p) e (s.barMgmt e (whoOrigin p who)) (whoOrigin p who) r.rid r.tag r.tc st data
/-- Answer a request with UR. -/
def State.bar4Ur (s : State) (e : Bool) (p : Nat) (who : Requester) (r : Req) : State :=
  s.reply (s.homeTile e p) e false (whoOrigin p who) r.rid r.tag r.tc .ur []

/-- An access that no entry takes (R189): UR or discarded, counted, logged at the virtual upstream port. -/
def State.apUnmapped (s : State) (e : Bool) (p : Nat) (who : Requester) (seat : Option Nat) (r : Req) : State :=
  let t := s.homeTile e p
  let s := (s.count t .apUnmapped none seat).logAer p 32 .unsupportedRequest
  if reqNp r then s.bar4Ur e p who r else s.modBo t seat fun b => { b with discard := b.discard + lenOf (.req r) }

/-! ### The write-combining buffer (R175, R176) -/

/-- Cut a store at 64-byte target boundaries: line address, offset of its first byte in the line, first byte, count. -/
def pieces : Nat → Nat → Nat → Nat → List (Nat × Nat × Nat)
  | 0, _, _, _ => []
  | f + 1, a, i, n =>
    if n = 0 then []
    else
      let k := min n (64 - a % 64)
      (a, i, k) :: pieces f (a + k) (i + k) (n - k)

/-- Merge bytes into a line: a byte whose enable is set is written and set in the mask; a later value wins. -/
def WcLine.merge (l : WcLine) (o : Nat) (data : List Byte) (be : List Bool) : WcLine :=
  (List.range data.length).foldl (fun l i =>
    if be.getD i true then
      { l with data := l.data.set (o + i) (data.getD i 0), mask := l.mask ||| (1#64 <<< (o + i)) }
    else l) l

/-- Whether a tile has a free line. -/
def State.lineFree (s : State) (t : Nat) : Bool := decide ((s.wc.lines.countP fun l => l.tile == t) < 256)
/-- The free-line choice of R175: the line opened earliest is flushed when all 256 are open. -/
def State.makeRoom (s : State) (t : Nat) : State :=
  if s.lineFree t then s
  else
    let s := s.sticky (wcStatus t) 9
    match s.wc.lines.find? fun l => l.tile == t with
    | some l => if l.flushing then s else s.sendLine l
    | none => s

/-- Merge a piece into line `l`, `new` where it opens the line (R175), flushing it when it is full or MERGE_DIS is set (R176). -/
def State.putPiece (s : State) (k : WcPiece) (l : WcLine) (new : Bool) : State :=
  let l := l.merge (k.addr % 64) k.data k.be
  let l := { l with stores := if l.stores.contains k.store then l.stores else l.stores ++ [k.store] }
  let s := if new then { s with idCtr := s.idCtr + 1, wc := { s.wc with lines := s.wc.lines ++ [l] } }
    else s.modWc fun w => { w with lines := w.lines.map fun j => if j.id = l.id then l else j }
  let s := s.syncLines k.tile
  if l.mask = BitVec.allOnes 64 || s.flag (tileBase k.tile + 0x9000) 8 then s.sendLine l else s

/-- Merge one piece of a store (R175). It waits where no line is free for it, and behind the pieces that wait: those of its seat, and
where it needs a line all of its tile. -/
def State.mergePiece (s : State) (k : WcPiece) : State :=
  let la := k.addr / 64 * 64
  let wait := fun (s : State) => s.modWc fun w => { w with stuck := w.stuck ++ [k] }
  let key := fun (l : WcLine) => l.tile == k.tile && !l.flushing && l.seat == k.seat && l.entry == k.entry && l.addr == la
  if s.wc.stuck.any fun j => j.tile == k.tile && j.seat == k.seat then wait s
  else
    let s := s.flushLines k.tile fun l => key l && l.epoch != k.epoch
    match s.wc.lines.find? fun l => key l && l.epoch == k.epoch with
    | some l => s.putPiece k l false
    | none =>
      if s.wc.stuck.any fun j => j.tile == k.tile then wait s
      else
        let s := s.makeRoom k.tile
        if !s.lineFree k.tile then wait s
        else s.putPiece k { id := s.idCtr, tile := k.tile, seat := k.seat, entry := k.entry, addr := la, epoch := k.epoch,
                            data := List.replicate 64 0, mask := 0 } true
/-- The pieces that wait at a tile are tried again, in order (R175). -/
def State.resumePieces (s : State) (t : Nat) : State :=
  (s.modWc fun w => { w with stuck := w.stuck.filter (·.tile != t) }).each (s.wc.stuck.filter (·.tile == t)) State.mergePiece
/-- Whether a seat's accesses wait at its port: it is withheld (R276), or a piece of it waits (R175). -/
def State.apWaits (s : State) (t seat : Nat) : Bool :=
  s.withheld t seat || s.wc.stuck.any fun k => k.tile == t && k.seat == seat

/-- A store through a normal aperture (R174, R175). A store with no byte enabled changes no line. -/
def State.wcStore (s : State) (e : Bool) (t seat x a : Nat) (r : Req) : State :=
  let store := s.idCtr
  let s := { s with idCtr := s.idCtr + 1 }
  s.each (pieces (r.data.length + 1) a 0 r.data.length) fun s c =>
    let d := (r.data.drop c.2.1).take c.2.2
    let be := (r.be.drop c.2.1).take c.2.2
    if be.all (· == false) && !be.isEmpty then s
    else s.mergePiece { tile := t, seat := seat, entry := x, epoch := e, addr := c.1, data := d, be := be, store := store }

/-! ### An access past its checks (R189 steps 5 and 6) -/

/-- Send a read of an aperture to its target, or complete it with all bytes 0xFF (R190, R192). -/
def State.apRead (s : State) (e : Bool) (p : Nat) (who : Requester) (seat x a : Nat) (r : Req) : State :=
  let t := s.homeTile e p
  let d := s.apDest e t x a
  match d.dead with
  | some _ =>
    let s := if d.noHop then s.count t .tlFabricUnreachable none (some seat) else s
    (s.count t .apRdErr (some d.port) (some seat)).bar4Data e p who r (allOnes r.len)
  | none =>
    s.form { s.apForm e t d seat (.apRead x r.tc) with rRid := r.rid, rTag := r.tag, origin := whoOrigin p who } .nonPosted
      (.req { ownReq .memRead d.addr r.len [] d.rid none (s.apClass t) with be := r.be })

/-- An access that its seat's unit permits (R189 steps 5 and 6, R173, R174, R178, R182). A read overlaps a line by any of its
64 bytes (DEDUCED, log entry 100). -/
def State.apAccess (s : State) (e : Bool) (p : Nat) (who : Requester) (seat x o : Nat) (r : Req) : State :=
  let t := s.homeTile e p
  let a := s.apAddr e t x + (o - s.apOfs e t x)
  let s := s.modBo t (some seat) fun b => { b with aperture := b.aperture + r.data.length }
  let s := s.flushLines t fun l => l.seat == seat && l.entry != x
  if s.contained t x then
    let s := s.count t .apWcDiscard none (some seat)
    if reqNp r then s.bar4Data e p who r (allOnes r.len)
    else (s.sticky (wcStatus t) 11).tallyDrop t seat 0x0B (lenOf (.req r))
  else
    if reqNp r then
      let s := s.flushLines t fun l => l.seat == seat && l.entry == x && decide (l.addr < a + max r.len 1 ∧ a < l.addr + 64)
      s.apRead e p who seat x a r
    else if s.apDevice e t x then
      let store := s.idCtr
      State.apWrite { s with idCtr := s.idCtr + 1 } e t x seat a r.data r.be [store]
    else s.wcStore e t seat x a r

/-- The seat's state ends a new access at its home tile (R239 step 2, R336): a store is discarded with the code, a read
completes with all bytes 0xFF. -/
def State.apStopped (s : State) (e : Bool) (p : Nat) (who : Requester) (seat code : Nat) (r : Req) : State :=
  let t := s.homeTile e p
  if reqNp r then s.bar4Data e p who r (allOnes r.len)
  else ((if code = 0x0A then s.count t .blackoutDrop none (some seat) else s).tallyDrop t seat code (lenOf (.req r)))

/-- A fault of a BAR4 access (R251). -/
def State.bar4Fault (s : State) (e : Bool) (p : Nat) (who : Requester) (seat k cause rule o : Nat) (r : Req) : State :=
  let t := s.homeTile e p
  let s := s.puFault t seat 1 k cause rule o r.len
  if reqNp r then s.bar4Data e p who r (allOnes r.len)
  else s.modBo t (some seat) fun b => { b with discard := b.discard + lenOf (.req r) }

/-- The offset of a request in BAR4 of its partition. -/
def State.bar4Ofs (s : State) (e : Bool) (p : Nat) (r : Req) : Nat :=
  let n := s.bar4Log2 e p
  r.addr.toNat - (s.fab p).bar4 / 2 ^ n * 2 ^ n

/-- Step 3 of R189: whether an entry admits a seat's request. -/
def State.apAdmits (s : State) (e : Bool) (t x seat : Nat) (r : Req) : Bool :=
  (s.cflag e (apReg t x 0) 5 || s.cfld e (apReg t x 2) 11 0 == seat) && s.cflag e (apReg t x 0) (if reqNp r then 3 else 4)

/-- Steps 4 to 6 of R189 for a seat's access, its unit enabled. -/
def State.bar4Checked (s : State) (e : Bool) (p : Nat) (who : Requester) (seat : Nat) (r : Req) : State :=
  let t := s.homeTile e p
  let o := s.bar4Ofs e p r
  match (s.apHit e t p o).filter fun x => s.apAdmits e t x seat r with
  | none => s.apUnmapped e p who (some seat) r
  | some x =>
    match s.seatCode t seat with
    | some code => s.apStopped e p who seat code r
    | none =>
      let k := if reqNp r then 0 else 1
      match s.puFaultOf e t seat 1 k o r.len with
      | some c => s.bar4Fault e p who seat k c.1 c.2 o r
      | none => s.apAccess e p who seat x o r

/-- A request in BAR4 of partition `p` at its home tile, in the order of R189. -/
def State.bar4 (s : State) (e : Bool) (p : Nat) (who : Requester) (r : Req) : State :=
  let t := s.homeTile e p
  if !s.partEn e p || !s.here t then s
  else if r.kind ≠ .memRead ∧ r.kind ≠ .memWrite then
    let s := if (s.seatOf e p who r.pasid).isNone then s.count t .stUnseated else s
    if r.kind = .ioRequest then s.bar4Ur e p who r else (s.count t .apBadSize).bar4Ur e p who r
  else if r.poisoned && r.kind = .memWrite then
    (s.count t .poisonDrop).logFabAer p .poisonedTlp
  else
    let o := s.bar4Ofs e p r
    match s.seatOf e p who r.pasid with
    | none => (s.count t .stUnseated).apUnmapped e p who none r
    | some seat =>
      match (s.apHit e t p o).filter fun x => s.apAdmits e t x seat r with
      | none => s.apUnmapped e p who (some seat) r
      | some _ =>
        if s.puOff t seat && (s.seatCode t seat).isNone then
          if 1024 ≤ (s.pu.held.countP fun h => h.tile == t && h.queued) then
            s.bar4Fault e p who seat (if reqNp r then 0 else 1) 5 0xFFF o r
          else s.puHold t seat (.bar4 p who r e)
        else s.bar4Checked e p who seat r

/-- The partition's epoch at its home tile, with which a request that enters now is stamped. -/
def State.entryEpoch (s : State) (p : Nat) : Bool := s.tileEpoch (s.homeTile s.leadEpoch p)

/-- Whether an access of a requester waits at its port behind its seat (R175, R276). -/
def State.barWaits (s : State) (p : Nat) (who : Requester) (pasid : Option Nat) : Bool :=
  let e := s.entryEpoch p
  (s.seatOf e p who pasid).any fun k => s.apWaits (s.homeTile e p) k
/-- BAR4_WRITE (R189). -/
def bar4Write (p : Nat) (who : Requester) (r : Req) (s : State) : State :=
  if s.barWaits p who r.pasid then s.hold (.bar4Write p who r) else s.bar4 (s.entryEpoch p) p who { r with kind := .memWrite }
/-- BAR4_READ (R189): the request as it comes; a type R185 does not support receives UR. -/
def bar4Read (p : Nat) (who : Requester) (r : Req) (s : State) : State :=
  if s.barWaits p who r.pasid then s.hold (.bar4Read p who r)
  else s.bar4 (s.entryEpoch p) p who (if r.kind = .memWrite then { r with kind := .memRead } else r)

/-- WC_LINE_TIMEOUT (R176). -/
def wcLineTimeout (t l : Nat) (s : State) : State :=
  match s.wc.lines.find? fun k => k.id == l && k.tile == t && !k.flushing with
  | some k => s.sendLine k
  | none => s

/-! ### Fences (R179 to R182) -/

/-- The streams owed a flush read by a fence being accepted: those that have carried the seat's writes since its last completed fence;
past 32, a stream for every used entry of the partition (R179). -/
def State.fenceStreams (s : State) (e : Bool) (t p seat : Nat) : List ApStream :=
  let extra := if tget 0 s.wc.overflow (wcKey t seat) ≠ 0 then
      ((s.apEntries e t).filter fun x => s.apUsed e t x && s.apPart e t x == p).map fun x =>
        { dest := pbOf (s.apDest e t x (s.apAddr e t x)).port, entry := x, addr := s.apAddr e t x, entries := [(x, 0)] : ApStream }
    else []
  (tget [] s.wc.streams (wcKey t seat) ++ extra).foldl (fun acc q =>
    if acc.any fun k => k.dest == q.dest then acc else acc ++ [q]) []

/-- A fence enters the list of its seat, with the streams it waits for and the discards it has to report. -/
def State.addFence (s : State) (e : Bool) (p : Nat) (who : Requester) (seat : Nat) (r : Req) (reads : List ApStream) (y : Tally) :
    State :=
  let f : Fence := { id := s.idCtr, tile := s.homeTile e p, part := p, seat := seat, origin := whoOrigin p who, rid := r.rid,
                     tag := r.tag, tc := r.tc, len := r.len, epoch := e, reads := reads, tally := y }
  { s with idCtr := s.idCtr + 1, wc := { s.wc with fences := s.wc.fences ++ [f] } }

/-- A fence is accepted (R179): lines flushed, the tally taken, flush reads sent; a stream whose target takes nothing is
a discard (R180). -/
def State.fenceAccept (s : State) (e : Bool) (p : Nat) (who : Requester) (seat : Nat) (r : Req) : State :=
  let t := s.homeTile e p
  let s := s.flushLines t fun l => l.seat == seat
  let (s, tally) := s.takeTally t seat
  let all := s.fenceStreams e t p seat
  let dead := all.filterMap fun q => ((s.apDest e t q.entry q.addr).dead).map fun c => (q, c)
  let tally := dead.foldl (fun y q => y.add q.2 (q.1.entries.map (·.1))) tally
  let lives := all.filter fun q => ((s.apDest e t q.entry q.addr).dead).isNone
  let n := s.idCtr
  ((s.addFence e p who seat r lives tally).each lives fun s q => s.flushRead e t seat n q).completeFences t seat

/-- A fence that a forced retirement ends before it is accepted: it takes the tally, its streams' flush reads count as
discards under 0x0A, and it completes in its turn with the status word (R47, R180, R332;
DEDUCED, log entry 105). -/
def State.fenceForced (s : State) (e : Bool) (p : Nat) (who : Requester) (seat : Nat) (r : Req) : State :=
  let t := s.homeTile e p
  let (s, tally) := s.takeTally t seat
  let tally := (tget [] s.wc.streams (wcKey t seat)).foldl (fun y _ => y.add 0x0A []) tally
  (s.addFence e p who seat r [] tally).completeFences t seat

/-- A fence read at a seat's doorbell page, at its home tile (R179, R232): held behind the seat's held accesses while
its unit is disabled (R253). -/
def State.fenceAt (s : State) (e : Bool) (p : Nat) (who : Requester) (seat : Nat) (r : Req) : State :=
  let t := s.homeTile e p
  if s.seatOf e p who r.pasid ≠ some seat || !(s.bound e seat && s.seatPart e seat == p) then
    (if (s.seatOf e p who r.pasid).isNone then s.count t .stUnseated else s).barReply e p who r .ur []
  else if !((r.len = 4 ∨ r.len = 8) ∧ r.addr.toNat % r.len = 0) then s.barReply e p who r .ur []
  else if s.puOff t seat && s.pu.held.any fun h => h.tile == t && h.seat == seat then s.puHold t seat (.fence p who r e)
  else s.fenceAccept e p who seat r

/-- FENCE_READ (R179). -/
def fenceRead (p : Nat) (who : Requester) (seat : Nat) (r : Req) (s : State) : State :=
  let e := s.entryEpoch p
  if !s.partEn e p || !s.here (s.homeTile e p) then s
  else if s.barWaits p who r.pasid then s.hold (.fenceRead p who seat r)
  else s.fenceAt e p who seat { r with kind := .memRead }

/-- FLUSH_READ_COMPLETE (R179, R180, R191). -/
def flushReadComplete (t fence stream : Nat) (st : CplStatus) (poisoned synthetic : Bool) (code : Nat) (s : State) : State :=
  if synthetic then s.flushDone t fence stream false (some code)
  else s.flushDone t fence stream (st == .sc && !poisoned) none

/-- FENCE_TIMEOUT (R181): the fence ends without its outstanding flush reads, UNCONFIRMED. -/
def fenceTimeout (t fence : Nat) (s : State) : State :=
  match s.wc.fences.find? fun f => f.id == fence && f.tile == t && !f.ended with
  | none => s
  | some f =>
    (s.modWc fun w => { w with fences := w.fences.map fun k =>
      if k.id = f.id then { k with unconf := !k.reads.isEmpty, ended := true } else k }).completeFences t f.seat

/-! ### Held accesses (R253, R254) -/

/-- A held item proceeds: its unit is enabled, or its seat's state ends it. -/
def State.heldGo (s : State) (h : HeldAcc) : State :=
  match h.item with
  | .bar4 p who r e => s.bar4Checked e p who h.seat r
  | .fence p who r e => s.fenceAccept e p who h.seat r
  | .work ring d c =>
    match s.engineAccept h.tile h.seat ring d c with
    | (s, true) => s
    | (s, false) => s.puHold h.tile h.seat h.item

/-- A held access faults with cause 4 (R254). -/
def State.heldFault (s : State) (h : HeldAcc) : State :=
  match h.item with
  | .bar4 p who r e => s.bar4Fault e p who h.seat (if reqNp r then 0 else 1) 4 0xFFF (s.bar4Ofs e p r) r
  | .fence p who r e => s.fenceAccept e p who h.seat r
  | .work ring d c =>
    let rg := (localRange d).getD (d.rOffset, accessKinds d.access)
    (s.puFault h.tile h.seat 0 (rg.2.headD 0) 4 0xFFF d.localAddr.toNat rg.1).failDesc h.tile h.seat ring d c 0x02

/-- Release a seat's held items on a tile, in order of arrival. -/
def State.releaseHeld (s : State) (t seat : Nat) : State :=
  let mine := s.pu.held.filter fun h => h.tile == t && h.seat == seat
  let s := { s with pu := { s.pu with held := s.pu.held.filter fun h => !(h.tile == t && h.seat == seat) } }
  s.each mine State.heldGo

/-- Fences at the front of a seat's held items proceed: nothing of the seat is held before them (R253). -/
def State.freeFences (s : State) (t seat : Nat) : State :=
  let mine := s.pu.held.filter fun h => h.tile == t && h.seat == seat
  let lead := mine.takeWhile fun h => match h.item with
    | .fence .. => true
    | _ => false
  let s := { s with pu := { s.pu with held := s.pu.held.filter fun h => !lead.any fun k => k.id == h.id } }
  s.each lead State.heldGo

/-! ### The contained-state mailbox (R193, R204) -/

/-- AP_CONT_CTRL of a tile, the instance of a serving agent (R446). -/
def apCont (agent t : Nat) : Nat := mbx agent (tileBase t + 0x9010)

/-- A write of AP_CONT_CTRL performs its operation; VALID clears until it is complete (R204). -/
def State.apContAct (s : State) (agent t : Nat) (v : Word) : State :=
  let s := s.setLv (apCont agent t) (v &&& 0xFFFF#32)
  let x := field v 13 0
  if field v 15 14 = 1 then s.modWc fun w => { w with contained := tset false w.contained (entKey t x) false }
  else if field v 15 14 = 2 then s.contain t x
  else s

/-- AP_CONT_READ_STATE. -/
def apContReadState (agent t : Nat) (v : Word) (s : State) : State :=
  if s.here t then s.apContAct agent t (putField v 15 14 0) else s
/-- AP_CONT_CLEAR. -/
def apContClear (agent t : Nat) (v : Word) (s : State) : State :=
  if s.here t then s.apContAct agent t (putField v 15 14 1) else s
/-- AP_CONT_CONTAIN. -/
def apContContain (agent t : Nat) (v : Word) (s : State) : State :=
  if s.here t then s.apContAct agent t (putField v 15 14 2) else s
/-- AP_CONT_DONE: CONTAINED shows the entry's state, VALID is set. -/
def apContDone (agent t : Nat) (s : State) : State :=
  if s.here t then
    (s.setFlag (apCont agent t) 30 (s.contained t (s.fld (apCont agent t) 13 0))).setFlag (apCont agent t) 31 true
  else s

/-! ### The meanings -/

/-- BAR4_WRITE. -/
def execBar4Write (p : Nat) (who : Requester) (r : Req) (s : State) : Out := .next (bar4Write p who r s)
/-- BAR4_READ. -/
def execBar4Read (p : Nat) (who : Requester) (r : Req) (s : State) : Out := .next (bar4Read p who r s)
/-- WC_LINE_TIMEOUT. -/
def execWcLineTimeout (t l : Nat) (s : State) : Out := .next (wcLineTimeout t l s)
/-- FENCE_READ. -/
def execFenceRead (p : Nat) (who : Requester) (seat : Nat) (r : Req) (s : State) : Out :=
  .next (fenceRead p who seat r s)
/-- FLUSH_READ_COMPLETE. -/
def execFlushReadComplete (t fence stream : Nat) (st : CplStatus) (poisoned synthetic : Bool) (code : Nat) (s : State) :
    Out := .next (flushReadComplete t fence stream st poisoned synthetic code s)
/-- FENCE_TIMEOUT. -/
def execFenceTimeout (t fence : Nat) (s : State) : Out := .next (fenceTimeout t fence s)
/-- AP_CONT_READ_STATE. -/
def execApContReadState (agent t : Nat) (v : Word) (s : State) : Out := .next (apContReadState agent t v s)
/-- AP_CONT_CLEAR. -/
def execApContClear (agent t : Nat) (v : Word) (s : State) : Out := .next (apContClear agent t v s)
/-- AP_CONT_CONTAIN. -/
def execApContContain (agent t : Nat) (v : Word) (s : State) : Out := .next (apContContain agent t v s)
/-- AP_CONT_DONE. -/
def execApContDone (agent t : Nat) (s : State) : Out := .next (apContDone agent t s)

end Sys2Proof.Machine
end

