-- ==== Sys2Proof/Machine/Protection.lean ====
section
/-! DEFINITION. The live path of the protection units: disabling and enabling a seat's unit, the hold timeout, the edit
mailbox, the violation interval (R252 to R258). -/

namespace Sys2Proof.Machine

/-- The effect of a write of PU_SEAT_CTRL (R253, R254): disabling starts, or the unit is enabled and what it holds is
checked in order of arrival. -/
def State.puCtrlWrite (s : State) (t seat : Nat) (v : Word) : State :=
  if !s.here t then s
  else
    let s := s.plainWrite (puCtrl t seat) v
    if bit v 0 then s else (s.setFlag (puStatus t seat) 0 false).releaseHeld t seat

/-- PU_DISABLE (R253): a write of DISABLE = 1. -/
def puDisable (t seat : Nat) (v : Word) (s : State) : State := s.puCtrlWrite t seat (v ||| 1)
/-- PU_ENABLE (R254): a write of DISABLE = 0. -/
def puEnable (t seat : Nat) (v : Word) (s : State) : State := s.puCtrlWrite t seat (v &&& ~~~1)
/-- PU_DISABLED (R253): no check of the seat is in progress. -/
def puDisabled (t seat : Nat) (s : State) : State :=
  if s.here t && s.puOff t seat then s.setFlag (puStatus t seat) 0 true else s

/-- PU_HOLD_TIMEOUT (R254): a held access has waited 100 µs. A held fence is never faulted. -/
def puHoldTimeout (t id : Nat) (s : State) : State :=
  match s.pu.held.find? fun h => h.id == id && h.tile == t with
  | none => s
  | some h =>
    match h.item with
    | .fence .. => s
    | _ =>
      (({ s with pu := { s.pu with held := s.pu.held.filter fun k => k.id != id } }).heldFault h).freeFences t h.seat

/-- PU_EDIT_SEL of a tile, the instance of a serving agent. -/
def puEditSel (agent t : Nat) : Nat := mbx agent (tileBase t + 0x68010)
/-- PU_EDIT_DATA of a tile, the instance of a serving agent. -/
def puEditData (agent t w : Nat) : Nat := mbx agent (tileBase t + 0x68014 + 4 * w)

/-- Check 0x0A of R39 on one rule under the set of an epoch (R246). -/
def State.puRuleOk (s : State) (e : Bool) (r : PuRule) : Bool :=
  !r.valid || (s.bound e r.seat && decide (r.space ≤ 1) && !(r.space == 1 && r.kinds.testBit 2) &&
    decide (r.base / 4096 ≤ r.limit / 4096))

/-- The outcome of an edit of a rule (R255): the first RESULT that applies. -/
def State.puEditResult (s : State) (t r : Nat) (new : PuRule) : Nat :=
  let lead := s.puRuleAt s.leadEpoch t r
  let und := s.puRuleAt (!s.leadEpoch) t r
  let off := fun (q : PuRule) => !q.valid || (s.puOff t q.seat && s.flag (puStatus t q.seat) 0)
  if !(off lead && off und && off new) then 1
  else if !(s.puRuleOk false new && s.puRuleOk true new) then 2
  else if s.curtainState ≠ 0 then 3
  else if s.lockFuse 1 && decide (r < 64) then 4
  else 0

/-- The effect of a write of PU_EDIT_SEL (R255): both copies of the rule are written, or neither. -/
def State.puEditAct (s : State) (agent t : Nat) (v : Word) : State :=
  let r := field v 11 0
  let w := fun i => s.lv (puEditData agent t i)
  let res := s.puEditResult t r (puDecode w)
  let s := s.setLv (puEditSel agent t) (BitVec.ofNat 32 (r + res * 2 ^ 24))
  if res ≠ 0 then s
  else
    let s := s.each (List.range 5) fun s i =>
      let m := setMask (puRule t r i)
      (s.setConf false (puRule t r i) (w i &&& m)).setConf true (puRule t r i) (w i &&& m)
    s.setFld 0x00030040 1 0 0

/-- PU_EDIT (R255). -/
def puEdit (agent t : Nat) (v : Word) (s : State) : State := if s.here t then s.puEditAct agent t v else s
/-- PU_EDIT_DONE (R258): VALID is set. -/
def puEditDone (agent t : Nat) (s : State) : State := if s.here t then s.setFlag (puEditSel agent t) 31 true else s

/-- PU_VIOLATION_INTERVAL_END (R252): a counted record is sent and opens the next interval. -/
def puViolationIntervalEnd (t seat : Nat) (s : State) : State :=
  match tget none s.pu.viol (puKey t seat) with
  | none => s
  | some v =>
    if v.n = 0 then s.setViol (puKey t seat) none
    else (s.puReport t seat v).setViol (puKey t seat) (some { v with n := 0 })

/-! ### The meanings -/

/-- PU_DISABLE. -/
def execPuDisable (t seat : Nat) (v : Word) (s : State) : Out := .next (puDisable t seat v s)
/-- PU_DISABLED. -/
def execPuDisabled (t seat : Nat) (s : State) : Out := .next (puDisabled t seat s)
/-- PU_ENABLE. -/
def execPuEnable (t seat : Nat) (v : Word) (s : State) : Out := .next (puEnable t seat v s)
/-- PU_HOLD_TIMEOUT. -/
def execPuHoldTimeout (t id : Nat) (s : State) : Out := .next (puHoldTimeout t id s)
/-- PU_EDIT. -/
def execPuEdit (agent t : Nat) (v : Word) (s : State) : Out := .next (puEdit agent t v s)
/-- PU_EDIT_DONE. -/
def execPuEditDone (agent t : Nat) (s : State) : Out := .next (puEditDone agent t s)
/-- PU_VIOLATION_INTERVAL_END. -/
def execPuViolationIntervalEnd (t seat : Nat) (s : State) : Out := .next (puViolationIntervalEnd t seat s)

end Sys2Proof.Machine
end

