-- ==== Sys2Proof/Machine/PortOps.lean ====
section
/-! DEFINITION. Ports and links going down, without the holders of blackout: PCI Express link-down (R83), VFL link-down
(R113), next hops withdrawn and restored (R166), slots and virtual ports that show the change (R90). -/

namespace Sys2Proof.Machine

/-- A slot. -/
def State.slotSt (s : State) (port : Nat) : SlotSt := tget {} s.slots port
/-- Change a slot. -/
def State.modSlot (s : State) (port : Nat) (f : SlotSt → SlotSt) : State :=
  { s with slots := tmod {} s.slots port f }
/-! ### Next hops (R166) -/

/-- Write the live bits of a port's hops in every entry of one tile's route table. -/
def State.setHops (s : State) (t port : Nat) (live : Bool) : State :=
  let e := s.tileEpoch t
  s.each (List.range 64) fun s k =>
    let n := s.hopCount e t k
    s.each (List.range n) fun s i =>
      if s.hop e t k i = port && s.hopLive t k i != live then
        (s.setFlag (routeLive t k) i live).sticky (routeLive t k) 8
      else s

/-- ROUTE_HOP_RESTORE (R166): a tile sets the hops of a port that is up live again. -/
def routeHopRestore (t port : Nat) (s : State) : State :=
  if s.sees t (tileOf port) && s.portUp port then s.setHops t port true else s

/-! ### Virtual ports that show a link -/

/-- Data Link Layer State Changed on every virtual port that names a physical port (R90). -/
def State.dllsc (s : State) (port : Nat) : State :=
  s.each (s.vdpsOf s.leadEpoch port) fun s v => s.modVport v.1 v.2 fun w => { w with dllsc := true }

/-- Log a link error in the AER of the owning partition's virtual port (R88, R339). -/
def State.ownerAer (s : State) (port : Nat) (k : AerKind) : State :=
  let p := s.slotOwner s.leadEpoch port
  match s.vdpOf s.leadEpoch p port with
  | some d => s.logAer p d k
  | none => s

/-- Whether a link-down is reported as Surprise Down (R83): the slot has Hot-Plug Surprise, or there is no slot. -/
def State.surprise (s : State) (port : Nat) : Bool :=
  !s.cflag s.leadEpoch (slotCfg port) 0 || s.cflag s.leadEpoch (slotCfg port) 12

/-! ### Link-down -/

/-- A packet that has left the core, and lies in an unacknowledged flit or waits to be sent, ends with its link (R113): a non-posted
request has its entry. -/
def State.endSent (s : State) (p : Packet) (port : Nat) (c : EndCause) : State :=
  match p.cls with
  | .posted => s.countDrop (tileOf port) (some port) p.seat p.chLen c
  | .cpl => s.countDrop (tileOf port) (some port) p.seat p.chLen c
  | .nonPosted => s.countLost (tileOf port) (some port) c
  | .engine =>
    match p.body with
    | .eng h _ => (s.countLost (tileOf port) (some port) c).endEng (tileOf port) h false c.code
    | _ => s

/-- PB_LANE_STATUS of a lane. -/
def laneStatus (lane : Nat) : Nat := pbReg 0x1040 lane
/-- The physical lanes of a port, by its configured width. -/
def State.lanesOf (s : State) (port : Nat) : List Nat :=
  (List.range (widthLanes (s.cfld (s.tileEpoch (tileOf port)) (portCfg port) 4 2))).map (port + ·)
/-- A lane's test hardware. -/
def State.laneSt (s : State) (l : Nat) : LaneSt := tget {} s.lanes l
/-- Change a lane's test hardware. -/
def State.modLane (s : State) (l : Nat) (f : LaneSt → LaneSt) : State := { s with lanes := tmod {} s.lanes l f }
/-- The lanes of a port in logical order (R53). -/
def State.logical (s : State) (port : Nat) : List Nat :=
  let l := s.lanesOf port
  if s.flag (laneStatus port) 9 then l.reverse else l
/-- The port a lane belongs to under its tile's epoch. -/
def State.portOfLane (s : State) (l : Nat) : Option Nat :=
  (List.range 16).findSome? fun i =>
    let p := l / 16 * 16 + i
    if p ≤ l && s.portEn (s.tileEpoch (tileOf l)) p && (s.lanesOf p).contains l then some p else none

/-! ### Electrical idle (R61, R67) -/

/-- PB_LANE_CTRL of a lane. -/
def laneCtrl (lane : Nat) : Nat := pbReg 0x1000 lane
/-- PB_TEST_CTRL of a lane. -/
def testCtrl (lane : Nat) : Nat := pbReg 0x1100 lane
/-- PB_QUAD_STATUS of a quad. -/
def quadStatus (q : Nat) : Nat := pbBase (q / 4) + 0x1080 + 4 * (q % 4)
/-- SP_ block of a channel, at a byte offset. -/
def spReg (ch o : Nat) : Nat := 0x00800000 + 0x40 * ch + o
/-- SP_STATUS of a channel. -/
def spStatus (ch : Nat) : Nat := spReg ch 0x14

/-- Whether PATTERN selects a pattern at the lane's rate (R71): 1 to 8, 6 and 7 only at 64 GT/s. -/
def patternOn (v : Word) (rate : Nat) : Bool :=
  let p := field v 3 0
  decide (1 ≤ p ∧ p ≤ 8) && (!(p == 6 || p == 7) || rate == 5)
/-- Whether a lane is in pattern mode. -/
def State.inPattern (s : State) (l : Nat) : Bool := patternOn (s.lv (testCtrl l)) (s.fld (laneStatus l) 2 0)

/-- Whether a port is held in reset or disabled: by blackout, by PERST# of its slot, by its tile's rails or the reference clock,
by Link Disable of the host that owns it, or by an INIT mismatch (R61, R87, R91, R99, R392, R394). -/
def State.linkHeld (s : State) (port : Nat) : Bool :=
  let e := s.tileEpoch (tileOf port)
  !s.portEn e port || s.portBlack port || (s.linkSt (.port port)).hold || s.flag (tileBase (tileOf port) + 0x04) 1 ||
    s.flag 0x00020808 5 ||
    (s.cflag e (slotCfg port) 0 && s.cflag e (slotCfg port) 8 && s.flag (spStatus (s.cfld e (slotCfg port) 7 1)) 8) ||
    (match s.vdpOf e (s.slotOwner e port) port with
     | some d => (s.vport (s.slotOwner e port) d).linkDisable
     | none => false)

/-- Whether a lane's transmitter is in electrical idle (R61, R64, R67). Detect is one of the idle states of the LTSSM, which R54
takes from the base specification; a pattern generator that is off sends nothing (DEDUCED, log entry 113). -/
def State.idleNow (s : State) (l : Nat) : Bool :=
  s.flag (laneCtrl l) 5 || !s.flag (quadStatus (l / 4)) 0 ||
    if s.inPattern l then !s.flag (testCtrl l) 4
    else match s.portOfLane l with
      | none => true
      | some p =>
        let k := s.portSt p
        let w := (s.logical p).take (widthLanes (s.fld (portStatus p) 3 1))
        s.linkHeld p || k.train == 0 || s.flag (portStatus p) 9 || (s.flag (portStatus p) 8 && w.contains l) ||
          (s.flag (portStatus p) 10 && (w.drop (widthLanes k.l0pWidth)).contains l) || (s.linkSt (.port p)).stopped
/-- IN_EI of a list of lanes shows whether their transmitters are idle now. -/
def State.setEi (s : State) (ls : List Nat) : State := s.each ls fun s l => s.setFlag (laneStatus l) 14 (s.idleNow l)

/-- The widest width code, at most `w`, whose lanes counted from logical lane 0 are all good. -/
def goodWidth (lanes : List Nat) (good : Nat → Bool) : Nat → Nat
  | 0 => 0
  | w + 1 => if widthLanes (w + 1) ≤ lanes.length && (lanes.take (widthLanes (w + 1))).all good then w + 1 else goodWidth lanes good w

/-- A relink takes a width (R64): of the lanes that the link used, those that regained lock are good again, and those that did
not are excluded. A lane outside the width is not linked (R71; log entry 140). -/
def State.relink (s : State) (port w : Nat) (good : Nat → Bool) : State :=
  let old := (s.logical port).take (widthLanes (s.fld (portStatus port) 3 1))
  let rate := s.fld (portStatus port) 6 4
  let s := s.each (s.logical port) fun s l =>
    if good l then s.modLane l fun k => { k with bad := false }
    else if old.contains l then s.setFlag (laneStatus l) 10 true
    else s
  let s := s.each ((s.logical port).take (widthLanes w)) fun s l =>
    ((s.setFlag (laneStatus l) 4 true).setFlag (laneStatus l) 5 false).setFld (laneStatus l) 2 0 rate
  let s := s.each ((s.logical port).drop (widthLanes w)) fun s l => s.setFld (laneStatus l) 4 0 7
  s.setFld (portStatus port) 3 1 w
/-- The lanes of a port are no longer linked: RATE not linked, no modulation, no lock, the transmitters idle (R61, R71). -/
def State.lanesDown (s : State) (port : Nat) : State :=
  s.each (s.lanesOf port) fun s l => (s.setFld (laneStatus l) 4 0 7).setFlag (laneStatus l) 14 true

/-- The sources that assert a partition's host pin (R306). -/
def State.pinSrcs (s : State) (p pin : Nat) : List Nat := tget [] s.hv.pins (4 * p + pin)
/-- Replace the sources of a host pin; answers whether the message state changes. -/
def State.setPins (s : State) (p pin : Nat) (l : List Nat) : State × Bool :=
  ({ s with hv := { s.hv with pins := tset [] s.hv.pins (4 * p + pin) l } }, (s.pinSrcs p pin).isEmpty != l.isEmpty)
/-- A link that goes down deasserts the pins its functions held, as the base specification has a switch do (PRESUMED, log
entry 60). -/
def State.pinsDown (s : State) (port : Nat) : State :=
  let e := s.leadEpoch
  s.each s.hv.pins fun s x =>
    let l := x.2.filter fun k => s.bindPort e (k / 4) != port
    let p := x.1 / 4
    if l.length = x.2.length then s
    else
      let (s, chg) := s.setPins p (x.1 % 4) l
      if chg then s.form { s.upForm e (s.homeTile e p) p none false 0 .record with rRid := s.upRid p } .posted
        (.intx (x.1 % 4) false) else s

/-- The link state fields of PB_PORT_STATUS clear, LINK_DOWN_SEEN is set. -/
def State.clearStatus (s : State) (port : Nat) : State :=
  (s.setFld (portStatus port) 10 0 0).sticky (portStatus port) 13

/-- A PCI Express port goes link-down (R83). -/
def State.pcieDown (s : State) (port : Nat) (c : EndCause) : State :=
  let was := s.dlActive port
  let s := if was then (s.clearStatus port).count (tileOf port) .pbLinkDown (some port) else s
  let s := (s.endToPort port c).releasePort port c.code
  let s := ((s.modPort port fun _ => {}).lanesDown port).pinsDown port
  let s := if s.cflag s.leadEpoch (slotCfg port) 13 then
    s.modSlot port fun k => { k with present := false, presChanged := k.presChanged || k.present } else s
  if was && (s.partOfUp s.leadEpoch port).isNone then
    let s := s.dllsc port
    if s.surprise port then s.ownerAer port .surpriseDown else s
  else s

/-- What a VFL link-down leaves of the link's state: items already accepted still move to the cell buffer, holding no block of the
next link (R113). -/
def LinkSt.dropped (k : LinkSt) : LinkSt :=
  { items := k.items.map fun x => { x with blocks := 0 }, moved := k.moved, vcPtr := k.vcPtr }

/-- A VFL port goes link-down, in the order of R113. -/
def State.vflDown (s : State) (port : Nat) (c : EndCause) : State :=
  let k := s.linkSt (.port port)
  let was := s.dlActive port
  let s := if was then (s.clearStatus port).count (tileOf port) .pbLinkDown (some port) else s
  let queued := (s.pkts.filter fun p => p.ports.contains port).map (·.id)
  let s := s.endToPort port c
  let flying := (k.outst.flatMap (·.pkts) ++ k.tx.filterMap (·.pkt)).filter fun p => !queued.contains p.id
  let s := s.each flying fun s p => s.endSent p port c
  let s := s.releasePort port c.code
  let s := if k.part.isSome then s.count (tileOf port) .lkRxPartial (some port) else s
  let s := ((s.modLink (.port port) LinkSt.dropped).modPort port fun _ => {}).lanesDown port
  let s := (s.setFld (lkStatus port) 3 0 0).setFld (lkStatus port) 12 8 0
  let s := if was then s.sticky (lkStatus port) 13 else s
  let s := s.setFlag (lkReg port 0x1C) 16 false
  s.each s.present fun s t => s.setHops t port false

/-- A port goes link-down, by its mode. -/
def State.linkDown (s : State) (port : Nat) (c : EndCause) : State :=
  if s.isVfl (s.tileEpoch (tileOf port)) port then s.vflDown port (if c == .portDown then .vflDown else c)
  else s.pcieDown port c

/-- ROUTE_HOP_RESTORE. -/
def execRouteHopRestore (t port : Nat) (s : State) : Out := .next (routeHopRestore t port s)

end Sys2Proof.Machine
end

