-- ==== Sys2Proof/Machine/Blackout.lean ====
section
/-! DEFINITION. Blackout (R334 to R338, R452): entering and leaving for ports, partitions and seats; stops and their
stamps (R299, R300); DPC (R86, R87); the upstream holder. -/

namespace Sys2Proof.Machine

/-! ### Entering -/

/-- End the resident requests of a test on a tile, as a blackout ends them (R336). -/
def State.endResident (s : State) (t : Nat) (pick : Packet → Bool) (c : EndCause) : State :=
  s.each (s.pkts.filter fun p => p.tile == t && pick p) fun s p =>
    match s.pkt p.id with
    | some q => s.endPacket q c
    | none => s

/-- Whether a packet's first symbol has left on each of its ports: it has left the part (R336). -/
def Packet.leftAll (p : Packet) : Bool := !p.ports.isEmpty && p.ports.all fun k => p.onWire.any fun w => w.1 == k
/-- Whether a packet is a request that a host or a bound function made and that the part forwards. -/
def Packet.requested (p : Packet) : Bool :=
  (p.cls == .posted || p.cls == .nonPosted) && p.purpose == .forward && match p.origin with
    | .host _ => true
    | .func _ => true
    | _ => false
/-- Whether a packet is a write or a read that the aperture unit formed. -/
def Packet.ofAperture (p : Packet) : Bool :=
  match p.purpose with
  | .apWrite _ _ => true
  | .apRead _ _ => true
  | _ => false

/-- End a seat's engine work on a tile with a code (R239, R336): held and started work requests complete in order. -/
def State.endWork (s : State) (t seat code : Nat) (started : Bool) : State :=
  s.each (s.eng.wrs.filter fun w => w.tile == t && w.seat == seat && (w.st == .held || (started && w.st == .started)))
    fun s w => s.finishWr w.id code

/-- A seat's blackout takes effect on a tile (R336): its requests that have not left end, those through an aperture too, as its open
lines do. -/
def State.seatDark (s : State) (t seat : Nat) : State :=
  let s := s.endResident t (fun p => p.seat == some seat && (p.requested || p.ofAperture) && !p.leftAll) .seatBlackout
  let s := s.discardLines t (fun k _ => k == seat) 0x0A
  (s.endWork t seat 0x0A true).releaseHeld t seat

/-- A partition's blackout takes effect on a tile (R336): packets toward its host end as for a port, then its requests and its seats'
work. -/
def State.partDark (s : State) (t p : Nat) : State :=
  let up := s.upPort s.leadEpoch p
  let s := s.each (s.pkts.filter fun q => q.tile == t && q.ports.contains up && q.cls != .cpl && q.purpose != .record) fun s q =>
    match s.pkt q.id with
    | some q => s.dropPointer q up .blackout
    | none => s
  let s := s.endResident t (fun q => q.part == some p && q.requested && !q.leftAll) .seatBlackout
  s.each ((s.boundSeats s.leadEpoch).filter fun k => s.seatPart s.leadEpoch k == p) fun s k => s.seatDark t k

/-- A port's blackout takes effect on a tile: packets bound for it end (R336). -/
def State.portDark (s : State) (t port : Nat) : State :=
  s.each (s.pkts.filter fun p => p.tile == t && p.ports.contains port) fun s p =>
    match s.pkt p.id with
    | some q => s.dropPointer q port .blackout
    | none => s

/-! ### Records (R351, R452) -/

/-- The seats that a blackout concerns (R452). -/
def State.darkSeats (s : State) (kind num : Nat) : List Nat :=
  let e := s.leadEpoch
  let ofPart := fun p => (s.boundSeats e).filter fun k => s.seatPart e k == p
  if kind = 2 then [num]
  else if kind = 1 then ofPart num
  else if s.isVfl e num then []
  else match s.partOfUp e num with
    | some p => ofPart p
    | none => ofPart (s.slotOwner e num)

/-- The BLACKOUT records of a target that enters or leaves (R337, R351, R452): one to each seat it concerns and one to
seat 0, formed at `tile`; `acc` is the accepting tile. -/
def State.darkRecords (s : State) (kind num : Nat) (enter : Bool) (cause acc tile : Nat) : State :=
  let body := leBytes 1 (kind + 4 * b2n enter) ++ leBytes 1 cause ++ leBytes 2 (num % 4096) ++ leBytes 1 (acc % 16)
  let tgt := 0 :: (s.darkSeats kind num).filter (· != 0)
  s.each tgt fun s k => s.event k 0x0100 (if kind = 2 then num else k) tile body

/-! ### DPC and the upstream holder -/

/-- Whether any holder of a partition stands. -/
def State.partHeld (s : State) (p : Nat) : Bool := s.present.any fun t => s.partBlack t p

/-- The upstream holder of a partition is set (R334): its seats go dark on every tile. -/
def State.upstreamHold (s : State) (port : Nat) : State :=
  match s.partOfUp s.leadEpoch port with
  | none => s
  | some p =>
    if tget false s.cont.upstream p then (if s.cont.cut.contains (tileOf port) then s.partDark (tileOf port) p else s)
    else
      let was := s.partHeld p
      let s := { s with cont := { s.cont with upstream := tset false s.cont.upstream p true } }
      if was then s
      else
        let s := s.each s.present fun s t => (s.count t .blackoutEnter (some port)).partDark t p
        s.darkRecords 1 p true 2 (tileOf port) (tileOf port)

/-- The upstream holder of a partition is released: DL_Active with no manager blackout on the port (R334). -/
def State.upstreamFree (s : State) (port : Nat) : State :=
  match s.partOfUp s.leadEpoch port with
  | none => s
  | some p =>
    if !tget false s.cont.upstream p || !s.here (tileOf port) || !s.dlActive port || s.mgrHolds (tileOf port) 0 port then s
    else
      let s := { s with cont := { s.cont with upstream := tset false s.cont.upstream p false } }
      if s.partHeld p then s else s.darkRecords 1 p false 2 (tileOf port) (tileOf port)

/-- A port goes link-down: its link and, for an upstream port, its partition (R83, R113, R334). -/
def State.portDown (s : State) (port : Nat) (c : EndCause) : State := (s.linkDown port c).upstreamHold port

/-- DPC in the owning partition is triggered by a port's blackout (R86): software trigger, unless the host's cause is
recorded. The port then stays in blackout until that host clears the status (R87). -/
def State.showDpc (s : State) (port reason ext : Nat) : State :=
  let p := s.slotOwner s.leadEpoch port
  match s.vdpOf s.leadEpoch p port with
  | some d =>
    let s := s.modVport p d fun v =>
      if v.dpcStatus && v.dpcReason ≠ 3 then v else { v with dpcStatus := true, dpcReason := reason, dpcExt := ext }
    { s with cont := { s.cont with dpc := tset false s.cont.dpc port true } }
  | none => s

/-- Whether a port presents DPC: an enabled PCI Express downstream port. -/
def State.hasDpc (s : State) (port : Nat) : Bool :=
  s.portEn s.leadEpoch port && !s.isVfl s.leadEpoch port && (s.partOfUp s.leadEpoch port).isNone

/-- The port's own tile applies its blackout: the link is held down (R336, R337). -/
def State.portEnter (s : State) (port reason ext : Nat) : State :=
  let s := (s.count (tileOf port) .blackoutEnter (some port)).portDown port .blackout
  if s.hasDpc port then s.showDpc port reason ext else s

/-- Whether a virtual port presents DPC (R86): a remote one, or one of a port of this part that does. -/
def State.vdpDpc (s : State) (e : Bool) (p d : Nat) : Bool := !s.vdpLocal e p d || s.hasDpc (s.vdpPort e p d)
/-- The trigger status of a virtual port takes a host's cause; it stands before a manager's that shows there (case of R88). -/
def State.setDpc (s : State) (p d reason ext : Nat) : State :=
  s.modVport p d fun v => { v with dpcStatus := true, dpcReason := reason, dpcExt := ext }
/-- Whether a packet is of a partition: attributed to it, or a completion to its host or one of its functions. -/
def State.ofPart (s : State) (e : Bool) (p : Nat) (q : Packet) : Bool :=
  q.part == some p || match q.origin with
    | .host k => k == p
    | .func f => s.bindPart e f == p
    | _ => false
/-- DPC in a partition that does not own a virtual port's link blacks out the traffic between it and the port (R86, R88): what is
resident ends, and what has left toward the port is answered, as R336 has it of a port. -/
def State.dpcPair (s : State) (e : Bool) (p d : Nat) : State :=
  let port := s.vdpPort e p d
  let fid := fidOf (s.vdpSw e p d) port
  let local_ := s.vdpLocal e p d
  let bound := fun (q : Packet) =>
    if local_ then (if q.ports.contains port then some port else none)
    else if q.target == fid then q.ports.head? else none
  let s := s.each (s.pkts.filter fun q => s.here q.tile && s.ofPart e p q) fun s q =>
    match s.pkt q.id, bound q with
    | some q, some k => s.dropPointer q k .blackout
    | _, _ => s
  s.each (s.outs.filter fun o => o.part == some p && if local_ then o.port == port else o.fid == fid) fun s o => s.releaseOut o 0x0A

/-- DPC_TRIGGER (R86, R88): in the owning partition the port goes into blackout; in another partition, or on a remote
virtual port, only the traffic between that partition and the port. A trigger on a port that the manager has stopped records the
host's cause: commands come one by one, so that those of one cell boundary are told by nothing else (DEDUCED, log entry 125). -/
def dpcTrigger (p d : Nat) (cause : DpcCause) (s : State) : State :=
  let e := s.leadEpoch
  let port := s.vdpPort e p d
  let r := match cause with
    | .software => (3, 1)
    | .uncorrectable => (0, 0)
    | .errNonfatalMsg => (1, 0)
    | .errFatalMsg => (2, 0)
  if !s.partEn e p || !s.vdpEn e p d || !s.vdpDpc e p d then s
  else if s.vdpLocal e p d && s.slotOwner e port = p then
    if !s.operates (tileOf port) then s
    else if tget false s.cont.dpc port then
      if (s.vport p d).dpcReason = 3 && s.mgrHolds (tileOf port) 0 port then s.setDpc p d r.1 r.2 else s
    else
      let was := s.portBlack port
      let s := s.setDpc p d r.1 r.2
      let s := { s with cont := { s.cont with dpc := tset false s.cont.dpc port true } }
      if was then s
      else
        let s := s.portEnter port r.1 r.2
        let s := s.each s.present fun s t => s.portDark t port
        s.darkRecords 0 port true 1 (tileOf port) (tileOf port)
  else (s.setDpc p d r.1 r.2).dpcPair e p d

/-- DPC_TRIGGER_STATUS_CLEAR (R87): while the manager holds the port the status reads 1 again at once. -/
def dpcTriggerStatusClear (p d : Nat) (s : State) : State :=
  let e := s.leadEpoch
  let port := s.vdpPort e p d
  if !s.partEn e p || !s.vdpEn e p d then s
  else if s.vdpLocal e p d && s.slotOwner e port = p then
    if s.mgrHolds (tileOf port) 0 port then
      { s with cont := { s.cont with dpc := tset false s.cont.dpc port true } }
    else
      let was := s.portBlack port
      let s := s.modVport p d fun v => { v with dpcStatus := false, dpcReason := 0, dpcExt := 0 }
      let s := { s with cont := { s.cont with dpc := tset false s.cont.dpc port false } }
      if was then s.darkRecords 0 port false 1 (tileOf port) (tileOf port) else s
  else s.modVport p d fun v => { v with dpcStatus := false, dpcReason := 0, dpcExt := 0 }

/-! ### Stops (R299, R300, R335) -/

/-- Whether a target exists on the part. -/
def State.stopTarget (s : State) (kind num : Nat) : Bool :=
  if kind = 0 then decide (num < 1024) && s.part.hasTile (tileOf num)
  else if kind = 1 then decide (num < 256)
  else decide (num < 4096)

/-- Whether a stop has no effect (R335). -/
def State.stopIgnored (s : State) (kind num : Nat) : Bool :=
  let e := s.leadEpoch
  let p0 := s.seatPart e 0
  !s.stopTarget kind num || (kind == 2 && num == 0) || (kind == 1 && s.bound e 0 && num == p0) ||
    (kind == 0 && s.bound e 0 && num == s.upPort e p0)

/-- The target is in blackout as tile `t` sees it. -/
def State.targetBlack (s : State) (t kind num : Nat) : Bool :=
  if kind = 0 then s.mgrHolds t 0 num || tget false s.cont.dpc num
  else if kind = 1 then s.partBlack t num
  else s.mgrHolds t 2 num

/-- The effects of a target going into blackout on a tile. -/
def State.goDark (s : State) (t kind num : Nat) : State :=
  if kind = 0 then
    if tileOf num = t then (s.portEnter num 3 1).portDark t num else s.portDark t num
  else if kind = 1 then (s.count t .blackoutEnter (some (s.upPort s.leadEpoch num))).partDark t num
  else (s.count t .blackoutEnter none (some num)).seatDark t num

/-- A tile applies a stop when its stamp is later than the last one it applied to the target (R300). -/
def State.applyStop (s : State) (t : Nat) (m : StopMsg) : State :=
  let k := stopKey t m.kind m.num
  let old := tget noStop s.host.stamps k
  if old.ft < m.ft ∨ (old.ft = m.ft ∧ old.tile < m.tile) ∨ old = noStop then
    let was := s.targetBlack t m.kind m.num
    let st : StopStamp := { ft := m.ft, tile := m.tile, on := m.on }
    let s := { s with host := { s.host with stamps := tset noStop s.host.stamps k st } }
    if m.on && !was then s.goDark t m.kind m.num
    else if !m.on && m.kind = 0 && tileOf m.num = t then
      s.upstreamFree m.num
    else s
  else s

/-- A stop that holds on every present tile is finished (R299, R337 step 5): the records of the change it made. -/
def State.stopHolds (s : State) (m : StopMsg) : State :=
  let s := { s with host := { s.host with stops := s.host.stops.filter fun k => k.id != m.id } }
  let now := s.targetBlack (if m.kind = 0 then tileOf m.num else s.present.headD 0) m.kind m.num
  if now != m.was then s.darkRecords m.kind m.num now 0 m.tile (if m.tile < 8 then m.tile else 15) else s

/-- A stop message after a tile has applied it. -/
def State.stopAt (s : State) (t : Nat) (m : StopMsg) : State :=
  let s := s.applyStop t m
  let m' := { m with waiting := m.waiting.filter fun u => u != t && s.here u }
  if m'.waiting.isEmpty then s.stopHolds m'
  else { s with host := { s.host with stops := s.host.stops.map fun k => if k.id = m.id then m' else k } }

/-- The FT a stop carries: of its accepting tile, or the master's. -/
def nsStamp (s : State) (acc : Nat) : Nat := if acc < 8 then s.tileFt acc else s.tm.ft

/-- Issue a stop accepted at `acc` (15 the stage manager) (R299, R300): it takes effect at once on the tile written, and
then on every other present tile. Answers the stop's number, or none where it is ignored (R335). -/
def State.issueStop (s : State) (acc kind num : Nat) (on : Bool) : State × Option Nat :=
  if s.stopIgnored kind num then
    let t := if acc < 8 then acc else s.present.headD 0
    (s.count t .stopIgnored, none)
  else
    let id := s.host.stopCtr
    let m : StopMsg := {
      id := id, kind := kind, num := num, on := on, ft := nsStamp s acc, tile := acc,
      was := s.targetBlack (if kind = 0 then tileOf num else s.present.headD 0) kind num, waiting := s.present }
    let s := { s with host := { s.host with stops := s.host.stops ++ [m], stopCtr := id + 1 } }
    (if acc < 8 then s.stopAt acc m else s, some id)

/-- Whether a stop reaches a tile now: the stage manager's over that tile's service link (R19, R305), a tile's over the
crossings. -/
def State.stopReaches (s : State) (t : Nat) (m : StopMsg) : Bool :=
  s.here t && (decide (m.tile < 8) || (!s.ilulysReset && !s.headless t))
/-- STOP_PROPAGATE (R300). -/
def stopPropagate (t id : Nat) (s : State) : State :=
  match s.host.stops.find? fun m => m.id == id && m.waiting.contains t with
  | some m => if s.stopReaches t m then s.stopAt t m else s
  | none => s

/-! ### The meanings -/

/-- DPC_TRIGGER. -/
def execDpcTrigger (p d : Nat) (cause : DpcCause) (s : State) : Out := .next (dpcTrigger p d cause s)
/-- DPC_TRIGGER_STATUS_CLEAR. -/
def execDpcTriggerStatusClear (p d : Nat) (s : State) : Out := .next (dpcTriggerStatusClear p d s)

end Sys2Proof.Machine
end

