-- ==== Sys2Proof/Machine/Seats.lean ====
section
/-! DEFINITION. Seats: the doorbell page and the mailbox (R231 to R235), doorbells of rings (R284, R237), reset, removal
and the squash that a curtain begins (R238 to R241), ST_CTRL (R242). -/

namespace Sys2Proof.Machine

/-- ST_CTRL[s] of tile `t`. -/
def stCtrl (t seat : Nat) : Nat := tileBase t + 0x10000 + 4 * seat
/-- ST_STATUS[s] of tile `t`. -/
def stStatus (t seat : Nat) : Nat := tileBase t + 0x14000 + 4 * seat
/-- ST_MBX[s] word `w` and, at word 32, ST_MBX_CTRL[s]. -/
def stMbx (seat w : Nat) : Nat := 0x00200000 + 0x100 * seat + 4 * w
/-- ST_MBX_CTRL[s]. -/
def stMbxCtrl (seat : Nat) : Nat := stMbx seat 32

/-! ### The page (R231, R232) -/

/-- Whether an access acts on a seat's page: attributed to the seat, which is bound to the partition (R232). -/
def State.onPage (s : State) (e : Bool) (p : Nat) (who : Requester) (seat : Nat) (r : Req) : Bool :=
  s.partEn e p && s.here (s.homeTile e p) && s.bound e seat && s.seatPart e seat == p &&
    s.seatOf e p who r.pasid == some seat

/-- A write to a page that is refused (R232): discarded and counted. -/
def State.pageRefused (s : State) (e : Bool) (p : Nat) (seat : Option Nat) (unseated : Bool) : State :=
  let t := s.homeTile e p
  let s := s.count t .stDbRefused none seat
  if unseated then s.count t .stUnseated else s

/-- A poisoned write to a BAR of the part is discarded and not accepted (R340). -/
def State.poisonedWrite (s : State) (p : Nat) : State :=
  let t := s.homeTile s.leadEpoch p
  (s.count t .poisonDrop).logFabAer p .poisonedTlp

/-- Whether a seat in this state takes doorbells: STATE active and no blackout (R232, R336). -/
def State.takesDb (s : State) (t seat : Nat) : Bool := (s.seatSt seat).st == 1 && !s.seatBlack t seat

/-- The rings of a partition, for the level of its INTx (R293): pending bits are held per ring. -/
def State.intxLevel (s : State) (p : Nat) : Bool :=
  s.host.ring.any fun x => x.2.intx && match s.ringOwner s.leadEpoch x.1 with
    | some k => s.bound s.leadEpoch k && s.seatPart s.leadEpoch k == p
    | none => false

/-- Send Assert_INTA or Deassert_INTA of a partition's fabric function (R293): a message, whatever Bus Master Enable. -/
def State.sendIntx (s : State) (p : Nat) (assert : Bool) : State :=
  let e := s.leadEpoch
  let t := s.homeTile e p
  (s.modFab p fun f => { f with intxSent := assert }).form
    { s.upForm e t p none (s.bound e 0 && s.seatPart e 0 == p) (s.engClass t) .record with rRid := s.ffRid p } .posted
    (.intx 0 assert)

/-- Bring the INTx message state of a partition in line with its level and its gates (R279, R293). -/
def State.syncIntx (s : State) (p : Nat) : State :=
  let f := s.fab p
  let want := s.intxLevel p && !f.intDisable && !f.msixEnable
  if want && !f.intxSent then (if f.d3hot then s else s.sendIntx p true)
  else if !want && f.intxSent then s.sendIntx p false
  else s

/-- Apply a doorbell to a ring (R284): a valid one sets SW_INDEX; any other is ignored, marked and counted. -/
def State.ringBell (s : State) (t seat r idx : Nat) : State :=
  let idx := idx % 65536
  let up := s.ringType r = 0 ∨ s.ringType r = 3
  let d := if up then modSub 65536 idx (s.hwIndex r) else modSub 65536 (s.hwIndex r) idx
  if !s.ringEn r || s.ringLen r < d then
    (((s.sticky (ringReg r 7) 0).count t .stDbRefused none (some seat)).sticky (stStatus t seat) 6)
  else
    let s := s.setFld (ringReg r 6) 31 16 idx
    if !up && idx == s.hwIndex r && (s.ringSt r).intx then
      (s.modRing r fun q => { q with intx := false }).syncIntx (s.seatPart s.leadEpoch seat)
    else s

/-- A write to a doorbell of a page, of ring `r` (R232, R237). -/
def State.doorbell (s : State) (p : Nat) (who : Requester) (seat : Nat) (req : Req) (ring : Option Nat) : State :=
  let e := s.entryEpoch p
  let t := s.homeTile e p
  let refuse := fun (s : State) => (s.pageRefused e p (some seat) false).sticky (stStatus t seat) 6
  if !s.partEn e p || !s.here t then s
  else if req.poisoned then s.poisonedWrite p
  else if !s.onPage e p who seat req then s.pageRefused e p none (s.seatOf e p who req.pasid).isNone
  else if !(req.kind == .memWrite && req.data.length == 4 && req.addr.toNat % 4 == 0) then refuse s
  else match ring with
    | none => refuse s
    | some r =>
      if s.ringOwner e r ≠ some seat || !s.takesDb t seat then refuse s
      else
        let idx := ofBytes (req.data.take 2)
        if (s.ringSt r).oldOwner.isSome then s.modRing r fun q => { q with heldDb := some idx }
        else s.ringBell t seat r idx

/-- RING_DOORBELL (R231). -/
def ringDoorbell (p : Nat) (who : Requester) (seat k : Nat) (r : Req) (s : State) : State :=
  s.doorbell p who seat r (if k < 8 then some (8 * seat + k) else none)
/-- POOL_DOORBELL (R231): bits [30:16] name the pool ring. -/
def poolDoorbell (p : Nat) (who : Requester) (seat : Nat) (r : Req) (s : State) : State :=
  s.doorbell p who seat r (some (32768 + ofBytes r.data / 65536 % 32768))

/-- BAR2_ATOMIC (R232): UR, counted, no other effect. -/
def bar2Atomic (p : Nat) (who : Requester) (seat : Nat) (r : Req) (s : State) : State :=
  let e := s.entryEpoch p
  if !s.partEn e p || !s.here (s.homeTile e p) then s
  else (s.count (s.homeTile e p) .stDbRefused none (some seat)).barReply e p who r .ur []

/-! ### The mailbox (R233 to R235) -/

/-- ST_MBX_CTRL.T2M_FULL, which T2M_BUSY also reads. -/
def State.t2mFull (s : State) (seat : Nat) : Bool := s.flag (stMbxCtrl seat) 0
/-- ST_MBX_CTRL.M2T_BUSY, which M2T_FULL also reads. -/
def State.m2tBusy (s : State) (seat : Nat) : Bool := s.flag (stMbxCtrl seat) 2
/-- The tile at which a seat's mailbox is served. -/
def State.mbxTile (s : State) (seat : Nat) : Nat := s.seatHome s.leadEpoch seat

/-- A tenant's write of its page's mailbox that is attributed to it, or refused (R232). -/
def State.mailbox (s : State) (p : Nat) (who : Requester) (seat : Nat) (r : Req) (act : State → State) : State :=
  let e := s.entryEpoch p
  if !s.partEn e p || !s.here (s.homeTile e p) then s
  else if r.poisoned then s.poisonedWrite p
  else if !s.onPage e p who seat r then s.pageRefused e p none (s.seatOf e p who r.pasid).isNone
  else act s

/-- Write bytes into a table of words, at a 4-byte aligned byte offset. -/
def wordsInto (m : NMap Word) (o : Nat) (data : List Byte) : NMap Word :=
  (List.range (data.length / 4)).foldl (fun m i =>
    tset 0 m (o / 4 + i) (BitVec.ofNat 32 (ofBytes ((data.drop (4 * i)).take 4)))) m

/-- MBX_T2M_WRITE (R233). -/
def mbxT2mWrite (p : Nat) (who : Requester) (seat off : Nat) (r : Req) (s : State) : State :=
  s.mailbox p who seat r fun s =>
    let n := r.data.length
    if s.t2mFull seat || !((n = 4 ∨ n = 8) ∧ off % n = 0 ∧ off + n ≤ 64) then s.modSeat seat fun q => { q with dropped := true }
    else s.modSeat seat fun q => { q with t2m := wordsInto q.t2m off r.data }

/-- The effect of MBX_FLAGS.T2M_POST (R233): the 64 bytes are latched and an event goes to seat 0. -/
def State.t2mPostAct (s : State) (seat : Nat) : State :=
  if s.t2mFull seat then s.modSeat seat fun q => { q with dropped := true }
  else
    let s := s.each (List.range 16) fun s i => s.setLv (stMbx seat i) (tget 0 (s.seatSt seat).t2m i)
    (s.setFlag (stMbxCtrl seat) 0 true).event 0 0x0001 seat (s.mbxTile seat) []
/-- The effect of MBX_FLAGS.M2T_ACK (R234): both flags clear and an event goes to seat 0. -/
def State.m2tAckAct (s : State) (seat : Nat) : State :=
  if s.m2tBusy seat then (s.setFlag (stMbxCtrl seat) 2 false).event 0 0x0002 seat (s.mbxTile seat) [] else s
/-- The effect of a tenant's write of MBX_FLAGS (R242). -/
def State.mbxFlagsWrite (s : State) (seat : Nat) (v : Word) : State :=
  let s := if bit v 4 then s.modSeat seat fun q => { q with dropped := false } else s
  let s := if bit v 1 then s.t2mPostAct seat else s
  if bit v 3 then s.m2tAckAct seat else s

/-- T2M_POST (R233). -/
def t2mPost (p : Nat) (who : Requester) (seat : Nat) (r : Req) (s : State) : State :=
  s.mailbox p who seat r fun s => s.t2mPostAct seat
/-- M2T_ACK (R234). -/
def m2tAck (p : Nat) (who : Requester) (seat : Nat) (r : Req) (s : State) : State :=
  s.mailbox p who seat r fun s => s.m2tAckAct seat

/-- The effect of a manager's write of ST_MBX_CTRL (R233, R234, R242). -/
def State.mbxCtrlWrite (s : State) (seat : Nat) (v : Word) : State :=
  let s := s.plainWrite (stMbxCtrl seat) v
  let s := if bit v 1 && s.t2mFull seat then
      (s.setFlag (stMbxCtrl seat) 0 false).event seat 0x0002 seat (s.mbxTile seat) [] else s
  if bit v 3 then
    if s.m2tBusy seat then s.sticky (stMbxCtrl seat) 4
    else
      let s := s.modSeat seat fun q => { q with m2t := (List.range 16).foldl (fun m i =>
        tset 0 m i (s.lv (stMbx seat (16 + i)))) [] }
      (s.setFlag (stMbxCtrl seat) 2 true).event seat 0x0001 seat (s.mbxTile seat) []
  else s

/-- The effect of a manager's write of a word of ST_MBX (R234): T2M is read-only. -/
def State.mbxWrite (s : State) (seat w : Nat) (v : Word) : State :=
  if w < 16 ∨ 32 ≤ w then s
  else if s.m2tBusy seat then s.sticky (stMbxCtrl seat) 4
  else s.setLv (stMbx seat w) v

/-- T2M_ACK (R233). -/
def t2mAck (via : Via) (seat : Nat) (v : Word) (s : State) : State :=
  if s.viaOpen via && s.here (s.mbxTile seat) then s.mbxCtrlWrite seat (v ||| 2) else s
/-- M2T_POST (R234). -/
def m2tPost (via : Via) (seat : Nat) (v : Word) (s : State) : State :=
  if s.viaOpen via && s.here (s.mbxTile seat) then s.mbxCtrlWrite seat (v ||| 8) else s
/-- MBX_M2T_WRITE (R234): `off` is the byte offset in M2T. -/
def mbxM2tWrite (via : Via) (seat off : Nat) (v : Word) (s : State) : State :=
  if s.viaOpen via && s.here (s.mbxTile seat) && off % 4 == 0 && decide (off < 64) then s.mbxWrite seat (16 + off / 4) v
  else s

/-- Both buffers and all four flags clear (R235). -/
def State.clearMbx (s : State) (seat : Nat) : State :=
  let s := s.each (List.range 32) fun s i => s.setLv (stMbx seat i) 0
  (s.setFld (stMbxCtrl seat) 2 0 0).modSeat seat fun q => { q with t2m := [], m2t := [] }

/-! ### Reset and removal (R238 to R241) -/

/-- A request of the seat's own that awaits completion: not forwarded, and not a window owner's service (R238). -/
def State.onBehalf (s : State) (seat : Option Nat) (sn : Nat) (pu : Purpose) : Bool :=
  seat == some sn && match pu with
    | .forward => false
    | .issue _ => false
    | .write => false
    | .record => false
    | .winFlush _ => false
    | .apWrite _ _ => false
    | .dma id => s.host.dmas.any fun d => d.id == id && d.issue.isNone
    | _ => true

/-- The descriptors of a seat that its home tile has fetched and no engine has accepted (R238). -/
def State.fetched (s : State) (t seat : Nat) : Nat :=
  if t ≠ s.seatHome s.leadEpoch seat then 0
  else s.host.ring.foldl (fun n x => if s.ringType x.1 = 0 ∧ s.workOwner x.1 = some seat then n + x.2.got.length else n) 0
/-- A tile's part of a seat's outstanding count (R238). -/
def State.outstanding (s : State) (t seat : Nat) : Nat :=
  s.fetched t seat +
  (s.eng.wrs.countP fun w => w.tile == t && w.seat == seat && w.st != .done) +
  (s.eng.parked.countP fun k => k.tile == t && match k.item with
    | .desc ring _ _ => s.workOwner ring == some seat
    | _ => false) +
  (s.pu.held.countP fun h => h.tile == t && h.seat == seat) +
  (s.eng.issues.countP fun k => k.tile == t && k.index.isSome && k.hdr.reqSeat == seat &&
    k.hdr.srcSw == s.switchNum s.leadEpoch) +
  (s.outs.countP fun o => o.tile == t && s.onBehalf o.seat seat o.purpose) +
  (s.pkts.countP fun p => p.tile == t && p.cls == .nonPosted && s.onBehalf p.seat seat p.purpose) +
  (s.wc.fences.countP fun f => f.tile == t && f.seat == seat) +
  (s.wc.lines.countP fun l => l.tile == t && l.seat == seat) +
  (s.wc.stuck.countP fun k => k.tile == t && k.seat == seat) +
  (s.win.revokes.countP fun r => s.winTile r.index == t && (r.seat == some seat)) +
  (s.eng.qps.countP fun x => s.qpTile x.1 == t && x.2.owner == seat && x.2.state == 2)

/-- Whether a seat's count is zero on every tile. -/
def State.seatIdle (s : State) (seat : Nat) : Bool := s.present.all fun t => s.outstanding t seat == 0

/-- Step 3 of R239: the seat's queue pairs end their unstarted work and are set destroying. -/
def State.endQps (s : State) (seat : Nat) : State :=
  s.each (s.eng.qps.filter fun x => x.2.owner == seat && x.2.state == 1 && s.here (s.qpTile x.1)) fun s x =>
    (s.squashHeld x.1 0x06).modQp x.1 fun q => { q with state := 2 }

/-- Step 5 of R239: the home tile of the seat's partition revokes the seat's open windows of its index range. -/
def State.scanWindows (s : State) (t seat : Nat) : State :=
  s.each (s.win.tbl.filter fun x => s.winTile x.1 == t && x.2.state == 1 && x.2.owner == seat) fun s x =>
    s.revokeWin x.1 none (some seat)

/-- Work already started ends at once under a squash (R239 step 4). -/
def State.squashStarted (s : State) (seat : Nat) : State := s.each s.present fun s t => s.endWork t seat 0x06 true

/-- Steps 1 to 5 of R239 for a seat bound under the set of epoch `e`. -/
def State.seatStart (s : State) (e : Bool) (seat : Nat) (closing squash : Bool) : State :=
  let home := s.seatHome e seat
  let s := s.modSeat seat fun q => { q with st := if squash then 3 else 2, closing := closing }
  let s := s.each s.present fun s t =>
    let s := if squash then s.discardLines t (fun k _ => k == seat) 0x06
             else s.flushLines t fun l => l.seat == seat
    (s.releaseHeld t seat).endWork t seat 0x06 false
  let s := s.endQps seat
  let s := if squash then s.squashStarted seat else s
  s.scanWindows home seat

/-- A drain becomes a squash (R240). -/
def State.seatSquash (s : State) (seat : Nat) : State :=
  if (s.seatSt seat).st ≠ 2 then s
  else
    let s := s.modSeat seat fun q => { q with st := 3 }
    let s := s.each s.present fun s t => s.discardLines t (fun k _ => k == seat) 0x06
    s.squashStarted seat

/-- The effect of a RESET or REMOVE (R239 and its case of a second command). -/
def State.seatCommand (s : State) (seat : Nat) (remove squash : Bool) : State :=
  let q := s.seatSt seat
  if q.st = 1 then s.seatStart s.leadEpoch seat remove squash
  else if q.st = 2 ∨ q.st = 3 then
    let s := if remove then s.modSeat seat fun q => { q with closing := true } else s
    if squash then s.seatSquash seat else s
  else s

/-- The effect of a write of ST_CTRL[s] on tile `t` (R230, R242, R299): ST_CTRL[0] acts only out of band. -/
def State.stCtrlWrite (s : State) (via : Via) (t seat : Nat) (v : Word) : State :=
  let oob := match via with
    | .bridge => true
    | .mgmtPort => true
    | _ => false
  if !s.viaOpen via || !s.here t || 4096 ≤ seat || (seat = 0 && !oob) then s
  else
    let s := s.plainWrite (stCtrl t seat) v
    let s := if bit v 0 != s.mgrHolds t 2 seat then (s.issueStop (if oob then 15 else t) 2 seat (bit v 0)).1 else s
    let s := if bit v 1 then s.seatCommand seat false (bit v 2) else s
    let s := if bit v 3 then s.seatCommand seat true (bit v 2) else s
    if bit v 4 then s.seatSquash seat else s

/-- SEAT_RESET (R239). -/
def seatReset (via : Via) (t seat : Nat) (v : Word) (s : State) : State := s.stCtrlWrite via t seat (putBit v 1 true)
/-- SEAT_REMOVE (R239). -/
def seatRemove (via : Via) (t seat : Nat) (v : Word) (s : State) : State := s.stCtrlWrite via t seat (putBit v 3 true)
/-- SEAT_ESCALATE (R240). -/
def seatEscalate (via : Via) (t seat : Nat) (v : Word) (s : State) : State := s.stCtrlWrite via t seat (putBit v 4 true)
/-- SEAT_STOP (R299): a write whose BLACKOUT differs from the value read. -/
def seatStop (via : Via) (t seat : Nat) (v : Word) (s : State) : State :=
  s.stCtrlWrite via t seat (putBit v 0 (!s.mgrHolds t 2 seat))

/-- DRAIN_TIMEOUT (R240). -/
def drainTimeout (seat : Nat) (s : State) : State :=
  if (s.seatSt seat).st ≠ 2 || s.seatIdle seat then s
  else s.each (s.present) (fun s t => s.sticky (stStatus t seat) 5) |>.seatSquash seat

/-- A ring's indices return to 0 and its waiting records are discarded (R239 step 6, R287). -/
def State.resetRing (s : State) (r : Nat) : State :=
  (s.setLv (ringReg r 6) 0).modRing r fun q => { q with
    recs := [], evs := [], got := [], fetching := false, sinceSig := 0, firstUnsig := none, shadowDue := false, heldDb := none }

/-- SEAT_RESET_DONE (R239 steps 6 and 7, R235, R241). -/
def seatResetDone (seat : Nat) (s : State) : State :=
  let q := s.seatSt seat
  if (q.st ≠ 2 ∧ q.st ≠ 3) || !s.seatIdle seat then s
  else
    let home := s.mbxTile seat
    let s := s.each (s.ringsOf s.leadEpoch seat) State.resetRing
    let s := if q.closing || q.rebound then s.clearMbx seat else s
    let fin := if q.rebound then (if s.bound s.leadEpoch seat then 1 else 0) else if q.closing then 4 else 1
    let s := s.modSeat seat fun q => { q with st := fin, closing := false, rebound := false }
    let s := s.each s.present fun s t => s.sticky (stStatus t seat) 4
    s.event 0 0x0003 seat home []

/-- Whether entries of a ring are in progress: being fetched, waiting to be accepted, or begun (R237, R283). -/
def State.ringBusy (s : State) (r : Nat) : Bool :=
  (s.ringSt r).fetching || !(s.ringSt r).got.isEmpty || (s.eng.wrs.any fun w => w.ring == r && w.st != .done) ||
    (s.eng.parked.any fun k => match k.item with
      | .desc ring _ _ => ring == r
      | _ => false) ||
    (s.pu.held.any fun h => match h.item with
      | .work ring _ _ => ring == r
      | _ => false) || s.host.cmds.any fun c => c.ring == r && c.result.isNone

/-- POOL_RING_HANDOVER (R237): no work that the old owner's descriptors made is left: the indices return to 0 and the
held doorbell is applied. -/
def poolRingHandover (r : Nat) (s : State) : State :=
  match (s.ringSt r).oldOwner with
  | none => s
  | some _ =>
    if s.ringBusy r then s
    else
      let db := (s.ringSt r).heldDb
      let s := (s.setLv (ringReg r 6) 0).modRing r fun q => { q with oldOwner := none, heldDb := none }
      match db, s.ringOwner s.leadEpoch r with
      | some i, some seat => s.ringBell (s.seatHome s.leadEpoch seat) seat r i
      | _, _ => s

/-! ### The meanings -/

/-- RING_DOORBELL. -/
def execRingDoorbell (p : Nat) (who : Requester) (seat k : Nat) (r : Req) (s : State) : Out :=
  .next (ringDoorbell p who seat k r s)
/-- POOL_DOORBELL. -/
def execPoolDoorbell (p : Nat) (who : Requester) (seat : Nat) (r : Req) (s : State) : Out :=
  .next (poolDoorbell p who seat r s)
/-- BAR2_ATOMIC. -/
def execBar2Atomic (p : Nat) (who : Requester) (seat : Nat) (r : Req) (s : State) : Out :=
  .next (bar2Atomic p who seat r s)
/-- MBX_T2M_WRITE. -/
def execMbxT2mWrite (p : Nat) (who : Requester) (seat off : Nat) (r : Req) (s : State) : Out :=
  .next (mbxT2mWrite p who seat off r s)
/-- T2M_POST. -/
def execT2mPost (p : Nat) (who : Requester) (seat : Nat) (r : Req) (s : State) : Out := .next (t2mPost p who seat r s)
/-- T2M_ACK. -/
def execT2mAck (via : Via) (seat : Nat) (v : Word) (s : State) : Out := .next (t2mAck via seat v s)
/-- MBX_M2T_WRITE. -/
def execMbxM2tWrite (via : Via) (seat off : Nat) (v : Word) (s : State) : Out := .next (mbxM2tWrite via seat off v s)
/-- M2T_POST. -/
def execM2tPost (via : Via) (seat : Nat) (v : Word) (s : State) : Out := .next (m2tPost via seat v s)
/-- M2T_ACK. -/
def execM2tAck (p : Nat) (who : Requester) (seat : Nat) (r : Req) (s : State) : Out := .next (m2tAck p who seat r s)
/-- SEAT_RESET. -/
def execSeatReset (via : Via) (t seat : Nat) (v : Word) (s : State) : Out := .next (seatReset via t seat v s)
/-- SEAT_REMOVE. -/
def execSeatRemove (via : Via) (t seat : Nat) (v : Word) (s : State) : Out := .next (seatRemove via t seat v s)
/-- SEAT_ESCALATE. -/
def execSeatEscalate (via : Via) (t seat : Nat) (v : Word) (s : State) : Out := .next (seatEscalate via t seat v s)
/-- SEAT_STOP. -/
def execSeatStop (via : Via) (t seat : Nat) (v : Word) (s : State) : Out := .next (seatStop via t seat v s)
/-- DRAIN_TIMEOUT. -/
def execDrainTimeout (seat : Nat) (s : State) : Out := .next (drainTimeout seat s)
/-- SEAT_RESET_DONE. -/
def execSeatResetDone (seat : Nat) (s : State) : Out := .next (seatResetDone seat s)
/-- POOL_RING_HANDOVER. -/
def execPoolRingHandover (r : Nat) (s : State) : Out := .next (poolRingHandover r s)

end Sys2Proof.Machine
end

