-- ==== Sys2Proof/Machine/Containment.lean ====
section
/-! DEFINITION. ECC (R342, R343), completion timeouts (R344), crossings that change (R345), the loss and the return of
a tile (R346 to R348) and of a service link (R16, R30). -/

namespace Sys2Proof.Machine

/-! ### Completion timeouts (R344) -/

/-- Release an outstanding-request entry at its timeout, by what it was for. -/
def State.expireOut (s : State) (o : OutEntry) : State :=
  let s := { s with outs := s.outs.filter fun k => k.id != o.id }
  let s := s.count o.tile .cplTimeout (some o.port) o.seat
  match o.purpose with
  | .forward => s
  | .write => s
  | .record => s
  | .flush _ _ _ => s
  | .winFlush _ => s
  | .fetch _ _ => s
  | .perf key => s.shown key
  | .apWrite _ _ => s
  | .apRead _ tc => (s.count o.srcTile .apRdErr (some o.port) o.seat).reply o.srcTile (s.tileEpoch o.srcTile) o.mgmt o.origin o.rid o.tag tc .sc
      (allOnes o.len)
  | .dma id => s.dmaEnd id 0x08
  | .issue id => s.issued id 0x08
  | .ringFetch r => s.ringFail r 3

/-- COMPLETION_TIMEOUT (R344). -/
def completionTimeout (t id : Nat) (s : State) : State :=
  match s.outs.find? fun o => o.id == id && o.tile == t with
  | some o => if s.operates t then s.expireOut o else s
  | none => s

/-! ### Crossings (R345) -/

/-- TL_MESH_STATUS of a tile. -/
def meshStatus (t : Nat) : Nat := tileBase t + 0xE004
/-- The group of tile `t` that crossing `x` uses. -/
def endGroup (x t : Nat) : Nat := if (xgEnds x).1 = t then xgGroup t (xgEnds x).2 else xgGroup t (xgEnds x).1
/-- Whether crossing `x` exists: both its tiles are of the part. -/
def State.xgThere (s : State) (x : Nat) : Bool :=
  decide (x < 10) && s.part.hasTile (xgEnds x).1 && s.part.hasTile (xgEnds x).2
/-- Whether a crossing carries flits, by the status of its end. -/
def State.xgUp (s : State) (x : Nat) : Bool := s.flag (xgStatus (xgEnds x).1 (endGroup x (xgEnds x).1)) 0
/-- The crossings up, one bit each. -/
def State.xgMask (s : State) : Nat := (List.range 10).foldl (fun m x => if s.xgUp x then m + 2 ^ x else m) 0
/-- One tile's view of a crossing: 0 up, 1 half, 2 down. -/
def State.seeXg (s : State) (t x st : Nat) : State :=
  (s.setFlag (meshStatus t) (8 + x) (st < 2)).setFlag (meshStatus t) (18 + x) (st = 1)
/-- The crossings that join a tile to the mesh. -/
def State.xgsOf (s : State) (t : Nat) : List Nat :=
  (List.range 10).filter fun x => s.xgThere x && ((xgEnds x).1 == t || (xgEnds x).2 == t)

/-- The CROSSING_STATE record and counts of a change (R345, R351). -/
def State.xgRecord (s : State) (x st : Nat) : State :=
  let a := (xgEnds x).1
  let b := (xgEnds x).2
  let s := if st = 2 then (s.count a .xgDown).count b .xgDown else if st = 1 then (s.count a .xgHalf).count b .xgHalf else s
  let g := endGroup x a
  s.eventMgr 0x0102 a (leBytes 1 x ++ leBytes 1 st ++ leBytes 1 (s.fld (xgStatus a g) 7 2) ++
    leBytes 1 (s.fld (xgStatus a g) 13 8))

/-- A crossing goes down (R113, R345): what crosses it ends, both ends see it, the others by notice. -/
def State.crossingDown (s : State) (x : Nat) : State :=
  let a := (xgEnds x).1
  let b := (xgEnds x).2
  if !s.xgThere x || !s.xgUp x then s
  else
    let s := s.each [a, b] fun s t =>
      let g := endGroup x t
      let s := ((s.setFlag (xgStatus t g) 0 false).setFld (xgStatus t g) 18 14 0).sticky (xgStatus t g) 19
      ((s.modLink (.xing t g) fun k => { wires := k.wires }).seeXg t x 2)
    let cut := s.core.locks.filter fun l => (l.tile == a && decide (8 + 10 * endGroup x a ≤ l.out ∧ l.out < 18 + 10 * endGroup x a)) ||
      (l.tile == b && decide (8 + 10 * endGroup x b ≤ l.out ∧ l.out < 18 + 10 * endGroup x b))
    let s := s.each cut fun s l =>
      match s.pkt l.pkt with
      | some p => s.endPacket p .vflDown
      | none => s
    (s.modCore fun c => { c with locks := c.locks.filter fun l => !cut.contains l }).xgRecord x 2

/-- CROSSING_BULK_LOSS (R345). -/
def crossingBulkLoss (x : Nat) (s : State) : State := s.crossingDown x

/-! ### Tile loss (R346, R347) -/

/-- The TILE_STATE records (R347, R351): to seat 0 and to every bound seat whose upstream port's tile survives. -/
def State.tileRecords (s : State) (t : Nat) (lost : Bool) : State :=
  let body := leBytes 1 (t + 8 * b2n lost) ++ leBytes 1 0 ++ leBytes 2 s.xgMask
  let e := s.leadEpoch
  let tgt := 0 :: (s.boundSeats e).filter fun k => k != 0 && s.here (s.seatHome e k)
  s.each tgt fun s k => s.event k 0x0101 k (s.present.headD 0) body

/-- The port on which a packet arrives, for the commands that bring one. -/
def arrivalPort : Instr → Option Nat
  | .hostMemoryRequest port _ => some port
  | .functionMemoryRequest port _ => some port
  | .hostConfigRequest port _ => some port
  | .completionArrival port _ => some port
  | .vflPacketArrival port _ => some port
  | .intxMessage port _ _ _ => some port
  | .messageReceived port _ _ => some port
  | _ => none
/-- The work of a lost tile's units: its engine, apertures, windows, protection unit, meters (R347). -/
def State.forgetUnits (s : State) (t : Nat) : State :=
  { s with
    wc := { s.wc with lines := s.wc.lines.filter (·.tile != t), stuck := s.wc.stuck.filter (·.tile != t), fences := s.wc.fences.filter (·.tile != t) }
    eng := { s.eng with wrs := s.eng.wrs.filter (·.tile != t), parked := s.eng.parked.filter (·.tile != t),
                        issues := s.eng.issues.filter (·.tile != t),
                        writes := s.eng.writes.filter (·.tile != t), lru := tset [] s.eng.lru t [] }
    win := { s.win with lru := tset [] s.win.lru t [] }
    pu := { s.pu with held := s.pu.held.filter (·.tile != t) }
    tel := { s.tel with bo := s.tel.bo.filter fun x => x.1 / 4096 != t
                        latched := s.tel.latched.filter fun x => x.1 / 4096 != t
                        latchedTiles := s.tel.latchedTiles.filter (· != t) }
    host := { s.host with dmas := s.host.dmas.filter (·.tile != t) } }
/-- A tile stops: the packets resident on it, in its core and its ports' receive buffers, and its links' state are lost. -/
def State.stopTile (s : State) (t : Nat) : State :=
  { s with
    pkts := s.pkts.filter fun p => p.tile != t
    arrivals := s.arrivals.filter fun i => (arrivalPort i).map tileOf != some t
    ports := s.ports.filter fun x => tileOf x.1 != t
    links := s.links.filter fun x => if x.1 < 2000 then tileOf x.1 != t else (x.1 - 2000) / 4 != t
    cont := { s.cont with cut := s.cont.cut.filter (· != t) } }

/-- The end of an outstanding request that left through a lost tile's port (R347): forwarded ones have none. -/
def State.endLost (s : State) (t : Nat) (o : OutEntry) : State :=
  let s := { s with outs := s.outs.filter fun k => k.id != o.id }
  if o.purpose = .forward ∨ o.srcTile = t then s
  else s.endRequest o.srcTile o.epoch o.mgmt o.origin o.purpose o.rid o.tag o.svc o.len 0x07 (some o.port) o.attr

/-- Ports that partitions homed on the tiles of a test take for lost: their virtual downstream ports show the link gone, their
owner a Surprise Down (R83, R347). -/
def State.portsGone (s : State) (ports : List Nat) (seen : Nat → Bool) : State :=
  let e := s.leadEpoch
  s.each ports fun s port =>
    if s.portEn e port && !s.isVfl e port && (s.partOfUp e port).isNone && s.dlActive port then
      let vs := (s.vdpsOf e port).filter fun v => seen (s.homeTile e v.1)
      let s := s.each vs fun s v => s.modVport v.1 v.2 fun w => { w with dllsc := true }
      if s.surprise port && seen (s.homeTile e (s.slotOwner e port)) then s.ownerAer port .surpriseDown else s
    else s
/-- The VFL ports among `ports` are next hops of tile `u` no more (R347). -/
def State.hopsGone (s : State) (u : Nat) (ports : List Nat) : State :=
  s.each (ports.filter fun port => s.portEn s.leadEpoch port && s.isVfl s.leadEpoch port) fun s port => s.setHops u port false
/-- The packets that pass a test end for the loss of a tile. -/
def State.endTileLost (s : State) (ok : Packet → Bool) : State :=
  s.each (s.pkts.filter ok) fun s p =>
    match s.pkt p.id with
    | some q => s.endPacket q .tileLost
    | none => s

/-- The ports of a tile. -/
def portsOf (t : Nat) : List Nat := (List.range 128).map (128 * t + ·)
/-- A tile that is cut off and still runs takes every other tile for lost (R346, R347): what it holds for them ends. -/
def State.loseOthers (s : State) (t : Nat) : State :=
  let e := s.leadEpoch
  let others := s.part.tiles.filter (· != t)
  let s := s.each s.present fun s u => (s.count t .tileLost).setFlag (meshStatus t) u false
  let s := s.endTileLost fun p => p.tile == t && destTile p.dest != t
  let s := s.each ((List.range 256).filter fun p => s.partEn e p && s.homeTile e p != t) fun s p =>
    (s.count t .blackoutEnter (some (s.upPort e p))).partDark t p
  (s.portsGone (others.flatMap portsOf) (· == t)).hopsGone t (others.flatMap portsOf)

/-- What a curtain in progress waits for from a lost tile is no more awaited (case of R44). -/
def State.curtainWithout (s : State) : State :=
  if s.ilulysReset then s else s.commitIfReady.armedIfReady.retireIfDrained

/-- A tile is lost (R346, R347): the others treat it as absent and end its work. With `cut` it is cut off and still runs, and
goes on forwarding among its own ports; else it has stopped. -/
def State.loseTileAs (s : State) (t : Nat) (cut : Bool) : State :=
  let e := s.leadEpoch
  let s := if s.collector = t then s.collectorLost else s
  let s := s.each (s.xgsOf t) fun s x => s.crossingDown x
  let s := { s with cont := { s.cont with lost := s.cont.lost ++ [t], cut := if cut then s.cont.cut ++ [t] else s.cont.cut } }
  let s := s.each s.present fun s u => (s.count u .tileLost).setFlag (meshStatus u) t false
  let s := s.forgetUnits t
  let s := if cut then s.loseOthers t else s.stopTile t
  let s := s.endTileLost fun p => destTile p.dest == t && p.tile != t
  let s := s.each (s.outs.filter fun o => o.tile == t && !(cut && o.purpose == .forward)) fun s o => s.endLost t o
  let s := s.each ((List.range 256).filter fun p => s.partEn e p && s.homeTile e p == t) fun s p =>
    s.upstreamHold (s.upPort e p)
  let s := s.portsGone (portsOf t) fun u => u != t
  let s := s.each s.present fun s u => s.hopsGone u (portsOf t)
  let s := s.each (s.host.stops.filter fun m => m.waiting.all fun u => !s.here u) fun s m => s.stopHolds m
  (s.tileRecords t true).curtainWithout
/-- A tile stops and is lost; one that was cut off before only stops. -/
def State.loseTile (s : State) (t : Nat) : State := if s.here t then s.loseTileAs t false else s.stopTile t

/-- TILE_LOSS (R346). -/
def tileLoss (t : Nat) (s : State) : State := s.loseTile t

/-- Whether all four rails of a tile are good (R390). -/
def State.railsOk (s : State) (t : Nat) : Bool :=
  s.pwr.core.contains t && s.pwr.sda.contains t && s.pwr.sdh.contains t && s.pwr.io

/-- CROSSING_STATE_NOTICE (R345, R346): a tile learns a crossing's state; a tile all of whose crossings it sees down is
lost. Where its rails are good it is cut off and still runs. -/
def crossingStateNotice (t x st : Nat) (s : State) : State :=
  if !s.here t || !s.xgThere x then s
  else
    let s := s.seeXg t x (min st 2)
    s.each (s.present.filter (· != t)) fun s u =>
      if s.flag (meshStatus t) u && !(s.xgsOf u).isEmpty && (s.xgsOf u).all fun y => !s.flag (meshStatus t) (8 + y) then
        s.loseTileAs u (s.railsOk u)
      else s

/-- Insert in ascending order. -/
def insNat (n : Nat) : List Nat → List Nat
  | [] => [n]
  | k :: ks => if n ≤ k then n :: k :: ks else k :: insNat n ks

/-- Whether a stream starts or ends at a tile; its key is 128 × source + destination. -/
def streamTouches (t k : Nat) : Bool :=
  let src := k / 128
  (if 1024 ≤ src then src % 8 == t else tileOf src == t) || destTile (k % 128) == t

/-- The lanes of the other tiles, with the saved equalisation sets that the running image gives tile `t` (R399). -/
def State.eqFor (s : State) (t : Nat) : NMap LaneSt :=
  let mine : List (Nat × Nat × Nat) := s.boot.eqSets.filter fun x => tileOf x.1 == t
  let rest : NMap LaneSt := s.lanes.filter fun x => tileOf x.1 != t
  mine.foldl (fun m x => tmod {} m x.1 fun k => { k with saved := tset 0 k.saved x.2.1 x.2.2 }) rest

/-- TILE_REJOIN (R348, R390, R436): the stage manager resets a lost tile whose rails are good and which is not held for its
temperature: it comes back with its own set data and registers at reset. -/
def tileRejoin (t : Nat) (s : State) : State :=
  if !s.part.hasTile t || !s.cont.lost.contains t || !s.railsOk t || s.pwr.hot.contains t || s.ilulysReset ||
      s.fld 0x00020000 3 0 ≠ 4 then s
  else
    let s := (s.stopTile t).setFld 0x00020810 23 16 (satAdd 255 (s.fld 0x00020810 23 16) 1)
    let notHere := fun (x : Nat × Word) => offTile x.1 != some t &&
      !(x.1 / 0x10000000 == t + 1 && decide (x.1 % 0x10000000 < 0x01000000))
    let s := { s with
      live := s.live.filter notHere, set0 := s.set0.filter notHere, set1 := s.set1.filter notHere
      cont := { s.cont with lost := s.cont.lost.filter (· != t) }
      lanes := s.eqFor t
      tel := { s.tel with ctr := s.tel.ctr.filter fun x => x.1 / 256 % 16 != t
                          held := s.tel.held.filter fun x => x.1 / 256 % 16 != t
                          cap := s.tel.cap.filter fun x => x.1 / 4 != t }
      eng := { s.eng with qps := s.eng.qps.filter fun x => s.qpTile x.1 != t } }
    let s := s.each (s.win.tbl.filter fun x => s.winTile x.1 == t && x.2.state == 2) fun s x =>
      s.revokeEnd t { index := x.1, wr := none, seat := none }
    let s := s.modWin fun w => { w with freed := tmod [] w.freed t fun l => l.foldr insNat [] }
    let s := s.modCore fun c => { c with
      spent := c.spent.filter fun x => !(x.1 / 128 == t) && !(destTile (x.1 % 128) == t)
      seqNext := c.seqNext.filter fun x => !(streamTouches t x.1)
      expected := c.expected.filter fun x => !(streamTouches t x.1)
      arrived := c.arrived.filter fun x => !(streamTouches t x.1)
      shareHeld := c.shareHeld.filter fun x => x.1 / 64 != t
      mgmtUsed := terase c.mgmtUsed t, transitUsed := terase c.transitUsed t, egressUsed := terase c.egressUsed t
      freedCount := c.freedCount.filter fun x => !(x.1 / 128 == t) && !(destTile (x.1 % 128) == t)
      acceptedCount := c.acceptedCount.filter fun x => !(x.1 / 128 == t) && !(destTile (x.1 % 128) == t)
      ptr := c.ptr.filter fun x => x.1 / 8192 % 8 != t
      slot := terase c.slot t, sched := c.sched.filter fun x => x.1 / 4 != t
      locks := c.locks.filter fun l => l.tile != t
      unweight := c.unweight.filter fun x => x.1 / 32 != t, sprayPtr := c.sprayPtr.filter fun x => x.1 / 8 != t
      flights := c.flights.filter fun f => f.srcTile != t && destTile f.dest != t }
    let s := s.each ((s.xgsOf t).filter fun x => s.here (xgEnds x).1 && s.here (xgEnds x).2) fun s x =>
      let s := s.each [(xgEnds x).1, (xgEnds x).2] fun s u =>
        ((s.setFld (xgStatus u (endGroup x u)) 13 0 1).modLink (.xing u (endGroup x u)) fun _ => {})
      s.each s.present fun s u => s.seeXg u x 0
    let s := s.each s.present fun s u => (s.setFlag (meshStatus u) t true).count u .tileReturn
    let s := s.each (s.present.filter (· != t)) fun s u => s.setFlag (meshStatus t) u true
    ((s.sticky (tileBase t + 0x04) 2).setFlag (tileBase t + 0x3000) 10 s.leadEpoch).tileRecords t false

/-! ### Service links (R16, R30) -/

/-- TL_STATUS of a tile. -/
def tlStatus (t : Nat) : Nat := tileBase t + 0x04

/-- A tile's service link is lost (R16, R30): HEADLESS, its slave holds over unqualified, and
says so (DEDUCED, log entry 107). -/
def State.svcLost (s : State) (t : Nat) : State :=
  if !s.operates t || s.headless t then s
  else
    let q := s.flag (slaveStatus t) 8
    let was := s.pwr.qualAtLoss.filter (· != t)
    let s := { s with pwr := { s.pwr with qualAtLoss := if q then was ++ [t] else was } }
    ((((s.setFlag (tlStatus t) 0 true).sticky (tlStatus t) 3).countHk 60).setFlag (slaveStatus t) 8 false).setFlag (slaveStatus t) 9 true

/-- HK_BOOT_STATUS. -/
def bootStatus : Nat := 0x00020000
/-- HK_RESET_CAUSE. -/
def resetCause : Nat := 0x00020810
/-- Change the supplies, clocks and resets. -/
def State.modPwr (s : State) (f : PwrSt → PwrSt) : State := { s with pwr := f s.pwr }
/-- Change the boot state. -/
def State.modBoot (s : State) (f : BootSt → BootSt) : State := { s with boot := f s.boot }

/-- A blow that a reset cuts short leaves its bit blown or unblown, in each copy (R382 case): free. -/
def State.blowsLost (s : State) : State :=
  let s := s.each s.boot.blows fun s n =>
    let one : BitVec 2048 := BitVec.ofNat 2048 (2 ^ n)
    let pick := s.freeBelow 4
    s.used.modBoot fun b => { b with
      fuseA := if pick % 2 = 1 then b.fuseA ||| one else b.fuseA
      fuseB := if pick / 2 = 1 then b.fuseB ||| one else b.fuseB }
  s.modBoot fun b => { b with blows := [], blowReset := none, fuseRead := false, attOp := none, flashOp := none }

/-- The stops of the stage manager that have not reached every tile are lost with it (R19; DEDUCED, log entry 112). -/
def State.stopsLost (s : State) : State :=
  { s with host := { s.host with stops := s.host.stops.filter fun m => decide (m.tile < 8) } }

/-- An Ilulys restart begins (R398, R401): the die is in reset but for its retained block, and the tiles go headless. -/
def State.ilulysRestart (s : State) (cause : Nat) : State :=
  if s.ilulysReset then s
  else
    let s := (s.each s.running State.svcLost).blowsLost.stopsLost
    let s := (s.setFld resetCause 3 0 cause).setFld resetCause 15 8 (satAdd 255 (s.fld resetCause 15 8) 1)
    let s := s.setFld bootStatus 3 0 0
    let now := s.tm.now
    let s := s.modPwr fun p => { p with
      restarts := (p.restarts.filter fun n => decide (now < n + 10000000000)) ++ [now]
      due := if p.due.isSome then p.due else some .restart, valid := false, strap := none }
    { s with ilulysReset := true, host := { s.host with bridge := {} } }

/-- SERVICE_LINK_LOSS (R16). -/
def serviceLinkLoss (t : Nat) (s : State) : State := s.svcLost t

/-! ### ECC (R342, R343) -/

/-- ECC_CORRECTABLE (R342): corrected, written back, counted. -/
def eccCorrectable (t : Nat) (s : State) : State := s.count t .eccCorr
/-- ECC_SCRUB (R342): the scrubber reads and corrects every word in place; no content changes. -/
def eccScrub (_t : Nat) (s : State) : State := s

/-- The words of the table entry that holds an offset. -/
def entryWords (o : Nat) : List Nat :=
  let at_ := fun (rows : List RegRow) (base r : Nat) =>
    match rows.find? fun q => decide (q.base ≤ r ∧ r < q.base + q.stride * q.count) with
    | some q => (List.range q.words.length).map fun i => base + q.base + (r - q.base) / q.stride * q.stride + 4 * i
    | none => []
  match offTile o with
  | none => at_ globalRows 0 o
  | some _ =>
    let r := o % 0x01000000
    if r < 0x00100000 then at_ tileRows (o - r) r else at_ pbRows (o - r % 0x00100000) (r % 0x00100000)

/-- The storage number of an ECC_UNCORR record, in the row order of R343. -/
def eccIndex : EccStore → Nat
  | .cellBuffer _ => 0 | .wcLine _ => 0 | .engineBuffer _ => 0 | .descriptor _ => 1 | .outstanding _ => 2
  | .ctxWorking _ => 3 | .windowCache _ => 4 | .leadSet _ => 5 | .understudySet _ => 6 | .stageManager => 7

/-- The effect that R343 gives each storage. -/
def State.eccEffect (s : State) (t : Nat) : EccStore → State
  | .cellBuffer n =>
    match s.pkt n with
    | some p => if p.cls == .engine then s.endPacket p .ecc else s.modPkt n fun q => { q with poisoned := true }
    | none => s
  | .wcLine n =>
    let ids := (s.wc.lines.filter fun l => l.id == n).flatMap (·.pkts)
    (s.each ids fun s i => s.modPkt i fun q => { q with poisoned := true }).modWc fun w => { w with lines := w.lines.map fun l =>
      if l.id = n then { l with bad := true } else l }
  | .engineBuffer n => s.finishWr n 0x09
  | .descriptor n =>
    match s.pkt n with
    | some p => s.endPacket p .ecc
    | none => s
  | .outstanding n =>
    match s.outs.find? fun o => o.id == n with
    | some o => s.expireOut o
    | none => s
  | .ctxWorking n =>
    let s := s.each (s.wrsOf n) fun s w => s.finishWr w.id 0x09
    s.modQp n fun _ => {}
  | .windowCache i => s.setCached true t ((s.cached true t).filter (· != i))
  | .leadSet o =>
    let s := s.each (entryWords o) fun s k => if setMask k = 0 then s else s.setConf s.leadEpoch k 0
    s.count t .setEcc
  | .understudySet o =>
    let s := s.each (entryWords o) fun s k => if setMask k = 0 then s else s.setConf (!s.leadEpoch) k 0
    (s.setFld 0x00030040 1 0 0).count t .setEcc
  | .stageManager => (s.countHk 61).ilulysRestart 6

/-- ECC_UNCORRECTABLE (R343, R351): counted, recorded, and its storage's effect. -/
def eccUncorrectable (t : Nat) (st : EccStore) (s : State) : State :=
  if !s.operates t then s
  else
    let s := s.count t .eccUncorr
    let s := s.used.eventMgr 0x0103 t (leBytes 1 (eccIndex st) ++ leBytes 3 0 ++ leBytes 4 s.freeW.toNat)
    s.eccEffect t st

/-- INJ_CELL (R352): the next cell written on the tile has a double-bit error. -/
def injCell (t : Nat) (s : State) : State :=
  if s.here t then { s with cont := { s.cont with injCell := (s.cont.injCell.filter (· != t)) ++ [t] } } else s
/-- INJ_TABLE (R352): the next outstanding-request entry written has a double-bit error. -/
def injTable (t : Nat) (s : State) : State :=
  if s.here t then { s with cont := { s.cont with injTable := (s.cont.injTable.filter (· != t)) ++ [t] } } else s

/-- The effect of a write of TL_ECC_CTRL (R352). -/
def State.eccCtrlWrite (s : State) (t : Nat) (v : Word) : State :=
  let s := s.plainWrite (tileBase t + 0xE008) v
  let s := if bit v 1 then injCell t s else s
  if bit v 2 then injTable t s else s

/-! ### The meanings -/

/-- COMPLETION_TIMEOUT. -/
def execCompletionTimeout (t id : Nat) (s : State) : Out := .next (completionTimeout t id s)
/-- CROSSING_BULK_LOSS. -/
def execCrossingBulkLoss (x : Nat) (s : State) : Out := .next (crossingBulkLoss x s)
/-- TILE_REJOIN. -/
def execTileRejoin (t : Nat) (s : State) : Out := .next (tileRejoin t s)
/-- SERVICE_LINK_LOSS. -/
def execServiceLinkLoss (t : Nat) (s : State) : Out := .next (serviceLinkLoss t s)
/-- ECC_CORRECTABLE. -/
def execEccCorrectable (t : Nat) (s : State) : Out := .next (eccCorrectable t s)
/-- ECC_UNCORRECTABLE. -/
def execEccUncorrectable (t : Nat) (st : EccStore) (s : State) : Out := .next (eccUncorrectable t st s)
/-- ECC_SCRUB. -/
def execEccScrub (t : Nat) (s : State) : Out := .next (eccScrub t s)
/-- INJ_CELL: a write of TL_ECC_CTRL with bit 1. -/
def execInjCell (t : Nat) (v : Word) (s : State) : Out :=
  .next (if s.here t then s.eccCtrlWrite t (putBit v 1 true) else s)
/-- INJ_TABLE: a write of TL_ECC_CTRL with bit 2. -/
def execInjTable (t : Nat) (v : Word) (s : State) : Out :=
  .next (if s.here t then s.eccCtrlWrite t (putBit v 2 true) else s)

end Sys2Proof.Machine
end

