-- ==== Sys2Proof/Machine/Vfl.lean ====
section
/-! DEFINITION. The link layer of VFL ports and crossings (R94 to R121): flits received and sent, items, acknowledgements,
credits, replay and its escalation, link-up and link-down, wire failures. -/

namespace Sys2Proof.Machine

/-! ### Link status -/

/-- The tile of a link's end. -/
def linkTile : Link → Nat
  | .port p => tileOf p
  | .xing t _ => t
/-- The port of a link, for the counters. -/
def linkPort : Link → Option Nat
  | .port p => some p
  | .xing _ _ => none
/-- Count an event of a link. -/
def State.countLink (s : State) (l : Link) (ev : TEv) (k : Nat := 1) : State := s.countN (linkTile l) ev (linkPort l) none k

/-- TIMEOUTS of a link (R106). -/
def State.timeouts (s : State) : Link → Nat
  | .port p => s.fld (lkStatus p) 10 8
  | .xing t g => s.fld (xgStatus t g) 18 16
/-- RETRAINS of a link (R107). -/
def State.retrains (s : State) : Link → Nat
  | .port p => s.fld (lkStatus p) 12 11
  | .xing t g => s.fld (xgStatus t g) 15 14
/-- Write TIMEOUTS and RETRAINS. -/
def State.setEsc (s : State) (l : Link) (n r : Nat) : State :=
  match l with
  | .port p => (s.setFld (lkStatus p) 10 8 n).setFld (lkStatus p) 12 11 r
  | .xing t g => (s.setFld (xgStatus t g) 18 16 n).setFld (xgStatus t g) 15 14 r

/-- LK_CFG of a VFL port under an epoch, and its VC count. -/
def State.cfgVcs (s : State) (e : Bool) (port : Nat) : Nat := vcCode (s.cfld e (lkReg port 0) 1 0)

/-- The receive blocks of a port by its linked width (R109). -/
def State.portBlocks (s : State) (port : Nat) : Nat :=
  let w := s.fld (portStatus port) 3 1
  if w = 5 then 8192 else if w = 4 then 4096 else 2048
/-- LK_VC_BUF field of a VC. -/
def State.vcBufFld (s : State) (port v : Nat) : Nat := s.fld (lkReg port 0x0C) (4 * v + 3) (4 * v)
/-- Whether LK_VC_BUF divides the buffer of `n` VCs as R109 asks; all zero asks for the default. -/
def State.bufOk (s : State) (port n : Nat) : Bool :=
  ((List.range n).all fun v => decide (1 ≤ s.vcBufFld port v)) &&
    decide ((List.range n).foldl (fun a v => a + s.vcBufFld port v) 0 ≤ 16)
/-- Whether every field of the configured VCs is 0. -/
def State.bufZero (s : State) (port n : Nat) : Bool := (List.range n).all fun v => s.vcBufFld port v == 0
/-- The receive buffer of a VC of `n` in blocks, as LK_VC_BUF and the linked width divide it now (R109): what link-up fixes. -/
def State.divided (s : State) (p n v : Nat) : Nat :=
  let b := s.portBlocks p
  if n ≤ v then 0
  else if s.bufOk p n then b / 16 * s.vcBufFld p v
  else if v + 1 = n then b / 16 else (b - b / 16) / (n - 1)
/-- The replay buffer of a port by its linked width (R102). -/
def State.replayBuf (s : State) (p : Nat) : Nat :=
  let w := s.fld (portStatus p) 3 1
  if w = 5 then 2048 else if w = 4 then 1024 else 512

/-! ### Items as they are sent (R100, R101, R112, R114, R115) -/

/-- The credits a sender has on a VC (R110). -/
def State.credits (s : State) (l : Link) (v : Nat) : Nat :=
  let k := s.linkSt l
  let d := match l with
    | .xing _ _ => s.vcBuf l v
    | .port _ => 0
  modSub 65536 (tget d k.limit v) (tget 0 k.consumed v)
/-- The blocks a packet costs (R110): by PAY_LEN, whatever it is carried as. -/
def Packet.blocks (p : Packet) : Nat := 1 + ceilDiv p.len2.2 64

/-- Bytes as 8-byte chunks, the last padded with zeros. -/
def toChunks : Nat → List Byte → List (BitVec 64)
  | 0, _ => []
  | f + 1, bs => if bs.isEmpty then [] else BitVec.ofNat 64 (ofBytes (bs.take 8)) :: toChunks f (bs.drop 8)
/-- Bytes as dwords. -/
def toWords : Nat → List Byte → List Word
  | 0, _ => []
  | f + 1, bs => if bs.isEmpty then [] else BitVec.ofNat 32 (ofBytes (bs.take 4)) :: toWords f (bs.drop 4)
/-- A packet tag. -/
def itemTag (vc : Nat) (hc ze : Bool) (bodyLen mask : Nat) : BitVec 64 :=
  BitVec.ofNat 64 (1 + vc % 8 * 2 + b2n hc * 16 + b2n ze * 32 + bodyLen % 2048 * 256 + mask % 65536 * 2 ^ 32)
/-- A payload as block tokens, 64 bytes a block (R115). -/
def tokens64 : Nat → List Byte → List Byte
  | 0, _ => []
  | f + 1, bs =>
    if bs.length < 64 then bs
    else if (bs.take 64).all (· == 0) then 0x00#8 :: tokens64 f (bs.drop 64)
    else 0xFF#8 :: bs.take 64 ++ tokens64 f (bs.drop 64)
/-- Whether a payload has an all-zero whole block. -/
def zeroBlock : Nat → List Byte → Bool
  | 0, _ => false
  | f + 1, bs => decide (64 ≤ bs.length) && ((bs.take 64).all (· == 0) || zeroBlock f (bs.drop 64))
/-- The dwords of a header that differ from the reference (R114): the mask of a compressed header. -/
def diffBits (ref ws : List Word) : List Nat := (List.range ws.length).filter fun i => ws.getD i 0 != ref.getD i 0

/-- The chunks of an item (R100): tag, header, body. `comp` compresses the header against the reference, `elide` carries the body as
block tokens where a block is all zero. -/
def itemChunks (vc : Nat) (ref ws : List Word) (body : List Byte) (comp elide : Bool) : List (BitVec 64) :=
  let bits := diffBits ref ws
  let hdr := if comp then bits.map fun i => ws.getD i 0 else ws
  let ze := elide && zeroBlock 17 body
  let b := if ze then tokens64 17 body else body
  let mask := if comp then bits.foldl (fun m i => m + 2 ^ i) 0 else 0
  itemTag vc comp ze b.length mask :: (toChunks 8 (hdr.flatMap fun w => leBytes 4 w.toNat) ++ toChunks 130 b)

/-- Whether a link can start a packet on a VC (R102, R106, R108): it runs, has credits for the whole cost, a new DATA flit may go,
and no full flit waits. -/
def State.canSend (s : State) (l : Link) (v : Nat) (p : Packet) : Bool :=
  s.canSendData l && decide (p.blocks ≤ s.credits l v) && decide ((s.linkSt l).waiting < 29)

/-- Encode a packet's item and send what it fills (R100, R112, R114): a crossing compresses nothing (R117), a port by LK_CFG of
the packet's epoch (R116). The last flit keeps the packet, where `keep` asks for it. -/
def State.sendItem (s : State) (l : Link) (v : Nat) (p : Packet) (keep : Bool) : State :=
  let (comp, elide) := match l with
    | .port q => (s.cflag p.epoch (lkReg q 0) 2, s.cflag p.epoch (lkReg q 0) 3)
    | .xing _ _ => (false, false)
  let ws := toWords 16 (s.fullHdr p)
  let item : TxItem := {
    chunks := itemChunks v (tget [] (s.linkSt l).refTx v) ws (payload p.body) comp elide, pkt := if keep then some p else none }
  (s.modLink l fun k => { k with
    tx := k.tx ++ [item], refTx := tset [] k.refTx v ws
    consumed := tmod 0 k.consumed v fun c => (c + p.blocks) % 65536 }).sendFull l

/-- The VC of a packet on a VFL port (R108): the management VC, or that of its service class. -/
def State.vcOf (s : State) (port : Nat) (p : Packet) : Nat :=
  let n := s.vcs (.port port)
  let v := s.fld (lkReg port 0x08) (3 * p.svc + 2) (3 * p.svc)
  if p.mgmt then n - 1 else if n - 1 ≤ v then 0 else v
/-- Whether a tenant packet's class is carried on VC0 for want of its VC (R108). -/
def State.vcRemapped (s : State) (port : Nat) (p : Packet) : Bool :=
  !p.mgmt && decide (s.vcs (.port port) - 1 ≤ s.fld (lkReg port 0x08) (3 * p.svc + 2) (3 * p.svc))

/-- Start a packet on a VFL port; the next turn among the tenant VCs is that of the VC after its own (R108). -/
def State.vflSend (s : State) (port : Nat) (p : Packet) : State :=
  let v := s.vcOf port p
  let s := if s.vcRemapped port p then s.countLink (.port port) .lkVcRemap else s
  let s := if p.mgmt then s else s.modLink (.port port) fun k => { k with vcPtr := v + 1 }
  s.sendItem (.port port) v p true

/-! ### Acknowledgements and credits (R105, R111) -/

/-- Process an ACK field: freed flits make room for new ones, and leave a replay (R102, R105, R106). -/
def State.ackIn (s : State) (l : Link) (a : Nat) : State :=
  let k := s.linkSt l
  let oldest := (k.outst.head?.map (·.seqNo)).getD k.nextSeq
  let d := modSub 4096 a oldest
  if d < k.outst.length then
    ((((s.modLink l fun k => { k with outst := k.outst.drop (d + 1), idleEsc := false }).setEsc l 0 0).resendTrim l).syncFull
      l).sendFull l
  else if (a + 1) % 4096 = oldest then s
  else s.countLink l .lkStaleAck

/-- Process a cumulative credit count. -/
def State.creditIn (s : State) (l : Link) (v c : Nat) : State :=
  let d := match l with
    | .xing _ _ => s.vcBuf l v
    | .port _ => 0
  let lim := tget d (s.linkSt l).limit v
  let x := modSub 65536 c lim
  if s.vcs l ≤ v ∨ x = 0 then s
  else if x < 32768 then s.modLink l fun k => { k with limit := tset d k.limit v c }
  else s.countLink l .lkStaleCredit

/-! ### Items (R100, R101, R114, R115) -/

/-- The dwords of a chunk. -/
def chunkWords (c : BitVec 64) : List Word := [BitVec.ofNat 32 c.toNat, BitVec.ofNat 32 (c.toNat / 2 ^ 32)]
/-- The bits set in a mask of 16. -/
def maskBits (m : Nat) : List Nat := (List.range 16).filter fun i => m.testBit i
/-- HDR_DW of a full header. -/
def hdrDw (ws : List Word) : Nat := field (ws.getD 1 0) 12 9
/-- The full header of a compressed one: the carried dwords replace those of the reference (R114). -/
def fullHdr (ref : List Word) (bits : List Nat) (carried : List Word) : List Word :=
  let all := (List.range 16).map fun i =>
    match (bits.zip carried).find? fun x => x.1 == i with
    | some x => x.2
    | none => ref.getD i 0
  all.take (2 + hdrDw all)

/-- Decode a body with block tokens (R115): none where a token has no meaning, or the body ends before PAY_LEN is covered (DESIGN
CHOICE, log entry 124). -/
def untoken : Nat → Nat → List Byte → Option (List Byte)
  | 0, _, _ => some []
  | f + 1, n, bs =>
    if n < 64 then some (bs.take n)
    else match bs with
      | t :: r =>
        if t = 0x00#8 then (untoken f (n - 64) r).map (List.replicate 64 0#8 ++ ·)
        else if t = 0xFF#8 then (untoken f (n - 64) (r.drop 64)).map (r.take 64 ++ ·)
        else none
      | [] => none

/-- PAY_LEN of a full header. -/
def payLen (ws : List Word) : Nat := field (ws.getD 1 0) 23 13
/-- KIND of a full header. -/
def kindOf (ws : List Word) : Nat := field (ws.getD 1 0) 3 0

/-- A whole item has been accepted in order: the reference is set, and the packet waits for the cell buffer, unless its
token or its KIND discards it (R101, R114, R115). A discarded item leaves the receive buffer at once, and its blocks are freed with it
(R110; DESIGN CHOICE, log entry 123). -/
def State.itemDone (s : State) (l : Link) (q : RxPart) : State :=
  let cost := 1 + ceilDiv (payLen q.full) 64
  let s := s.modLink l fun k => { k with part := none, refRx := tset [] k.refRx q.vc q.full }
  let body := if q.ze then untoken 17 (payLen q.full) q.body else some (q.body.take (payLen q.full))
  let drop := fun (s : State) (ev : TEv) => (s.countLink l ev).modLink l fun k =>
    { k with freed := tmod 0 k.freed q.vc (· + cost) }
  match body with
  | none => drop s .lkBadToken
  | some b =>
    if 4 ≤ kindOf q.full ∨ (kindOf q.full = 2 ∧ q.vc + 1 ≠ s.vcs l) then drop s .lkBadKind
    else s.modLink l fun k => { k with
      items := k.items ++ [{ vc := q.vc, hdr := q.full, body := b, blocks := cost }]
      inUse := tmod 0 k.inUse q.vc (· + cost) }

/-- Whether the header of an item in reading is complete, with its full form. -/
def RxPart.header (q : RxPart) (ref : List Word) : Option (List Word) :=
  if q.hc then
    let bits := maskBits q.mask
    if q.hdr.length < bits.length then none else some (fullHdr ref bits (q.hdr.take bits.length))
  else if q.hdr.length < 2 ∨ q.hdr.length < 2 + hdrDw q.hdr then none
  else some (q.hdr.take (2 + hdrDw q.hdr))

/-- Accept what a chunk completes: a header, an item. -/
def State.partStep (s : State) (l : Link) (q : RxPart) : State :=
  let q := if q.hdrDone then q
    else match q.header (tget [] (s.linkSt l).refRx q.vc) with
      | some h => { q with full := h, hdrDone := true }
      | none => q
  if q.hdrDone && decide (q.bodyLen ≤ q.body.length) then s.itemDone l { q with body := q.body.take q.bodyLen }
  else s.modLink l fun k => { k with part := some q }

/-- Read one chunk of an accepted payload: true while items go on in the flit (R100). -/
def State.chunkIn (s : State) (l : Link) (c : BitVec 64) : State × Bool :=
  match (s.linkSt l).part with
  | none =>
    if !c.getLsbD 0 then (s, false)
    else (s.partStep l { vc := chunkFld c 3 1, hc := c.getLsbD 4, ze := c.getLsbD 5, bodyLen := chunkFld c 18 8,
                         mask := chunkFld c 47 32 }, true)
  | some q =>
    if q.hdrDone then (s.partStep l { q with body := q.body ++ leBytes 8 c.toNat }, true)
    else (s.partStep l { q with hdr := q.hdr ++ chunkWords c }, true)

/-- Read the chunks of an accepted payload. -/
def State.chunksIn (s : State) (l : Link) : List (BitVec 64) → State
  | [] => s
  | c :: cs =>
    let (s, more) := s.chunkIn l c
    if more then s.chunksIn l cs else s

/-! ### Link-up (R99) -/

/-- Whether a port is a VFL port that has trained and exchanges INIT flits. -/
def State.initPhase (s : State) (port : Nat) : Bool :=
  s.operates (tileOf port) && s.isVfl (s.tileEpoch (tileOf port)) port && s.portEn (s.tileEpoch (tileOf port)) port &&
    s.fld (portStatus port) 3 1 != 0 && !s.flag (lkStatus port) 0 && !(s.linkSt (.port port)).hold

/-- The payload of an INIT flit: PROTO, VC count, RX_SEEN, the fabric ID, the receive buffers. -/
def initChunks (vcs : Nat) (rxSeen : Bool) (fid : Nat) (bufs : List Nat) : List (BitVec 64) :=
  [BitVec.ofNat 64 (1 + vcs % 256 * 2 ^ 8 + b2n rxSeen * 2 ^ 16 + fid % 65536 * 2 ^ 32),
   BitVec.ofNat 64 (ofBytes ((bufs.take 4).flatMap (leBytes 2))), BitVec.ofNat 64 (ofBytes ((bufs.drop 4).flatMap (leBytes 2)))]

/-- INIT_SEND (R99). -/
def initSend (port : Nat) (s : State) : State :=
  if !s.initPhase port then s
  else
    let e := s.tileEpoch (tileOf port)
    let n := s.cfgVcs e port
    let s := (s.setFld (lkStatus port) 7 6 (s.cfld e (lkReg port 0) 1 0)).modLink (.port port) fun k => { k with initSent := true }
    s.emit (.linkFlit (.port port) (flitWords { ftype := 3 } (initChunks n (s.linkSt (.port port)).seenInit
      (fidOf (s.switchNum e) port) ((List.range 8).map fun v => s.divided port n v)) false) 0)

/-- A VFL port leaves the INIT phase for Detect: its lanes link no more, and it trains again (R55, R99). -/
def State.toDetect (s : State) (port : Nat) (hold : Bool) : State :=
  (((s.setFld (portStatus port) 10 0 0).modLink (.port port) fun k => { k.dropped with hold := hold }).modPort port fun _ =>
    {}).lanesDown port

/-- INIT_RECEIVE (R99): link-up, a mismatch that holds the link down, or one more INIT seen. Link-up fixes the receive buffers and
the replay buffer (R102, R109). -/
def initReceive (port proto vcCount : Nat) (rxSeen : Bool) (fid : Nat) (bufs : List Nat) (s : State) : State :=
  if !s.initPhase port || proto ≠ 1 then s
  else
    let e := s.tileEpoch (tileOf port)
    let n := s.cfgVcs e port
    if vcCount ≠ n then ((s.sticky (lkStatus port) 4).countLink (.port port) .lkInitMismatch).toDetect port true
    else if !rxSeen then s.modLink (.port port) fun k => { k with seenInit := true }
    else
      let s := s.modLink (.port port) fun k =>
        { k.dropped with
          seenInit := true, peer := some fid, bufs := (List.range n).map fun v => s.divided port n v
          limit := (List.range n).foldl (fun m v => tset 0 m v (bufs.getD v 0 % 65536)) []
          cap := s.replayBuf port, base := s.tm.now }
      let s := (s.setFld (lkStatus port) 7 6 (s.cfld e (lkReg port 0) 1 0)).setFlag (lkStatus port) 0 true
      let s := if s.bufOk port n || s.bufZero port n then s else s.sticky (lkStatus port) 5
      let s := s.setLv (lkReg port 0x1C) (BitVec.ofNat 32 (fid % 65536 + 65536))
      s.setFlag (portStatus port) 0 true

/-- INIT_TIMEOUT (R99): no link-up within 1 ms of the first INIT; the port returns to Detect. -/
def initTimeout (port : Nat) (s : State) : State :=
  if s.initPhase port && (s.linkSt (.port port)).initSent then s.toDetect port false else s

/-- INIT_MISMATCH_RETRY (R99): a port held down by a mismatch trains again from Detect. -/
def initMismatchRetry (port : Nat) (s : State) : State :=
  if (s.linkSt (.port port)).hold then s.modLink (.port port) fun k => { k with hold := false } else s

/-! ### Wires of a crossing (R118, R119) -/

/-- A link goes down for its own reasons. -/
def State.linkFail (s : State) : Link → State
  | .port p => s.portDown p .vflDown
  | .xing t g => match s.part.xgOf t g with
    | some x => s.crossingDown x
    | none => s

/-- LK_STATUS.RETRAINING, the stopped timer and transmitter; a replay under way starts anew after it. -/
def State.setStopped (s : State) (l : Link) (b : Bool) : State :=
  let s := s.modLink l fun k => { k with stopped := b, resend := [], base := s.tm.now, slots := 0 }
  match l with
  | .port p => ((s.setFlag (lkStatus p) 1 b).setFlag (lkStatus p) 2 false).setEi (s.lanesOf p)
  | .xing _ _ => s

/-- A retrain begins that is not the escalation's own (R107, R118): RETRAINS rises when flits are outstanding and no
progress was made since the last escalation. Every retrain counts as an escalation for the next (DESIGN CHOICE, log entry 118). -/
def State.otherRetrain (s : State) (l : Link) : State :=
  let k := s.linkSt l
  let s := if k.idleEsc && !k.outst.isEmpty then s.setEsc l (s.timeouts l) (min 3 (s.retrains l + 1)) else s
  (s.setStopped l true).modLink l fun k => { k with idleEsc := true }

/-- Whether a wire of a receive direction carries data: one of the 640, or a spare that a failed wire is mapped onto, that has not
failed itself. -/
def LinkSt.wireUsed (k : LinkSt) (wire : Nat) : Bool :=
  !(k.wires.any fun x => x.1 == wire) && (decide (wire < 640) || k.wires.any fun x => x.2 == wire)
/-- A failed wire takes the next unused spare; without one the direction has none (R118, R119). -/
def State.mapWire (s : State) (t g u wire : Nat) : State :=
  let used := s.fld (xgStatus t g) 13 8
  if used < 32 then
    ((s.modLink (.xing t g) fun k => { k with wires := k.wires ++ [(wire, 640 + used)] }).setFld (xgStatus t g) 13 8 (used + 1)).setFld
      (xgStatus u (xgGroup u t)) 7 2 (used + 1)
  else s.modLink (.xing t g) fun k => { k with wires := k.wires ++ [(wire, 672)] }
/-- Whether a direction with no spare for another failed wire may run on half its wires (R119). -/
def State.mayHalve (s : State) (t g : Nat) : Bool := s.flag (xgCtrl t g) 6 && decide ((s.linkSt (.xing t g)).wires.length ≤ 352)

/-- A wire of the receive direction of group `g` of tile `t` fails (R118, R119): it is mapped onto a spare, or the crossing runs at
half width, or goes down. -/
def State.wireFails (s : State) (t g wire : Nat) : State :=
  match xgPeer t g, s.part.xgOf t g with
  | some u, some x =>
    if !s.xgUp x || !s.here t || 672 ≤ wire || !(s.linkSt (.xing t g)).wireUsed wire then s
    else
      let h := xgGroup u t
      let spare := decide (s.fld (xgStatus t g) 13 8 < 32)
      let s := s.mapWire t g u wire
      let repair := fun (s : State) => (s.otherRetrain (.xing t g)).otherRetrain (.xing u h)
      if spare then repair (s.countLink (.xing t g) .xgWireRepair)
      else if !s.mayHalve t g then s.crossingDown x
      else if s.flag (xgStatus t g) 1 then repair s
      else
        let s := (s.setFlag (xgStatus t g) 1 true).setFlag (xgStatus u h) 1 true
        repair (((s.seeXg t x 1).seeXg u x 1).xgRecord x 1)
  | _, _ => s
/-- WIRE_FAILURE (R118): the receiver declares a wire failed. -/
def wireFailure (t g wire : Nat) (s : State) : State := s.wireFails t g wire
/-- A symbol that FEC corrected is attributed to a wire that carried it: 16 within 1 ms fail it (R118). -/
def State.wireError (s : State) (t g wire : Nat) : State :=
  let s := s.modLink (.xing t g) fun k => { k with
    wireErrs := (k.wireErrs.filter fun x => decide (s.tm.now < x.2 + 1000000)) ++ [(wire, s.tm.now)] }
  if (s.linkSt (.xing t g)).wireErrs.countP (fun x => x.1 == wire) < 16 then s
  else (s.modLink (.xing t g) fun k => { k with wireErrs := k.wireErrs.filter fun x => x.1 != wire }).wireFails t g wire
/-- What the power-up wire test finds (R119): a bad wire is mapped before the crossing comes up. -/
def State.wireTested (s : State) (t g wire : Nat) : State :=
  match xgPeer t g, s.part.xgOf t g with
  | some u, some _ =>
    if 672 ≤ wire || !(s.linkSt (.xing t g)).wireUsed wire then s
    else
      let spare := decide (s.fld (xgStatus t g) 13 8 < 32)
      let s := s.mapWire t g u wire
      if spare || !s.mayHalve t g then s else (s.setFlag (xgStatus t g) 1 true).setFlag (xgStatus u (xgGroup u t)) 1 true
  | _, _ => s

/-- WIRE_REPAIR_DONE (R118): outstanding flits are resent at both ends. -/
def wireRepairDone (t g : Nat) (s : State) : State :=
  match xgPeer t g with
  | none => s
  | some u =>
    let ls := [Link.xing t g, Link.xing u (xgGroup u t)]
    s.each ls fun s l =>
      if s.linkUp l && (s.linkSt l).stopped then (s.setStopped l false).resend l else s

/-! ### Receiving (R97, R103) -/

/-- A DATA flit is classed (R103). The payload of a crossing's flit is read by the core (log entry 32). -/
def State.dataIn (s : State) (l : Link) (seq : Nat) (cs : List (BitVec 64)) : State :=
  let k := s.linkSt l
  let d := modSub 4096 k.expected seq
  if d = 0 then
    let s := s.modLink l fun k => { k with expected := (k.expected + 1) % 4096, sinceAck := k.sinceAck + 1, dupRun := 0 }
    match l with
    | .port _ => s.chunksIn l cs
    | .xing _ _ => s
  else if d ≤ 2048 then (s.countLink l .lkDupDiscard).modLink l fun k => { k with dupRun := k.dupRun + 1 }
  else s.countLink l .lkOosDiscard

/-- The credit counts of an ACK flit's payload (R98). -/
def ackCounts (cs : List (BitVec 64)) : List (Nat × Nat) :=
  (List.range 8).map fun v => (v, chunkFld (cs.getD (v / 4) 0) (16 * (v % 4) + 15) (16 * (v % 4)))

/-- The header of a flit as it was received. -/
def flitHead (f : Flit) : FlitHdr := flitHdr (f.words.getD 0 0)
/-- The payload of a flit. -/
def flitBody (f : Flit) : List (BitVec 64) := (f.words.drop 1).take 29
/-- Whether a flit passes FEC and CRC (R95, R97): each codeword corrects 2 symbol errors. -/
def flitGood (f : Flit) : Bool := decide (f.symErr0 ≤ 2) && decide (f.symErr1 ≤ 2) && f.words.getD 30 0 == flitCrc f.words
/-- The symbols that FEC corrected. -/
def flitFixed (f : Flit) : Nat := (if f.symErr0 ≤ 2 then f.symErr0 else 0) + (if f.symErr1 ≤ 2 then f.symErr1 else 0)

/-- A good flit of a link that is up: ACK and CR fields first, then its type (R103, R105, R111). -/
def State.flitIn (s : State) (l : Link) (f : Flit) : State :=
  let h := flitHead f
  let s := if h.ackV then s.ackIn l h.ack else s
  let s := if h.crV then s.creditIn l h.crVc h.crCount else s
  if h.ftype = 2 then s.each (ackCounts (flitBody f)) fun s x => s.creditIn l x.1 x.2
  else if h.ftype = 1 then s.dataIn l h.seq (flitBody f)
  else s
/-- A good flit of a port in its INIT phase: only INIT acts (R99). -/
def State.initIn (s : State) (port : Nat) (f : Flit) : State :=
  let c := flitBody f
  let c0 := c.getD 0 0
  if (flitHead f).ftype ≠ 3 then s
  else initReceive port (chunkFld c0 7 0) (chunkFld c0 15 8) (c0.getLsbD 16) (chunkFld c0 47 32)
    ((ackCounts (c.drop 1)).map (·.2)) s

/-- Whether flits come on a link: it is up, or exchanges INIT. -/
def State.hears (s : State) (l : Link) : Bool :=
  s.operates (linkTile l) && (s.linkUp l || match l with
    | .port p => s.initPhase p
    | .xing _ _ => false)
/-- FLIT_RECEIVE (R97, R103, R105, R111). -/
def flitReceive (l : Link) (f : Flit) (s : State) : State :=
  if !s.hears l then s
  else
    let s := s.countLink l .lkFecCorr (flitFixed f)
    let s := match l with
      | .xing t g => s.each f.wires fun s w => s.wireError t g w
      | .port _ => s
    if !flitGood f then s.countLink l .lkCrcErr
    else if 4 ≤ (flitHead f).ftype then s.countLink l .lkBadFtype
    else if s.linkUp l then s.flitIn l f
    else match l with
      | .port p => s.initIn p f
      | .xing _ _ => s

/-- Whether a refused packet of a port withholds its tenant credit (R125): what follows it stays in the receive buffer. -/
def State.rxHeld (s : State) (l : Link) : Bool :=
  match l with
  | .port p => s.pkts.any fun k => k.loc == .refused && k.inPort == some p
  | .xing _ _ => false
/-- PACKET_ITEM_ACCEPT (R100, R110, R125): the oldest item that may moves into the cell buffer, and its blocks are freed. The arrival
of its packet follows by VFL_PACKET_ARRIVAL. -/
def packetItemAccept (l : Link) (s : State) : State :=
  let ok := fun (x : RxItem) => x.vc + 1 == s.vcs l || !s.rxHeld l
  match (s.linkSt l).items.find? ok with
  | none => s
  | some x => s.modLink l fun k => { k with
      items := k.items.eraseP ok, moved := k.moved ++ [x]
      inUse := tmod 0 k.inUse x.vc (· - x.blocks), freed := tmod 0 k.freed x.vc (· + x.blocks) }

/-- Whether an acknowledgement or credit is owed (R104). -/
def State.ackOwed (s : State) (l : Link) : Bool :=
  let k := s.linkSt l
  k.sinceAck != 0 || k.dupRun != 0 ||
    (List.range (s.vcs l)).any fun v => s.cOf l v != tget (s.vcBuf l v % 65536) k.sent v

/-- Send an ACK flit: ACK and the count C of every configured VC (R98, R111). -/
def State.sendAck (s : State) (l : Link) : State :=
  let k := s.linkSt l
  let n := s.vcs l
  let cs := (List.range 8).map fun v => if v < n then s.cOf l v else 0
  let h : FlitHdr := { ftype := 2, ack := (k.expected + 4095) % 4096, ackV := true }
  let ws := flitWords h [BitVec.ofNat 64 (ofBytes ((cs.take 4).flatMap (leBytes 2))),
    BitVec.ofNat 64 (ofBytes ((cs.drop 4).flatMap (leBytes 2)))] k.dropAck
  (s.emit (.linkFlit l ws k.fecSym)).modLink l fun k => { k with
    sent := (List.range n).foldl (fun m v => tset (s.vcBuf l v % 65536) m v (s.cOf l v)) k.sent
    fecSym := 0, sinceAck := 0, dupRun := 0, dropAck := false, slots := k.slots + 1 }
/-- ACK_DUE (R104): a DATA flit that is ready goes and carries the ACK; else one ACK flit meets every case that is due. -/
def ackDue (l : Link) (s : State) : State :=
  if !s.linkUp l || (s.linkSt l).stopped || !s.operates (linkTile l) || !s.ackOwed l then s
  else if s.canSendData l && (s.linkSt l).waiting != 0 then s.sendFlits l 1 1
  else s.sendAck l

/-! ### Replay and escalation (R106, R107) -/

/-- REPLAY_TIMEOUT (R106, R107). -/
def replayTimeout (l : Link) (s : State) : State :=
  let k := s.linkSt l
  if !s.linkUp l || k.stopped || k.outst.isEmpty || !s.operates (linkTile l) then s
  else
    let s := s.countLink l .lkTimeout
    let n := s.timeouts l + 1
    if n < 4 then (s.setEsc l n (s.retrains l)).resend l
    else if s.retrains l < 3 then
      ((s.setEsc l 0 (s.retrains l + 1)).setStopped l true).modLink l fun k => { k with idleEsc := true }
    else s.linkFail l

/-- A VFL port's retrain has ended with the lanes of a width code locked (R64, R107): it relinks at the widest width whose lanes
are good, narrower only where DEGRADE_EN allows, or goes down below x4. -/
def State.portRetrained (s : State) (p width : Nat) : State :=
  let lanes := s.logical p
  let used := lanes.take (widthLanes (s.fld (portStatus p) 3 1))
  let locked := lanes.take (widthLanes width)
  let good := fun l => locked.contains l && !s.flag (laneCtrl l) 5 && !s.flag (laneStatus l) 10
  let w := goodWidth lanes good (s.cfld (s.tileEpoch (tileOf p)) (portCfg p) 4 2)
  if w < 3 || (used.any (fun l => !good l) && !s.flag (pbBase (pbOf p) + 0x1090) 18) then s.linkFail (.port p)
  else ((s.relink p w good).setStopped (.port p) false).resend (.port p)
/-- LINK_RETRAIN_DONE (R107): outstanding flits are resent, or the link goes down. `width` is a width code (R92). -/
def linkRetrainDone (l : Link) (ok : Bool) (width : Nat) (s : State) : State :=
  if !s.linkUp l || !(s.linkSt l).stopped then s
  else if !ok then s.linkFail l
  else match l with
    | .port p => s.portRetrained p width
    | .xing _ _ => (s.setStopped l false).resend l

/-- VFL_LINK_DOWN (R113). -/
def vflLinkDown (port : Nat) (s : State) : State :=
  if s.operates (tileOf port) && s.isVfl (s.tileEpoch (tileOf port)) port && s.dlActive port then s.portDown port .vflDown else s

/-! ### Injection (R121) -/

/-- The effect of a write of LK_INJECT: it acts only while the link is up. -/
def State.lkInject (s : State) (port : Nat) (v : Word) : State :=
  if !s.linkUp (.port port) then s
  else s.modLink (.port port) fun k => { k with
    badCrc := k.badCrc || bit v 0, dropAck := k.dropAck || bit v 1, staleCredit := k.staleCredit || bit v 2
    skipSeq := k.skipSeq || bit v 3, fecSym := if field v 6 4 = 0 then k.fecSym else field v 6 4 }

/-- The effect of a write of XG_CTRL: while INJ_EN is set the transmit wire INJ_WIRE of a crossing that is up holds one value, and the
far end repairs it like any failed wire (R118, R121). -/
def State.xgCtrlAct (s : State) (t g : Nat) (v : Word) : State :=
  let s := s.plainWrite (xgCtrl t g) v
  match xgPeer t g with
  | some u => if bit v 26 then s.wireFails u (xgGroup u t) (field v 25 16) else s
  | none => s

/-! ### Crossings (R117) -/

/-- A packet crosses: its flits are sent and accepted in order at the far end, whose blocks are freed at once (R126; log entry 32). -/
def State.xingSend (s : State) (t g u : Nat) (p : Packet) : State :=
  let v := b2n p.mgmt
  let q := (s.linkSt (.xing t g)).nextSeq
  let s := (s.sendItem (.xing t g) v p false).sendAll (.xing t g)
  let n := modSub 4096 (s.linkSt (.xing t g)).nextSeq q
  s.modLink (.xing u (xgGroup u t)) fun k => { k with
    expected := (k.expected + n) % 4096, sinceAck := k.sinceAck + n, dupRun := 0
    freed := tmod 0 k.freed v (· + p.blocks) }

/-! ### The meanings -/

/-- FLIT_RECEIVE. -/
def execFlitReceive (l : Link) (f : Flit) (s : State) : Out := .next (flitReceive l f s)
/-- PACKET_ITEM_ACCEPT. -/
def execPacketItemAccept (l : Link) (s : State) : Out := .next (packetItemAccept l s)
/-- INIT_SEND. -/
def execInitSend (port : Nat) (s : State) : Out := .next (initSend port s)
/-- INIT_RECEIVE. -/
def execInitReceive (port proto n : Nat) (rx : Bool) (fid : Nat) (bufs : List Nat) (s : State) : Out :=
  .next (initReceive port proto n rx fid bufs s)
/-- INIT_TIMEOUT. -/
def execInitTimeout (port : Nat) (s : State) : Out := .next (initTimeout port s)
/-- INIT_MISMATCH_RETRY. -/
def execInitMismatchRetry (port : Nat) (s : State) : Out := .next (initMismatchRetry port s)
/-- ACK_DUE. -/
def execAckDue (l : Link) (s : State) : Out := .next (ackDue l s)
/-- REPLAY_TIMEOUT. -/
def execReplayTimeout (l : Link) (s : State) : Out := .next (replayTimeout l s)
/-- LINK_RETRAIN_DONE. -/
def execLinkRetrainDone (l : Link) (ok : Bool) (width : Nat) (s : State) : Out := .next (linkRetrainDone l ok width s)
/-- VFL_LINK_DOWN. -/
def execVflLinkDown (port : Nat) (s : State) : Out := .next (vflLinkDown port s)
/-- INJECT_BAD_CRC: a write of LK_INJECT with bit 0. -/
def execInjectBadCrc (port : Nat) (v : Word) (s : State) : Out := .next (s.lkInject port (v ||| 1))
/-- INJECT_DROP_ACK: a write of LK_INJECT with bit 1. -/
def execInjectDropAck (port : Nat) (v : Word) (s : State) : Out := .next (s.lkInject port (v ||| 2))
/-- INJECT_STALE_CREDIT: a write of LK_INJECT with bit 2. -/
def execInjectStaleCredit (port : Nat) (v : Word) (s : State) : Out := .next (s.lkInject port (v ||| 4))
/-- INJECT_SKIP_SEQ: a write of LK_INJECT with bit 3. -/
def execInjectSkipSeq (port : Nat) (v : Word) (s : State) : Out := .next (s.lkInject port (v ||| 8))
/-- INJECT_FEC_SYM: a write of LK_INJECT with its symbol count. -/
def execInjectFecSym (port : Nat) (v : Word) (s : State) : Out := .next (s.lkInject port v)
/-- WIRE_FAILURE. -/
def execWireFailure (t g wire : Nat) (s : State) : Out := .next (wireFailure t g wire s)
/-- WIRE_REPAIR_DONE. -/
def execWireRepairDone (t g : Nat) (s : State) : Out := .next (wireRepairDone t g s)
/-- CROSSING_WIRE_INJECT (R121): a write of XG_CTRL; the wire it holds fails at the far end. -/
def execCrossingWireInject (t g : Nat) (v : Word) (s : State) : Out :=
  .next (if s.here t && (s.part.xgOf t g).isSome then s.xgCtrlAct t g v else s)

end Sys2Proof.Machine
end

