-- ==== Sys2Proof/Machine/Switch.lean ====
section
/-! DEFINITION. The switch core of a tile (R122 to R145): eligibility and tickets, the two matchers, paths and spraying,
the move of cells, order at egress, ticket returns. -/

namespace Sys2Proof.Machine

/-! ### The mesh (R13, R134) -/

/-- A crossing between two neighbouring present tiles that is up. -/
def State.stepUp (s : State) (a b : Nat) : Bool :=
  s.here a && s.here b && match xgBetween a b with
    | some x => s.xgThere x && s.xgUp x
    | none => false
/-- The neighbours of a tile over crossings that are up, in group order. -/
def State.nbrs (s : State) (t : Nat) : List Nat :=
  ((List.range 3).filterMap fun g => xgPeer t g).filter fun u => s.stepUp t u
/-- The tiles within `n` surviving hops of `d`. -/
def State.within (s : State) (d : Nat) : Nat → List Nat
  | 0 => [d]
  | n + 1 =>
    let l := s.within d n
    l ++ (s.present.filter fun t => !l.contains t && (s.nbrs t).any fun u => l.contains u)
/-- The next tile on the shortest surviving path (R13). -/
def State.shortest (s : State) (t d : Nat) : Option Nat :=
  (List.range 8).findSome? fun n =>
    let l := s.within d n
    (s.nbrs t).find? fun u => l.contains u
/-- The tile that column `c` directs a packet to (R134). -/
def towards (t d c : Nat) : Nat :=
  if rowOf t = rowOf d then (if colOf t < colOf d then t + 1 else t - 1)
  else if colOf t = c then (if t < 4 then t + 4 else t - 4)
  else if colOf t < c then t + 1 else t - 1
/-- The columns of the minimal paths between two tiles. -/
def pathCols (t d : Nat) : List Nat :=
  if rowOf t = rowOf d then [colOf d]
  else
    let lo := min (colOf t) (colOf d)
    (List.range (max (colOf t) (colOf d) + 1 - lo)).map (lo + ·)
/-- The tiles of the path of column `c`, after its first. -/
def pathTiles (d c : Nat) : Nat → Nat → List Nat
  | 0, _ => []
  | n + 1, t => if t = d then [] else towards t d c :: pathTiles d c n (towards t d c)
/-- Every crossing of a path passes a test. -/
def State.pathAll (s : State) (t d c : Nat) (ok : Nat → Nat → Bool) : Bool :=
  let l := t :: pathTiles d c 8 t
  (l.zip (l.drop 1)).all fun x => s.part.hasTile x.2 && ok x.1 x.2
/-- Whether a path's crossings are up. -/
def State.pathUp (s : State) (t d c : Nat) : Bool := s.pathAll t d c s.stepUp
/-- Whether every crossing of a path runs at full width (R119). -/
def State.pathFull (s : State) (t d c : Nat) : Bool :=
  s.pathAll t d c fun a b => s.stepUp a b && !s.flag (xgStatus a (xgGroup a b)) 1

/-- The key of a spray weight. -/
def sprayKey (t d c : Nat) : Nat := (8 * t + d) * 4 + c
/-- A path's weight (R135): with SPRAY_ADAPT = 0 no weight is lowered. -/
def State.weight (s : State) (t d c : Nat) : Nat :=
  if !s.pathUp t d c then 0
  else 16 - tget 0 s.core.unweight (sprayKey t d c)

/-- The column at position `k` of a cycle in which each path has its weight in turns. -/
def turn : List (Nat × Nat) → Nat → Option Nat
  | [], _ => none
  | (c, w) :: l, k => if k < w then some c else turn l (k - w)

/-- Choose a path for a packet of tile `t` to tile `d` (R134, R135): weighted round robin over the minimal paths that are
up (DESIGN CHOICE, log entry 40), else the shortest surviving path. -/
def State.choosePath (s : State) (t d : Nat) : State × Nat :=
  let ws := (pathCols t d).map fun c => (c, s.weight t d c)
  let ws := if ws.all (·.2 == 0) then (((pathCols t d).filter fun c => s.pathUp t d c).map fun c => (c, 1)) else ws
  let sum := ws.foldl (fun n w => n + w.2) 0
  if sum = 0 then (s, 8)
  else
    let k := tget 0 s.core.sprayPtr (8 * t + d)
    (s.modCore fun q => { q with sprayPtr := tset 0 q.sprayPtr (8 * t + d) ((k + 1) % sum) },
      (turn ws (k % sum)).getD 8)

/-- The tile a packet goes to next from tile `t`, and its path then: as its PATH directs, or by the shortest surviving
path where that crossing is down (R134). -/
def State.nextTile (s : State) (t d path : Nat) : Option (Nat × Nat) :=
  if path < 4 && s.stepUp t (towards t d path) then some (towards t d path, path)
  else (s.shortest t d).map fun u => (u, 8)

/-! ### Virtual output queues (R130) -/

/-- The packets in a tile's virtual output queues that stand first in their queue `n` slots from now: a locked packet whose last cell
has crossed by then gives way to the next. -/
def State.heads (s : State) (t n : Nat) : List Packet :=
  let leaving := fun (p : Packet) => s.core.locks.any fun l => l.pkt == p.id && decide (l.left ≤ n)
  let q := s.pkts.filter fun p => p.tile == t && p.loc == .voq && !leaving p
  q.foldl (fun acc p => if acc.any fun h => h.chan == p.chan && h.dest == p.dest && h.mgmt == p.mgmt then acc
    else acc ++ [p]) []

/-- Give every head of a tile bound elsewhere its path (R134). -/
def State.givePaths (s : State) (t : Nat) : State :=
  s.each (s.heads t 2) fun s p =>
    if destTile p.dest = t || p.path ≠ 15 then s
    else
      let (s, c) := s.choosePath t (destTile p.dest)
      s.modPkt p.id fun q => { q with path := c }

/-- The key of a packet's ticket allowance: its destination, or the management tickets of its tile (R127). -/
def ticketKey (p : Packet) : Nat := destKey p.srcTile (if p.mgmt then 72 + destTile p.dest else p.dest)
/-- Whether a packet needs tickets to be matched: it leaves its source tile (R127). -/
def ticketed (p : Packet) : Bool := p.srcTile == p.tile && destTile p.dest != p.tile
/-- Whether the allowance holds a packet's tickets (R127). -/
def State.hasTickets (s : State) (p : Packet) : Bool :=
  !ticketed p || decide (tget 0 s.core.spent (ticketKey p) + p.cells ≤ (if p.mgmt then 8 else 256))

/-- The first output channel of a crossing group. -/
def groupBase (g : Nat) : Nat := 8 + 10 * g
/-- The output channels that can carry a packet from its tile (R12). -/
def State.outsOf (s : State) (p : Packet) : List Nat :=
  if destTile p.dest = p.tile then
    [if p.dest < 64 then p.dest % 8 else if p.dest < 72 then 38 else 39]
  else match s.nextTile p.tile (destTile p.dest) p.path with
    | some u => (List.range 10).map (groupBase (xgGroup p.tile u.1) + ·)
    | none => []

/-- The cells of a tile's egress reserve and of its transit reserve (R124). -/
def Part.reserves : Part → Nat × Nat
  | .rh1024 => (16128, 41472)
  | .rh512 => (6912, 4608)
  | .rh256 => (2304, 0)
/-- Whether the pool of tile `u` that a packet crosses into has room: the egress or the transit reserve, or 56 and 144 cells of the
management reserve (R124, R126, R127). The tickets see to it that it has. -/
def State.poolRoom (s : State) (u : Nat) (p : Packet) : Bool :=
  let here := destTile p.dest == u
  if p.mgmt then
    let n := s.pkts.foldl (fun n q => if q.tile == u && q.mgmt && q.srcTile != u && (destTile q.dest == u) == here then n + q.cells else n) 0
    decide (n + p.cells ≤ if here then 56 else 144)
  else if here then decide (tget 0 s.core.egressUsed u + p.cells ≤ (Part.reserves s.part).1)
  else decide (tget 0 s.core.transitUsed u + p.cells ≤ (Part.reserves s.part).2)
/-- Whether the crossing a packet needs has credit for it, and the far tile its cells (R110, R126, R132). -/
def State.crossOk (s : State) (p : Packet) : Bool :=
  if destTile p.dest = p.tile then true
  else match s.nextTile p.tile (destTile p.dest) p.path with
    | some u => s.canSend (.xing p.tile (xgGroup p.tile u.1)) (b2n p.mgmt) p && s.poolRoom u.1 p
    | none => false

/-- The cells of a class queued at a port block's egress: a packet that the reorder memory holds for the block is in none of its
queues yet (R138). -/
def State.egressCells (s : State) (pb : Nat) (mgmt : Bool) : Nat :=
  s.pkts.foldl (fun n p => if p.loc == .egress && p.mgmt == mgmt && !p.held.contains pb && p.ports.any fun q => pbOf q == pb
    then n + p.cells else n) 0
/-- Whether an output can take a cell of a class (R132): tenant queues never hold management traffic back (R18). -/
def State.outReady (s : State) (t o : Nat) (mgmt : Bool) : Bool :=
  if o < 8 then
    let m := s.fld (tileBase t + 0x600C) 12 0
    decide (s.egressCells (8 * t + o) mgmt < (if m = 0 then 64 else m))
  else if o < 38 then
    match xgPeer t ((o - 8) / 10) with
    | some u => s.stepUp t u
    | none => false
  else true

/-! ### Matching (R131, R132) -/

/-- A queue's head as an arbiter sees it. -/
structure Want where
  inp : Nat
  mgmt : Bool
  dest : Nat
  outs : List Nat
  ok : Bool

/-- The member of a list that comes first in round robin from a pointer, among `n` places. -/
def rrPick (n ptr : Nat) : List Nat → Option Nat
  | [] => none
  | x :: l => match rrPick n ptr l with
    | none => some x
    | some y => if (x + n - ptr % n) % n ≤ (y + n - ptr % n) % n then some x else some y

/-- The key of an arbiter's pointer: kind 0 grant, 1 accept, 2 queue of an accepted output. -/
def ptrKey (kind t idx m : Nat) (cls : Bool) : Nat := ((((kind * 8 + t) * 2 + m) * 2) + b2n cls) * 2048 + idx

/-- One grant: the output, the input granted, the class. -/
abbrev Grant := Nat × Nat × Bool

/-- The grants of an iteration: each free output grants one request, the management class first. -/
def grants (ptr : NMap Nat) (t m : Nat) (ws : List Want) (outs : List Nat) : List Grant :=
  outs.filterMap fun o =>
    let rs := ws.filter fun w => w.outs.contains o
    let cls := rs.any (·.mgmt)
    (rrPick 40 (tget 0 ptr (ptrKey 0 t o m cls)) ((rs.filter fun w => w.mgmt == cls).map (·.inp))).map fun i => (o, i, cls)

/-- The match an input accepts of its grants. -/
def accept (ptr : NMap Nat) (t m : Nat) (ws : List Want) (gs : List Grant) (i : Nat) : Option CoreMatch :=
  let mine := gs.filter fun g => g.2.1 == i
  let cls := mine.any fun g => g.2.2
  (rrPick 40 (tget 0 ptr (ptrKey 1 t i m cls)) ((mine.filter fun g => g.2.2 == cls).map (·.1))).bind fun o =>
    (rrPick 80 (tget 0 ptr (ptrKey 2 t (40 * i + o) m cls))
      ((ws.filter fun w => w.inp == i && w.mgmt == cls && w.outs.contains o).map (·.dest))).map fun d =>
        { inp := i, out := o, dest := d, mgmt := cls }

/-- The pointers after the accepted grants of iteration 1 (R132): one place past each winner. -/
def advance (ptr : NMap Nat) (t m : Nat) (ms : List CoreMatch) : NMap Nat :=
  ms.foldl (fun q x =>
    let q := tset 0 q (ptrKey 0 t x.out m x.mgmt) ((x.inp + 1) % 40)
    let q := tset 0 q (ptrKey 1 t x.inp m x.mgmt) ((x.out + 1) % 40)
    tset 0 q (ptrKey 2 t (40 * x.inp + x.out) m x.mgmt) ((x.dest + 1) % 80)) ptr

/-- One iteration over inputs and outputs still unmatched. -/
def iteration (ptr : NMap Nat) (t m : Nat) (ws : List Want) (outs : List Nat) (ms : List CoreMatch) : List CoreMatch :=
  let ws := ws.filter fun w => !ms.any fun x => x.inp == w.inp
  let outs := outs.filter fun o => !ms.any fun x => x.out == o
  let gs := grants ptr t m ws outs
  ((List.range 40).filter fun i => gs.any fun g => g.2.1 == i).filterMap fun i => accept ptr t m ws gs i

/-- The class of an output left unmatched (R144): 1 requested while ready; 3 where an input holds an eligible cell for it and it is
not ready, or the queue lacks tickets; 2 else, which takes in a cell that only a locked input holds (DESIGN CHOICE, log entry 122). -/
def idleClass (asked : List Want) (stuck : List Want) (o : Nat) : Nat :=
  if asked.any fun w => w.outs.contains o then 1
  else if stuck.any fun w => w.outs.contains o then 3 else 2

/-- Matcher `m` makes its schedule for the slot numbered `k` (R131): what it samples now, three iterations. Three slots from a
sample to the end of the one it is for: an input or output that a packet still holds then takes no part (R133). -/
def State.matchSlot (s : State) (t m k : Nat) : State :=
  let busy := s.core.locks.filter fun l => l.tile == t && decide (3 ≤ l.left)
  let want := fun (p : Packet) => ({
    inp := p.chan, mgmt := p.mgmt, dest := p.dest, outs := s.outsOf p, ok := s.hasTickets p && s.crossOk p } : Want)
  let free := (List.range 40).filter fun o => !busy.any fun l => l.out == o
  let all := (s.heads t 2).map want
  let ready := fun (w : Want) o => w.ok && s.outReady t o w.mgmt
  let ask := (all.filter fun w => !busy.any fun l => l.inp == w.inp).map fun w => { w with outs := w.outs.filter (ready w) }
  let stuck := all.map fun w => { w with outs := w.outs.filter fun o => !ready w o }
  let p := s.core.ptr
  let m1 := iteration p t m ask free []
  let m2 := m1 ++ iteration p t m ask free m1
  let m3 := m2 ++ iteration p t m ask free m2
  let idle := (free.filter fun o => !m3.any fun x => x.out == o).map fun o => (o, idleClass ask stuck o)
  s.modCore fun c => { c with
    ptr := advance c.ptr t m m1, sched := tset {} c.sched (4 * t + k % 4) { pairs := m3, idle := idle } }

/-! ### Release at egress (R138) -/

/-- A packet moves to the end of the part's list: it is the newest of its queue. -/
def State.toEnd (s : State) (n : Nat) : State :=
  { s with pkts := (s.pkts.filter fun p => p.id != n) ++ s.pkts.filter fun p => p.id == n }

/-- The MTYPEs that an engine serves (R101, R216). -/
def knownMtype (m : Nat) : Bool := decide (m ≤ 8)

/-- A packet enters an engine or the management agent of its tile: its cells are free. -/
def State.deliver (s : State) (p : Packet) : State :=
  if p.injected then ((eccUncorrectable p.tile (.cellBuffer p.id) s).settle p 1).retire p
  else
  let s := (s.settle p 0).retire p
  if 72 ≤ p.dest then s.emit (.mgmtIn p.tile p)
  else match p.body with
    | .eng h _ => if knownMtype h.mtype then s.emit (.engineIn p.tile p) else s.count p.tile .rmBadMtype none p.seat
    | _ => s.count p.tile .rmBadMtype none p.seat

/-- Whether a partition's blackout ends a packet toward its host (R336): completions, records and events still go. -/
def State.hostDark (s : State) (p : Packet) (port : Nat) : Bool :=
  p.cls != .cpl && p.purpose != .record && match s.partOfUp p.epoch port with
    | some k => s.partBlack p.tile k
    | none => false

/-- Whether a request attributed to a target in blackout reaches a tile that has applied it (R336). -/
def State.sourceDark (s : State) (p : Packet) : Bool :=
  ((p.requested || p.ofAperture) && p.seat.any fun k => s.seatBlack p.tile k) ||
    (p.requested && p.part.any fun k => s.partBlack p.tile k)

/-- Drop a packet's pointers on the dead ports of a destination (R83, R336). -/
def State.dropDead (s : State) (n d : Nat) : State :=
  match s.pkt n with
  | none => s
  | some p => s.each (p.ports.filter fun q => pbOf q == d) fun s q =>
    match s.pkt n with
    | none => s
    | some p =>
      if s.portBlack q || s.hostDark p q then s.dropPointer p q .blackout
      else if !s.dlActive q then s.dropPointer p q (if s.isVfl p.epoch q then .vflDown else .portDown)
      else s

/-- Release a packet to the egress queues of destination `d` of its tile, or to its engine (R138). -/
def State.release (s : State) (n d : Nat) : State :=
  match s.pkt n with
  | none => s
  | some p =>
    if 64 ≤ p.dest then s.deliver p
    else if s.sourceDark p then s.endPacket p .seatBlackout
    else
      let k := s.core.relNext
      let s := (s.modPkt n fun q => { q with loc := .egress, held := q.held.filter (· != d), rel := q.rel ++ [(d, k)] }).modCore fun c =>
        { c with relNext := k + 1 }
      s.dropDead n d

/-- The key of a stream (R137): its source and its destination. -/
def streamKey (src d : Nat) : Nat := 128 * src + d

/-- The expected number passes every consecutive number already arrived; held packets among them are released (R138). -/
def State.passExpected (s : State) (src d : Nat) : Nat → State
  | 0 => s
  | f + 1 =>
    let k := streamKey src d
    let x := tget 0 s.core.expected k
    let a := tget [] s.core.arrived k
    if !a.contains x then s
    else
      let s := s.modCore fun c => { c with expected := tset 0 c.expected k ((x + 1) % 65536)
                                           arrived := tset [] c.arrived k (a.filter (· != x)) }
      let s := match s.pkts.find? fun p => p.src == src && p.held.contains d && p.seqs.contains (d, x) with
        | some p => s.release p.id d
        | none => s
      s.passExpected src d f

/-- A number of a stream is present: arrived, voided or skipped. -/
def State.numberHere (s : State) (src d n : Nat) : State :=
  let k := streamKey src d
  let s := s.modCore fun c => { c with arrived := tset [] c.arrived k (n :: (tget [] c.arrived k).filter (· != n)) }
  s.passExpected src d (tget [] s.core.arrived k).length

/-- The source's record of a packet in flight ends; where the number was voided or skipped, its tickets are restored
(R140). -/
def State.endFlight (s : State) (src d n : Nat) (restore : Bool) : State :=
  let mine := fun (f : Flight) => f.stream == src && f.dest == d && f.seqNo == n
  let s := if restore then s.each (s.core.flights.filter mine) fun s f => s.modCore fun c => { c with
      spent := tmod 0 c.spent (destKey f.srcTile (if f.mgmt then 72 + destTile d else d)) (· - f.cells) }
    else s
  s.modCore fun c => { c with flights := c.flights.filter fun f => !mine f }

/-- One number of a packet arrives at its egress tile (R138). A number behind the expected one, skipped before it came, is
released at once (DEDUCED, log entry 41). -/
def State.arriveOne (s : State) (p : Packet) (d n : Nat) : State :=
  let s := s.endFlight p.src d n false
  let x := tget 0 s.core.expected (streamKey p.src d)
  if 32768 ≤ modSub 65536 n x then s.release p.id d
  else
    let s := if n = x || !p.ordered then s.release p.id d else s
    s.numberHere p.src d n

/-- EGRESS_ARRIVAL (R138): a sequenced packet has crossed to the output of its egress tile. -/
def egressArrival (t n : Nat) (s : State) : State :=
  match s.pkt n with
  | none => s
  | some p =>
    if p.tile ≠ t || p.loc != .arriving || !s.operates t then s
    else
      let s := (s.modPkt n fun q => { q with loc := .egress, held := q.seqs.map (·.1) }).toEnd n
      s.each p.seqs fun s x => s.arriveOne p x.1 x.2

/-- VOID_NOTICE (R140): a number that was given and will never arrive is treated as arrived. -/
def voidNotice (t src d n : Nat) (s : State) : State :=
  if !s.operates t || destTile d ≠ t || !(s.core.flights.any fun f => f.stream == src && f.dest == d && f.seqNo == n) ||
      s.pkts.any fun p => p.src == src && p.seqs.contains (d, n) then s
  else ((s.endFlight src d n true).sticky (tileBase t + 0x6018) 18).numberHere src d n

/-- REORDER_GAP_TIMEOUT (R140): the number a stream waits for has been missing for GAP_TO and is skipped. -/
def reorderGapTimeout (t src d : Nat) (s : State) : State :=
  let k := streamKey src d
  if !s.operates t || destTile d ≠ t || (tget [] s.core.arrived k).isEmpty then s
  else
    let x := tget 0 s.core.expected k
    let s := ((s.endFlight src d x true).sticky (tileBase t + 0x6018) 17).count t .tlReorderGap
    s.numberHere src d x

/-! ### A cell slot -/

/-- A packet is matched onto a crossing at its source tile: tickets are debited, its numbers are given (R127, R137). -/
def State.launch (s : State) (p : Packet) : State :=
  if !ticketed p then s
  else
    let s := s.modCore fun c => { c with spent := tmod 0 c.spent (ticketKey p) (· + p.cells) }
    let ds := if p.ports.isEmpty then [p.dest] else (p.ports.map pbOf).eraseDups
    s.each ds fun s d =>
      let n := tget 0 s.core.seqNext (streamKey p.src d)
      let f : Flight := { srcTile := p.tile, stream := p.src, seqNo := n, dest := d,
                          cells := if d = p.dest then p.cells else 0, mgmt := p.mgmt }
      (s.modCore fun c => { c with
        seqNext := tset 0 c.seqNext (streamKey p.src d) ((n + 1) % 65536)
        flights := c.flights ++ [f] }).modPkt p.id fun q => { q with seqs := q.seqs ++ [(d, n)] }

/-- A packet starts across a crossing: its flits leave (R117). -/
def State.startCross (s : State) (p : Packet) : State :=
  match s.nextTile p.tile (destTile p.dest) p.path with
  | some u => s.xingSend p.tile (xgGroup p.tile u.1) u.1 p
  | none => s

/-- The cells of a packet leave a tile's pool without a ticket return: it moves on. -/
def State.leavePool (s : State) (p : Packet) : State :=
  if p.mgmt then s.modCore fun c => { c with mgmtUsed := tmod 0 c.mgmtUsed p.tile (· - p.cells) }
  else if p.srcTile = p.tile then
    let s := s.modCore fun c => { c with shareHeld := tmod 0 c.shareHeld (chanKey p.tile p.chan) (· - p.cells) }
    s.setFld (bufStatus p.tile) 16 0 (s.fld (bufStatus p.tile) 16 0 + p.cells)
  else s.modCore fun c => { c with transitUsed := tmod 0 c.transitUsed p.tile (· - p.cells) }

/-- A packet of the retiring epoch comes to a tile that had reported it drained: the report is withdrawn (R34, R44). -/
def State.undrain (s : State) (u : Nat) (e : Bool) : State :=
  if s.cur.flipped.contains u && !s.cur.retired && e != s.tileEpoch u then
    (s.setFlag (slaveStatus u) 13 false).modCur fun c => { c with drained := c.drained.filter (· != u) }
  else s
/-- A packet has crossed to tile `u`: egress, transit or management reserve, the input channel of the crossing (R126,
R130). -/
def State.moveTo (s : State) (p : Packet) (o u path : Nat) : State :=
  let s := s.leavePool p
  let s := s.modCore fun c =>
    if p.mgmt then { c with mgmtUsed := tmod 0 c.mgmtUsed u (· + p.cells) }
    else if destTile p.dest = u then { c with egressUsed := tmod 0 c.egressUsed u (· + p.cells) }
    else { c with transitUsed := tmod 0 c.transitUsed u (· + p.cells) }
  let ptrs := s.freePtrs u p.cells
  ((s.modPkt p.id fun q => { q with tile := u, ptrs := ptrs, path := path, chan := groupBase (xgGroup u p.tile) + (o - 8) % 10 }).toEnd p.id).undrain
    u p.epoch

/-- A packet's last cell has crossed to output `o`. -/
def State.crossedAll (s : State) (n o : Nat) : State :=
  match s.pkt n with
  | none => s
  | some p =>
    if o < 8 ∨ 38 ≤ o then
      if p.seqs.isEmpty then
        if p.ports.isEmpty then s.deliver p
        else
          let s := s.modPkt n fun q => { q with held := (p.ports.map pbOf).eraseDups }
          s.each (p.ports.map pbOf).eraseDups fun s d => s.release n d
      else s.modPkt n fun q => { q with loc := .arriving }
    else match s.nextTile p.tile (destTile p.dest) p.path with
      | some u => s.moveTo p o u.1 u.2
      | none => s

/-- One cell of a packet crosses to output `o` of a tile: the slot's class is settled with the packet (R144). -/
def State.cross (s : State) (t o n : Nat) (last : Bool) : State :=
  let s := s.modPkt n fun p => { p with crossed := p.crossed ++ [(256 * t + 4 * o, 1)] }
  if last then s.crossedAll n o else s

/-- An output's slot (R131, R133, R144): a locked packet's next cell, a match's first cell, or a class without a cell. -/
def State.slotOut (s : State) (t : Nat) (locks : List CoreLock) (q : CoreSched) (o : Nat) : State :=
  match locks.find? fun l => l.out == o with
  | some l =>
    let s := s.modCore fun c => { c with locks := c.locks.filterMap fun k =>
      if k = l then (if k.left ≤ 1 then none else some { k with left := k.left - 1 }) else some k }
    s.cross t o l.pkt (decide (l.left ≤ 1))
  | none =>
    match q.pairs.find? fun x => x.out == o with
    | none => s.bump 1 (256 * t + 4 * o + ((q.idle.find? fun x => x.1 == o).map (·.2)).getD 2) 1
    | some x =>
      let h := (s.heads t 0).find? fun p => p.chan == x.inp && p.dest == x.dest && p.mgmt == x.mgmt
      match (h.filter fun p => s.hasTickets p && s.crossOk p && (s.outsOf p).contains o && !locks.any fun l => l.inp == x.inp) with
      | none => s.bump 1 (256 * t + 4 * o + 1) 1
      | some p =>
        let s := if o < 8 ∨ 38 ≤ o then s else (s.launch p).startCross p
        let s := if p.cells ≤ 1 then s else s.modCore fun c => { c with
          locks := c.locks ++ [{ tile := t, inp := x.inp, out := o, pkt := p.id, left := p.cells - 1 }] }
        s.cross t o p.id (decide (p.cells ≤ 1))

/-- Packets of a tile that are bound for a tile it takes for lost end (R346, R347). -/
def State.endUnseen (s : State) (t : Nat) : State :=
  s.each (s.pkts.filter fun p => p.tile == t && !s.sees t (destTile p.dest)) fun s p =>
    match s.pkt p.id with
    | some q => s.endPacket q .tileLost
    | none => s

/-- CELL_SLOT (R131): one cell time of a tile. At the start of an even slot matcher A samples for the even slot after the next, and
matcher B half a cell time later for the odd slot after that; the slot carries out what its own matcher set (case of R133). -/
def cellSlot (t : Nat) (s : State) : State :=
  if !s.operates t then s
  else
    let s := (s.endUnseen t).givePaths t
    let k := tget 0 s.core.slot t
    let locks := s.core.locks.filter fun l => l.tile == t
    let q := tget {} s.core.sched (4 * t + k)
    let s := if k % 2 = 0 then s.matchSlot t 0 (k + 2) else s
    let s := s.modCore fun c => { c with slot := tset 0 c.slot t ((k + 1) % 4) }
    let s := s.each (List.range 40) fun s o => s.slotOut t locks q o
    if k % 2 = 0 then s.matchSlot t 1 (k + 3) else s

/-- A refused packet is admitted: it takes its cells and joins its queue, the newest of it. -/
def State.admitPkt (s : State) (p : Packet) : State :=
  let ptrs := s.freePtrs p.tile p.cells
  let s := ((s.takeCells p).modPkt p.id fun q => { q with loc := if q.colour = 2 then .red else .voq, ptrs := ptrs }).toEnd p.id
  if p.src = 1032 + p.tile then s.lineAdmit p.tile p.id else s
/-- Admit the refused packets of a tile's aperture unit that find room, in order (R177). -/
def State.admitLines (s : State) (t : Nat) : State :=
  s.each (s.pkts.filter fun p => p.tile == t && p.src == 1032 + t && p.loc == .refused) fun s p =>
    if s.admissible p then s.admitPkt p else s
/-- ADMISSION_RETRY (R125): a refused packet is admitted once both conditions clear, in its source's order. -/
def admissionRetry (t n : Nat) (s : State) : State :=
  match s.pkt n with
  | none => s
  | some p => if p.tile ≠ t || !s.operates t || !s.admissible p then s else (s.admitPkt p).resumePieces t

/-- WC_FLUSH_ADMIT (R177): the writes of a line that holds for admission are tried again, in the order of the flushes; a line
whose seat is no longer withheld is flushed. -/
def wcFlushAdmit (t l : Nat) (s : State) : State :=
  match s.wc.lines.find? fun k => k.id == l && k.tile == t && k.flushing with
  | some k => if s.operates t then ((s.formDue t k.seat).admitLines t).resumePieces t else s
  | none => s

/-- TICKET_RETURN (R128, R111): a cumulative count of cells freed at an egress tile reaches a source tile. -/
def ticketReturn (t u d n : Nat) (s : State) : State :=
  let k := destKey t d
  let got := modSub (2 ^ 24) n (tget 0 s.core.acceptedCount k)
  if !s.here t || !s.here u || destTile d ≠ u || t = u || got = 0 || 2 ^ 23 ≤ got then s
  else s.modCore fun c => { c with spent := tmod 0 c.spent k (· - got), acceptedCount := tset 0 c.acceptedCount k (n % 2 ^ 24) }

/-- The crossing a queued packet goes to, as far as that is settled: by its path, or the one with which all its minimal paths that
are up begin. -/
def State.firstHop (s : State) (p : Packet) : Option Nat :=
  let d := destTile p.dest
  if p.path ≠ 15 then (s.nextTile p.tile d p.path).map (·.1)
  else match ((pathCols p.tile d).filter fun c => s.pathUp p.tile d c).map (fun c => towards p.tile d c) with
    | [] => s.shortest p.tile d
    | u :: us => if us.all (· == u) then some u else none
/-- The cells a tile has queued for the crossing to a neighbour (R135). -/
def State.queuedTo (s : State) (t u : Nat) : Nat :=
  s.pkts.foldl (fun n p =>
    if p.tile == t && p.loc == .voq && destTile p.dest != t && s.firstHop p == some u then n + p.cells else n) 0

/-- SPRAY_RECOMPUTE (R135). -/
def sprayRecompute (t : Nat) (s : State) : State :=
  if !s.here t || !s.flag (tileBase t + 0x6000) 0 then s
  else s.each (s.present.filter (· != t)) fun s d =>
    s.each (pathCols t d) fun s c =>
      let w := 16 - min 15 (s.queuedTo t (towards t d c) / 1024)
      let w := if s.pathFull t d c then w else w / 2
      s.modCore fun q => { q with unweight := tset 0 q.unweight (sprayKey t d c) (16 - w) }

/-- The effect of a write of TL_CORE_CTRL (R135): with SPRAY_ADAPT = 0 every weight is 16. -/
def State.coreCtrlAct (s : State) (t : Nat) (v : Word) : State :=
  let s := s.plainWrite (tileBase t + 0x6000) v
  if bit v 0 then s else s.modCore fun c => { c with unweight := c.unweight.filter fun x => x.1 / 32 != t }

/-! ### The ticket mailbox (R147) -/

/-- TL_TICKET_SEL of a tile, the instance of a serving agent (R446). -/
def ticketSel (agent t : Nat) : Nat := mbx agent (tileBase t + 0x601C)

/-- The effect of a write of TL_TICKET_SEL: VALID clears. -/
def State.ticketAct (s : State) (agent t : Nat) (v : Word) : State := s.setLv (ticketSel agent t) (v &&& 0x7F#32)

/-- TICKET_QUERY (R147). -/
def ticketQuery (agent t : Nat) (v : Word) (s : State) : State := if s.here t then s.ticketAct agent t v else s

/-- The tickets a tile holds toward a selection (R147). -/
def State.ticketsLeft (s : State) (t u sel : Nat) : Nat :=
  if u = t || !s.here u || 9 < sel then 0
  else if sel < 8 then 256 - tget 0 s.core.spent (destKey t (8 * u + sel))
  else if sel = 8 then 256 - tget 0 s.core.spent (destKey t (64 + u))
  else 8 - tget 0 s.core.spent (destKey t (72 + u))

/-- TICKET_QUERY_DONE (R147). -/
def ticketQueryDone (agent t : Nat) (s : State) : State :=
  if !s.here t then s
  else
    let v := s.lv (ticketSel agent t)
    (s.setLv (ticketSel agent t + 4) (BitVec.ofNat 32 (s.ticketsLeft t (field v 2 0) (field v 6 3)))).setFlag
      (ticketSel agent t) 31 true

/-! ### The meanings -/

/-- CELL_SLOT. -/
def execCellSlot (t : Nat) (s : State) : Out := .next (cellSlot t s)
/-- TICKET_RETURN. -/
def execTicketReturn (t u d n : Nat) (s : State) : Out := .next (ticketReturn t u d n s)
/-- SPRAY_RECOMPUTE. -/
def execSprayRecompute (t : Nat) (s : State) : Out := .next (sprayRecompute t s)
/-- EGRESS_ARRIVAL. -/
def execEgressArrival (t n : Nat) (s : State) : Out := .next (egressArrival t n s)
/-- VOID_NOTICE. -/
def execVoidNotice (t src d n : Nat) (s : State) : Out := .next (voidNotice t src d n s)
/-- REORDER_GAP_TIMEOUT. -/
def execReorderGapTimeout (t src d : Nat) (s : State) : Out := .next (reorderGapTimeout t src d s)
/-- TICKET_QUERY. -/
def execTicketQuery (agent t : Nat) (v : Word) (s : State) : Out := .next (ticketQuery agent t v s)
/-- TICKET_QUERY_DONE. -/
def execTicketQueryDone (agent t : Nat) (s : State) : Out := .next (ticketQueryDone agent t s)

end Sys2Proof.Machine
end

