-- ==== Sys2Proof/Machine/Sched.lean ====
section
/-! DEFINITION. Egress scheduling (R259 to R272): nodes, shapers, gates, order before rate, the start of a packet on a port
with its rewritten IDs and its outstanding-request entry (R157, R158), its end; takeovers; the backlog mailbox (R278). -/

namespace Sys2Proof.Machine

/-! ### The tables (R278) -/

/-- SC_NODE[n] of a port block, word `w`. -/
def scNode (pb n w : Nat) : Nat := pbBase pb + 0x20000 + 32 * n + 4 * w
/-- SC_SVC[n][c] of a port block, word `w`. -/
def scSvc (pb n c w : Nat) : Nat := pbBase pb + 0x30000 + 16 * (8 * n + c) + 4 * w
/-- SC_PORT of a port, word `w`. -/
def scPort (port w : Nat) : Nat := pbBase (pbOf port) + 0x50000 + 32 * (port % 16) + 4 * w
/-- SC_CUE[l][k] of a port block, word `w`. -/
def scCue (pb l k w : Nat) : Nat := pbBase pb + 0x51000 + 0x800 * l + 8 * k + 4 * w
/-- SC_CUE_HDR[l] of a port block, word `w`. -/
def scHdr (pb l w : Nat) : Nat := pbBase pb + 0x52000 + 32 * l + 4 * w
/-- SC_CTRL of a port block. -/
def scCtrl (pb : Nat) : Nat := pbBase pb + 0x52040

/-- The number of a port's default node among the nodes. -/
def defNode : Nat := 1024
/-- The valid seat nodes of a port block in the copy of epoch `e`. -/
def State.scNodes (s : State) (e : Bool) (pb : Nat) : List Nat :=
  (((s.copyOf e).filterMap fun y =>
    if scNode pb 0 0 ≤ y.1 ∧ y.1 < scNode pb 1024 0 then some ((y.1 - scNode pb 0 0) / 32) else none).eraseDups).filter
    fun n => s.cflag e (scNode pb n 0) 0
/-- The node of a seat on a port: its own, or the default node (R263). -/
def State.nodeOf (s : State) (e : Bool) (port : Nat) (seat : Option Nat) : Nat :=
  match seat with
  | none => defNode
  | some k => ((s.scNodes e (pbOf port)).find? fun n =>
      s.cfld e (scNode (pbOf port) n 0) 4 1 == port % 16 && s.cfld e (scNode (pbOf port) n 0) 27 16 == k).getD defNode

/-- A node's CIR. -/
def State.nodeCir (s : State) (e : Bool) (port n : Nat) : Word :=
  if n = defNode then s.conf e (scPort port 2) else s.conf e (scNode (pbOf port) n 1)
/-- A node's PIR. -/
def State.nodePir (s : State) (e : Bool) (port n : Nat) : Word :=
  if n = defNode then s.conf e (scPort port 3) else s.conf e (scNode (pbOf port) n 2)
/-- A node's word of bursts. -/
def State.nodeBurst (s : State) (e : Bool) (port n : Nat) : Word :=
  if n = defNode then s.conf e (scPort port 4) else s.conf e (scNode (pbOf port) n 3)
/-- A node's weight; 0 acts as 1. -/
def State.nodeWeight (s : State) (e : Bool) (port n : Nat) : Nat :=
  max 1 (if n = defNode then s.cfld e (scPort port 5) 7 0 else s.cfld e (scNode (pbOf port) n 4) 7 0)
/-- A node's bucket: committed or peak. -/
def nodeKey (port n : Nat) (peak : Bool) : Nat :=
  if n = defNode then bucketKey (1 + b2n peak) port else bucketKey (3 + b2n peak) (1024 * pbOf port + n)
/-- A service node's bucket. -/
def svcKey (port n c : Nat) (peak : Bool) : Nat := bucketKey (5 + b2n peak) ((1024 * pbOf port + n) * 8 + c)
/-- A service node's weight; a default node's classes weigh alike. -/
def State.svcWeight (s : State) (e : Bool) (port n c : Nat) : Nat :=
  if n = defNode then 1 else max 1 (s.cfld e (scSvc (pbOf port) n c 0) 7 0)

/-- Whether a bucket of burst `b` is negative: it lacks more than its burst. -/
def State.negative (s : State) (k b : Nat) : Bool := decide (burstOf b < s.missing k)
/-- Whether a committed rate is set and its bucket is not negative. -/
def State.committed (s : State) (w : Word) (k b : Nat) : Bool := rateSet w && !s.negative k b
/-- Whether a peak rate holds its node back. -/
def State.overPeak (s : State) (w : Word) (k b : Nat) : Bool := rateSet w && s.negative k b

/-! ### Gates (R269, R270, R272) -/

/-- The entries of a cue list. -/
def State.cueLen (s : State) (e : Bool) (pb l : Nat) : Nat := min 256 (s.cfld e (scHdr pb l 0) 8 0)
/-- BASE of a cue list. -/
def State.cueBase (s : State) (e : Bool) (pb l : Nat) : Nat :=
  ftOf (s.cfld e (scHdr pb l 4) 15 0) (s.conf e (scHdr pb l 3)).toNat (s.conf e (scHdr pb l 2)).toNat
/-- The length of a cue list's cycle in ns. -/
def State.cueCycle (s : State) (e : Bool) (pb l : Nat) : Nat := (s.conf e (scHdr pb l 1)).toNat * 8
/-- The START of an entry in ns. -/
def State.cueStart (s : State) (e : Bool) (pb l k : Nat) : Nat := s.cfld e (scCue pb l k 0) 23 0 * 8
/-- Whether entry `k` opens gate `g` (class, or 8 the scavenger) of a port. -/
def State.entryOpen (s : State) (e : Bool) (l k port g : Nat) : Bool :=
  let w := s.conf e (scCue (pbOf port) l k 1)
  !bit w (16 + port % 16) || bit w g
/-- The active list of a port block. -/
def State.activeList (s : State) (pb : Nat) : Nat := s.fld (scCtrl pb) 0 0
/-- The entry that governs at an offset of the cycle. -/
def State.cueAt (s : State) (e : Bool) (pb l ofs : Nat) : Nat :=
  ((List.range (s.cueLen e pb l)).filter fun k => decide (s.cueStart e pb l k ≤ ofs)).getLastD 0
/-- Whether gate `g` of a port is open at an FT. -/
def State.gateOpen (s : State) (e : Bool) (port g ft : Nat) : Bool :=
  let pb := pbOf port
  let l := s.activeList pb
  if s.cueLen e pb l = 0 || ft < s.cueBase e pb l then true
  else s.entryOpen e l (s.cueAt e pb l ((ft - s.cueBase e pb l) % s.cueCycle e pb l)) port g
/-- The time from an FT to the next close of gate `g`, if it ever closes. -/
def State.closesIn (s : State) (e : Bool) (port g ft : Nat) : Option Nat :=
  let pb := pbOf port
  let l := s.activeList pb
  let n := s.cueLen e pb l
  let cyc := s.cueCycle e pb l
  if n = 0 then none
  else
    let before := s.cueBase e pb l - ft
    let ofs := (ft - s.cueBase e pb l) % cyc
    let k := if before = 0 then s.cueAt e pb l ofs + 1 else 0
    (List.range n).findSome? fun i =>
      if s.entryOpen e l ((k + i) % n) port g then none
      else some (before + s.cueStart e pb l ((k + i) % n) + (if n ≤ k + i then cyc else 0) - ofs)

/-- The transfer rate of a rate code (R51), in units of 0.5 Gb/s a lane. -/
def laneRate (c : Nat) : Nat := [5, 10, 16, 32, 64, 128].getD c 5
/-- The linked rate of a port in units of 0.5 Gb/s. -/
def State.linkedRate (s : State) (port : Nat) : Nat :=
  widthLanes (s.fld (portStatus port) 3 1) * laneRate (s.fld (portStatus port) 6 4)
/-- The bytes a packet is charged on a port (R266). -/
def State.charge (s : State) (port : Nat) (p : Packet) : Nat := p.chLen + s.cfld p.epoch (scPort port 0) 7 0
/-- Whether a packet's gate lets it start (R270, R272). -/
def State.gated (s : State) (port : Nat) (p : Packet) : Bool :=
  let t := tileOf port
  let g := if p.colour = 1 then 8 else p.svc
  s.gateOpen p.epoch port g (tget 0 s.sch.roundAt t) &&
    (!s.cflag p.epoch (scPort port 0) 8 || match s.closesIn p.epoch port g (s.tileFt t) with
      | none => true
      | some d => decide (s.charge port p * 16 < d * s.linkedRate port))

/-! ### Leaving a port (R81, R108, R158) -/

/-- Whether a port is a VFL port now. -/
def State.vflNow (s : State) (port : Nat) : Bool := s.isVfl (s.tileEpoch (tileOf port)) port
/-- The flow-control class of a packet: 0 posted, 1 non-posted, 2 completion. -/
def fcClass (p : Packet) : Nat :=
  match p.cls with
  | .nonPosted => 1
  | .cpl => 2
  | _ => 0
/-- The credits a TLP takes: one header, its payload in units of 16 bytes. -/
def fcCost (p : Packet) : Nat × Nat := (1, ceilDiv p.len2.2 16)
/-- Whether the partner's credits admit a packet. -/
def State.hasCredit (s : State) (port : Nat) (p : Packet) : Bool :=
  let k := s.portSt port
  let u := tget (0, 0) k.used (fcClass p)
  match tget none k.limit (fcClass p) with
  | none => true
  | some l => decide (u.1 + (fcCost p).1 ≤ l.1 ∧ u.2 + (fcCost p).2 ≤ l.2)
/-- Whether a port can take a packet's transmission. -/
def State.canLeave (s : State) (port : Nat) (p : Packet) : Bool :=
  if s.vflNow port then s.canSend (.port port) (s.vcOf port p) p else s.hasCredit port p
/-- Whether a port can start a packet: up, awake at its whole width (R85), no packet on the wire. -/
def State.portReady (s : State) (port : Nat) : Bool :=
  s.operates (tileOf port) && s.portUp port && s.fld (portStatus port) 10 8 == 0 &&
    !(s.portSt port).recovering && !s.pkts.any fun p => p.onWire.any fun w => w.1 == port

/-- When a packet was released to a port block's egress queues. -/
def Packet.relAt (p : Packet) (pb : Nat) : Nat := ((p.rel.find? fun x => x.1 == pb).map (·.2)).getD 0
/-- Insert a packet in a port block's order of release. -/
def insRel (pb : Nat) (p : Packet) : List Packet → List Packet
  | [] => [p]
  | q :: qs => if p.relAt pb < q.relAt pb then p :: q :: qs else q :: insRel pb p qs
/-- The packets queued at a port, in order of release. -/
def State.portQueue (s : State) (port : Nat) : List Packet :=
  List.foldl (fun l p => insRel (pbOf port) p l) [] <| s.pkts.filter fun p => p.loc == .egress && p.ports.contains port && !p.held.contains (pbOf port) &&
    !p.onWire.any fun w => w.1 == port

/-- The requester ID of an aperture unit's request (R190), where its body holds it. -/
def ownRid (p : Packet) : Option Nat :=
  match p.origin, p.purpose, p.part, p.body with
  | _, .apRead _ _, _, .req r => some r.rid
  | .self _, _, none, .req r => some r.rid
  | _, _, _, _ => none
/-- The requester ID a packet carries on a port (R157). Toward another part it is that of a downstream port (DEDUCED, log
entry 42). -/
def State.carriedRid (s : State) (port : Nat) (p : Packet) : Nat :=
  let up := !s.vflNow port && (s.partOfUp p.epoch port).isSome
  match ownRid p with
  | some n => n % 65536
  | none => match p.origin with
  | .host q => s.proxyRid p.epoch q % 65536
  | .func f => if up then s.hostRid p.epoch f % 65536 else s.bindRid p.epoch f % 65536
  | .self q => if up then s.ffRid q % 65536 else s.proxyRid p.epoch q % 65536
  | .port _ => p.rRid % 65536
  | .vfl _ _ => match (if up then p.part else none) with
    | some q => s.ffRid q % 65536
    | none => p.rRid % 65536

/-- The width of the tags a port's requests carry (R158): what the base specification permits on a downstream link outside flit mode
depends on its completer, which is free (log entry 46). -/
def State.tagBits (s : State) (port : Nat) (e : Bool) : Nat :=
  if s.vflNow port then 14
  else
    let flit := s.flag (portStatus port) 7
    match s.partOfUp e port with
    | some p => if flit && (s.fab p).tag14 then 14 else if (s.fab p).tag10 then 10 else 8
    | none => if flit then 14 else if Config.tenBitTags port then 10 else 8
/-- The free tags of a port for a requester ID. -/
def State.freeTags (s : State) (port rid : Nat) (e : Bool) : List Nat :=
  let mine := (s.outs.filter fun o => o.port == port && o.carRid == rid).map (·.newTag)
  (List.range (2 ^ s.tagBits port e)).filter fun n => !mine.contains n
/-- Whether a request finds an outstanding entry and a tag (R158). -/
def State.entryFree (s : State) (port : Nat) (p : Packet) : Bool :=
  decide ((s.outs.filter fun o => o.tile == tileOf port).length < 32768) &&
    decide ((s.outs.filter fun o => o.port == port).length < 4096) &&
    !(s.freeTags port (s.carriedRid port p) p.epoch).isEmpty
/-- A port's Max_Payload_Size in bytes: the fabric function's on an upstream port, the owner's virtual port's elsewhere. -/
def State.portMps (s : State) (e : Bool) (port : Nat) : Nat :=
  match s.partOfUp e port with
  | some p => s.mps p
  | none => match s.vdpOf e (s.slotOwner e port) port with
    | some d => min 1024 (128 * 2 ^ (s.vport (s.slotOwner e port) d).mpsCode)
    | none => 128

/-- A packet's body as it leaves: the IDs of R157 and R158, EP of a word that was lost (R343). -/
def leaving (p : Packet) (rid tag : Nat) : Body :=
  match p.body with
  | .req r => .req { r with rid := rid, tag := tag, poisoned := r.poisoned || p.poisoned }
  | .cpl c => .cpl { c with poisoned := c.poisoned || p.poisoned }
  | b => b

/-- Record a request that leaves in its egress tile's outstanding table (R158): the tag is any free one. -/
def State.addOut (s : State) (port : Nat) (p : Packet) (rid tag : Nat) : State :=
  let t := tileOf port
  let o : OutEntry := {
    id := s.idCtr, tile := t, port := port, rid := p.rRid, tag := p.rTag, newTag := tag, carRid := rid, origin := p.origin
    purpose := p.purpose, part := p.part, epoch := p.epoch, mgmt := p.mgmt, seat := p.seat
    len := p.reqLen, svc := p.svc, srcTile := p.srcTile, func := p.func, note := p.note, inPort := p.inPort, fid := p.target, injected := s.cont.injTable.contains t
    attr := attrOf p.body }
  { s with outs := s.outs ++ [o], idCtr := s.idCtr + 1
           cont := { s.cont with injTable := s.cont.injTable.filter (· != t) } }

/-- Hand a packet to the link of its port. -/
def State.toLink (s : State) (port : Nat) (p : Packet) : State :=
  let s := s.emit (.tlp port p (s.ecrcOut p.epoch port))
  if s.vflNow port then s.vflSend port p
  else s.modPort port fun k => { k with
    seqNo := (k.seqNo + 1) % 4096, unacked := k.unacked ++ [(k.seqNo, p)]
    used := tmod (0, 0) k.used (fcClass p) fun u => (u.1 + (fcCost p).1, u.2 + (fcCost p).2) }

/-- A packet's first symbol leaves on a port. -/
def State.transmit (s : State) (port : Nat) (p : Packet) : State :=
  let t := tileOf port
  let rid := s.carriedRid port p
  let (s, tag) :=
    if p.cls == .nonPosted then
      let l := s.freeTags port rid p.epoch
      let tag := l.getD (s.freeBelow l.length) 0
      (s.used.addOut port p rid tag, tag)
    else (s, p.rTag)
  let req := p.cls == .nonPosted || p.cls == .posted
  let s := s.toLink port { p with body := leaving p rid tag, rRid := if req then rid else p.rRid, rTag := tag }
  let s := (s.modBo t p.seat fun b => { b with egress := b.egress + p.chLen }).capture t 1 p (some port)
  s.modPkt p.id fun q => { q with onWire := q.onWire ++ [(port, modSub ftMod (s.tileFt t) p.stamp)], npWait := false }

/-- A packet departs on a port: a lost word is found as it is read (R343); a payload over the port's Max_Payload_Size ends
it (R79). -/
def State.depart (s : State) (port : Nat) (p : Packet) : State :=
  let s := if p.injected then eccUncorrectable p.tile (.cellBuffer p.id) (s.modPkt p.id fun q => { q with injected := false }) else s
  match s.pkt p.id with
  | none => s
  | some p =>
    if !s.vflNow port && decide (s.portMps p.epoch port < p.len2.2) then s.dropPointer p port .mps
    else s.transmit port p

/-! ### Eligibility (R263, R268) -/

/-- A queue's packet that may win, and the packet that starts if it wins. -/
structure Cand where
  node : Nat
  svc : Nat
  scav : Bool
  p : Packet
  start : Packet

/-- Whether a packet stalls: a non-posted request behind one of its class that waits for an entry (R18, R158), or a packet without
credit. -/
def State.stalls (s : State) (port : Nat) (p : Packet) : Bool :=
  !s.canLeave port p || (p.cls == .nonPosted && s.pkts.any fun q => q.npWait && q.mgmt == p.mgmt && q.ports.contains port)
/-- The packet that starts when `p` would win: the earliest unstarted owed packet of its stream (R268). A stalled
non-posted request does not hold posted packets and completions (R158). -/
def State.owedFirst (s : State) (port : Nat) (p : Packet) : Option Packet :=
  let first := if !p.ordered then some p
    else (s.portQueue port).find? fun q => q.src == p.src && q.ordered && q.mgmt == p.mgmt &&
      (q.id == p.id || p.cls == .nonPosted || q.cls != .nonPosted || !s.stalls port q)
  first.filter fun q => !s.stalls port q

/-- The queue of a packet at a port: node, class or scavenger (R263). -/
def State.queueOf (s : State) (port : Nat) (p : Packet) : Nat × Nat :=
  (s.nodeOf p.epoch port p.seat, if p.colour = 1 then 8 else p.svc)
/-- Whether a queue's packet passes its gates and its peak buckets. -/
def State.passes (s : State) (port n : Nat) (p : Packet) : Bool :=
  let e := p.epoch
  let c := p.svc
  s.gated port p &&
    !s.overPeak (s.nodePir e port n) (nodeKey port n true) (field (s.nodeBurst e port n) 31 16) &&
    (n == defNode || !s.overPeak (s.conf e (scSvc (pbOf port) n c 2)) (svcKey port n c true)
      (s.cfld e (scSvc (pbOf port) n c 3) 31 16))
/-- The head of a queue that may win: the first packet of each of its posted, non-posted and completion queues. -/
def State.candidate (s : State) (port : Nat) (k : Nat × Nat) (q : List Packet) : Option Cand :=
  let heads := q.filter fun p => (q.find? fun x => fcClass x == fcClass p).map (·.id) == some p.id
  heads.findSome? fun p =>
    if s.passes port k.1 p && !s.stalls port p then
      (s.owedFirst port p).map fun x => { node := k.1, svc := p.svc, scav := k.2 == 8, p := p, start := x }
    else none
/-- Every candidate of a port. -/
def State.cands (s : State) (port : Nat) : List Cand :=
  let q := (s.portQueue port).filter fun p => !p.mgmt
  let ks := (q.map fun p => s.queueOf port p).eraseDups
  ks.filterMap fun k => s.candidate port k (q.filter fun p => s.queueOf port p == k)

/-! ### Choosing (R264) -/

/-- The next member of an ascending ring from a pointer. -/
def nextFrom (ptr : Nat) (ring : List Nat) : Option Nat := (ring.find? fun i => decide (ptr ≤ i)).orElse fun _ => ring.head?
/-- A list in ascending order without repeats. -/
def ascend (l : List Nat) : List Nat := l.foldl (fun acc n => insNat n acc) []

/-- Visits of a deficit round robin: each adds its quantum; the first whose deficit covers its packet is served. -/
def drrVisit (key quantum cost : Nat → Nat) : List Nat → NMap Nat → Option (Nat × NMap Nat)
  | [], _ => none
  | i :: l, d =>
    let v := tget 0 d (key i) + quantum i
    if cost i ≤ v then some (i, tset 0 d (key i) (v - cost i)) else drrVisit key quantum cost l (tset 0 d (key i) v)
/-- Deficit round robin over a ring. `ptr` is one past the member in service: it is served while its deficit lasts, then the
next is visited (DESIGN CHOICE, log entry 43). -/
def drr (key quantum cost : Nat → Nat) (ptr : Nat) (ring : List Nat) (d : NMap Nat) : Option (Nat × NMap Nat) :=
  let rot := ring.filter (fun i => decide (ptr ≤ i)) ++ ring.filter fun i => decide (i < ptr)
  match (ring.find? fun i => i + 1 == ptr && decide (cost i ≤ tget 0 d (key i))) with
  | some i => some (i, tset 0 d (key i) (tget 0 d (key i) - cost i))
  | none => drrVisit key quantum cost (List.replicate 8 rot).flatten d

/-- What a choice costs the node that wins: nothing when another packet starts in its place (R268). -/
def State.winCost (s : State) (port : Nat) (c : Cand) : Nat := if c.p.id = c.start.id then s.charge port c.p else 0

/-- A choice: the candidate, whether each committed bucket pays, and the scheduler's state after it. -/
structure Choice where
  c : Cand
  nodeC : Bool := false
  svcC : Bool := false
  sch : SchedSt

/-- The deficit key of a service queue. -/
def svcDef (port n c : Nat) : Nat := if n = defNode then bucketKey 12 (8 * port + c) else bucketKey 10 ((1024 * pbOf port + n) * 8 + c)
/-- The deficit key of a node. -/
def nodeDef (port n : Nat) : Nat := if n = defNode then bucketKey 11 port else bucketKey 9 (1024 * pbOf port + n)
/-- The pointer of a node's weighted classes. -/
def svcPtr (port n : Nat) : Nat := if n = defNode then bucketKey 4 port else bucketKey 3 (1024 * pbOf port + n)

/-- The candidate of the highest class. -/
def topClass (cs : List Cand) : Option Cand :=
  cs.foldl (fun a c => match a with
    | none => some c
    | some b => if b.svc < c.svc then some c else a) none

/-- The service node chosen within a node (R264). -/
def State.pickSvc (s : State) (port n : Nat) (cs : List Cand) : Option Choice :=
  let pb := pbOf port
  let comm := cs.filter fun c => n != defNode &&
    s.committed (s.conf c.p.epoch (scSvc pb n c.svc 1)) (svcKey port n c.svc false) (s.cfld c.p.epoch (scSvc pb n c.svc 3) 15 0)
  let strict := cs.filter fun c => n != defNode && s.cflag c.p.epoch (scSvc pb n c.svc 0) 8
  match topClass comm, topClass strict with
  | some c, _ => some { c := c, svcC := true, sch := s.sch }
  | none, some c => some { c := c, sch := s.sch }
  | none, none =>
    let find := fun i => cs.find? fun c => c.svc == i
    let w := fun i => match find i with
      | some c => s.svcWeight c.p.epoch port n i * 256
      | none => 256
    let cost := fun i => match find i with
      | some c => s.winCost port c
      | none => 0
    (drr (svcDef port n) w cost (tget 0 s.sch.ptr (svcPtr port n)) (ascend (cs.map (·.svc))) s.sch.deficit).bind fun r =>
      (find r.1).map fun c =>
        { c := c, sch := { s.sch with deficit := r.2, ptr := tset 0 s.sch.ptr (svcPtr port n) (r.1 + 1) } }

/-- The committed pass. -/
def State.passCommitted (s : State) (port : Nat) (cs : List Cand) : Option Choice :=
  let ok := cs.filter fun c => !c.scav && s.committed (s.nodeCir c.p.epoch port c.node) (nodeKey port c.node false)
    (field (s.nodeBurst c.p.epoch port c.node) 15 0)
  (nextFrom (tget 0 s.sch.ptr (bucketKey 0 port)) (ascend (ok.map (·.node)))).bind fun n =>
    (s.pickSvc port n (ok.filter fun c => c.node == n)).map fun x =>
      { x with nodeC := true, sch := { x.sch with ptr := tset 0 x.sch.ptr (bucketKey 0 port) (n + 1) } }
/-- The excess pass. -/
def State.passExcess (s : State) (port : Nat) (cs : List Cand) : Option Choice :=
  let ok := cs.filter fun c => !c.scav
  let inner := fun n => s.pickSvc port n (ok.filter fun c => c.node == n)
  let cost := fun n => match inner n with
    | some x => s.winCost port x.c
    | none => 0
  let w := fun n => match ok.find? fun c => c.node == n with
    | some c => s.nodeWeight c.p.epoch port n * 256
    | none => 256
  (drr (nodeDef port) w cost (tget 0 s.sch.ptr (bucketKey 1 port)) (ascend (ok.map (·.node))) s.sch.deficit).bind fun r =>
    ({ s with sch := { s.sch with deficit := r.2, ptr := tset 0 s.sch.ptr (bucketKey 1 port) (r.1 + 1) } }.pickSvc port r.1
      (ok.filter fun c => c.node == r.1))
/-- The scavenger pass. -/
def State.passScav (s : State) (port : Nat) (cs : List Cand) : Option Choice :=
  let ok := cs.filter (·.scav)
  (nextFrom (tget 0 s.sch.ptr (bucketKey 2 port)) (ascend (ok.map (·.node)))).bind fun n =>
    (ok.find? fun c => c.node == n).map fun c =>
      { c := c, sch := { s.sch with ptr := tset 0 s.sch.ptr (bucketKey 2 port) (n + 1) } }

/-- Take a charge from a bucket whose rate is set. -/
def State.debitIf (s : State) (w : Word) (k n : Nat) : State := if rateSet w then s.debit k n else s
/-- Charge a started packet to the port bucket and to its own node's peak buckets (R264, R266, R268). -/
def State.chargeStart (s : State) (port : Nat) (p : Packet) : State :=
  let e := p.epoch
  let n := tokens (s.charge port p)
  let k := s.nodeOf e port p.seat
  let s := s.debitIf (s.conf e (scPort port 1)) (bucketKey 0 port) n
  if p.mgmt then s
  else
    let s := s.debitIf (s.nodePir e port k) (nodeKey port k true) n
    if k = defNode then s else s.debitIf (s.conf e (scSvc (pbOf port) k p.svc 2)) (svcKey port k p.svc true) n

/-- Start a packet, or mark a request that waits for an entry and a tag (R158). -/
def State.startPkt (s : State) (port : Nat) (p : Packet) : State :=
  if p.cls == .nonPosted && !s.entryFree port p then s.modPkt p.id fun q => { q with npWait := true }
  else (s.chargeStart port p).depart port p

/-- Carry out a choice. -/
def State.carry (s : State) (port : Nat) (x : Choice) : State :=
  let c := x.c
  let own := c.p.id == c.start.id
  let s := { s with sch := x.sch }
  let n := tokens (s.charge port c.p)
  let s := if own && x.nodeC then s.debit (nodeKey port c.node false) n else s
  let s := if own && x.svcC then s.debit (svcKey port c.node c.svc false) n else s
  let s := if own then s else s.count (tileOf port) .scInherit (some port) c.start.seat
  s.startPkt port c.start

/-- Whether the port bucket is negative: its burst is 17 units. -/
def State.portHeld (s : State) (port : Nat) (e : Bool) : Bool := s.overPeak (s.conf e (scPort port 1)) (bucketKey 0 port) 17

/-- The scheduler's choice among candidates: committed, excess, scavenger (R264). -/
def State.choose (s : State) (port : Nat) (cs : List Cand) : Option Choice :=
  (s.passCommitted port cs).orElse fun _ => (s.passExcess port cs).orElse fun _ => s.passScav port cs
/-- The choice of a port: on a VFL port the tenant VCs take turns, packet by packet, and the scheduler chooses within a VC (R108;
log entry 35). -/
def State.portChoice (s : State) (port : Nat) : Option Choice :=
  let cs := s.cands port
  if s.vflNow port then
    let n := s.vcs (.port port) - 1
    ((List.range n).map fun i => ((s.linkSt (.port port)).vcPtr + i) % n).findSome? fun v =>
      s.choose port (cs.filter fun c => s.vcOf port c.start == v)
  else s.choose port cs

/-- SCHEDULE_PACKET_START (R264). -/
def schedulePacketStart (port : Nat) (s : State) : State :=
  if !s.portReady port then s
  else
    match (s.portQueue port).find? fun p => p.mgmt && !s.stalls port p with
    | some p => s.startPkt port p
    | none =>
      if s.portHeld port (s.tileEpoch (tileOf port)) then s
      else
        match s.portChoice port with
        | some x => s.carry port x
        | none => s

/-- OUTSTANDING_ENTRY_ALLOC (R158): the request that waits at the head of its port's non-posted queue takes a freed entry and
tag and leaves. -/
def outstandingEntryAlloc (port : Nat) (s : State) : State :=
  let ws := s.pkts.filter fun p => p.npWait && p.ports.contains port
  match (ws.find? (·.mgmt)).orElse fun _ => ws.head? with
  | some p => if s.portReady port && s.entryFree port p && s.canLeave port p then (s.chargeStart port p).depart port p else s
  | none => s

/-- EGRESS_PACKET_SENT (R128, R142): the last symbol has left; with the last pointer the cells are free and kept. -/
def egressPacketSent (port n : Nat) (s : State) : State :=
  match s.pkt n with
  | none => s
  | some p =>
    match p.onWire.find? fun w => w.1 == port with
    | none => s
    | some w =>
      let s := (s.measure port p w.2).sendAll (.port port)
      if 2 ≤ p.ports.length then
        s.modPkt n fun q => { q with ports := q.ports.filter (· != port), onWire := q.onWire.filter fun w => w.1 != port }
      else
        let s := (s.settle p 0).retire p
        match p.cls, p.purpose with
        | .posted, .issue id => s.issued id 0
        | _, _ => s

/-! ### Takeovers (R271) -/

/-- The takeover time of a port block. -/
def State.takeoverTime (s : State) (pb : Nat) : Nat :=
  ftOf (s.fld (scCtrl pb + 4) 15 0) (s.lv (scCtrl pb + 8)).toNat (s.lv (scCtrl pb + 12)).toNat
/-- The effect of a write of SC_CTRL: ARM, then CANCEL. -/
def State.takeoverAct (s : State) (pb : Nat) (v : Word) : State :=
  let s := s.plainWrite (scCtrl pb) v
  let s :=
    if bit v 1 && !s.flag (scCtrl pb) 3 then
      let late := decide (s.takeoverTime pb < s.tileFt (pb / 8))
      (s.setFlag (scCtrl pb) 3 true).modSch fun c => { c with
        late := c.late.filter (· != pb) ++ if late then [pb] else [] }
    else s
  if bit v 2 then (s.setFlag (scCtrl pb) 3 false).modSch fun c => { c with late := c.late.filter (· != pb) } else s
/-- The active and pending lists of a port block swap. -/
def State.takesOver (s : State) (pb : Nat) : State :=
  let late := s.sch.late.contains pb
  let s := (s.setFlag (scCtrl pb) 0 (!s.flag (scCtrl pb) 0)).setFlag (scCtrl pb) 3 false
  let s := (s.sticky (scCtrl pb) 4).modSch fun c => { c with late := c.late.filter (· != pb) }
  if late then s.sticky (scCtrl pb) 5 else s
/-- TAKEOVER: an armed port block takes over once its tile's slave counter has reached the time (R32, R271). -/
def takeover (pb : Nat) (s : State) : State :=
  if !s.operates (pb / 8) || !s.flag (scCtrl pb) 3 then s
  else (s.reach (·.tileFt (pb / 8)) (s.takeoverTime pb)).takesOver pb

/-! ### The backlog mailbox (R278) -/

/-- MT_BACKLOG_SEL of a tile, the instance of a serving agent. -/
def backlogSel (agent t : Nat) : Nat := mbx agent (tileBase t + 0xB008)
/-- The effect of a write of MT_BACKLOG_SEL: VALID clears. -/
def State.backlogAct (s : State) (agent t : Nat) (v : Word) : State := s.setLv (backlogSel agent t) (v &&& 0xFFF#32)
/-- BACKLOG_READ_DONE. -/
def backlogReadDone (agent t : Nat) (s : State) : State :=
  if !s.here t then s
  else
    let seat := s.fld (backlogSel agent t) 11 0
    (s.setLv (backlogSel agent t + 4) (BitVec.ofNat 32 (s.backlog t seat % 2 ^ 18 + b2n (s.withheld t seat) * 2 ^ 18))).setFlag
      (backlogSel agent t) 31 true

/-! ### The meanings -/

/-- SCHEDULE_PACKET_START. -/
def execSchedulePacketStart (port : Nat) (s : State) : Out := .next (schedulePacketStart port s)
/-- OUTSTANDING_ENTRY_ALLOC. -/
def execOutstandingEntryAlloc (port : Nat) (s : State) : Out := .next (outstandingEntryAlloc port s)
/-- EGRESS_PACKET_SENT. -/
def execEgressPacketSent (port n : Nat) (s : State) : Out := .next (egressPacketSent port n s)
/-- TAKEOVER_ARM: a write of SC_CTRL with ARM. -/
def execTakeoverArm (pb : Nat) (v : Word) (s : State) : Out :=
  .next (if s.here (pb / 8) then s.takeoverAct pb (v ||| 2) else s)
/-- TAKEOVER_CANCEL: a write of SC_CTRL with CANCEL. -/
def execTakeoverCancel (pb : Nat) (v : Word) (s : State) : Out :=
  .next (if s.here (pb / 8) then s.takeoverAct pb (v ||| 4) else s)
/-- TAKEOVER. -/
def execTakeover (pb : Nat) (s : State) : Out := .next (takeover pb s)
/-- BACKLOG_READ: a write of MT_BACKLOG_SEL. -/
def execBacklogRead (agent t : Nat) (v : Word) (s : State) : Out := .next (if s.here t then s.backlogAct agent t v else s)
/-- BACKLOG_READ_DONE. -/
def execBacklogReadDone (agent t : Nat) (s : State) : Out := .next (backlogReadDone agent t s)

end Sys2Proof.Machine
end

