-- ==== Sys2Proof/Machine/SlotPower.lean ====
section
/-! DEFINITION. Slot power channels (R353 to R371): commands, start checks, ramps, the thermal model, trips and retries,
power-good and PERST#, timed commands. -/

namespace Sys2Proof.Machine

/-! ### Registers (R371) -/

/-- SP_VIN of a channel's group. -/
def spVin (ch : Nat) : Nat := 0x00802000 + 4 * (ch / 16)
/-- SP_SEQ[e] word `w`. -/
def spSeq (e w : Nat) : Nat := 0x00802100 + 16 * e + 4 * w
/-- SP_STATUS.STATE. -/
def State.spState (s : State) (ch : Nat) : Nat := s.fld (spStatus ch) 2 0
/-- Write SP_STATUS.STATE. -/
def State.setSpState (s : State) (ch n : Nat) : State := s.setFld (spStatus ch) 2 0 n
/-- A channel's engine state. -/
def State.spSt (s : State) (ch : Nat) : SpSt := tget {} s.sp ch
/-- Change a channel's engine state. -/
def State.modSp (s : State) (ch : Nat) (f : SpSt → SpSt) : State := { s with sp := tmod {} s.sp ch f }
/-- Whether the gate is driven: RAMP, ON or STOPPING (R355). -/
def State.gateOn (s : State) (ch : Nat) : Bool := s.spState ch == 1 || s.spState ch == 2 || s.spState ch == 5
/-- MGR_OFF as it is in force: as the last tick left it (R48, R371). -/
def State.mgrOff (s : State) (ch : Nat) : Bool := (s.spSt ch).mgrOff
/-- ILIM in units of 25 µV: at most 2,000. -/
def State.ilim (s : State) (ch : Nat) : Nat := min 2000 (s.fld (spReg ch 4) 11 0)
/-- FAULT_TO in ticks. -/
def State.faultTo (s : State) (ch : Nat) : Nat :=
  [100, 200, 500, 1000, 2000, 5000, 10000, 20000, 50000].getD (s.fld (spReg ch 4) 17 14) 100000
/-- RSENSE in units of 10 µΩ. -/
def State.rsense (s : State) (ch : Nat) : Nat := s.fld (spReg ch 8) 15 0
/-- RTH in units of 1/256 °C/W. -/
def State.rth (s : State) (ch : Nat) : Nat := s.fld (spReg ch 0xC) 15 0
/-- CTH in units of 10 µJ/°C. -/
def State.cth (s : State) (ch : Nat) : Nat := s.fld (spReg ch 0xC) 31 16
/-- TBOARD in °C. -/
def State.tboard (s : State) (ch : Nat) : Int := sext 8 (s.fld (spReg ch 0x10) 7 0)
/-- TTRIP in °C. -/
def State.ttrip (s : State) (ch : Nat) : Int := (s.fld (spReg ch 0x10) 15 8 : Nat)
/-- Degrees in the model's units of 2^-16 °C. -/
def deg (t : Int) : Int := t * 65536

/-- The port whose enabled slot binds a channel in the lead set (R356). -/
def State.slotOf (s : State) (ch : Nat) : Option Nat :=
  ((s.copyOf s.leadEpoch).filterMap fun y =>
    match offTile y.1 with
    | some t =>
      let r := y.1 % 0x01000000
      let o := r % 0x00100000
      if 0x00100000 ≤ r ∧ 0x80 ≤ o ∧ o < 0xC0 then some (128 * t + 16 * (r / 0x00100000 - 1) + (o - 0x80) / 4) else none
    | none => none).find? fun port =>
      s.portEn s.leadEpoch port && s.cflag s.leadEpoch (slotCfg port) 0 && s.cflag s.leadEpoch (slotCfg port) 8 &&
        s.cfld s.leadEpoch (slotCfg port) 7 1 == ch

/-! ### Messages and records (R306, R370) -/

/-- Queue a slot signal toward a port's tile: 0 absent, 1 present, 2 attention button, 3 power fault, 4 power-good, 5
power-good withdrawn. -/
def State.sendSide (s : State) (port code : Nat) : State :=
  { s with host := { s.host with sideband := tmod [] s.host.sideband port (· ++ [code]) } }
/-- Send a signal of a bound channel. -/
def State.spMessage (s : State) (ch code : Nat) : State :=
  match s.slotOf ch with
  | some p => s.sendSide p code
  | none => s
/-- A SLOT_POWER record. -/
def State.spRecord (s : State) (ch cause : Nat) : State :=
  s.eventMgr 0x0110 15 (leBytes 1 (ch % 128) ++ leBytes 1 cause ++ leBytes 1 (s.spState ch) ++
    leBytes 1 (s.fld (spStatus ch) 13 10) ++ leBytes 2 (lowBits 16 ((s.spSt ch).temp / 1024)))

/-- Assert PERST# of a channel: the port of its slot goes link-down (R91, R367). -/
def State.perstAssert (s : State) (ch : Nat) : State :=
  if s.flag (spStatus ch) 8 then s
  else
    let s := s.setFlag (spStatus ch) 8 true
    match s.slotOf ch with
    | some p => if s.operates (tileOf p) then s.portDown p .portDown else s
    | none => s

/-- Withdraw power-good (R366). -/
def State.pgClear (s : State) (ch : Nat) : State :=
  let s := s.modSp ch fun k => { k with clear := 0 }
  if s.flag (spStatus ch) 6 then (s.setFlag (spStatus ch) 6 false).spMessage ch 5 else s
/-- The gate is turned off: power-good goes, PERST# is asserted, the channel enters a state. -/
def State.gateOff (s : State) (ch st : Nat) : State :=
  (((s.setSpState ch st).pgClear ch).modSp ch fun k => { k with timer := 0, latched := false }).perstAssert ch

/-! ### Start (R357, R358) -/

/-- The settings are sound (R358 condition 1), by exact arithmetic on the closed form: the model trips in fewer ticks than
the fault timer. VIN below VIN_MIN is taken at VIN_MIN, at which the ramp would start (DEDUCED, log entry 50). -/
def State.sound (s : State) (ch : Nat) : Bool :=
  let i := s.ilim ch
  let rs := s.rsense ch
  let r := s.rth ch
  let c := s.cth ch
  let vin := max (s.fld (spVin ch) 11 0) (s.fld 0x00802020 11 0)
  let rise := s.ttrip ch - s.tboard ch
  let num := rise * 10240 * (rs : Int)
  let den : Int := ((i * vin * r : Nat) : Int)
  i != 0 && rs != 0 && r != 0 && c != 0 && decide (2560 ≤ r * c) && decide (num < den) &&
    decide (den * ((5 * r * c - 128) ^ (s.faultTo ch - 1) : Nat) ≤ (den - num) * ((5 * r * c) ^ (s.faultTo ch - 1) : Nat))

/-- A ramp starts. -/
def State.ramp (s : State) (ch : Nat) : State :=
  ((s.setSpState ch 1).setFlag (spStatus ch) 14 false).modSp ch fun k => { k with timer := 0, clear := 0, latched := false }
/-- An enable fails: the channel stays OFF. -/
def State.startFail (s : State) (ch cause idx : Nat) : State :=
  let s := ((s.setFld (spStatus ch) 5 3 cause).sticky (spStatus ch) 15).setFlag (spStatus ch) 14 false
  ((s.countHk idx).spMessage ch 3).spRecord ch cause
/-- VIN of a channel's group is high enough to start. -/
def State.vinOk (s : State) (ch : Nat) : Bool := decide (s.fld 0x00802020 11 0 ≤ s.fld (spVin ch) 11 0)
/-- The start checks of an enable found in OFF. -/
def State.startCheck (s : State) (ch : Nat) : State :=
  let s := s.setFld (spStatus ch) 13 10 0
  if !s.sound ch then s.startFail ch 5 23
  else if !s.vinOk ch then s.setFlag (spStatus ch) 14 true
  else s.ramp ch

/-- An enable is applied (R357). -/
def State.spEnable (s : State) (ch : Nat) : State :=
  if s.mgrOff ch then s
  else match s.spState ch with
    | 0 => s.startCheck ch
    | 3 => s.setFld (spStatus ch) 13 10 0
    | 4 => (s.setFld (spStatus ch) 13 10 0).setSpState ch 3
    | 5 => s.modSp ch fun k => { k with heldEnable := true }
    | _ => s
/-- A disable is applied (R357). -/
def State.spDisable (s : State) (ch : Nat) : State :=
  let s := s.setFlag (spStatus ch) 14 false
  match s.spState ch with
  | 1 => (s.setSpState ch 5).perstAssert ch
  | 2 => (s.setSpState ch 5).perstAssert ch
  | 3 => s.setSpState ch 0
  | 4 => s.setSpState ch 0
  | 5 => s.modSp ch fun k => { k with heldEnable := false }
  | _ => s

/-- An enable held in STOPPING is applied once the gate is off (R357). No channel starts while the stage manager restarts
(R21): the enable stays held, and the first tick after the restart applies it (DEDUCED, log entry 110). -/
def State.heldStart (s : State) (ch : Nat) : State :=
  if (s.spSt ch).heldEnable && !s.ilulysReset then (s.modSp ch fun k => { k with heldEnable := false }).spEnable ch else s

/-- MGR_OFF is released: a bound channel whose slot is on starts an enable (R359). -/
def State.mgrFree (s : State) (ch : Nat) : State :=
  match s.slotOf ch with
  | some p => if (s.slotSt p).off then s else s.spEnable ch
  | none => s
/-- A command is refused on a bound channel (R356). -/
def State.spRefuse (s : State) (ch : Nat) : State := (s.sticky (spStatus ch) 17).countHk 22
/-- Apply a command: 0 enable, 1 disable, 2 MGR_OFF set, 3 MGR_OFF cleared. -/
def State.spApply (s : State) (ch op : Nat) (fromSlot : Bool) : State :=
  if op < 2 ∧ !fromSlot ∧ (s.slotOf ch).isSome then s.spRefuse ch
  else match op with
    | 0 => s.spEnable ch
    | 1 => s.spDisable ch
    | 2 => (s.modSp ch fun k => { k with mgrOff := true }).spDisable ch
    | _ => (s.modSp ch fun k => { k with mgrOff := false }).mgrFree ch
/-- Accept a command for the next tick. -/
def State.spAccept (s : State) (ch op : Nat) (fromSlot : Bool) : State :=
  s.modSp ch fun k => { k with cmds := k.cmds ++ [(op, fromSlot)] }
/-- A command reaches its channel: the one waiting like it is done with it. -/
def State.spCommand (s : State) (ch op : Nat) (fromSlot : Bool) : State :=
  if 128 ≤ ch || s.ilulysReset then s
  else (s.modSp ch fun k => { k with cmds := k.cmds.erase (op, fromSlot) }).spApply ch op fromSlot

/-- The effect of a write of SP_CTRL (R356, R359): its commands, MGR_OFF among them, are accepted for the next tick. -/
def State.spCtrlAct (s : State) (ch : Nat) (v : Word) : State :=
  let was := s.flag (spReg ch 0) 2
  let s := s.plainWrite (spReg ch 0) v
  let s := if bit v 0 then s.spAccept ch 0 false else s
  let s := if bit v 1 then s.spAccept ch 1 false else s
  if bit v 2 && !was then s.spAccept ch 2 false
  else if !bit v 2 && was then s.spAccept ch 3 false
  else s

/-- The effect of a write of a channel's settings. Only a tick's evaluation reads them, so they act from the next tick on (R48); a
change is noted for that tick. -/
def State.spCfgAct (s : State) (ch o : Nat) (v : Word) : State :=
  let old := s.lv (spReg ch o)
  let s := s.plainWrite (spReg ch o) v
  if s.lv (spReg ch o) != old then s.modSp ch fun k => { k with changed := true } else s
/-- The tick takes a change of settings: it puts a channel in COOL in FAULT (R365). -/
def State.spChanged (s : State) (ch : Nat) : State :=
  if !(s.spSt ch).changed then s
  else
    let s := s.modSp ch fun k => { k with changed := false }
    if s.spState ch = 3 then (((s.setFld (spStatus ch) 5 3 5).setSpState ch 4).countHk 20).spRecord ch 5 else s

/-! ### Trips (R360 to R364) -/

/-- A trip (R364). -/
def State.trip (s : State) (ch cause : Nat) : State :=
  let stopping := s.spState ch == 5
  let n := min 8 (s.fld (spStatus ch) 13 10 + 1)
  let cool := decide (n ≤ s.fld (spReg ch 4) 20 18)
  let s := ((s.setFld (spStatus ch) 5 3 cause).sticky (spStatus ch) 15).countHk (15 + cause)
  let s := s.gateOff ch (if stopping then 0 else if cool then 3 else 4)
  let s := if stopping then s else s.setFld (spStatus ch) 13 10 n
  let s := s.spMessage ch 3
  let s := if stopping || cool then s else s.countHk 20
  let s := s.spRecord ch cause
  if stopping then s.heldStart ch else s

/-- FAST_TRIP_LATCH (R362): the comparator latches while the gate is on. -/
def fastTripLatch (ch : Nat) (s : State) : State :=
  if ch < 128 && s.gateOn ch then s.modSp ch fun k => { k with latched := true } else s
/-- FAST_TRIP: the latch is taken at the tick. -/
def fastTrip (ch : Nat) (s : State) : State :=
  if ch < 128 && s.gateOn ch && (s.spSt ch).latched then s.trip ch 1 else s
/-- THERMAL_TRIP: the model has reached TTRIP while the gate is on. -/
def thermalTrip (ch : Nat) (s : State) : State :=
  if ch < 128 && s.gateOn ch then
    (s.modSp ch fun k => { k with temp := max k.temp (deg (s.ttrip ch)) }).trip ch 2
  else s
/-- FAULT_TIMER_TRIP: the fault timer has reached FAULT_TO while the channel is in limit. -/
def faultTimerTrip (ch : Nat) (s : State) : State :=
  if ch < 128 && s.gateOn ch && s.flag (spStatus ch) 7 then s.trip ch 3 else s

/-! ### The tick (R361, R363, R366) -/

/-- One step of the thermal model. The rule holds T to 2^-16 °C and states no rounding: it goes either way; with RTH, CTH or
RSENSE zero it states no T at all (free values, log entry 51). -/
def State.stepModel (s : State) (ch vsense drop : Nat) : State :=
  let rs := s.rsense ch
  let r := s.rth ch
  let c := s.cth ch
  let t := (s.spSt ch).temp
  let den : Int := ((102400 * rs * r * c : Nat) : Int)
  if rs = 0 ∨ r = 0 ∨ c = 0 then
    let n := s.freeN
    s.used.modSp ch fun k => { k with temp := if n % 2 = 0 then ((n / 2 : Nat) : Int) else -((n / 2 : Nat) : Int) - 1 }
  else
    let num : Int := ((16777216 * vsense * drop * r : Nat) : Int) - (t - deg (s.tboard ch)) * ((2621440 * rs : Nat) : Int)
    let q := num / den
    let up : Int := if num % den = 0 then 0 else ((s.freeBelow 2 : Nat) : Int)
    s.used.modSp ch fun k => { k with temp := t + q + up }

/-- Power-good is given (R366). -/
def State.pgGive (s : State) (ch : Nat) : State :=
  if s.flag (spStatus ch) 6 then s
  else
    let s := (s.setFlag (spStatus ch) 6 true).spMessage ch 4
    if s.spState ch = 1 then s.setSpState ch 2 else s
/-- Power-good is withdrawn at a tick with the gate on (R366, R367). -/
def State.pgLose (s : State) (ch : Nat) : State :=
  if !s.flag (spStatus ch) 6 then s.modSp ch fun k => { k with clear := 0 }
  else
    let s := s.pgClear ch
    if s.spState ch ≠ 2 then s
    else
      let s := ((s.sticky (spStatus ch) 16).countHk 21).spRecord ch 0
      if s.flag (spReg ch 4) 24 then s.perstAssert ch else s

/-- PG_MV in units of 10 mV. -/
def State.pgTh (s : State) (ch : Nat) : Nat := s.fld (spReg ch 8) 23 16 * 5

/-- What the stage manager has for a channel at its tick: changed settings, an enable that a restart kept waiting, the commands. -/
def State.spTake (s : State) (ch : Nat) : State :=
  if s.ilulysReset then s
  else
    let s := s.spChanged ch
    let s := if s.spState ch = 0 then s.heldStart ch else s
    (s.each (s.spSt ch).cmds fun s c => s.spApply ch c.1 c.2).modSp ch fun k => { k with cmds := [] }

/-- SLOT_POWER_TICK (R354, R363): samples, commands, model, trips, power-good. -/
def slotPowerTick (ch vsense vout vin : Nat) (inLimit : Bool) (s : State) : State :=
  if 128 ≤ ch then s
  else
    let s := s.setLv (spReg ch 0x18) (BitVec.ofNat 32 (vsense % 4096 + vout % 4096 * 65536))
    let s := s.setLv (spVin ch) (BitVec.ofNat 32 (vin % 4096 + b2n (decide (s.fld 0x00802020 11 0 ≤ vin % 4096)) * 4096))
    let s := s.spTake ch
    let on := s.gateOn ch
    let s := s.stepModel ch (if on then vsense % 4096 else 0) (vin % 4096 - vout % 4096)
    let s := s.setLv (spReg ch 0x1C) (BitVec.ofNat 32 (lowBits 16 ((s.spSt ch).temp / 1024)))
    let s := s.setFlag (spStatus ch) 7 (on && inLimit)
    if !on then s
    else if (s.spSt ch).latched then s.trip ch 1
    else if deg (s.ttrip ch) ≤ (s.spSt ch).temp then s.trip ch 2
    else if inLimit then
      let s := s.modSp ch fun k => { k with timer := k.timer + 1 }
      if s.faultTo ch ≤ (s.spSt ch).timer then s.trip ch 3 else s.pgLose ch
    else
      let s := s.modSp ch fun k => { k with timer := 0 }
      if vout % 4096 < s.pgTh ch then s.pgLose ch
      else
        let s := s.modSp ch fun k => { k with clear := min 2000 (k.clear + 1) }
        if 2000 ≤ (s.spSt ch).clear then s.pgGive ch else s

/-- POWER_GOOD (R366): 2,000 ticks clear of limit, with VOUT at the threshold, have passed. -/
def powerGood (ch : Nat) (s : State) : State :=
  if ch < 128 && (s.spState ch == 1 || s.spState ch == 2) && !s.flag (spStatus ch) 7 &&
      decide (s.pgTh ch ≤ s.fld (spReg ch 0x18) 27 16) then
    (s.modSp ch fun k => { k with clear := 2000 }).pgGive ch
  else s

/-! ### Timed transitions (R357, R358, R365, R367) -/

/-- STOPPING_GATE_OFF (R357): the gate is off; an enable held meanwhile is applied as in OFF. -/
def stoppingGateOff (ch : Nat) (s : State) : State :=
  if 128 ≤ ch || s.spState ch ≠ 5 then s
  else
    (s.gateOff ch 0).heldStart ch
/-- VIN_START (R358). -/
def vinStart (ch : Nat) (s : State) : State :=
  if ch < 128 && s.spState ch = 0 && s.flag (spStatus ch) 14 && s.vinOk ch && !s.ilulysReset then s.ramp ch else s
/-- VIN_LOW_TIMEOUT (R358). -/
def vinLowTimeout (ch : Nat) (s : State) : State :=
  if ch < 128 && s.spState ch = 0 && s.flag (spStatus ch) 14 && !s.ilulysReset then s.startFail ch 4 24 else s
/-- PERST_DEASSERT (R367): 100 ms after power-good. -/
def perstDeassert (ch : Nat) (s : State) : State :=
  if ch < 128 && s.spState ch = 2 && s.flag (spStatus ch) 6 then s.setFlag (spStatus ch) 8 false else s
/-- RETRY_START (R365): the cool-down has elapsed, and the junction has cooled to half its rise. -/
def retryStart (ch : Nat) (s : State) : State :=
  if ch < 128 && s.spState ch = 3 && !s.ilulysReset &&
      decide ((s.spSt ch).temp * 2 ≤ deg (s.tboard ch) * 2 + deg (s.ttrip ch - s.tboard ch)) then
    (s.ramp ch).countHk 19
  else s
/-- ATTEMPTS_RESET (R365): power-good has been held for 1 s. -/
def attemptsReset (ch : Nat) (s : State) : State :=
  if ch < 128 && s.flag (spStatus ch) 6 && !s.ilulysReset then s.setFld (spStatus ch) 13 10 0 else s

/-! ### Timed commands (R368) -/

/-- The time of an SP_SEQ entry. -/
def State.seqTime (s : State) (e : Nat) : Nat :=
  ftOf (s.fld (spSeq e 1) 15 0) (s.lv (spSeq e 0)).toNat (s.fld (spSeq e 2) 29 0)
/-- The effect of a write of SP_SEQ word 3: VALID arms the entry. -/
def State.seqAct (s : State) (e : Nat) (v : Word) : State :=
  let s := s.plainWrite (spSeq e 3) v
  let late := s.flag (spSeq e 3) 9 && decide (s.seqTime e < s.tm.ft)
  { s with seqLate := s.seqLate.filter (· != e) ++ if late then [e] else [] }
/-- The entry fires: VALID clears, DONE is set, and its command is applied as one that no slot sent (R356, R368). -/
def State.seqFires (s : State) (e : Nat) : State :=
  let late := s.seqLate.contains e
  let s := (s.setFlag (spSeq e 3) 9 false).setFlag (spSeq e 3) 11 true
  let s := if late then (s.setFlag (spSeq e 3) 10 true).countHk 25 else s
  let s := { s with seqLate := s.seqLate.filter (· != e) }
  let ch := s.fld (spSeq e 3) 6 0
  let op := s.fld (spSeq e 3) 8 7
  let s := if op = 2 then s.setFlag (spReg ch 0) 2 true else if op = 3 then s.setFlag (spReg ch 0) 2 false else s
  s.spApply ch op false
/-- SP_SEQ_FIRE (R32): an armed entry fires at the first whole microsecond of the master at or after its time. -/
def spSeqFire (e : Nat) (s : State) : State :=
  if 32 ≤ e || s.ilulysReset || !s.flag (spSeq e 3) 9 then s
  else (s.reach (·.tm.ft) (ceilDiv (max (s.seqTime e) s.tm.ft) 1000 * 1000)).seqFires e

/-! ### The meanings -/

/-- SP_ENABLE. -/
def execSpEnable (ch : Nat) (fromSlot : Bool) (s : State) : Out := .next (s.spCommand ch 0 fromSlot)
/-- SP_DISABLE. -/
def execSpDisable (ch : Nat) (fromSlot : Bool) (s : State) : Out := .next (s.spCommand ch 1 fromSlot)
/-- MGR_OFF_SET: a write of SP_CTRL with MGR_OFF = 1. -/
def execMgrOffSet (ch : Nat) (v : Word) (s : State) : Out :=
  .next (if ch < 128 && !s.ilulysReset then s.spCtrlAct ch (v ||| 4) else s)
/-- MGR_OFF_CLEAR: a write of SP_CTRL with MGR_OFF = 0. -/
def execMgrOffClear (ch : Nat) (v : Word) (s : State) : Out :=
  .next (if ch < 128 && !s.ilulysReset then s.spCtrlAct ch (v &&& 3) else s)
/-- SLOT_POWER_TICK. -/
def execSlotPowerTick (ch vsense vout vin : Nat) (inLimit : Bool) (s : State) : Out :=
  .next (slotPowerTick ch vsense vout vin inLimit s)
/-- FAST_TRIP_LATCH. -/
def execFastTripLatch (ch : Nat) (s : State) : Out := .next (fastTripLatch ch s)
/-- FAST_TRIP. -/
def execFastTrip (ch : Nat) (s : State) : Out := .next (fastTrip ch s)
/-- THERMAL_TRIP. -/
def execThermalTrip (ch : Nat) (s : State) : Out := .next (thermalTrip ch s)
/-- FAULT_TIMER_TRIP. -/
def execFaultTimerTrip (ch : Nat) (s : State) : Out := .next (faultTimerTrip ch s)
/-- STOPPING_GATE_OFF. -/
def execStoppingGateOff (ch : Nat) (s : State) : Out := .next (stoppingGateOff ch s)
/-- VIN_START. -/
def execVinStart (ch : Nat) (s : State) : Out := .next (vinStart ch s)
/-- VIN_LOW_TIMEOUT. -/
def execVinLowTimeout (ch : Nat) (s : State) : Out := .next (vinLowTimeout ch s)
/-- POWER_GOOD. -/
def execPowerGood (ch : Nat) (s : State) : Out := .next (powerGood ch s)
/-- PERST_DEASSERT. -/
def execPerstDeassert (ch : Nat) (s : State) : Out := .next (perstDeassert ch s)
/-- RETRY_START. -/
def execRetryStart (ch : Nat) (s : State) : Out := .next (retryStart ch s)
/-- ATTEMPTS_RESET. -/
def execAttemptsReset (ch : Nat) (s : State) : Out := .next (attemptsReset ch s)
/-- SP_SEQ_ARM: a write of SP_SEQ word 3 with VALID. -/
def execSpSeqArm (e : Nat) (v : Word) (s : State) : Out :=
  .next (if e < 32 && !s.ilulysReset then s.seqAct e (v ||| 0x200) else s)
/-- SP_SEQ_FIRE. -/
def execSpSeqFire (e : Nat) (s : State) : Out := .next (spSeqFire e s)

end Sys2Proof.Machine
end

