-- ==== Sys2Proof/Machine/Lanes.lean ====
section
/-! DEFINITION. Serial lanes (R49 to R72): training, equalisation and saved sets, loss of signal and of lock, quad PLLs,
markers, pattern mode, the lane mailbox; and the link states of PCI Express ports (R81 to R85). -/

namespace Sys2Proof.Machine

/-! ### Registers (R71) -/

/-- PB_PHY_CFG of a lane's port block. -/
def phyCfg (lane : Nat) : Nat := pbBase (pbOf lane) + 0x1090
/-- PB_EQ_CTRL of a lane's port block. -/
def eqCtrl (lane : Nat) : Nat := pbBase (pbOf lane) + 0x1094
/-- PB_MARGIN of a lane. -/
def marginReg (lane : Nat) : Nat := pbReg 0x1140 lane
/-- Whether a lane exists and its tile is there. -/
def State.laneHere (s : State) (l : Nat) : Bool := decide (l < 1024) && s.operates (tileOf l)
/-- The rate code of a lane, 7 not linked. -/
def State.laneRateCode (s : State) (l : Nat) : Nat := s.fld (laneStatus l) 2 0
/-- LOS_MV in mV: values outside 50 to 150 are clamped. -/
def State.losMv (s : State) (lane : Nat) : Nat := max 50 (min 150 (s.fld (phyCfg lane) 7 0))
/-- LOS_TIME in ns: 1 to 1,000 units of 100 ns. -/
def State.losTime (s : State) (lane : Nat) : Nat := max 1 (min 1000 (s.fld (phyCfg lane) 17 8)) * 100

/-! ### Test counts (R68, R70) -/

/-- A signed byte of PB_MARGIN, clamped to the sampler's range (R70). -/
def marginOfs (lim n : Nat) : Int := clampInt (-(lim : Int)) lim (sext 8 n)
/-- The eye that MARGIN_EYE selects at 64 GT/s: 0 lower, 1 middle, 2 upper. -/
def State.marginEye (s : State) (lane : Nat) : Nat :=
  if s.laneRateCode lane ≠ 5 then 0
  else match s.fld (laneCtrl lane) 7 6 with
    | 0 => 0
    | 2 => 2
    | _ => 1
/-- Whether a Margining Lane Control asks for a step of timing or voltage (log entry 61). -/
def stepping (v : Nat) : Bool := v / 8 % 8 == 3 || v / 8 % 8 == 4
/-- Whether the checker counts, for PB_TEST_CTRL or for a host's margining: locked on a pattern, or in mission mode, where it compares the margin sampler with the data
sampler (R68, R70). -/
def State.counting (s : State) (lane : Nat) : Bool :=
  (s.flag (testCtrl lane) 5 || stepping (s.laneSt lane).margin) &&
    if s.inPattern lane then s.flag (testCtrl lane) 6 else decide (s.laneRateCode lane ≤ 5) && s.flag (laneStatus lane) 4
/-- A lane's counts advance for what it has compared since they last did: how many bits is free, and how many of them the margin
sampler at its offsets finds in error, which the channel decides (R68, R70; log entry 52). They stick at their maximum. -/
def State.advanceCounts (s : State) (lane : Nat) : State :=
  if !s.counting lane then s
  else
    let a := s.freeN
    let m := s.lv (marginReg lane)
    let b := Config.marginErrors s.freeCtr (marginOfs 32 (field m 7 0)) (marginOfs 127 (field m 15 8)) (s.marginEye lane) % (a + 1)
    s.used.modLane lane fun k => { k with bits := satAdd (2 ^ 48 - 1) k.bits a, errs := satAdd (2 ^ 48 - 1) k.errs b }
/-- The checker loses its lock: what it counted until then stays counted. -/
def State.unlock (s : State) (lane : Nat) : State :=
  if s.flag (testCtrl lane) 6 then (s.advanceCounts lane).setFlag (testCtrl lane) 6 false else s

/-! ### Loss of signal and of lock: the reaction (R64) -/

/-- A linked port starts its Recovery, or its VFL retrain; one under way takes no second (R64). -/
def State.startRetrain (s : State) (port : Nat) : State :=
  if s.vflNow port then
    if s.linkUp (.port port) && !(s.linkSt (.port port)).stopped then s.otherRetrain (.port port) else s
  else s.modPort port fun k => { k with recovering := true }
/-- A lane is lost to its port (R64): the port retrains, or goes down when every lane is lost. -/
def State.laneLost (s : State) (lane : Nat) : State :=
  let s := s.modLane lane fun k => { k with bad := true }
  match s.portOfLane lane with
  | none => s
  | some p =>
    let w := s.fld (portStatus p) 3 1
    let used := (s.logical p).take (widthLanes w)
    if w = 0 || !used.contains lane then s
    else if used.all fun l => (s.laneSt l).bad then s.portDown p (if s.vflNow p then .vflDown else .portDown)
    else s.startRetrain p
/-- The skew measured of the lanes of a linked port, in units of 0.25 ns (R65): more than the field holds reads 255 (DESIGN CHOICE,
log entry 114), and more than 20 ns sets SKEW_FAIL and loses the lane. -/
def State.skewIn (s : State) (ls : List (Nat × Nat)) : State :=
  s.each ls fun s x =>
    let s := s.setFld (laneStatus x.1) 23 16 (min 255 x.2)
    if 80 < x.2 then (s.sticky (laneStatus x.1) 11).laneLost x.1 else s

/-! ### Training (R53 to R56) -/

/-- Whether a port may train: not held, not linked, no lane in pattern mode. -/
def State.mayTrain (s : State) (port : Nat) : Bool :=
  s.laneHere port && !s.linkHeld port && !s.dlActive port && !(s.lanesOf port).any fun l => s.inPattern l

/-- The quads of a port's lanes. -/
def State.quadsOf (s : State) (port : Nat) : List Nat := ((s.lanesOf port).map (· / 4)).eraseDups
/-- The quad PLLs of a port that L1 powered down run again. -/
def State.pllUp (s : State) (port : Nat) : State :=
  s.each (s.quadsOf port) fun s q =>
    if s.flag (quadStatus q) 2 then (s.setFlag (quadStatus q) 2 false).setFlag (quadStatus q) 0 true else s

/-- PARTNER_DETECTED (R56): Polling; a slot that takes presence from receiver detection shows it (R89). -/
def partnerDetected (port : Nat) (s : State) : State :=
  if !s.mayTrain port || (s.portSt port).train ≠ 0 || s.flag (laneCtrl port) 5 then s
  else
    let s := ((s.pllUp port).modPort port fun k => { k with train := 1 }).each (s.lanesOf port) fun s l =>
      ((s.setFlag (laneStatus l) 10 false).setFld (laneStatus l) 4 0 7).modLane l fun k => { k with bad := false }
    let s := s.setEi (s.lanesOf port)
    if s.cflag s.leadEpoch (slotCfg port) 0 && s.cflag s.leadEpoch (slotCfg port) 13 && !(s.slotSt port).present then
      s.modSlot port fun k => { k with present := true, presChanged := true }
    else s

/-- The credits that a port advertises in a class, headers and data (R81): 0 posted, 1 non-posted, 2 completions, by its width code;
127 headers and 2,047 data at most where scaled flow control is not in use. -/
def advertised (w : Nat) (scaled : Bool) (cls : Nat) : Nat × Nat :=
  let n := max 1 (widthLanes w)
  let full := if cls = 1 then (8 * n, 16 * n) else (16 * n, 256 * n)
  if scaled then full else (min 127 full.1, min 2047 full.2)
/-- A PCI Express port advertises its credits, as its link runs now (R76, R81): at 16 GT/s and above and in flit mode by scaled flow
control; in flit mode half of them dedicated and half shared. -/
def State.advertise (s : State) (port : Nat) : State :=
  let flit := s.flag (portStatus port) 7
  let scaled := flit || decide (3 ≤ s.fld (portStatus port) 6 4)
  let of := advertised (s.fld (portStatus port) 3 1) scaled
  let s := s.modPort port fun k => { k with given := [(0, of 0), (1, of 1), (2, of 2)] }
  s.each [0, 1, 2] fun s c =>
    if flit then (s.emit (.dllp port (5 + c) 0 ((of c).1 / 2) ((of c).2 / 2))).emit (.dllp port (8 + c) 0 ((of c).1 / 2) ((of c).2 / 2))
    else s.emit (.dllp port (5 + c) 0 (of c).1 (of c).2)

/-- DL_Active (R81, R90): the host's ports show it; a partition whose upstream link returns is freed (R334). -/
def State.linkActive (s : State) (port : Nat) : State :=
  let s := s.setFlag (portStatus port) 0 true
  if (s.partOfUp s.leadEpoch port).isSome then s.upstreamFree port else s.dllsc port

/-- Train a port's lanes at 2.5 GT/s: polarity, reversal, skew (R53, R65). -/
def State.lanesUp (s : State) (port : Nat) (reversed : Bool) (polInv skews : List Nat) : State :=
  let s := s.each (s.lanesOf port) fun s l =>
    let inv := if s.flag (laneCtrl l) 0 then polInv.contains (l - port) else s.flag (laneCtrl l) 1
    (s.setFlag (laneStatus l) 8 inv).setFlag (laneStatus l) 9 reversed
  s.skewIn ((s.lanesOf port).map fun l => (l, skews.getD (l - port) 0))
/-- The equalisation of a lane's first rate reads the saved sets, USE_SAVED and EXPECT_TAG once, at the start of its first phase
(R59 case); the next rate's when the one before is done. -/
def State.eqStart (s : State) (lane last : Nat) (skip : Bool) : State :=
  let use := s.flag (eqCtrl lane) 0
  let tag := s.fld (eqCtrl lane) 15 8
  s.modLane lane fun k => { k with eqSaved := k.saved, eqUse := use, eqTag := tag, eqLast := last, eqSkip := skip }
/-- The lanes of a width link at 2.5 GT/s. -/
def State.lanesLink (s : State) (ls : List Nat) : State :=
  s.each ls fun s l =>
    (((s.setFld (laneStatus l) 2 0 0).setFlag (laneStatus l) 4 true).setFlag (laneStatus l) 5 false).eqStart l 0 false

/-- LINK_UP_2G5 (R53 to R56): the width is the widest both ends and the good lanes allow. A partner of the other protocol
does not link. -/
def linkUp2g5 (port width : Nat) (reversed : Bool) (polInv skews : List Nat) (partnerVfl : Bool) (s : State) : State :=
  let e := s.tileEpoch (tileOf port)
  if !s.mayTrain port || (s.portSt port).train ≠ 1 || s.isVfl e port != partnerVfl then s
  else
    let noRev := reversed && s.cflag e (portCfg port) 9
    let s := s.lanesUp port (reversed && !noRev) polInv skews
    let held := fun l => s.flag (laneCtrl l) 5
    let bad := fun l => (s.laneSt l).bad
    let top := if noRev then 1 else min width (s.cfld e (portCfg port) 4 2)
    let lanes := s.logical port
    let hit := (lanes.take (widthLanes top)).any bad
    let w := goodWidth lanes (fun l => !held l && !bad l) top
    let s := s.each lanes fun s l => if held l || bad l then s.setFlag (laneStatus l) 10 true else s
    if w = 0 || (hit && !s.flag (phyCfg port) 18) || (s.isVfl e port && w < 3) then s.modPort port fun _ => {}
    else
      let s := (s.lanesLink (lanes.take (widthLanes w))).modPort port fun k => { k with train := 2, trainWidth := w }
      let s := s.setEi lanes
      if s.isVfl e port then s
      else (((s.setFld (portStatus port) 3 1 w).setFld (portStatus port) 6 4 0).advertise port).linkActive port

/-- VFL_CONFIRM_TIMEOUT (R55): back to Detect. -/
def vflConfirmTimeout (port : Nat) (s : State) : State :=
  if s.laneHere port && s.isVfl (s.tileEpoch (tileOf port)) port && (s.portSt port).train = 1 then
    ((s.modPort port fun _ => {}).setEi (s.lanesOf port)).count (tileOf port) .pbModeMismatch (some port)
  else s

/-- The highest rate code a port may use (R4, R51, R75). -/
def State.rateCap (s : State) (port : Nat) : Nat :=
  min (s.cfld (s.tileEpoch (tileOf port)) (portCfg port) 7 5) (if s.boot.sensed.getLsbD 1744 then 4 else 5)
/-- Whether the lanes of a width that have reported phases have reached the rate: equalisation goes rate by rate (R54, R55). A lane
that reported none had its phases without a saved set (log entry 115). -/
def State.eqReached (s : State) (ls : List Nat) (rate : Nat) : Bool :=
  ls.all fun l => (s.laneSt l).eqLast == 0 || (s.laneSt l).eqLast == rate

/-- SPEED_CHANGE_DONE (R54, R55, R75): the highest rate both ends allow, a VFL port over 32 GT/s. The lanes' skew is measured at
that rate too (R65). RATE is updated on every lane of the port (R56): the rate on the lanes linked, not linked (R71) on the others
(DEDUCED, log entry 140). -/
def speedChangeDone (port partnerRate : Nat) (partnerFlit : Bool) (skews : List Nat) (s : State) : State :=
  let e := s.tileEpoch (tileOf port)
  let vfl := s.isVfl e port
  let flit := !vfl && s.cflag e (portCfg port) 8 && partnerFlit
  let top := min (s.rateCap port) partnerRate
  let rate := if vfl then (if 5 ≤ top then 5 else 4) else if flit then top else min 4 top
  let w := if vfl then (s.portSt port).trainWidth else s.fld (portStatus port) 3 1
  let lanes := (s.logical port).take (widthLanes w)
  if !s.laneHere port || (s.portSt port).train < 2 || s.linkHeld port || !s.eqReached lanes rate then s
  else
    let s := s.each (s.lanesOf port) fun s l =>
      if lanes.contains l then (s.setFld (laneStatus l) 2 0 rate).setFlag (laneStatus l) 3 (rate == 5)
      else s.setFld (laneStatus l) 4 0 7
    let s := ((s.setFld (portStatus port) 6 4 rate).setFlag (portStatus port) 7 flit).setFld (portStatus port) 3 1 w
    let s := s.modPort port fun k => { k with train := 3, upAt := s.tm.now, marks := 0 }
    let s := if vfl then s else s.advertise port
    (s.setEi (s.lanesOf port)).skewIn (lanes.zip skews)

/-! ### Equalisation (R57 to R59) -/

/-- Whether a saved set validates (R59). -/
def setValid (v rate tag : Nat) : Bool :=
  decide (v / 2 ^ 48 = (crc16 (leBytes 6 v)).toNat) && decide (v / 2 ^ 40 % 8 = rate) && decide (v / 2 ^ 32 % 256 = tag)
/-- A saved set of converged values, with its tag, rate and check; C_M2 is 0 below 64 GT/s (R58). -/
def mkSet (conv rate tag : Nat) : Nat :=
  let c := if rate < 5 then conv / 64 * 64 else conv
  let b := c % 2 ^ 31 + tag % 256 * 2 ^ 32 + rate % 8 * 2 ^ 40
  b + (crc16 (leBytes 6 b)).toNat * 2 ^ 48
/-- Whether a lane's next equalisation is at a rate (R54, R55): of a port that trains, 8 to 64 GT/s in turn, or the highest rate
alone where both ends bypass the others; of a VFL port 32 and then 64 GT/s. -/
def State.eqTurn (s : State) (lane rate : Nat) : Bool :=
  match s.portOfLane lane with
  | none => false
  | some p =>
    let k := s.laneSt lane
    (s.portSt p).train == 2 && decide (2 ≤ rate ∧ rate ≤ s.rateCap p) &&
      if s.isVfl (s.tileEpoch (tileOf p)) p then rate == (if k.eqLast = 0 then 4 else k.eqLast + 1)
      else k.eqLast == 0 || (!k.eqSkip && rate == k.eqLast + 1)

/-- EQUALISATION_PHASE_DONE (R57 to R59): a validating set that reached its target was used; one that did not, or that does not
validate, was rejected. After a rejection the equalisation started from the presets, so EQ_SAVED_USED reads 0 (DEDUCED, log entry
113). -/
def equalisationPhaseDone (lane rate : Nat) (limitsOk reached : Bool) (conv : BitVec 64) (s : State) : State :=
  if !s.laneHere lane || !s.eqTurn lane rate then s
  else
    let k := s.laneSt lane
    let ok := k.eqUse && setValid (tget 0 k.eqSaved rate) rate k.eqTag && limitsOk && reached
    let s := s.setFlag (laneStatus lane) 12 ok
    let s := if k.eqUse && !ok then s.sticky (laneStatus lane) 13 else s
    let new := mkSet conv.toNat rate (s.fld (eqCtrl lane) 15 8)
    let s := s.modLane lane fun k => { k with inForce := new }
    let s := if s.flag (eqCtrl lane) 1 then s.modLane lane fun k => { k with saved := tset 0 k.saved rate new } else s
    s.eqStart lane rate (k.eqSkip || (k.eqLast == 0 && rate != 2))

/-! ### Electrical idle and link power (R60, R61, R84, R85) -/

/-- Every lane of a quad is in L1 or held (R61). -/
def State.quadIdle (s : State) (q : Nat) : Bool :=
  (List.range 4).all fun i =>
    let l := 4 * q + i
    s.flag (laneCtrl l) 5 || match s.portOfLane l with
      | some p => s.flag (portStatus p) 9 || s.linkHeld p
      | none => true
/-- Power down the quad PLLs that L1 allows to be powered down. -/
def State.pllDown (s : State) (port : Nat) : State :=
  s.each (s.quadsOf port) fun s q =>
    if s.flag (phyCfg (4 * q)) 19 && s.quadIdle q then (s.setFlag (quadStatus q) 2 true).setFlag (quadStatus q) 0 false else s

/-- The ASPM control of the host that owns a port's link (R84): bit 0 L0s, bit 1 L1. -/
def State.aspm (s : State) (port : Nat) : Nat :=
  match s.partOfUp s.leadEpoch port with
  | some p => (s.vport p 32).aspm
  | none => match s.vdpOf s.leadEpoch (s.slotOwner s.leadEpoch port) port with
    | some d => (s.vport (s.slotOwner s.leadEpoch port) d).aspm
    | none => 0
/-- Whether a PCI Express link is up with nothing to send. -/
def State.txIdle (s : State) (port : Nat) : Bool :=
  s.operates (tileOf port) && s.dlActive port && !s.vflNow port && !(s.portSt port).recovering &&
    !s.pkts.any fun p => p.loc == .egress && p.ports.contains port

/-- L0S_ENTRY (R84): below 64 GT/s, where ASPM permits. -/
def l0sEntry (port : Nat) (s : State) : State :=
  if s.txIdle port && decide (s.fld (portStatus port) 6 4 < 5) && s.aspm port % 2 == 1 then
    (s.setFlag (portStatus port) 8 true).setEi (s.lanesOf port)
  else s
/-- L1_ENTRY (R84): by ASPM where permitted, or on the partner's PCI-PM request. -/
def l1Entry (port : Nat) (pciPm : Bool) (s : State) : State :=
  if s.txIdle port && (pciPm || s.aspm port / 2 % 2 == 1) then
    (((s.setFlag (portStatus port) 9 true).setFlag (portStatus port) 8 false).pllDown port).setEi (s.lanesOf port)
  else s
/-- L0P_ENTRY (R84): a flit-mode port turns lanes off, down to a power-of-two width. -/
def l0pEntry (port width : Nat) (s : State) : State :=
  let w := s.fld (portStatus port) 3 1
  if s.operates (tileOf port) && s.dlActive port && s.flag (portStatus port) 7 && !s.vflNow port && 1 ≤ width && width < w then
    ((s.setFlag (portStatus port) 10 true).modPort port fun k => { k with l0pWidth := width }).setEi (s.lanesOf port)
  else s
/-- LINK_POWER_EXIT (R85): the port leaves L0s, L1 or its reduced width. -/
def linkPowerExit (port : Nat) (s : State) : State :=
  if !s.operates (tileOf port) || s.fld (portStatus port) 10 8 = 0 then s
  else
    (((s.pllUp port).setFld (portStatus port) 10 8 0).modPort port fun k => { k with l0pWidth := 0 }).setEi (s.lanesOf port)

/-- EI_EXIT_DETECT (R60): above 175 mV the exit is detected; below 65 mV the input is idle; between them the result is
unspecified (a free value). -/
def eiExitDetect (lane mv : Nat) (s : State) : State :=
  if !s.laneHere lane then s
  else
    let found := decide (175 < mv) || (decide (65 ≤ mv) && s.freeBelow 2 == 1)
    let s := s.used
    if !found then s
    else
      let s := s.setFlag (laneStatus lane) 5 false
      match s.portOfLane lane with
      | some p => if s.flag (portStatus p) 9 then linkPowerExit p s else s
      | none => s

/-! ### Loss of signal and of lock (R62 to R64) -/

/-- Whether a lane is expected to carry signal (R62): not in Detect, L0s, L1 or a turned-off L0p lane, and not while its port
changes its rate. -/
def State.expected (s : State) (lane : Nat) : Bool :=
  s.inPattern lane || match s.portOfLane lane with
    | some p =>
      let w := s.fld (portStatus p) 3 1
      let n := if (s.portSt p).l0pWidth = 0 then w else (s.portSt p).l0pWidth
      w != 0 && (s.portSt p).train != 2 && !s.flag (portStatus p) 8 && !s.flag (portStatus p) 9 &&
        ((s.logical p).take (widthLanes n)).contains lane
    | none => false

/-- LOS_DETECT (R62, R64): the input stayed at `mv` for `ns`, `eios` after an electrical-idle ordered set, which masks it. -/
def losDetect (lane mv ns : Nat) (eios : Bool) (s : State) : State :=
  if !s.laneHere lane || !s.flag (laneCtrl lane) 3 || !s.expected lane || eios || s.losMv lane ≤ mv || ns < s.losTime lane then s
  else
    let s := ((s.setFlag (laneStatus lane) 5 true).sticky (laneStatus lane) 6).count (tileOf lane) .pbLos (some lane)
    if s.inPattern lane then s.unlock lane else s.laneLost lane
/-- LANE_LOL (R63, R64): unlike loss of signal it has no mask but LOL_EN. -/
def laneLol (lane : Nat) (s : State) : State :=
  if !s.laneHere lane || !s.flag (laneCtrl lane) 4 then s
  else
    let s := ((s.setFlag (laneStatus lane) 4 false).sticky (laneStatus lane) 7).count (tileOf lane) .pbLol (some lane)
    if s.inPattern lane then s.unlock lane else s.laneLost lane

/-- QUAD_PLL_LOL (R63, R64): the transmitters idle; every linked port with a lane in the quad retrains. -/
def quadPllLol (q : Nat) (s : State) : State :=
  if 256 ≤ q || !s.operates (tileOf (4 * q)) || s.flag (quadStatus q) 2 then s
  else
    let ls := (List.range 4).map (4 * q + ·)
    let s := ((s.setFlag (quadStatus q) 0 false).sticky (quadStatus q) 1).count (tileOf (4 * q)) .pbQuadLol (some (4 * q))
    let s := (s.modLane (4 * q) fun k => { k with pllLost := true }).setEi ls
    s.each (ls.filterMap fun l => s.portOfLane l).eraseDups fun s p =>
      if s.fld (portStatus p) 3 1 = 0 then s else s.startRetrain p
/-- QUAD_PLL_RELOCK (R64): a lock after a loss counts; the first lock of a tile out of reset is none. -/
def quadPllRelock (q : Nat) (s : State) : State :=
  if 256 ≤ q || s.flag 0x00020808 5 || !s.operates (tileOf (4 * q)) || s.flag (quadStatus q) 0 || s.flag (quadStatus q) 2 then s
  else
    let n := if (s.laneSt (4 * q)).pllLost then satAdd 255 (s.fld (quadStatus q) 15 8) 1 else s.fld (quadStatus q) 15 8
    let s := ((s.setFlag (quadStatus q) 0 true).setFld (quadStatus q) 15 8 n).modLane (4 * q) fun k => { k with pllLost := false }
    s.setEi ((List.range 4).map (4 * q + ·))

/-- PCIE_RECOVERY_DONE (R64, R82): the port relinks at the widest width whose lanes are good, or goes down. A replay that
sent it into Recovery goes on. The skew is measured again (R65). -/
def pcieRecoveryDone (port : Nat) (goodLanes skews : List Nat) (s : State) : State :=
  let k := s.portSt port
  if !s.operates (tileOf port) || !s.dlActive port || s.vflNow port || !k.recovering then s
  else
    let lanes := s.logical port
    let cur := s.fld (portStatus port) 3 1
    let good := fun l => goodLanes.contains (l - port) && !s.flag (laneCtrl l) 5 && !s.flag (laneStatus l) 10
    let lost := (lanes.take (widthLanes cur)).any fun l => !goodLanes.contains (l - port)
    let w := goodWidth lanes good (s.cfld (s.tileEpoch (tileOf port)) (portCfg port) 4 2)
    if w = 0 || (lost && !s.flag (phyCfg port) 18) then s.portDown port .portDown
    else
      let s := ((s.relink port w good).modPort port fun k => { k with recovering := false }).setEi lanes
      let s := if k.rolls = 0 then s else s.each k.unacked fun s x => s.emit (.tlp port x.2 (s.ecrcOut x.2.epoch port))
      s.skewIn ((lanes.take (widthLanes w)).zip skews)

/-! ### Pattern generators (R67, R69) -/

/-- What a lane's generator sends: its pattern while GEN_EN is set and the lane is not held, with one bit in every 2^k inverted for
a k from 10 to 40. -/
def State.genOut (s : State) (lane : Nat) : Option GenOut :=
  let v := s.lv (testCtrl lane)
  let k := field v 13 8
  if s.inPattern lane && bit v 4 && !s.flag (laneCtrl lane) 5 then
    some { pattern := field v 3 0
           user := if field v 3 0 = 8 then (s.laneSt lane).user else 0
           inverted := s.flag (laneCtrl lane) 2
           every := if 10 ≤ k ∧ k ≤ 40 then some k else none }
  else none
/-- A change of what a generator sends goes out on its lane. -/
def State.genChange (s was : State) (lane : Nat) : State :=
  if s.genOut lane = was.genOut lane then s else s.emit (.generator lane (s.genOut lane))

/-- The effect of a write of PB_LANE_CTRL: EI_HOLD puts the lane in electrical idle; its release ends an exclusion (R64). -/
def State.laneCtrlAct (s : State) (lane : Nat) (v : Word) : State :=
  let was := s.flag (laneCtrl lane) 5
  let z := s
  let s := (s.advanceCounts lane).plainWrite (laneCtrl lane) v
  let s := if !bit v 5 && was then s.setFlag (laneStatus lane) 10 false else s
  let s := if bit v 5 != was then s.setEi [lane] else s
  s.genChange z lane
/-- The effect of a write of PB_MARGIN: what was counted at the old offsets stays counted (R70). -/
def State.marginAct (s : State) (lane : Nat) (v : Word) : State := (s.advanceCounts lane).plainWrite (marginReg lane) v

/-- A Margining Lane Control of the base specification (R70, R76; PRESUMED, log entry 61): bits 2:0 the receiver, of which the port's
own answers, bits 5:3 the margin type, bits 15:8 the payload. A timing or a voltage step sets PB_MARGIN's offset and starts the
count afresh; normal settings and a cleared error log end it. -/
def State.marginCmd (s : State) (lane : Nat) (own : Bool) (v : Nat) : State :=
  let s := (s.advanceCounts lane).modLane lane fun k => { k with margin := v % 65536 }
  let type := v / 8 % 8
  let pay := v / 256 % 256
  let clear := fun (s : State) => s.modLane lane fun k => { k with bits := 0, errs := 0, capErrs := 0 }
  let put := fun (s : State) hi lo (n : Nat) =>
    clear (s.marginAct lane (putField (s.lv (marginReg lane)) hi lo n))
  if v % 8 ≠ (if own then 1 else 6) then s
  else if type = 3 then put s 7 0 (if pay.testBit 6 then (256 - pay % 64) % 256 else pay % 64)
  else if type = 4 then put s 15 8 (if pay.testBit 7 then (256 - pay % 128) % 256 else pay % 128)
  else if type = 2 && pay == 0x0F then
    clear (s.marginAct lane (s.lv (marginReg lane) &&& ~~~0xFFFF#32))
  else if type = 2 && pay == 0x55 then clear s
  else s
/-- The Margining Lane Status that follows: the command echoed, with the errors counted so far for a step. -/
def State.marginStatus (s : State) (lane : Nat) : Nat :=
  let k := s.laneSt lane
  if stepping k.margin then k.margin % 256 + (128 + min 63 k.errs) * 256 else k.margin

/-! ### Markers (R66) -/

/-- SYNC of a marker. -/
def markSync : Nat := 0x4B1DE2A7
/-- The marker that a VFL transmitter sends on a logical lane: SYNC, LANE, SEQ, CHECK, PAD. -/
def markerOf (lane seq : Nat) : BitVec 128 :=
  let b := markSync + lane % 256 * 2 ^ 32 + seq % 256 * 2 ^ 40
  BitVec.ofNat 128 (b + (crc16 (leBytes 6 b)).toNat * 2 ^ 48 + 0xAAAAAAAAAAAAAAAA * 2 ^ 64)
/-- The lanes of a linked VFL port align once each holds a marker of one SEQ: the skew of each against the earliest is known, to the
nanosecond (R65, R66). -/
def State.align (s : State) (port : Nat) : State :=
  let ls := (s.logical port).take (widthLanes (s.fld (portStatus port) 3 1))
  match ls with
  | [] => s
  | l :: _ =>
    if ls.all fun k => (s.laneSt k).marker == (s.laneSt l).marker && (s.laneSt k).marker.isSome then
      let first := ls.foldl (fun m k => min m (s.laneSt k).markAt) (s.laneSt l).markAt
      s.skewIn (ls.map fun k => (k, 4 * ((s.laneSt k).markAt - first)))
    else s
/-- VFL_MARKER: used for alignment, order and compensation, or ignored on a bad check. -/
def vflMarker (lane : Nat) (m : BitVec 128) (s : State) : State :=
  let n := m.toNat
  if !s.laneHere lane || n / 2 ^ 48 % 65536 ≠ (crc16 (leBytes 6 n)).toNat || n % 2 ^ 32 ≠ markSync then s
  else match s.portOfLane lane with
    | some p =>
      if s.isVfl (s.tileEpoch (tileOf p)) p then
        ((s.modLane lane fun k => { k with marker := some (n / 2 ^ 40 % 256), markAt := s.tm.now }).setFlag (laneStatus lane) 9
          (decide (n / 2 ^ 32 % 256 ≠ lane - p))).align p
      else s
    | none => s
/-- MARKER_LOSS: three consecutive markers missed; the lane is handled as one with LOS. -/
def markerLoss (lane : Nat) (s : State) : State :=
  match s.portOfLane lane with
  | some p => if s.laneHere lane && s.vflNow p && !s.inPattern lane then
      (s.modLane lane fun k => { k with marker := none }).laneLost lane else s
  | none => s

/-! ### Pattern mode (R67 to R69) -/

/-- The lanes of a port that keep RATE and lock when a pattern write takes the port down: all of them. R67's worked example writes
every lane in turn after the first write has taken the port down, and each keeps its rate (DEDUCED, log entry 116). -/
def State.downForTest (s : State) (port : Nat) : State :=
  let ls := s.lanesOf port
  let old := ls.map fun l => s.fld (laneStatus l) 4 0
  let s := s.portDown port (if s.vflNow port then .vflDown else .portDown)
  s.each (ls.zip old) fun s x => s.setFld (laneStatus x.1) 4 0 x.2
/-- A lane has entered or left pattern mode. Entering takes its port down; leaving it, the port trains from Detect, so that no lane of
it out of pattern mode is linked. -/
def State.testMode (s : State) (lane : Nat) (was : Bool) : State :=
  match s.portOfLane lane with
  | none => if was then s.setFld (laneStatus lane) 4 0 7 else s
  | some p =>
    let s :=
      if s.inPattern lane then (if (s.portSt p).train ≠ 0 then s.downForTest p else s)
      else s.each ((s.lanesOf p).filter fun l => !s.inPattern l) fun s l => s.setFld (laneStatus l) 4 0 7
    s.setEi (s.lanesOf p)
/-- The effect of a write of PB_TEST_CTRL. A lane entering pattern mode keeps its rate; a pattern that changes, or a checker that is
turned off, loses lock. -/
def State.testAct (s : State) (lane : Nat) (v : Word) : State :=
  let z := s
  let was := s.inPattern lane
  let s := (s.advanceCounts lane).plainWrite (testCtrl lane) v
  let now := s.inPattern lane
  let s := if bit v 14 then s.modLane lane fun k => { k with bits := 0, errs := 0, capErrs := 0 } else s
  let s := if bit v 7 && now then s.emit (.bitInverted lane) else s
  let s := if now && bit v 5 then s else s.setFlag (testCtrl lane) 6 false
  let s := if now != was then s.testMode lane was else s.setEi [lane]
  s.genChange z lane

/-- CHECKER_LOCK (R68). -/
def checkerLock (lane : Nat) (s : State) : State :=
  if s.laneHere lane && s.inPattern lane && s.flag (testCtrl lane) 5 then s.setFlag (testCtrl lane) 6 true else s
/-- CHECKER_UNLOCK (R68). -/
def checkerUnlock (lane : Nat) (s : State) : State :=
  if s.laneHere lane then s.unlock lane else s

/-! ### The lane mailbox (R72) -/

/-- PB_LANE_MBX_SEL of a port block, the instance of a serving agent. -/
def laneSel (agent pb : Nat) : Nat := mbx agent (pbBase pb + 0x1180)
/-- The effect of a write of PB_LANE_MBX_SEL: VALID clears. -/
def State.laneMbxAct (s : State) (agent pb : Nat) (v : Word) : State := s.setLv (laneSel agent pb) (v &&& 0x10F0F#32)
/-- The value of a lane item. -/
def State.laneItem (s : State) (lane item : Nat) : Nat :=
  let k := s.laneSt lane
  if item = 0 then k.bits else if item = 1 then k.capErrs else if item = 2 then k.user
  else if 3 ≤ item ∧ item ≤ 6 then tget 0 k.saved (item - 1) else if item = 7 then k.inForce else 0
/-- LANE_MBX_DONE (R72): the two counts are captured together when the compared bits are read (DEDUCED, log entry 52). -/
def laneMbxDone (agent pb : Nat) (s : State) : State :=
  if 64 ≤ pb || !s.here (pb / 8) then s
  else
    let v := s.lv (laneSel agent pb)
    let lane := 16 * pb + field v 3 0
    let item := field v 11 8
    let s :=
      if bit v 16 then
        let d := (s.lv (laneSel agent pb + 4)).toNat + (s.lv (laneSel agent pb + 8)).toNat * 2 ^ 32
        if item = 2 then (s.modLane lane fun k => { k with user := d }).genChange s lane
        else if 3 ≤ item ∧ item ≤ 6 then s.modLane lane fun k => { k with saved := tset 0 k.saved (item - 1) d }
        else s
      else
        let s := if item = 0 then (s.advanceCounts lane).modLane lane fun k => { k with capErrs := k.errs } else s
        let d := s.laneItem lane item
        (s.setLv (laneSel agent pb + 4) (BitVec.ofNat 32 d)).setLv (laneSel agent pb + 8) (BitVec.ofNat 32 (d / 2 ^ 32))
    s.setFlag (laneSel agent pb) 31 true

/-! ### The meanings -/

/-- PARTNER_DETECTED. -/
def execPartnerDetected (port : Nat) (s : State) : Out := .next (partnerDetected port s)
/-- LINK_UP_2G5. -/
def execLinkUp2g5 (port width : Nat) (reversed : Bool) (polInv skews : List Nat) (partnerVfl : Bool) (s : State) : Out :=
  .next (linkUp2g5 port width reversed polInv skews partnerVfl s)
/-- VFL_CONFIRM_TIMEOUT. -/
def execVflConfirmTimeout (port : Nat) (s : State) : Out := .next (vflConfirmTimeout port s)
/-- EQUALISATION_PHASE_DONE. -/
def execEqualisationPhaseDone (lane rate : Nat) (limitsOk reached : Bool) (conv : BitVec 64) (s : State) : Out :=
  .next (equalisationPhaseDone lane rate limitsOk reached conv s)
/-- SPEED_CHANGE_DONE. -/
def execSpeedChangeDone (port : Nat) (partner : Partner) (skews : List Nat) (s : State) : Out :=
  .next (speedChangeDone port partner.rate partner.flit skews s)
/-- EI_EXIT_DETECT. -/
def execEiExitDetect (lane mv : Nat) (s : State) : Out := .next (eiExitDetect lane mv s)
/-- L0S_ENTRY. -/
def execL0sEntry (port : Nat) (s : State) : Out := .next (l0sEntry port s)
/-- L1_ENTRY. -/
def execL1Entry (port : Nat) (pciPm : Bool) (s : State) : Out := .next (l1Entry port pciPm s)
/-- L0P_ENTRY. -/
def execL0pEntry (port width : Nat) (s : State) : Out := .next (l0pEntry port width s)
/-- LINK_POWER_EXIT. -/
def execLinkPowerExit (port : Nat) (s : State) : Out := .next (linkPowerExit port s)
/-- LOS_DETECT. -/
def execLosDetect (e : LosEvent) (s : State) : Out := .next (losDetect e.lane e.mv e.ns e.eios s)
/-- LANE_LOL. -/
def execLaneLol (lane : Nat) (s : State) : Out := .next (laneLol lane s)
/-- QUAD_PLL_LOL. -/
def execQuadPllLol (q : Nat) (s : State) : Out := .next (quadPllLol q s)
/-- QUAD_PLL_RELOCK. -/
def execQuadPllRelock (q : Nat) (s : State) : Out := .next (quadPllRelock q s)
/-- PCIE_RECOVERY_DONE. -/
def execPcieRecoveryDone (port : Nat) (link : Recovery) (s : State) : Out :=
  .next (pcieRecoveryDone port link.good link.skews s)
/-- EI_HOLD_RELEASE: a write of PB_LANE_CTRL with EI_HOLD 0. -/
def execEiHoldRelease (lane : Nat) (v : Word) (s : State) : Out :=
  .next (if s.laneHere lane then s.laneCtrlAct lane (putBit v 5 false) else s)
/-- VFL_MARKER. -/
def execVflMarker (lane : Nat) (m : BitVec 128) (s : State) : Out := .next (vflMarker lane m s)
/-- MARKER_LOSS. -/
def execMarkerLoss (lane : Nat) (s : State) : Out := .next (markerLoss lane s)
/-- PATTERN_MODE_ENTER: a write of PB_TEST_CTRL with PATTERN not 0. -/
def execPatternModeEnter (lane : Nat) (v : Word) (s : State) : Out :=
  .next (if s.laneHere lane then s.testAct lane v else s)
/-- PATTERN_MODE_EXIT: a write of PB_TEST_CTRL with PATTERN 0. -/
def execPatternModeExit (lane : Nat) (v : Word) (s : State) : Out :=
  .next (if s.laneHere lane then s.testAct lane (putField v 3 0 0) else s)
/-- INJECT_ONE: a write of PB_TEST_CTRL with INJECT_ONE. -/
def execInjectOne (lane : Nat) (v : Word) (s : State) : Out :=
  .next (if s.laneHere lane then s.testAct lane (putBit v 7 true) else s)
/-- CNT_CLEAR: a write of PB_TEST_CTRL with CNT_CLEAR. -/
def execCntClear (lane : Nat) (v : Word) (s : State) : Out :=
  .next (if s.laneHere lane then s.testAct lane (putBit v 14 true) else s)
/-- CHECKER_LOCK. -/
def execCheckerLock (lane : Nat) (s : State) : Out := .next (checkerLock lane s)
/-- CHECKER_UNLOCK. -/
def execCheckerUnlock (lane : Nat) (s : State) : Out := .next (checkerUnlock lane s)
/-- LANE_MBX_READ: a write of PB_LANE_MBX_SEL with WRITE = 0. -/
def execLaneMbxRead (agent pb : Nat) (v : Word) (s : State) : Out :=
  .next (if pb < 64 && s.here (pb / 8) then s.laneMbxAct agent pb (putBit v 16 false) else s)
/-- LANE_MBX_WRITE: a write of PB_LANE_MBX_SEL with WRITE = 1. -/
def execLaneMbxWrite (agent pb : Nat) (v : Word) (s : State) : Out :=
  .next (if pb < 64 && s.here (pb / 8) then s.laneMbxAct agent pb (putBit v 16 true) else s)
/-- LANE_MBX_DONE. -/
def execLaneMbxDone (agent pb : Nat) (s : State) : Out := .next (laneMbxDone agent pb s)

end Sys2Proof.Machine
end

