-- ==== Sys2Proof/Machine/Ports.lean ====
section
/-! DEFINITION. PCI Express ports and slots (R81 to R91, R306): the data-link layer, link-down, Slot Control, slot signals;
the return of a service link (R30); PTM (R31). -/

namespace Sys2Proof.Machine

/-! ### Data-link layer (R81 to R83) -/

/-- PB_DL_CTRL.DOWN_AFTER of a port's block. -/
def State.downAfter (s : State) (port : Nat) : Nat := s.fld (pbBase (pbOf port) + 0x100) 1 0
/-- Whether a PCI Express link is active. -/
def State.pcieUp (s : State) (port : Nat) : Bool :=
  decide (port < 1024) && s.operates (tileOf port) && s.dlActive port && !s.vflNow port

/-- REPLAY_NUM_ROLLOVER (R82). -/
def replayNumRollover (port : Nat) (s : State) : State :=
  if !s.pcieUp port then s
  else
    let n := (s.portSt port).rolls + 1
    let s := s.modPort port fun k => { k with rolls := n, recovering := true }
    if s.downAfter port ≠ 0 && decide (s.downAfter port ≤ n) then
      let s := ((s.sticky (portStatus port) 14).count (tileOf port) .pbReplayDown (some port)).ownerAer port .replayRollover
      s.portDown port .portDown
    else s

/-- PCIE_LINK_DOWN (R83). -/
def pcieLinkDown (port : Nat) (s : State) : State := if s.pcieUp port then s.portDown port .portDown else s

/-- A cumulative credit count after a field of `m` values was received. -/
def creditTo (m old new : Nat) : Nat := if modSub m new old < m / 2 then old + modSub m new old else old
/-- The TLPs that an Ack or Nak of sequence number `n` leaves in the replay buffer: none before it (modulo 4,096). -/
def afterAck (l : List (Nat × Packet)) (n : Nat) : List (Nat × Packet) :=
  match l with
  | [] => []
  | x :: _ => if modSub 4096 n x.1 < 2048 then l.filter fun y => decide (modSub 4096 n x.1 < modSub 4096 y.1 x.1) else l

/-- DLLP_RECEIVE (R81): `kind` 0 Ack, 1 Nak, 2 to 4 UpdateFC for posted, non-posted and completions. Credits are the scaled
counts, modulo 2^12 headers and 2^16 data; a first count of 0 and 0 bounds nothing (log entry 30). -/
def dllpReceive (port kind n hdr dat : Nat) (s : State) : State :=
  if !s.pcieUp port then s
  else if kind < 2 then
    let old := (s.portSt port).unacked
    let left := afterAck old n
    let s := s.modPort port fun k => { k with unacked := left, rolls := if left.length < old.length then 0 else k.rolls }
    if kind = 1 then s.each left fun s x => s.emit (.tlp port x.2 (s.ecrcOut x.2.epoch port)) else s
  else if kind < 5 then
    s.modPort port fun k => { k with limit := tset none k.limit (kind - 2) (match tget none k.limit (kind - 2) with
      | none => if hdr = 0 ∧ dat = 0 then none else some (hdr % 4096, dat % 65536)
      | some l => some (creditTo 4096 l.1 (hdr % 4096), creditTo 65536 l.2 (dat % 65536))) }
  else s

/-- PTM_REQUEST (R31, R76): a PCI Express port answers with its tile's slave FT, modulo 2^64. -/
def ptmRequest (port : Nat) (s : State) : State :=
  if s.pcieUp port then s.emit (.ptmResponse port (s.tileFt (tileOf port) % 2 ^ 64)) else s

/-! ### Slots (R88 to R91) -/

/-- The physical port whose slot a virtual port controls: local, owned, with a Slot Capability (R88, R89). -/
def State.slotAt (s : State) (p d : Nat) : Option Nat :=
  let e := s.leadEpoch
  let port := s.vdpPort e p d
  if s.partEn e p && s.vdpEn e p d && s.vdpLocal e p d && s.slotOwner e port == p && s.portEn e port &&
      s.cflag e (slotCfg port) 0 && s.operates (tileOf port) then some port else none
/-- The slot-power channel of a slot with a Power Controller (R89). -/
def State.slotChan (s : State) (port : Nat) : Option Nat :=
  if s.cflag s.leadEpoch (slotCfg port) 8 then some (s.cfld s.leadEpoch (slotCfg port) 7 1) else none

/-- A Slot Control command reaches the Ilulys die: 0 power off, 1 power on, 2 indicators (R90, R91). -/
def State.slotDeliver (s : State) (port op : Nat) : State :=
  let s := s.modSlot port fun k => { k with waiting := true }
  if op = 2 then s.emit (.sidebandFrame (256 * (s.slotSt port).attn + (s.slotSt port).pwr) port)
  else match s.slotChan port with
    | some ch => if op = 1 then s.spAccept ch 0 true else (s.perstAssert ch).spAccept ch 1 true
    | none => s
/-- A Slot Control command is accepted at its tile: while the part is headless the latest is held (R90 case). A held
power-off takes the port link-down and asserts PERST# when it is delivered (DESIGN CHOICE, log entry 131). -/
def State.slotCommand (s : State) (port op : Nat) : State :=
  if s.headless (tileOf port) then s.modSlot port fun k => { k with held := some op } else s.slotDeliver port op

/-- SLOT_POWER_ON (R91): Power Controller Control 1 to 0. -/
def slotPowerOn (p d : Nat) (s : State) : State :=
  match s.slotAt p d with
  | some port => if (s.slotChan port).isSome && (s.slotSt port).off then
      (s.modSlot port fun k => { k with off := false }).slotCommand port 1 else s
  | none => s
/-- SLOT_POWER_OFF (R91): Power Controller Control 0 to 1. -/
def slotPowerOff (p d : Nat) (s : State) : State :=
  match s.slotAt p d with
  | some port => if (s.slotChan port).isSome && !(s.slotSt port).off then
      (s.modSlot port fun k => { k with off := true }).slotCommand port 0 else s
  | none => s
/-- SLOT_INDICATOR_WRITE (R90): only the indicators the slot has. -/
def slotIndicatorWrite (p d attn pwr : Nat) (s : State) : State :=
  match s.slotAt p d with
  | some port =>
    let hasA := s.cflag s.leadEpoch (slotCfg port) 10
    let hasP := s.cflag s.leadEpoch (slotCfg port) 11
    if !hasA && !hasP then s
    else (s.modSlot port fun k => { k with attn := if hasA then attn % 4 else k.attn, pwr := if hasP then pwr % 4 else k.pwr }).slotCommand
      port 2
  | none => s
/-- COMMAND_COMPLETED (R90). -/
def commandCompleted (port : Nat) (s : State) : State :=
  if (s.slotSt port).waiting then s.modSlot port fun k => { k with waiting := false, cmdDone := true } else s

/-- PRESENCE_SAMPLE (R90): the expanders' sample, of a slot that does not take presence in band. -/
def presenceSample (port : Nat) (present : Bool) (s : State) : State :=
  let e := s.leadEpoch
  if s.ilulysReset || !s.pwr.io || !s.portEn e port || !s.cflag e (slotCfg port) 0 || s.cflag e (slotCfg port) 13 ||
      (s.slotSt port).sampled = present then s
  else (s.modSlot port fun k => { k with sampled := present }).sendSide port (b2n present)
/-- ATTENTION_BUTTON (R90). -/
def attentionButton (port : Nat) (s : State) : State :=
  let e := s.leadEpoch
  if s.ilulysReset || !s.pwr.io || !s.portEn e port || !s.cflag e (slotCfg port) 0 || !s.cflag e (slotCfg port) 9 then s
  else s.sendSide port 2
/-- A slot signal is applied (R306). -/
def State.slotSignal (s : State) (port code : Nat) : State :=
  match code with
  | 0 => s.modSlot port fun k => { k with present := false, presChanged := true }
  | 1 => s.modSlot port fun k => { k with present := true, presChanged := true }
  | 2 => s.modSlot port fun k => { k with attnPressed := true }
  | 3 => s.modSlot port fun k => { k with fault := true }
  | _ => s
/-- SLOT_SIDEBAND_MESSAGE (R306): a slot's messages are applied in the order of their sampling. -/
def slotSidebandMessage (port : Nat) (s : State) : State :=
  if !s.operates (tileOf port) || s.headless (tileOf port) || s.ilulysReset then s
  else match tget [] s.host.sideband port with
    | [] => s
    | c :: cs => { s with host := { s.host with sideband := tset [] s.host.sideband port cs } }.slotSignal port c

/-! ### The return of a service link (R30, R90) -/

/-- SERVICE_LINK_RETURN: HEADLESS clears, the slave resynchronises, held slot commands are delivered. -/
def serviceLinkReturn (t : Nat) (s : State) : State :=
  if !s.operates t || !s.headless t || s.ilulysReset || s.fld bootStatus 3 0 = 5 then s
  else
    let s := (s.setFlag (tlStatus t) 0 false).modTm fun m => { m with slewing := tset false m.slewing t true }
    let s := s.each (s.slots.filter fun x => tileOf x.1 == t && x.2.held.isSome) fun s x =>
      match x.2.held with
      | some op => (s.modSlot x.1 fun k => { k with held := none }).slotDeliver x.1 op
      | none => s
    s.dieEventsOut

/-! ### The meanings -/

/-- REPLAY_NUM_ROLLOVER. -/
def execReplayNumRollover (port : Nat) (s : State) : Out := .next (replayNumRollover port s)
/-- PCIE_LINK_DOWN. -/
def execPcieLinkDown (port : Nat) (s : State) : Out := .next (pcieLinkDown port s)
/-- DLLP_RECEIVE. -/
def execDllpReceive (port kind n hdr dat : Nat) (s : State) : Out := .next (dllpReceive port kind n hdr dat s)
/-- PTM_REQUEST. -/
def execPtmRequest (port : Nat) (s : State) : Out := .next (ptmRequest port s)
/-- SLOT_POWER_ON. -/
def execSlotPowerOn (p d : Nat) (s : State) : Out := .next (slotPowerOn p d s)
/-- SLOT_POWER_OFF. -/
def execSlotPowerOff (p d : Nat) (s : State) : Out := .next (slotPowerOff p d s)
/-- SLOT_INDICATOR_WRITE. -/
def execSlotIndicatorWrite (p d attn pwr : Nat) (s : State) : Out := .next (slotIndicatorWrite p d attn pwr s)
/-- COMMAND_COMPLETED. -/
def execCommandCompleted (port : Nat) (s : State) : Out := .next (commandCompleted port s)
/-- PRESENCE_SAMPLE. -/
def execPresenceSample (port : Nat) (present : Bool) (s : State) : Out := .next (presenceSample port present s)
/-- ATTENTION_BUTTON. -/
def execAttentionButton (port : Nat) (s : State) : Out := .next (attentionButton port s)
/-- SLOT_SIDEBAND_MESSAGE. -/
def execSlotSidebandMessage (port : Nat) (s : State) : Out := .next (slotSidebandMessage port s)
/-- SERVICE_LINK_RETURN. -/
def execServiceLinkReturn (t : Nat) (s : State) : Out := .next (serviceLinkReturn t s)

end Sys2Proof.Machine
end

