-- ==== Sys2Proof/Machine/Telemetry.lean ====
section
/-! DEFINITION. Counters, snapshots, histograms, capture and box-office meters (R308 to R328): mailbox, wraps, the snapshot
bank, the latch at a minute mark, the collector and its ring. -/

namespace Sys2Proof.Machine

/-- Change the telemetry state. -/
def State.modTel (s : State) (f : TelSt → TelSt) : State := { s with tel := f s.tel }

/-! ### The counter mailbox (R313, R314) -/

/-- CT_CNT_SEL of a serving agent. -/
def cntSel (agent : Nat) : Nat := gmbx agent 0x00070000
/-- Whether a serving agent runs: a tile that is here, or the stage manager. -/
def State.agentHere (s : State) (agent : Nat) : Bool := if agent < 8 then s.here agent else agent == 8 && !s.ilulysReset
/-- Whether SPACE and NUM name a counter (R309, R313). -/
def counterNamed (space num : Nat) : Bool :=
  let b := num / 256
  let i := num % 256
  match space % 4, space with
  | _, 4 => decide (b < 8)
  | 0, _ => decide (b < 8 ∧ i < 160 ∨ b = 8 ∧ i < 64) && decide (space < 4)
  | 1, _ => decide (b < 8 ∧ i < 160) && decide (space < 4)
  | 2, _ => decide (b < 8 ∧ i < 160 ∨ b = 8 ∧ i < 64) && decide (space < 4)
  | _, _ => decide (b < 8 ∧ i < 160) && decide (space < 4)
/-- Whether the named counter cannot be reached: the Ilulys die in reset, or a tile's service link down. -/
def State.counterAway (s : State) (agent space num : Nat) : Bool :=
  let b := num / 256
  (decide (space = 0 ∨ space = 2) && b == 8 && s.ilulysReset) ||
    (agent == 8 && decide (b < 8) && s.here b && s.headless b)
/-- A counter as a capture takes it, the `i`th of one instant: an event of the last 20 ns may not be included, which is free (R315); it
counts in the next. -/
def State.captured (s : State) (key i : Nat) : Ctr :=
  let c := tget {} s.tel.ctr key
  let l := s.freshNow.filter fun x => x.key == key
  let n := l.foldl (fun n x => n + x.n) 0
  let d := if n = 0 then 0 else Config.freeNat (s.freeCtr + i) % (n + 1)
  if d ≤ c.n then { c with n := c.n - d } else { n := c.n + 2 ^ 48 - d, ovf := (l.head?.map (·.ovf)).getD false }
/-- A counter as the mailbox gives it: with NA, and zero where it is not available; zero for a tile that is absent or lost (R3, R346). -/
def State.countedAs (s : State) (agent space num : Nat) : Ctr × Bool :=
  if !counterNamed space num || s.counterAway agent space num then ({}, true)
  else if num / 256 < 8 && !s.here (num / 256) then ({}, false)
  else if space = 2 ∨ space = 3 then (tget {} s.tel.held (ctrKey space num), false)
  else (s.captured (ctrKey space num) 0, false)
/-- The effect of a write of CT_CNT_SEL (R314): VALID clears, the counter is captured, its live overflow bit clears after,
unless the wrap that set it is left out. -/
def State.cntAct (s : State) (agent : Nat) (v : Word) : State :=
  let v := v &&& 0xFFFF#32
  let space := field v 14 12
  let num := field v 11 0
  let c := s.countedAs agent space num
  let all := decide (c.1.n ≤ (s.ctr space num).n)
  let s := (s.used.setLv (cntSel agent) v).modTel fun k => { k with counted := tset none k.counted agent (some c) }
  if bit v 15 && !c.2 && (space = 0 || space = 1 || space = 4) && all then
    s.modTel fun k => { k with ctr := tmod {} k.ctr (ctrKey space num) fun c => { c with ovf := false } }
  else s
/-- COUNTER_READ. -/
def counterRead (agent : Nat) (v : Word) (s : State) : State := if s.agentHere agent then s.cntAct agent v else s
/-- COUNTER_READ_DONE: the capture stands in LO and HI and VALID is set. -/
def counterReadDone (agent : Nat) (s : State) : State :=
  match tget none s.tel.counted agent with
  | none => s
  | some c =>
    if !s.agentHere agent then s
    else
      let s := s.setLv (cntSel agent + 4) (BitVec.ofNat 32 c.1.n)
      let s := s.setLv (cntSel agent + 8)
        (BitVec.ofNat 32 (c.1.n / 2 ^ 32 % 65536 + b2n c.1.ovf * 2 ^ 16 + b2n c.2 * 2 ^ 17))
      (s.setFlag (cntSel agent) 31 true).modTel fun k => { k with counted := tset none k.counted agent none }

/-- COUNTER_WRAP (R312): the CT_WRAP record of a counter that has wrapped. -/
def counterWrap (block i : Nat) (s : State) : State :=
  match s.tel.wraps.find? fun x => x.2 == 256 * block + i with
  | none => s
  | some x =>
    let s := s.modTel fun k => { k with wraps := k.wraps.erase x }
    s.eventMgr 0x0150 (if block < 8 then block else 15) (leBytes 2 (x.2 % 65536) ++ leBytes 1 x.1)

/-- The effect of a write of CT_PROG[k] (R311): a changed selection clears the counter. -/
def State.progAct (s : State) (t k : Nat) (v : Word) : State :=
  let old := s.lv (ctProg t k)
  let s := s.plainWrite (ctProg t k) v
  if s.lv (ctProg t k) = old then s
  else s.modTel fun q => { q with
    ctr := tset {} q.ctr (ctrKey 0 (256 * t + 128 + k)) {}, fresh := q.fresh.filter fun x => x.key != 256 * t + 128 + k }
/-- CT_PROG_WRITE. -/
def ctProgWrite (t k : Nat) (v : Word) (s : State) : State := if s.here t && k < 32 then s.progAct t k v else s

/-! ### Snapshots (R316) -/

/-- CT_SNAP_CTRL. -/
def snapCtrl : Nat := 0x00070010
/-- The effect of a write of CT_SNAP_CTRL: ARM is ignored while a snapshot is armed. -/
def State.snapAct (s : State) (v : Word) : State :=
  let s := s.plainWrite snapCtrl v
  if bit v 0 && !s.flag snapCtrl 1 then
    ((s.setFlag snapCtrl 1 true).setFlag snapCtrl 2 false).modTel fun k => { k with snapDone := [] }
  else s
/-- Copy a block's event and slot counters into its snapshot bank. -/
def State.snapCopy (s : State) (b : Nat) : State :=
  let mine := s.tel.ctr.filter fun x => decide (x.1 / 4096 < 2) && x.1 / 256 % 16 == b
  let kept := s.tel.held.filter fun x => x.1 / 256 % 16 != b
  { s with
    freeCtr := s.freeCtr + mine.length
    tel := { s.tel with
      held := mine.zipIdx.foldl (fun h x => tset {} h (x.1.1 + 8192) (s.captured x.1.1 x.2)) kept
      snapDone := s.tel.snapDone ++ [b] } }
/-- The snapshot instant: of a tile, as its slave counter reads it; of the Ilulys die (8), the first whole microsecond of the
master at or after it. -/
def State.snapReach (s : State) (b : Nat) : State :=
  let at_ := s.ftWords 0x00070014
  if b < 8 then s.reach (·.tileFt b) at_ else s.reach (·.tm.ft) (ceilDiv (max at_ s.tm.ft) 1000 * 1000)
/-- SNAPSHOT: the snapshot instant at a block, 8 the Ilulys die. -/
def snapshot (b : Nat) (s : State) : State :=
  if !s.flag snapCtrl 1 || s.tel.snapDone.contains b || !s.agentHere b then s else (s.snapReach b).snapCopy b
/-- SNAPSHOT_DONE: every present tile and the Ilulys die have copied. -/
def snapshotDone (s : State) : State :=
  if s.flag snapCtrl 1 && (8 :: s.present).all s.tel.snapDone.contains then
    (s.setFlag snapCtrl 1 false).setFlag snapCtrl 2 true
  else s

/-! ### Histograms and capture (R319 to R322) -/

/-- The effect of a write of CT_HIST_CFG (R319). -/
def State.histAct (s : State) (t h : Nat) (v : Word) : State :=
  let s := s.plainWrite (ctHist t h) v
  if bit v 30 then
    s.modTel fun k => { k with ctr := (List.range 32).foldl (fun m b => tset {} m (ctrKey 4 (256 * t + 32 * h + b)) {}) k.ctr }
  else s
/-- HISTOGRAM_CLEAR. -/
def histogramClear (t h : Nat) (v : Word) (s : State) : State :=
  if s.here t && h < 8 then s.histAct t h (putBit v 30 true) else s
/-- The effect of a write of CT_CAP[c] word 0 (R321): EN set zeroes the producer index and the countdown. -/
def State.capAct (s : State) (t c : Nat) (v : Word) : State :=
  let was := s.flag (ctCap t c 0) 0
  let s := s.plainWrite (ctCap t c 0) v
  if bit v 0 && !was then (s.setFld (ctCap t c 7) 15 0 0).modCap t c fun k => { k with countdown := 0 } else s
/-- CAPTURE_ENABLE. -/
def captureEnable (t c : Nat) (v : Word) (s : State) : State :=
  if s.here t && c < 4 then s.capAct t c (putBit v 0 true) else s

/-- A 64-bit address held in two words, of which the low bits below `a` are not address bits. -/
def State.addr2 (s : State) (lo a : Nat) : Nat := (s.lv lo).toNat / a * a + (s.lv (lo + 4)).toNat * 2 ^ 32
/-- CAPTURE_RECORD_WRITE (R322): the oldest queued record is written, then the producer index to the shadow word. -/
def captureRecordWrite (t c : Nat) (s : State) : State :=
  let e := s.tileEpoch t
  let w := s.lv (ctCap t c 0)
  let p := field w 28 21
  match (s.cap t c).queue with
  | [] => s
  | r :: rs =>
    if !s.here t || 4 ≤ c then s
    else
      let s := s.modCap t c fun k => { k with queue := rs }
      if !s.partEn e p then s
      else
        let i := s.fld (ctCap t c 7) 15 0
        let svc := field w 12 10
        let s := s.hostWriteAs svc e t p none false none .write (s.addr2 (ctCap t c 3) 128 + i % s.capSize t c * 128) r
        let s := s.setFld (ctCap t c 7) 15 0 ((i + 1) % 65536)
        s.hostWriteAs svc e t p none false none .write (s.addr2 (ctCap t c 5) 4) (leBytes 4 ((i + 1) % 65536))

/-! ### Box-office meters (R323 to R327) -/

/-- CT_BO_CFG. -/
def boCfg : Nat := 0x00070020
/-- CT_BO_INDEX. -/
def boIndex : Nat := 0x00070034
/-- CT_BO_STATUS. -/
def boStatus : Nat := 0x00070038
/-- The meter ring's size in records. -/
def State.boSize (s : State) : Nat :=
  let n := s.fld boCfg 5 1
  2 ^ (if 12 ≤ n ∧ n ≤ 16 then n else 12)
/-- Free places of the meter ring. -/
def State.boRoom (s : State) : Nat := s.boSize - modSub 65536 (s.fld boIndex 15 0) (s.fld boIndex 31 16)
/-- The fields of an accumulator set in record order. -/
def Bo.list (b : Bo) : List Nat := [b.green, b.yellow, b.egress, b.engine, b.aperture, b.discard, b.work]
/-- An accumulator set from its fields. -/
def Bo.ofList (l : List Nat) : Bo :=
  { green := l.getD 0 0, yellow := l.getD 1 0, egress := l.getD 2 0, engine := l.getD 3 0, aperture := l.getD 4 0
    discard := l.getD 5 0, work := l.getD 6 0 }
/-- Sum two accumulator sets. -/
def Bo.plus (a b : Bo) : Bo := Bo.ofList ((a.list.zip b.list).map fun x => x.1 + x.2)
/-- The largest value of a record's field. -/
def boMax : Nat := 2 ^ 40 - 1
/-- A byte field of a record in 64-byte units, what is carried, and whether it saturates (R325). -/
def boUnits (bytes carry : Nat) : Nat × Nat × Bool :=
  let n := bytes + carry
  if boMax < n / 64 then (boMax, 0, true) else (n / 64, n % 64, false)
/-- The fields of a record: value, carry, saturation; WORK is a count. -/
def boFields (b c : Bo) : List (Nat × Nat × Bool) :=
  (((b.list.zip c.list).take 6).map fun x => boUnits x.1 x.2) ++ [(min boMax b.work, 0, decide (boMax < b.work))]
/-- A meter record (R326). -/
def boRecord (mark seat : Nat) (fs : List (Nat × Nat × Bool)) (flags minutes tiles : Nat) : List Byte :=
  let sat := fs.zipIdx.foldl (fun n x => n + b2n x.1.2.2 * 2 ^ x.2) 0
  let b := leBytes 6 mark ++ leBytes 2 (seat % 4096) ++ (fs.map fun f => leBytes 5 f.1).flatten ++
    leBytes 2 (sat + flags) ++ leBytes 1 minutes ++ leBytes 1 tiles ++ List.replicate 13 0
  b ++ leBytes 4 (crc32c b).toNat

/-- Write one record and the index, and the shadow word where it is enabled (R324). -/
def State.boWrite (s : State) (r : List Byte) : State :=
  let e := s.leadEpoch
  let p := s.seatPart e 0
  let t := s.collector
  let i := s.fld boIndex 15 0
  let s := s.hostWrite e t p none true none .write (s.addr2 0x00070024 64 + i % s.boSize * 64) r
  let s := s.setFld boIndex 15 0 ((i + 1) % 65536)
  if s.flag boCfg 6 then s.hostWrite e t p none true none .write (s.addr2 0x0007002C 4) (leBytes 4 ((i + 1) % 65536)) else s

/-- The records of one skipped mark: each bound seat, with zero counts (R327 case). -/
def State.stepRecords (s : State) (mark : Nat) : List (List Byte) :=
  (ascend (s.boundSeats s.leadEpoch)).map fun k => boRecord mark k (boFields {} {}) 256 1 0
/-- Whether the collector holds records that it has not written. -/
def State.boUnwritten (s : State) : Bool := !s.tel.recs.isEmpty || s.tel.steps.2 != 0 || s.tel.collecting
/-- Write records while the ring has room (R326). -/
def State.boPump (s : State) : Nat → State
  | 0 => s
  | f + 1 =>
    if !s.flag boCfg 0 || s.boRoom = 0 || !s.bound s.leadEpoch 0 then s
    else match s.tel.recs with
      | r :: rs => ((s.modTel fun k => { k with recs := rs }).boWrite r).boPump f
      | [] =>
        if s.tel.steps.2 = 0 then s
        else
          let m := s.tel.steps.1
          (s.modTel fun k => { k with recs := s.stepRecords m, steps := (m + 60, k.steps.2 - 1) }).boPump f
/-- Write what the ring takes. -/
def State.boDrain (s : State) : State := s.boPump (2 * s.boRoom)

/-- The collector makes a minute's records: ascending seats, bound ones and those unbound since (R324 to R327). -/
def State.boClose (s : State) : State :=
  let k := s.tel
  let missing := s.part.tiles.filter fun t => !k.gotTiles.contains t
  let tiles := missing.foldl (fun n t => n + 2 ^ t) 0
  let seats := ascend (s.boundSeats s.leadEpoch ++ k.finals)
  let made := seats.map fun n => (n, boFields (tget {} k.sum n) (tget {} k.carry n))
  let flags := fun n => b2n k.unqual * 128 + b2n k.stepped * 256 + b2n (k.rebound.contains n) * 512 +
    b2n (k.finals.contains n) * 1024 + b2n (tiles != 0) * 2048
  let recs := made.map fun x => boRecord k.mark x.1 x.2 (flags x.1) (min 255 k.minutes) tiles
  let carry := made.foldl (fun m x =>
    tset {} m x.1 (if k.finals.contains x.1 then {} else Bo.ofList (x.2.map fun f => f.2.1))) k.carry
  let s := s.modTel fun k => { k with recs := k.recs ++ recs, carry := carry, sum := [], rebound := [], finals := []
                                      collecting := false, stepped := false, unqual := false }
  let s := if tiles != 0 && !seats.isEmpty then s.sticky boStatus 1 else s
  let s := if made.any fun x => x.2.any fun f => f.2.2 then s.sticky boStatus 2 else s
  s.boDrain

/-- The minute mark at or before an FT, in seconds. -/
def markOf (ft : Nat) : Nat := ft / nsPerSec / 60 * 60
/-- The first skipped interval that holds a minute mark (R33). -/
def State.skipMark (s : State) : Option (Nat × Nat) := s.tm.skipped.find? fun x => markOf x.1 != markOf x.2

/-- A new mark: latched, or deferred while the collector holds unwritten records, up to 255 times (R326). -/
def State.newMark (s : State) (m : Nat) : State :=
  let held := s.fld boStatus 10 3
  let s := s.modTel fun k => { k with markAt := m }
  if s.boUnwritten && held < 255 then
    ((s.setFld boStatus 10 3 (held + 1)).sticky boStatus 0).modTel fun k => { k with deferred := true }
  else
    let st := s.skipMark
    let first := match st with
      | some x => markOf x.1 + 60
      | none => m
    let s := (s.setFld boStatus 10 3 0).modTel fun k => { k with
      deferred := false, collecting := true, mark := first, minutes := held + 1, latchedTiles := [], gotTiles := []
      stepped := st.isSome, unqual := false, steps := (first + 60, (m - first) / 60) }
    s.modTm fun q => { q with skipped := [] }

/-- MINUTE_MARK_LATCH (R324): the tile latches and zeroes its accumulators. -/
def minuteMarkLatch (t : Nat) (s : State) : State :=
  if !s.here t then s
  else
    let m := markOf (s.tileFt t)
    let s := if s.tel.markAt < m then s.newMark m else s
    if s.tel.deferred || s.tel.latchedTiles.contains t || !s.tel.collecting then s
    else
      let unq := !s.flag (slaveStatus t) 8
      s.modTel fun k =>
        let mine := fun (x : Nat × Bo) => x.1 / 4096 == t
        { k with latched := (k.bo.filter mine).foldl (fun l x => tmod {} l x.1 x.2.plus) k.latched
                 bo := k.bo.filter fun x => !mine x
                 latchedTiles := k.latchedTiles ++ [t], unqual := k.unqual || unq }

/-- BO_CONTRIBUTION (R324, R327): a tile's latched contribution is summed; the last one closes the minute. One that comes late
is added to the next record. -/
def boContribution (t : Nat) (s : State) : State :=
  if !s.tel.latchedTiles.contains t || s.tel.gotTiles.contains t || !s.here t then s
  else
    let s := s.modTel fun k =>
      let mine := fun (x : Nat × Bo) => x.1 / 4096 == t
      { k with sum := (k.latched.filter mine).foldl (fun l x => tmod {} l (x.1 % 4096) x.2.plus) k.sum
               latched := k.latched.filter fun x => !mine x
               gotTiles := k.gotTiles ++ [t] }
    if s.tel.collecting && s.part.tiles.all s.tel.gotTiles.contains then s.boClose else s
/-- BO_COLLECT_DEADLINE (R327): 10 ms after the mark. -/
def boCollectDeadline (s : State) : State := if s.tel.collecting then s.boClose else s

/-- The effect of a write of CT_BO_INDEX (R326): SW frees ring space. -/
def State.boIndexAct (s : State) (v : Word) : State := (s.plainWrite boIndex v).boDrain
/-- The effect of a write of CT_BO_CFG: EN lets the collector write what it holds. -/
def State.boCfgAct (s : State) (v : Word) : State := (s.plainWrite boCfg v).boDrain

/-! ### The meanings -/

/-- COUNTER_READ. -/
def execCounterRead (agent : Nat) (v : Word) (s : State) : Out := .next (counterRead agent v s)
/-- COUNTER_READ_DONE. -/
def execCounterReadDone (agent : Nat) (s : State) : Out := .next (counterReadDone agent s)
/-- COUNTER_WRAP. -/
def execCounterWrap (block i : Nat) (s : State) : Out := .next (counterWrap block i s)
/-- CT_PROG_WRITE. -/
def execCtProgWrite (t k : Nat) (v : Word) (s : State) : Out := .next (ctProgWrite t k v s)
/-- SNAPSHOT_ARM: a write of CT_SNAP_CTRL with ARM. -/
def execSnapshotArm (v : Word) (s : State) : Out := .next (s.snapAct (v ||| 1))
/-- SNAPSHOT. -/
def execSnapshot (b : Nat) (s : State) : Out := .next (snapshot b s)
/-- SNAPSHOT_DONE. -/
def execSnapshotDone (s : State) : Out := .next (snapshotDone s)
/-- HISTOGRAM_CLEAR. -/
def execHistogramClear (t h : Nat) (v : Word) (s : State) : Out := .next (histogramClear t h v s)
/-- CAPTURE_ENABLE. -/
def execCaptureEnable (t c : Nat) (v : Word) (s : State) : Out := .next (captureEnable t c v s)
/-- CAPTURE_RECORD_WRITE. -/
def execCaptureRecordWrite (t c : Nat) (s : State) : Out := .next (captureRecordWrite t c s)
/-- MINUTE_MARK_LATCH. -/
def execMinuteMarkLatch (t : Nat) (s : State) : Out := .next (minuteMarkLatch t s)
/-- BO_CONTRIBUTION. -/
def execBoContribution (t : Nat) (s : State) : Out := .next (boContribution t s)
/-- BO_COLLECT_DEADLINE. -/
def execBoCollectDeadline (s : State) : Out := .next (boCollectDeadline s)
/-- BO_INDEX_SW_WRITE. -/
def execBoIndexSwWrite (v : Word) (s : State) : Out := .next (s.boIndexAct v)

end Sys2Proof.Machine
end

