-- ==== Sys2Proof/Machine/Rings.lean ====
section
/-! DEFINITION. Rings (R283 to R291): set-up and enable, fetches, records, shadows and signals; MSI-X and INTx (R279,
R292, R293). -/

namespace Sys2Proof.Machine

/-! ### Set-up (R283) -/

/-- RM_RING[r].CQ_RING. -/
def State.cmdCq (s : State) (r : Nat) : Nat := s.fld (ringReg r 0) 31 16

/-- The conditions of R283 on an enable, over the set-up that the write leaves. -/
def State.ringCfgOk (s : State) (r : Nat) : Bool :=
  let log := s.fld (ringReg r 0) 7 3
  let cq := s.cmdCq r
  decide (4 ≤ log ∧ log ≤ 16) &&
    (s.ringType r != 3 || (s.ringOwner s.leadEpoch r == some 0 && s.ringType cq == 1 &&
      s.ringOwner s.leadEpoch cq == some 0))

/-- Enable a ring, or refuse with CFG_ERR (R283). -/
def State.ringOn (s : State) (r : Nat) : State :=
  if s.ringCfgOk r then
    let s := ((s.setFlag (ringReg r 0) 0 true).setLv (ringReg r 6) 0).setFlag (ringReg r 7) 3 false
    s.modRing r fun q => { q with paused := false, sinceSig := 0, firstUnsig := none, shadowDue := false }
  else s.setFlag (ringReg r 7) 3 true

/-- Disable a ring (R283): its unwritten event records are lost (R289). -/
def State.ringOff (s : State) (r : Nat) : State :=
  let n := (s.ringSt r).evs.length
  let s := s.setFlag (ringReg r 0) 0 false
  if n = 0 then s
  else (s.setFld (ringReg r 7) 31 16 (satAdd 65535 (s.fld (ringReg r 7) 31 16) n)).modRing r fun q => { q with evs := [] }

/-- The set-up fields of word 0: TYPE, SIZE_LOG2, CQ_RING. -/
def setupMask : Word := 0xFFFF00FE#32

/-- A write of word 0 of a ring (R283): a set-up field that the write would change while it is closed is ignored and
marked. -/
def State.ringWord0 (s : State) (r : Nat) (v : Word) : State :=
  let o := ringReg r 0
  let isOpen := !s.ringEn r && !s.ringBusy r
  let free : Word := 0x300#32
  let m := if isOpen then setupMask ||| free else free
  let s := if !isOpen && (v &&& setupMask) != (s.lv o &&& setupMask) then s.sticky (ringReg r 7) 4 else s
  let s := s.setLv o ((s.lv o &&& ~~~m) ||| (v &&& m))
  if bit v 0 then (if s.ringEn r then s else s.ringOn r)
  else if s.ringEn r then s.ringOff r else s

/-- A write of word `w` of RM_RING[r] (R283, R286, R307). -/
def State.ringWrite (s : State) (r w : Nat) (v : Word) : State :=
  if 65536 ≤ r then s
  else if w = 0 then s.ringWord0 r v
  else if 1 ≤ w ∧ w ≤ 4 then
    if s.ringEn r || s.ringBusy r then s.sticky (ringReg r 7) 4 else s.plainWrite (ringReg r w) v
  else s.plainWrite (ringReg r w) v

/-- RING_ENABLE (R283): a write of word 0 with EN = 1. -/
def ringEnable (r : Nat) (v : Word) (s : State) : State := s.ringWrite r 0 (putBit v 0 true)
/-- RING_DISABLE (R283): a write of word 0 with EN = 0. -/
def ringDisable (r : Nat) (v : Word) (s : State) : State := s.ringWrite r 0 (putBit v 0 false)
/-- RING_FETCH_RESUME (R286): a write of word 7 with FETCH_ERR. -/
def ringFetchResume (r : Nat) (v : Word) (s : State) : State := s.ringWrite r 7 (putBit v 2 true)

/-! ### Fetching (R285) -/

/-- Whether a pause of fetching stands (R209, R214, R253): the buffer that paused it is full still, or a WIN_OPEN of the
ring is held at a disabled unit. -/
def State.ringPaused (s : State) (r : Nat) : Bool :=
  (s.ringSt r).paused &&
    ((s.present.any fun t => decide (256 ≤ s.missUsed t) ||
        decide (8192 ≤ s.eng.wrs.countP fun k => k.tile == t && k.st == .held)) ||
      s.pu.held.any fun h => match h.item with
        | .work ring d _ => ring == r && d.opcode == 0x10
        | _ => false)

/-- The entries of the next fetch: at most 8, across neither the ring's end nor a 4 KiB boundary. -/
def State.fetchLen (s : State) (r : Nat) : Nat :=
  let k := s.hwIndex r % s.ringLen r
  let a := s.ringBase r + 64 * k
  min (min 8 (modSub 65536 (s.swIndex r) (s.hwIndex r))) (min (s.ringLen r - k) ((4096 - a % 4096) / 64))

/-- Issue a ring's fetch: a DMA read with the fabric function's RID and the owner's PASID (R285); without Bus Master Enable
it ends as in blackout (R280). -/
def State.fetchStart (s : State) (r seat : Nat) : State :=
  let e := s.leadEpoch
  let t := s.seatHome e seat
  let p := s.seatPart e seat
  let n := s.fetchLen r
  if !s.canIssue p then s.ringFail r 0
  else
    let s := s.modRing r fun q => { q with fetching := true, fetchN := n, paused := false }
    s.hostRead (s.tileEpoch t) t p (some seat) (seat == 0) (s.seatPasid e seat) (.ringFetch r)
      (s.ringBase r + 64 * (s.hwIndex r % s.ringLen r)) (64 * n)

/-- Whether a ring may issue a fetch now. -/
def State.canFetch (s : State) (r seat : Nat) : Bool :=
  let t := s.seatHome s.leadEpoch seat
  s.ringEn r && (s.ringType r == 0 || s.ringType r == 3) && s.swIndex r != s.hwIndex r && (s.ringSt r).oldOwner.isNone && !s.flag (ringReg r 7) 2 &&
    !(s.ringSt r).fetching && (s.ringSt r).got.isEmpty && !s.ringPaused r && s.here t && !s.withheld t seat &&
    !s.pkts.any fun p => p.tile == t && p.src == 1024 + t && p.loc == .refused && !p.mgmt

/-! ### Interrupts (R279, R291 to R293) -/

/-- The word of a partition's MSI-X table at byte offset `o`: Vector Control resets to Mask. -/
def State.msixWord (s : State) (p o : Nat) : Word :=
  tget (if o % 16 = 12 then 1 else 0) s.host.msix (65536 * p + o)
/-- Write a word of a partition's MSI-X table: bits [1:0] of the address and [31:1] of Vector Control are reserved. -/
def State.setMsix (s : State) (p o : Nat) (v : Word) : State :=
  let m : Word := if o % 16 = 12 then 1#32 else if o % 16 = 0 then 0xFFFFFFFC#32 else 0xFFFFFFFF#32
  { s with host := { s.host with msix := tset (if o % 16 = 12 then 1 else 0) s.host.msix (65536 * p + o) (v &&& m) } }
/-- The Pending Bit Array word `j` of a partition. -/
def State.pbaWord (s : State) (p j : Nat) : Word := tget 0 s.host.pba (65536 * p + j)
/-- Set or clear a vector's pending bit. -/
def State.setPba (s : State) (p v : Nat) (b : Bool) : State :=
  { s with host := { s.host with pba := tmod 0 s.host.pba (65536 * p + v / 32) fun w => putBit w (v % 32) b } }

/-- The management class of a partition's interrupts: those of seat 0's rings (R282). -/
def State.irqMgmt (s : State) (p : Nat) : Bool := s.bound s.leadEpoch 0 && s.seatPart s.leadEpoch 0 == p

/-- The MSI-X write of a vector (R292): the entry's data at the entry's address, in the record stream. -/
def State.msixSend (s : State) (p vec : Nat) (seat : Option Nat) : State :=
  let e := s.leadEpoch
  let t := s.homeTile e p
  let a := (s.msixWord p (16 * vec + 4)).toNat * 2 ^ 32 + (s.msixWord p (16 * vec)).toNat
  s.hostWrite (s.tileEpoch t) t p seat (if seat.isSome then seat == some 0 else s.irqMgmt p) none .record a
    (leBytes 4 (s.msixWord p (16 * vec + 8)).toNat)

/-- Whether an MSI-X write may leave: neither masked nor held by D3hot (R279, R292). -/
def State.msixOpen (s : State) (p vec : Nat) : Bool :=
  let f := s.fab p
  f.msixEnable && !f.funcMask && !f.d3hot && !bit (s.msixWord p (16 * vec + 12)) 0

/-- Send the pending MSI-X writes of a partition that nothing holds any more (R279, R292). -/
def State.msixFlush (s : State) (p : Nat) : State :=
  s.each ((List.range 2048).filter fun v => bit (s.pbaWord p (v / 32)) (v % 32) && s.msixOpen p v) fun s v =>
    (s.setPba p v false).msixSend p v none

/-- The shadow write of a ring (R290): HW_INDEX in bytes 0 and 1 of four, in the ring's stream. -/
def State.shadowOut (s : State) (r seat : Nat) : State :=
  if !s.flag (ringReg r 0) 9 || !(s.ringSt r).shadowDue then s
  else
    let e := s.leadEpoch
    let t := s.seatHome e seat
    (s.modRing r fun q => { q with shadowDue := false }).hostWrite (s.tileEpoch t) t (s.seatPart e seat) (some seat)
      (seat == 0) (s.seatPasid e seat) .record (s.ringShadow r) (leBytes 4 (s.hwIndex r))

/-- A ring signals (R291 to R293): the shadow first, then an MSI-X write, its pending bit, or the ring's INTx bit. -/
def State.signal (s : State) (r seat : Nat) : State :=
  let s := s.shadowOut r seat
  let p := s.seatPart s.leadEpoch seat
  let vec := s.fld (ringReg r 5) 10 0
  let s := s.modRing r fun q => { q with sinceSig := 0, firstUnsig := none }
  if 2048 ≤ vec then s.count (s.seatHome s.leadEpoch seat) .stBadVector none (some seat)
  else if (s.fab p).msixEnable then
    if s.msixOpen p vec then s.msixSend p vec (some seat) else s.setPba p vec true
  else (s.modRing r fun q => { q with intx := true }).syncIntx p

/-- Whether a ring signals: a completion or event ring with IRQ_EN. -/
def State.irqRing (s : State) (r : Nat) : Bool :=
  s.flag (ringReg r 0) 8 && (s.ringType r == 1 || s.ringType r == 2)

/-! ### Records and shadows (R287 to R291) -/

/-- Write one record at HW_INDEX and advance it (R287); the ring signals when MOD_COUNT is reached, or at once with
MOD_TIME 0 (R291). -/
def State.recordOut (s : State) (r seat : Nat) (b : List Byte) : State :=
  let e := s.leadEpoch
  let t := s.seatHome e seat
  let a := s.ringBase r + 32 * (s.hwIndex r % s.ringLen r)
  let s := s.hostWrite (s.tileEpoch t) t (s.seatPart e seat) (some seat) (seat == 0) (s.seatPasid e seat) .record a b
  let s := s.setFld (ringReg r 6) 15 0 (s.hwIndex r + 1)
  let s := s.modRing r fun q => { q with
    sinceSig := q.sinceSig + 1, firstUnsig := some (q.firstUnsig.getD s.tm.now), shadowDue := true }
  if s.irqRing r && (s.fld (ringReg r 5) 31 24 == 0 ||
      decide (max 1 (s.fld (ringReg r 5) 23 16) ≤ (s.ringSt r).sinceSig)) then s.signal r seat
  else s

/-- RECORD_WRITE (R287): the first record that waits is written when its ring is served, enabled and has room. A
record of a seat that does not own the completion ring waits on (R237). -/
def recordWrite (r : Nat) (s : State) : State :=
  match s.servedOwner r with
  | none => s
  | some seat =>
    if !s.ringEn r || !s.here (s.seatHome s.leadEpoch seat) then s
    else if s.ringType r = 1 then
      match (s.ringSt r).recs.find? fun b => b.1 == seat with
      | none => s
      | some b =>
        if s.ringFull r then s.sticky (ringReg r 7) 1
        else (s.modRing r fun q => { q with recs := q.recs.erase b }).recordOut r seat b.2
    else if s.ringType r = 2 then
      match (s.ringSt r).evs with
      | [] => s
      | b :: bs => if s.ringFull r then s else (s.modRing r fun q => { q with evs := bs }).recordOut r seat b
    else s

/-- SHADOW_WRITE (R290). -/
def shadowWrite (r : Nat) (s : State) : State :=
  match s.servedOwner r with
  | some seat => if s.here (s.seatHome s.leadEpoch seat) then s.shadowOut r seat else s
  | none => s

/-- IRQ_MOD_TIMEOUT (R291). -/
def irqModTimeout (r : Nat) (s : State) : State :=
  match s.servedOwner r with
  | some seat =>
    if s.irqRing r && (s.ringSt r).sinceSig != 0 && s.here (s.seatHome s.leadEpoch seat) then s.signal r seat else s
  | none => s

/-! ### The fabric function's controls -/

/-- FABRIC_FUNCTION_POWER_STATE (R279): on return to D0 what was held pending is sent. -/
def fabricFunctionPowerState (p : Nat) (d3 : Bool) (s : State) : State :=
  if !s.partEn s.leadEpoch p then s
  else
    let s := s.modFab p fun f => { f with d3hot := d3 }
    if d3 then s else (s.msixFlush p).syncIntx p

/-- INTX_CONTROL_CHANGE (R293): Interrupt Disable and MSI-X Enable take new values. -/
def intxControlChange (p : Nat) (intDisable msixEnable : Bool) (s : State) : State :=
  if !s.partEn s.leadEpoch p then s
  else (((s.modFab p fun f => { f with intDisable := intDisable, msixEnable := msixEnable }).syncIntx p).msixFlush p)

/-- MSIX_UNMASK (R292): an entry, or the function, is unmasked. -/
def msixUnmask (p : Nat) (vec : Option Nat) (s : State) : State :=
  if !s.partEn s.leadEpoch p then s
  else
    let s := match vec with
      | some v => if v < 2048 then s.setMsix p (16 * v + 12) 0 else s
      | none => s.modFab p fun f => { f with funcMask := false }
    s.msixFlush p

/-! ### The meanings -/

/-- RING_ENABLE. -/
def execRingEnable (r : Nat) (v : Word) (s : State) : Out := .next (ringEnable r v s)
/-- RING_DISABLE. -/
def execRingDisable (r : Nat) (v : Word) (s : State) : Out := .next (ringDisable r v s)
/-- RING_FETCH_RESUME. -/
def execRingFetchResume (r : Nat) (v : Word) (s : State) : Out := .next (ringFetchResume r v s)
/-- RECORD_WRITE. -/
def execRecordWrite (r : Nat) (s : State) : Out := .next (recordWrite r s)
/-- SHADOW_WRITE. -/
def execShadowWrite (r : Nat) (s : State) : Out := .next (shadowWrite r s)
/-- IRQ_MOD_TIMEOUT. -/
def execIrqModTimeout (r : Nat) (s : State) : Out := .next (irqModTimeout r s)
/-- FABRIC_FUNCTION_POWER_STATE. -/
def execFabricFunctionPowerState (p : Nat) (d3 : Bool) (s : State) : Out := .next (fabricFunctionPowerState p d3 s)
/-- INTX_CONTROL_CHANGE. -/
def execIntxControlChange (p : Nat) (i m : Bool) (s : State) : Out := .next (intxControlChange p i m s)
/-- MSIX_UNMASK. -/
def execMsixUnmask (p : Nat) (vec : Option Nat) (s : State) : Out := .next (msixUnmask p vec s)

end Sys2Proof.Machine
end

