-- ==== Sys2Proof/Machine/Power.lean ====
section
/-! DEFINITION. Supply rails (R389 to R392, R453), reference clocks (R393 to R396), resets (R398 to R401), straps (R416) and
temperatures (R436). -/

namespace Sys2Proof.Machine

/-! ### Registers (R405, R437) -/

/-- HK_PWR_STATUS. -/
def pwrStatus : Nat := 0x00020800
/-- HK_CLK_CTRL. -/
def clkCtrl : Nat := 0x00020804
/-- HK_CLK_STATUS. -/
def clkStatus : Nat := 0x00020808
/-- HK_RESET_CTRL. -/
def resetCtrl : Nat := 0x0002080C
/-- TL_TEMP of a tile. -/
def tlTemp (t : Nat) : Nat := tileBase t + 0x08

/-- A mask with a bit for each tile of the part in a list. -/
def State.tileMask (s : State) (l : List Nat) : Nat :=
  s.part.tiles.foldl (fun m t => if l.contains t then m + 2 ^ t else m) 0

/-- HK_PWR_STATUS as it reads (R453): zero until valid; then each OK bit shows its rail. -/
def State.pwrView (s : State) : Word :=
  if !s.pwr.valid then 0
  else
    let p := s.pwr
    let w := putBit (putBit (putBit (s.lv pwrStatus) 0 p.vauxA) 1 p.vauxB) 4 p.io
    putField (putField w 15 8 (s.tileMask p.core)) 23 16 (s.tileMask (p.sda.filter fun t => p.sdh.contains t))

/-! ### Device resets (R398, R399, R445) -/

/-- The words that a warm reset keeps: the counts since cold reset, TM_FREQ_ADJ, TOD_VALID, the crossings' spares and HALF. -/
def warmKeep (o : Nat) : Word :=
  if o = resetCause then 0x00FFFF00#32
  else if o = clkStatus then 0x0000FF00#32
  else if o = 0x00030024 then 0xFFFFFFFF#32
  else if o = tmStatus then 0x4#32
  else match offTile o with
    | some _ => if 0x4000 ≤ o % 0x01000000 ∧ o % 0x01000000 < 0x4300 ∧ o % 0x100 = 4 then 0x00003FFE#32 else 0
    | none => 0

/-- A cold or warm reset of the device, by its cause (R398, R399): the tiles are held until the boot that follows. What is
physical stays: fuses, flash, supplies, temperatures; and the model's own log, numbers and queue. -/
def State.deviceReset (s : State) (cold : Bool) (cause : Nat) : State :=
  let s := s.blowsLost
  let z : State := {
    part := s.part, idCtr := s.idCtr, wire := s.wire, freeCtr := s.freeCtr, pending := s.pending
    tm := { now := s.tm.now, ft := if cold then 0 else s.tm.ft }
    lanes := if cold then [] else s.lanes.foldl (fun m x => tset {} m x.1 { saved := x.2.saved }) []
    links := if cold then [] else (s.links.filter fun x => decide (2000 ≤ x.1)).foldl
      (fun m x => tset {} m x.1 { wires := x.2.wires }) []
    boot := { fuseA := s.boot.fuseA, fuseB := s.boot.fuseB, flash := s.boot.flash }
    pwr := { s.pwr with valid := false, strap := none, warned := [], restarts := [], relocking := [], due := some .boot,
                        qualAtLoss := [] } }
  let z := if cold then z
    else z.each (s.live.filter fun x => warmKeep x.1 != 0) fun z x =>
      z.setLv x.1 ((z.lv x.1 &&& ~~~(warmKeep x.1)) ||| (x.2 &&& warmKeep x.1))
  z.setFld resetCause 3 0 cause

/-- A reset asked for by HK_RESET_CTRL waits for a fuse blow in progress (R400). -/
def State.resetAsk (s : State) (cold : Bool) : State :=
  if s.boot.blows.isEmpty then s.deviceReset cold (if cold then 2 else 3)
  else s.modBoot fun b => { b with blowReset := some (cold || b.blowReset == some true) }

/-- Whether a write entered the part on a port of a tile. -/
def Via.onTile (v : Via) (t : Nat) : Bool :=
  match v with
  | .inband _ port => tileOf port == t
  | _ => false

/-- The effect of a write of HK_RESET_CTRL (R400): without the key it is ignored. -/
def State.resetCtrlAct (s : State) (via : Via) (v : Word) : State :=
  if field v 31 16 ≠ 0xA5C3 then s.sticky resetCtrl 8
  else
    let s := s.plainWrite resetCtrl v
    let t := field v 6 4
    let s := if !bit v 3 || !s.part.hasTile t then s
      else if Via.onTile via t then s.sticky resetCtrl 7
      else s.loseTile t
    if bit v 1 then s.resetAsk true
    else if bit v 0 then s.resetAsk false
    else if bit v 2 then s.ilulysRestart 4
    else s

/-- A write of HK_RESET_CTRL reaches the Ilulys die. -/
def State.resetWrite (s : State) (via : Via) (v : Word) : State :=
  if s.ilulysReset then s else s.resetCtrlAct via v

/-- WARM_RESET (R398): a write with WARM. -/
def warmReset (via : Via) (v : Word) (s : State) : State := s.resetWrite via (v ||| 1)
/-- COLD_RESET (R398): a write with COLD. -/
def coldReset (via : Via) (v : Word) (s : State) : State := s.resetWrite via (v ||| 2)
/-- TILE_RESET (R400): a write with TILE. -/
def tileReset (via : Via) (v : Word) (s : State) : State := s.resetWrite via (v ||| 8)
/-- KEY_ERR (R400): a write whose key differs. -/
def keyErr (via : Via) (v : Word) (s : State) : State :=
  if field v 31 16 = 0xA5C3 then s else s.resetWrite via v
/-- SYS_RESET (R398): SYS_RESET_N low for 1 µs. -/
def sysReset (s : State) : State := s.deviceReset true 1

/-! ### Rails (R389 to R392) -/

/-- The tile's SerDes rails: both good ends SDS_DOWN; a loss takes every port of the tile down and holds it (R392). -/
def State.serdesDown (s : State) (t : Nat) : State :=
  if !s.operates t || s.flag (tlStatus t) 1 then s
  else
    (s.setFlag (tlStatus t) 1 true).each
      (((List.range 128).map (128 * t + ·)).filter fun p => s.portEn (s.tileEpoch t) p) fun s p => s.portDown p .portDown
/-- The end of SDS_DOWN. -/
def State.serdesUp (s : State) (t : Nat) : State :=
  if s.operates t && s.pwr.sda.contains t && s.pwr.sdh.contains t then s.setFlag (tlStatus t) 1 false else s

/-- One VAUX input is lost while the other stays good (R391). -/
def vauxInputLost (b : Bool) (s : State) : State :=
  let good := if b then s.pwr.vauxB else s.pwr.vauxA
  let other := if b then s.pwr.vauxA else s.pwr.vauxB
  if !good || !other then s
  else
    let s := s.modPwr fun p => if b then { p with vauxB := false } else { p with vauxA := false }
    (s.countHk (if b then 57 else 56)).sticky pwrStatus (if b then 3 else 2)

/-- The OR-ed VAUX is lost (R392): the Ilulys die loses its registers and its retained block; gates go off and PERST# is
asserted by their pull-downs; the tiles go headless. -/
def vauxLoss (s : State) : State :=
  let s := (s.each s.running State.svcLost).blowsLost.stopsLost
  let keep := s.lv tmStatus &&& 0x1E0#32
  let s := { s with
    live := s.live.filter fun x => !inIlulys x.1
    sp := [], seqLate := [], ilulysReset := true
    tm := { s.tm with lastEdge := none, misses := 0, inRow := 0, slew := 0, tod := none, snap := none }
    host := { s.host with bridge := {}, sideband := [], dieEvents := [] }
    tel := { s.tel with ctr := s.tel.ctr.filter fun x => !(decide (x.1 < 4096) && x.1 / 256 == 8) }
    boot := { s.boot with sensed := 0, att := [], fwMeas := 0, cfgMeas := 0, imageSeq := 0, fuseProgEn := false }
    pwr := { s.pwr with vauxA := false, vauxB := false, valid := false, strap := none, restarts := [],
                        due := if s.pwr.due == some Release.boot then some Release.boot else some Release.rejoin } }
  s.setLv tmStatus keep

/-- RAIL_GOOD (R389, R390): the rail is taken back. -/
def railGood (r : Rail) (s : State) : State :=
  let add := fun (l : List Nat) (t : Nat) => if s.part.hasTile t && !l.contains t then l ++ [t] else l
  match r with
  | .core t => s.modPwr fun p => { p with core := add p.core t }
  | .sda t => (s.modPwr fun p => { p with sda := add p.sda t }).serdesUp t
  | .sdh t => (s.modPwr fun p => { p with sdh := add p.sdh t }).serdesUp t
  | .io => s.modPwr fun p => { p with io := true }
  | .vauxA => s.modPwr fun p => { p with vauxA := true }
  | .vauxB => s.modPwr fun p => { p with vauxB := true }

/-- RAIL_LOST (R392). -/
def railLost (r : Rail) (s : State) : State :=
  match r with
  | .core t => (s.modPwr fun p => { p with core := p.core.filter (· != t) }).loseTile t
  | .sda t => (s.modPwr fun p => { p with sda := p.sda.filter (· != t) }).serdesDown t
  | .sdh t => (s.modPwr fun p => { p with sdh := p.sdh.filter (· != t) }).serdesDown t
  | .io => (s.modPwr fun p => { p with io := false }).sticky pwrStatus 5
  | .vauxA => if s.pwr.vauxB then vauxInputLost false s else vauxLoss s
  | .vauxB => if s.pwr.vauxA then vauxInputLost true s else vauxLoss s

/-! ### Reference clocks (R393 to R396, R415) -/

/-- HK_CLK_STATUS.SELECTED. -/
def State.refSel (s : State) : Bool := s.flag clkStatus 0
/-- Whether a reference is good. -/
def State.refGood (s : State) (b : Bool) : Bool := s.flag clkStatus (if b then 2 else 1)

/-- A switchover (R394): hitless where the references lie close and neither carries spread; otherwise the core PLLs relock. -/
def State.refSwitch (s : State) (within : Bool) : State :=
  let hit := within && !s.flag clkStatus 3 && !s.flag clkStatus 4
  let s := ((s.setFlag clkStatus 0 (!s.refSel)).sticky clkStatus 6).setFlag clkStatus 7 hit
  let s := s.setFld clkStatus 15 8 (satAdd 255 (s.fld clkStatus 15 8) 1)
  if hit then s else s.modPwr fun p => { p with relocking := s.present }

/-- No reference is good (R395): every quad PLL loses lock and every link goes down. -/
def State.refHold (s : State) : State :=
  let s := s.setFlag clkStatus 5 true
  let ts := s.present
  let s := s.each ts fun s t => s.each (List.range 32) fun s q => quadPllLol (32 * t + q) s
  let s := s.each ts fun s t => s.each (((List.range 128).map (128 * t + ·)).filter fun p => s.dlActive p) fun s p =>
    s.portDown p .portDown
  s.modPwr fun p => { p with relocking := ts }

/-- REFCLK_BAD (R394, R395): a reference turns bad. While the Ilulys die is in reset no switchover takes place (R415). -/
def refclkBad (b within : Bool) (s : State) : State :=
  if !s.refGood b then s
  else
    let s := s.setFlag clkStatus (if b then 2 else 1) false
    if s.refSel != b then s
    else if s.ilulysReset then s.refHold
    else
      let s := s.countHk (if b then 59 else 58)
      if s.refGood (!b) then s.refSwitch within else s.refHold

/-- REFCLK_GOOD (R393, R395): a reference that is enabled is good; it is selected where none other is good. -/
def refclkGood (b spread : Bool) (s : State) : State :=
  if !s.flag clkCtrl (if b then 4 else 3) then s
  else
    let s := (s.setFlag clkStatus (if b then 2 else 1) true).setFlag clkStatus (if b then 4 else 3) spread
    if s.refSel = b then (if s.flag clkStatus 5 then s.setFlag clkStatus 5 false else s)
    else if s.refGood s.refSel || s.ilulysReset then s
    else if s.flag clkStatus 5 then (s.setFlag clkStatus 5 false).refSwitch false
    else s.setFlag clkStatus 0 b

/-- REFCLK_REVERT (R394). -/
def refclkRevert (within : Bool) (s : State) : State :=
  let prim := s.flag clkCtrl 0
  if s.ilulysReset || !s.flag clkCtrl 1 || s.refSel == prim || !s.refGood prim then s else s.refSwitch within

/-- The effect of a write of HK_CLK_CTRL (R393, R394): a disabled reference is bad; FORCE switches to the other reference
when that one is good. -/
def State.clkCtrlAct (s : State) (v : Word) (within : Bool) : State :=
  let s := s.plainWrite clkCtrl v
  let s := if bit v 3 then s else refclkBad false within s
  let s := if bit v 4 then s else refclkBad true within s
  if bit v 2 && s.refGood (!s.refSel) then s.refSwitch within else s

/-- REFCLK_FORCE (R394): a write with FORCE. -/
def refclkForce (v : Word) (within : Bool) (s : State) : State :=
  if s.ilulysReset then s else s.clkCtrlAct (v ||| 4) within

/-- CORE_PLL_RELOCK (R394): the tile's core leaves holdover. -/
def corePllRelock (t : Nat) (s : State) : State := s.modPwr fun p => { p with relocking := p.relocking.filter (· != t) }

/-! ### Straps and temperatures (R416, R436) -/

/-- STRAP_SAMPLE (R416): once for each release; both straps read 0 where VDD_IO did not become good in time. -/
def strapSample (vddIoGood a0 a1 : Bool) (s : State) : State :=
  if s.pwr.strap.isSome then s
  else s.modPwr fun p => { p with strap := some (if vddIoGood then 2 * b2n a1 + b2n a0 else 0) }

/-- TL_TEMP.WARN_TH in 0.25 °C. -/
def State.warnTh (s : State) (t : Nat) : Int := 4 * sext 8 (s.fld (tlTemp t) 19 12)
/-- The hottest sensor. -/
def hottest (l : List Int) : Int := l.foldl max (-2048)

/-- TEMP_SAMPLE (R436): TEMP, the warning and its record; a tile held for its temperature is free of it below WARN_TH. -/
def tempSample (t : Nat) (sensors : List Int) (s : State) : State :=
  if !s.part.hasTile t || sensors.isEmpty then s
  else
    let x := hottest sensors
    let s := s.modPwr fun p => { p with temps := tset 0 p.temps t x }
    if !s.operates t then
      if x < s.warnTh t then s.modPwr fun p => { p with hot := p.hot.filter (· != t) } else s
    else
      let s := s.setFld (tlTemp t) 11 0 (lowBits 12 x)
      if s.warnTh t ≤ x then
        if s.pwr.warned.contains t then s
        else
          let s := (s.sticky (tlTemp t) 20).modPwr fun p => { p with warned := p.warned ++ [t] }
          s.eventMgr 0x0120 t (leBytes 1 t ++ leBytes 1 0 ++ leBytes 2 (lowBits 12 x))
      else if x < s.warnTh t - 20 then s.modPwr fun p => { p with warned := p.warned.filter (· != t) }
      else s

/-- TILE_OVERTEMP (R436): the tile is held in reset and lost. -/
def tileOvertemp (t : Nat) (s : State) : State :=
  if !s.operates t then s
  else (s.modPwr fun p => { p with hot := p.hot.filter (· != t) ++ [t] }).loseTile t

/-! ### The meanings -/

/-- RAIL_GOOD. -/
def execRailGood (r : Rail) (s : State) : Out := .next (railGood r s)
/-- RAIL_LOST. -/
def execRailLost (r : Rail) (s : State) : Out := .next (railLost r s)
/-- VAUX_INPUT_LOST. -/
def execVauxInputLost (b : Bool) (s : State) : Out := .next (vauxInputLost b s)
/-- VAUX_LOSS. -/
def execVauxLoss (s : State) : Out := .next (vauxLoss s)
/-- REFCLK_BAD. -/
def execRefclkBad (b within : Bool) (s : State) : Out := .next (refclkBad b within s)
/-- REFCLK_GOOD. -/
def execRefclkGood (b spread : Bool) (s : State) : Out := .next (refclkGood b spread s)
/-- REFCLK_REVERT. -/
def execRefclkRevert (within : Bool) (s : State) : Out := .next (refclkRevert within s)
/-- REFCLK_FORCE. -/
def execRefclkForce (v : Word) (within : Bool) (s : State) : Out := .next (refclkForce v within s)
/-- CORE_PLL_RELOCK. -/
def execCorePllRelock (t : Nat) (s : State) : Out := .next (corePllRelock t s)
/-- WARM_RESET. -/
def execWarmReset (via : Via) (v : Word) (s : State) : Out := .next (warmReset via v s)
/-- COLD_RESET. -/
def execColdReset (via : Via) (v : Word) (s : State) : Out := .next (coldReset via v s)
/-- ILULYS_RESTART: by its cause, 4 an HK write, 5 the watchdog, 6 an SRAM error, 8 a thermal trip. -/
def execIlulysRestart (cause : Nat) (s : State) : Out := .next (s.ilulysRestart cause)
/-- TILE_RESET. -/
def execTileReset (via : Via) (v : Word) (s : State) : Out := .next (tileReset via v s)
/-- KEY_ERR. -/
def execKeyErr (via : Via) (v : Word) (s : State) : Out := .next (keyErr via v s)
/-- SYS_RESET. -/
def execSysReset (s : State) : Out := .next (sysReset s)
/-- WATCHDOG_EXPIRY. -/
def execWatchdogExpiry (s : State) : Out := .next (s.ilulysRestart 5)
/-- STRAP_SAMPLE. -/
def execStrapSample (good a0 a1 : Bool) (s : State) : Out := .next (strapSample good a0 a1 s)
/-- TEMP_SAMPLE. -/
def execTempSample (t : Nat) (sensors : List Int) (s : State) : Out := .next (tempSample t sensors s)
/-- TILE_OVERTEMP. -/
def execTileOvertemp (t : Nat) (s : State) : Out := .next (tileOvertemp t s)
/-- ILULYS_OVERTEMP. -/
def execIlulysOvertemp (s : State) : Out := .next (s.ilulysRestart 8)

end Sys2Proof.Machine
end

