-- ==== Sys2Proof/Machine/Trust.lean ====
section
/-! DEFINITION. Fuses (R372 to R375, R382, R383), attestation (R384 to R386), flash commands (R376, R388), JTAG. -/

namespace Sys2Proof.Machine

/-! ### Fuses -/

/-- HK_FUSE_SEL. -/
def fuseSel : Nat := 0x00020004
/-- HK_FUSE_PROG. -/
def fuseProg : Nat := 0x0002000C
/-- HK_BOOT_STATUS.STAGE. -/
def State.stage (s : State) : Nat := s.fld bootStatus 3 0

/-- The number that the bits `[hi:lo]` of a fuse map hold. -/
def fuseField (f : BitVec 2048) (hi lo : Nat) : Nat := f.toNat / 2 ^ lo % 2 ^ (hi + 1 - lo)
/-- The logical bits as sensed now: a bit reads 1 when either copy is blown (R372). -/
def State.fuses (s : State) : BitVec 2048 := s.boot.fuseA ||| s.boot.fuseB
/-- A sensed logical word; those of DEVICE_SEED read zero (R372, R388). -/
def State.fuseWord (s : State) (w : Nat) : Word :=
  if 40 ≤ w ∧ w < 48 then 0 else BitVec.ofNat 32 (fuseField s.boot.sensed (32 * w + 31) (32 * w))
/-- The OWNER_HASH slots in force: blown and not revoked (R379). -/
def ownerSlots (f : BitVec 2048) : List Nat :=
  (List.range 3).filter fun k => fuseField f (511 + 256 * k) (256 + 256 * k) != 0 && !f.getLsbD (1616 + k)
/-- The fused firmware security version (R372): the count of blown bits. -/
def fwSvn (f : BitVec 2048) : Nat := (List.range 64).countP fun i => f.getLsbD (1536 + i)
/-- Whether a logical bit belongs to an owner field (R372). -/
def ownerBit (n : Nat) : Bool :=
  decide ((256 ≤ n ∧ n < 1024) ∨ (1536 ≤ n ∧ n < 1600) ∨ (1616 ≤ n ∧ n < 1619) ∨ (1620 ≤ n ∧ n < 1709) ∨
    (1712 ≤ n ∧ n < 1744))

/-- FUSE_SELECT (R388): a write of HK_FUSE_SEL starts a read. -/
def State.fuseSelAct (s : State) (v : Word) : State :=
  ((s.plainWrite fuseSel v).setFlag fuseSel 31 false).modBoot fun b => { b with fuseRead := true }
/-- FUSE_SELECT_DONE (R388). -/
def fuseSelectDone (s : State) : State :=
  if !s.boot.fuseRead || s.ilulysReset then s
  else ((s.setLv 0x00020008 (s.fuseWord (s.fld fuseSel 5 0))).setFlag fuseSel 31 true).modBoot fun b => { b with fuseRead := false }

/-- Why a blow is refused (R382, R383): 0 accepted, 1 not authorised or out of order, 2 a vendor field or reserved bit. -/
def State.blowCode (s : State) (n : Nat) : Nat :=
  if !ownerBit n then 2
  else if s.stage ≠ 4 then 1
  else if !(ownerSlots s.boot.sensed).isEmpty && !(s.flag bootStatus 14 && s.boot.fuseProgEn) then 1
  else if 1536 ≤ n ∧ n < 1600 ∧ !((List.range (n - 1536)).all fun i => s.fuses.getLsbD (1536 + i)) then 1
  else 0

/-- The effect of a write of HK_FUSE_PROG (R382): a blow starts, or is refused with its RESULT. -/
def State.fuseProgAct (s : State) (v : Word) : State :=
  let s := (s.plainWrite fuseProg v).setFlag fuseProg 31 false
  let n := 32 * field v 5 0 + field v 10 6
  match s.blowCode n with
  | 0 => s.modBoot fun b => { b with blows := b.blows ++ [n] }
  | c => ((s.setFld fuseProg 15 14 c).setFlag fuseProg 31 true).countHk 53
/-- FUSE_BLOW (R382): from seat 0, the bridge or the management port. -/
def fuseBlow (via : Via) (v : Word) (s : State) : State :=
  if s.ilulysReset || !s.viaOpen via then s else s.fuseProgAct v

/-- FUSE_BLOW_DONE (R382): both copies are blown and verified, or the verification fails and each copy is free; a reset that
waited for the blow then starts (R400). -/
def fuseBlowDone (verified : Bool) (s : State) : State :=
  match s.boot.blows with
  | [] => s
  | n :: ns =>
    let one : BitVec 2048 := BitVec.ofNat 2048 (2 ^ n)
    let pick := s.freeBelow 4
    let s := s.used.modBoot fun b => { b with
      blows := ns
      fuseA := if verified || pick % 2 = 1 then b.fuseA ||| one else b.fuseA
      fuseB := if verified || pick / 2 = 1 then b.fuseB ||| one else b.fuseB }
    let s := (s.setFld fuseProg 15 14 (if verified then 0 else 3)).setFlag fuseProg 31 ns.isEmpty
    let s := if verified then s.countHk 52 else s
    match s.boot.blowReset with
    | some cold => if ns.isEmpty then s.deviceReset cold (if cold then 2 else 3) else s
    | none => s

/-! ### Attestation -/

/-- HK_ATT_CTRL. -/
def attCtrl : Nat := 0x00020010

/-- Words that hold a set field and whose reset value is not zero: TL_PART_FF, PU_DEFAULT, SC port nodes (R447 to R449). -/
def State.setDefaults (s : State) : List Nat :=
  (List.range 256).map (0x00050C00 + 4 * ·) ++ s.part.tiles.map (tileBase · + 0x68000) ++
    s.part.tiles.flatMap fun t => (List.range 8).flatMap fun b => (List.range 16).map fun i =>
      tileBase t + 0x00100000 * (b + 1) + 0x50000 + 32 * i
/-- The bytes that LEAD_MEAS hashes (R386): in ascending offset, each offset and its lead value, zero values omitted. -/
def State.leadBytes (s : State) : List Byte :=
  let e := s.leadEpoch
  let os := ascend (((s.copyOf e).map (·.1) ++ s.setDefaults).eraseDups.filter fun o => setMask o != 0 && s.wordHere o)
  os.flatMap fun o =>
    let v := s.conf e o &&& setMask o
    if v = 0 then [] else leBytes 4 o ++ leBytes 4 v.toNat
/-- The logical fuse words 0 to 63 with DEVICE_SEED as zero. -/
def State.fuseBytes (s : State) : List Byte := (List.range 64).flatMap fun w => leBytes 4 (s.fuseWord w).toNat
/-- DEVICE_SEED. -/
def State.deviceSeed (s : State) : Nat := fuseField s.boot.sensed 1535 1280

/-- The body of a report, bytes 0 to 191 (R385). -/
def State.report (s : State) : List Byte :=
  let b := fun n => b2n (s.flag bootStatus n)
  let flags := b 12 + 2 * b 13 + 4 * b 7 + 8 * b 14 + 16 * b2n s.qualified + 32 * b2n s.leadEpoch
  leBytes 4 0x54414852 ++ leBytes 4 flags ++ ((List.range 8).flatMap fun j => leBytes 4 (s.lv (0x00020040 + 4 * j)).toNat) ++
    leBytes 32 s.boot.fwMeas.toNat ++ leBytes 32 s.boot.cfgMeas.toNat ++ Config.sha256 s.leadBytes ++
    Config.sha256 s.fuseBytes ++ leBytes 6 (s.tm.ft / nsPerSec) ++ leBytes 4 (s.tm.ft % nsPerSec) ++
    leBytes 2 (fwSvn s.boot.sensed) ++ leBytes 4 s.boot.imageSeq.toNat ++ leBytes 8 0

/-- The effect of a write of HK_ATT_CTRL (R388): the operation starts. -/
def State.attAct (s : State) (v : Word) : State :=
  ((s.plainWrite attCtrl v).setFlag attCtrl 31 false).modBoot fun b => { b with attOp := some (field v 9 8) }
/-- A command on HK_ATT_CTRL. -/
def State.attWrite (s : State) (v : Word) : State := if s.ilulysReset then s else s.attAct v

/-- A word of the attestation buffer; beyond word 143 the manual gives none, and the value is free. -/
def State.attWord (s : State) (w : Nat) : Word :=
  if w < 144 then BitVec.ofNat 32 (ofBytes ((s.boot.att.drop (4 * w)).take 4)) else s.freeW

/-- ATT_DONE (R384 to R386): a report and the modulus wait for the device key, a report also for the curtain to be idle. -/
def attDone (s : State) : State :=
  let fin := fun (s : State) => (s.setFlag attCtrl 31 true).modBoot fun b => { b with attOp := none }
  let put := fun (s : State) (d : List Byte) => s.modBoot fun b => { b with att := d ++ b.att.drop d.length }
  match s.boot.attOp with
  | none => s
  | some op =>
    if s.ilulysReset then s
    else if op = 1 then
      if !s.flag bootStatus 15 || s.curtainState ≠ 0 then s
      else
        let d := s.report
        let s := put s (d ++ Config.rsaSign s.deviceSeed d s.boot.attRuns)
        ((fin s).modBoot fun b => { b with attRuns := b.attRuns + 1 }).countHk 54
    else if op = 2 then
      if !s.flag bootStatus 15 then s else fin (put s (Config.deviceModulus s.deviceSeed))
    else fin (s.used.setLv 0x00020014 (s.attWord (s.fld attCtrl 7 0)))

/-- DEVKEY_READY (R384). -/
def devkeyReady (s : State) : State := if s.ilulysReset then s else s.setFlag bootStatus 15 true

/-! ### Flash and JTAG -/

/-- HK_FLASH_CTRL. -/
def flashCtrl : Nat := 0x00020024
/-- HK_FLASH_BUF word `j`. -/
def flashBuf (j : Nat) : Nat := 0x00020100 + 4 * j
/-- A byte of the flash: one that nothing has written reads erased. -/
def State.flashByte (s : State) (a : Nat) : Byte := tget 0xFF#8 s.boot.flash (a % 2 ^ 32)
/-- Write a byte of the flash. -/
def State.setFlash (s : State) (a : Nat) (b : Byte) : State :=
  s.modBoot fun k => { k with flash := tset 0xFF#8 k.flash (a % 2 ^ 32) b }

/-- The effect of a write of HK_FLASH_CTRL (R388): refused in every STAGE but 4 and 5. -/
def State.flashAct (s : State) (v : Word) : State :=
  let s := (s.plainWrite flashCtrl v).setFlag flashCtrl 31 false
  if s.stage = 4 ∨ s.stage = 5 then
    s.modBoot fun b => { b with flashOp := some (field v 1 0, (s.lv 0x00020020).toNat) }
  else s.sticky flashCtrl 2
/-- A command on HK_FLASH_CTRL. -/
def State.flashWrite (s : State) (v : Word) : State := if s.ilulysReset then s else s.flashAct v

/-- Read 256 bytes from an address into the page buffer. -/
def State.flashRead (s : State) (a : Nat) : State :=
  s.each (List.range 64) fun s j =>
    s.setLv (flashBuf j) (BitVec.ofNat 32 (ofBytes ((List.range 4).map fun i => s.flashByte (a + 4 * j + i))))
/-- Program the buffer as the page that holds an address: programming only clears bits. -/
def State.flashProgram (s : State) (a : Nat) : State :=
  let base := a / 256 * 256
  s.each (List.range 256) fun s i =>
    s.setFlash (base + i) (s.flashByte (base + i) &&& BitVec.ofNat 8 (field (s.lv (flashBuf (i / 4))) (8 * (i % 4) + 7) (8 * (i % 4))))
/-- Erase the 4 KiB sector that holds an address. -/
def State.flashErase (s : State) (a : Nat) : State :=
  s.each (List.range 4096) fun s i => s.setFlash (a / 4096 * 4096 + i) 0xFF#8

/-- FLASH_DONE (R388): nothing reaches the flash while VDD_IO is lost (R392). -/
def flashDone (s : State) : State :=
  match s.boot.flashOp with
  | none => s
  | some (op, a) =>
    if s.ilulysReset || !s.pwr.io then s
    else
      let s := if op = 1 then s.flashProgram a else if op = 2 then s.flashErase a else s.flashRead a
      (s.setFlag flashCtrl 31 true).modBoot fun b => { b with flashOp := none }

/-- JTAG_INSTRUCTION (R375): a private one selects BYPASS while DEBUG_LOCK = 1. -/
def jtagInstruction (isPrivate : Bool) (code : Nat) (s : State) : State :=
  if !s.pwr.io then s
  else s.modBoot fun b => { b with jtag := if isPrivate && b.sensed.getLsbD 1708 then none else some code }

/-! ### The meanings -/

/-- FUSE_SELECT. -/
def execFuseSelect (v : Word) (s : State) : Out := .next (if s.ilulysReset then s else s.fuseSelAct v)
/-- FUSE_SELECT_DONE. -/
def execFuseSelectDone (s : State) : Out := .next (fuseSelectDone s)
/-- FUSE_BLOW. -/
def execFuseBlow (via : Via) (v : Word) (s : State) : Out := .next (fuseBlow via v s)
/-- FUSE_BLOW_DONE. -/
def execFuseBlowDone (verified : Bool) (s : State) : Out := .next (fuseBlowDone verified s)
/-- ATT_READ_WORD: OP 0, or 3, which acts as 0. -/
def execAttReadWord (v : Word) (s : State) : Out := .next (s.attWrite (if field v 9 8 = 3 then v else putField v 9 8 0))
/-- ATT_FORM_REPORT: OP 1. -/
def execAttFormReport (v : Word) (s : State) : Out := .next (s.attWrite (putField v 9 8 1))
/-- ATT_LOAD_MODULUS: OP 2. -/
def execAttLoadModulus (v : Word) (s : State) : Out := .next (s.attWrite (putField v 9 8 2))
/-- ATT_DONE. -/
def execAttDone (s : State) : Out := .next (attDone s)
/-- DEVKEY_READY. -/
def execDevkeyReady (s : State) : Out := .next (devkeyReady s)
/-- FLASH_READ: OP 0, or 3, which acts as 0. -/
def execFlashRead (v : Word) (s : State) : Out := .next (s.flashWrite (if field v 1 0 = 3 then v else putField v 1 0 0))
/-- FLASH_PROGRAM: OP 1. -/
def execFlashProgram (v : Word) (s : State) : Out := .next (s.flashWrite (putField v 1 0 1))
/-- FLASH_ERASE: OP 2. -/
def execFlashErase (v : Word) (s : State) : Out := .next (s.flashWrite (putField v 1 0 2))
/-- FLASH_DONE. -/
def execFlashDone (s : State) : Out := .next (flashDone s)
/-- JTAG_INSTRUCTION. -/
def execJtagInstruction (isPrivate : Bool) (code : Nat) (s : State) : Out := .next (jtagInstruction isPrivate code s)

end Sys2Proof.Machine
end

