-- ==== Sys2Proof/Machine/RegBus.lean ====
section
/-! DEFINITION. Register accesses by offset (R6, R7, R36, R48, R438 to R446): the effect of a write of any word on any path,
and what a read of it returns. -/

namespace Sys2Proof.Machine

/-! ### Paths and instances (R439, R446) -/

/-- The home tile of seat 0's partition. -/
def State.mgrTile (s : State) : Nat := s.seatHome s.leadEpoch 0
/-- The agent that serves a path's accesses: a tile, or 8 for the stage manager (R439). -/
def State.agentOf (s : State) : Via → Nat
  | .inband t _ => t
  | .command => s.mgrTile
  | .bridge => 8
  | .mgmtPort => 8
/-- The epoch whose copy a path's reads of global set fields return: that of the serving tile (R36, R440). -/
def State.readEpoch (s : State) (agent o : Nat) : Bool :=
  match offTile o with
  | some t => s.tileEpoch t
  | none => if agent < 8 then s.tileEpoch agent else s.leadEpoch

/-- The words of mailboxes by offset in a tile region (R446). -/
def tileMbxWord (r : Nat) : Bool :=
  r == 0x601C || r == 0x6020 || r == 0x9010 || r == 0xB008 || r == 0xB00C || r == 0xC000 ||
    decide (0x68010 ≤ r ∧ r < 0x68028) ||
    (decide (0x00100000 ≤ r) && decide (0x1180 ≤ r % 0x00100000 ∧ r % 0x00100000 < 0x118C))
/-- The instance of a word that a serving agent reaches. -/
def instOf (agent o : Nat) : Nat :=
  if 0x00070000 ≤ o ∧ o < 0x0007000C then gmbx agent o
  else match offTile o with
    | some _ => if tileMbxWord (o % 0x01000000) then mbx agent o else o
    | none => o

/-- A write of the RW bits of a mailbox word in an agent's instance. -/
def State.instWrite (s : State) (agent o : Nat) (v : Word) : State :=
  match regDef o with
  | some d => s.setLv (instOf agent o) (v &&& BitVec.ofNat 32 d.rwM)
  | none => s

/-! ### TL_STOP (R299, R300, R335) -/

/-- TL_STOP of a tile, the instance of a serving agent. -/
def tlStop (agent t : Nat) : Nat := mbx agent (tileBase t + 0xC000)
/-- The effect of a write of TL_STOP: a stop is issued; KIND 3 and an ignored stop read VALID at once. -/
def State.stopAct (s : State) (agent t : Nat) (v : Word) : State :=
  let o := tlStop agent t
  let kind := field v 13 12
  let s := s.setLv o (v &&& 0x7FFF#32)
  let (s, id) := if kind = 3 then (s, none) else s.issueStop (if agent < 8 then t else 15) kind (field v 11 0) (!bit v 14)
  let s := { s with host := { s.host with stopSel := tset 0 s.host.stopSel o (match id with
    | some n => n + 1
    | none => 0) } }
  if id.isNone then s.setFlag o 31 true else s
/-- TL_STOP as it reads: VALID once the stop holds on every present tile, with STATE the target's manager blackout. -/
def State.stopView (s : State) (agent t : Nat) : Word :=
  let v := s.lv (tlStop agent t)
  match tget 0 s.host.stopSel (tlStop agent t) with
  | 0 => v
  | n + 1 =>
    if s.host.stops.any fun m => m.id == n then v
    else putBit (putBit v 31 true) 30 (s.mgrHolds t (field v 13 12) (field v 11 0))

/-! ### Writes -/

/-- A write of a word of the Ilulys block. -/
def State.ilulysWrite (s : State) (via : Via) (o : Nat) (v : Word) : State :=
  if o = fuseSel then s.fuseSelAct v
  else if o = fuseProg then s.fuseProgAct v
  else if o = attCtrl then s.attAct v
  else if o = flashCtrl then s.flashAct v
  else if o = clkCtrl then s.used.clkCtrlAct v (s.freeBelow 2 == 0)
  else if o = resetCtrl then s.resetCtrlAct via v
  else if o = tmCtrl then
    let s := s.tmFields v
    let s := if bit v 3 then s.todLoadAct else s
    let s := if bit v 0 then s.checkAct else s
    let s := if bit v 1 then s.armAct else s
    if bit v 2 then s.abortAct else s
  else if o = 0x00030008 then ftSnap s
  else if o = 0x00030048 then understudyRead v s
  else if 0x00800000 ≤ o ∧ o < 0x00802000 then
    let ch := (o - 0x00800000) / 0x40
    if o % 0x40 = 0 then s.spCtrlAct ch v
    else if o % 0x40 ≤ 0x10 then s.spCfgAct ch (o % 0x40) v
    else s.plainWrite o v
  else if 0x00802100 ≤ o ∧ o % 16 = 12 then s.seqAct ((o - 0x00802100) / 16) v
  else s.plainWrite o v

/-- A write of a word of the global registers. -/
def State.globalWrite (s : State) (agent : Nat) (o : Nat) (v : Word) : State :=
  if o = 0x00070000 then s.cntAct agent v
  else if o = snapCtrl then s.snapAct v
  else if o = boCfg then s.boCfgAct v
  else if o = boIndex then s.boIndexAct v
  else if o = 0x00140000 then windowTableInit v s
  else if o = 0x00140004 ∨ o = 0x00140008 then (if s.winReady then s.sticky 0x0014000C 2 else s.plainWrite o v)
  else if o = 0x00140010 then qpTableInit v s
  else if o = 0x00140014 ∨ o = 0x00140018 then (if s.qpReady then s.sticky 0x0014001C 2 else s.plainWrite o v)
  else if 0x00200000 ≤ o ∧ o < 0x00300000 then
    let seat := (o - 0x00200000) / 0x100
    if o % 0x100 = 0x80 then s.mbxCtrlWrite seat v else s.mbxWrite seat (o % 0x100 / 4) v
  else if 0x00500000 ≤ o ∧ o < 0x00700000 then s.ringWrite ((o - 0x00500000) / 32) (o % 32 / 4) v
  else s.plainWrite o v

/-- A write of a word of tile `t`'s common registers, at offset `r` from the tile base. -/
def State.tileWrite (s : State) (via : Via) (agent t r : Nat) (v : Word) : State :=
  let o := tileBase t + r
  if r = 0x601C then s.ticketAct agent t v
  else if r = 0x6000 then s.coreCtrlAct t v
  else if 0x4000 ≤ r ∧ r < 0x4300 ∧ r % 0x100 = 0 then s.xgCtrlAct t ((r - 0x4000) / 0x100) v
  else if r = 0x9010 then s.apContAct agent t v
  else if r = 0xB008 then s.backlogAct agent t v
  else if r = 0xC000 then s.stopAct agent t v
  else if 0xD000 ≤ r ∧ r < 0xD080 then s.progAct t ((r - 0xD000) / 4) v
  else if 0xD080 ≤ r ∧ r < 0xD0A0 then s.histAct t ((r - 0xD080) / 4) v
  else if 0xD100 ≤ r ∧ r < 0xD180 ∧ r % 32 = 0 then s.capAct t ((r - 0xD100) / 32) v
  else if r = 0xE008 then s.eccCtrlWrite t v
  else if 0x10000 ≤ r ∧ r < 0x14000 then s.stCtrlWrite via t ((r - 0x10000) / 4) v
  else if 0x60000 ≤ r ∧ r < 0x64000 then s.puCtrlWrite t ((r - 0x60000) / 4) v
  else if r = 0x68010 then s.puEditAct agent t v
  else if 0x68014 ≤ r ∧ r < 0x68028 then s.instWrite agent o v
  else s.plainWrite o v

/-- A write of a word of a port block, at offset `r` from its base. -/
def State.pbWrite (s : State) (agent pb r : Nat) (v : Word) : State :=
  let o := pbBase pb + r
  if 0x1000 ≤ r ∧ r < 0x1040 then s.laneCtrlAct (16 * pb + (r - 0x1000) / 4) v
  else if 0x1100 ≤ r ∧ r < 0x1140 then s.testAct (16 * pb + (r - 0x1100) / 4) v
  else if 0x1140 ≤ r ∧ r < 0x1180 then s.marginAct (16 * pb + (r - 0x1140) / 4) v
  else if r = 0x1180 then s.laneMbxAct agent pb v
  else if r = 0x1184 ∨ r = 0x1188 then s.instWrite agent o v
  else if 0x2000 ≤ r ∧ r < 0x2400 ∧ r % 0x100 = 0x60 then s.lkInject (16 * pb + (r - 0x2000) / 0x40 / 4 * 4) v
  else if r = 0x52040 then s.takeoverAct pb v
  else s.plainWrite o v

/-- Whether an offset lies in the MSI-X table or the PBA (R281). -/
def inMsix (o : Nat) : Bool := decide (0x00010000 ≤ o ∧ o < 0x00018100)

/-- A write of a partition's MSI-X table; the PBA is read-only. An entry that is unmasked sends what waits (R292). -/
def State.msixWrite (s : State) (p o : Nat) (v : Word) : State :=
  if 0x00018000 ≤ o then s else (s.setMsix p (o - 0x00010000) v).msixFlush p
/-- A read of a partition's MSI-X table or PBA. -/
def State.msixRead (s : State) (p o : Nat) : Word :=
  if 0x00018000 ≤ o then s.pbaWord p ((o - 0x00018000) / 4) else s.msixWord p (o - 0x00010000)

/-- The partition whose MSI-X table a path reaches (R281): its own, or seat 0's. -/
def State.msixPart (s : State) : Via → Nat
  | .inband _ port => (s.partOfUp s.leadEpoch port).getD 256
  | _ => s.seatPart s.leadEpoch 0

/-- A 4-byte aligned register write (R36, R48): set fields go to the understudy copy, live fields act. -/
def State.regWrite (s : State) (via : Via) (o : Nat) (v : Word) : State :=
  let agent := s.agentOf via
  if !s.viaOpen via then s
  else if inMsix o then s.msixWrite (s.msixPart via) o v
  else if (regDef o).isNone || !s.wordHere o then s
  else if setMask o ≠ 0 then s.setWrite o v
  else match offTile o with
    | none => if inIlulys o then s.ilulysWrite via o v else s.globalWrite agent o v
    | some t =>
      let r := o % 0x01000000
      if r < 0x00100000 then s.tileWrite via agent t r v
      else s.pbWrite agent (8 * t + r / 0x00100000 - 1) (r % 0x00100000) v

/-! ### Reads -/

/-- HK_ID (R447): by part, with the RATE_CAP_32 and EXT_TEMP fuses. -/
def State.hkId (s : State) : Word :=
  let w : Word := match s.part with
    | .rh1024 => 0x00011024
    | .rh512 => 0x00110512
    | .rh256 => 0x00210256
  putBit (putBit w 22 (s.boot.sensed.getLsbD 1744)) 23 (s.boot.sensed.getLsbD 1747)

/-- ST_STATUS as it reads (R242). -/
def State.stStatusView (s : State) (t seat : Nat) : Word :=
  let w := putField (s.lv (stStatus t seat)) 2 0 (s.seatSt seat).st
  putField (putBit w 3 (s.seatBlack t seat)) 27 8 (min 1048575 (s.outstanding t seat))
/-- PU_SEAT_STATUS as it reads (R248, R253). -/
def State.puStatusView (s : State) (t seat : Nat) : Word :=
  putField (putBit (s.lv (puStatus t seat)) 1 (s.privileged s.leadEpoch seat)) 12 2
    (s.pu.held.countP fun h => h.tile == t && h.seat == seat && h.queued)
/-- TL_PART_STATUS as it reads (R334). -/
def State.partStatusView (s : State) (t p : Nat) : Word :=
  putBit (putBit (putBit 0 0 (s.partBlack t p)) 1 (s.mgrHolds t 1 p)) 2 (tget false s.cont.upstream p)
/-- PB_PORT_STATUS as it reads (R334). -/
def State.portStatusView (s : State) (port : Nat) : Word :=
  putBit (putBit (s.lv (portStatus port)) 11 (s.portBlack port)) 12 (s.mgrHolds (tileOf port) 0 port)

/-- A live word of tile `t`'s common registers as it reads. -/
def State.tileView (s : State) (agent t r : Nat) : Word :=
  let o := tileBase t + r
  if r = 0x6018 then putField (s.lv o) 16 0 (s.pkts.countP fun p => p.tile == t && !p.held.isEmpty)
  else if 0xA000 ≤ r ∧ r < 0xA020 then (s.syncEng t).lv o
  else if r = 0xC000 then s.stopView agent t
  else if 0xE400 ≤ r ∧ r < 0xE800 then s.partStatusView t ((r - 0xE400) / 4)
  else if 0x10000 ≤ r ∧ r < 0x14000 then putBit (s.lv o) 0 (s.mgrHolds t 2 ((r - 0x10000) / 4))
  else if 0x14000 ≤ r ∧ r < 0x18000 then s.stStatusView t ((r - 0x14000) / 4)
  else if 0x64000 ≤ r ∧ r < 0x68000 then s.puStatusView t ((r - 0x64000) / 4)
  else if r = 0x68004 then
    let n := (s.puRules s.leadEpoch t).countP fun k => (s.puRuleAt s.leadEpoch t k).valid
    putField (putField (s.lv o) 12 0 n) 23 13 (s.pu.held.countP fun h => h.tile == t && h.queued)
  else s.lv (instOf agent o)

/-- A live word of an LK_ block as it reads (R120). -/
def State.lkView (s : State) (port w : Nat) : Word :=
  let l := Link.port port
  let k := s.linkSt l
  let two := fun (a b : Nat) => BitVec.ofNat 32 (a % 65536 + b % 65536 * 65536)
  if w = 0x14 then BitVec.ofNat 32 (k.nextSeq + (k.outst.head?.map (·.seqNo)).getD k.nextSeq * 4096)
  else if w = 0x18 then BitVec.ofNat 32 k.expected
  else if 0x20 ≤ w ∧ w < 0x40 then two (tget 0 k.limit ((w - 0x20) / 4)) (tget 0 k.consumed ((w - 0x20) / 4))
  else if 0x40 ≤ w ∧ w < 0x60 then
    two (if s.linkUp l then s.cOf l ((w - 0x40) / 4) else 0) (tget 0 k.inUse ((w - 0x40) / 4))
  else s.lv (lkReg port w)

/-- A live word of a port block as it reads. -/
def State.pbView (s : State) (agent pb r : Nat) : Word :=
  if 0x0040 ≤ r ∧ r < 0x0080 then s.portStatusView (16 * pb + (r - 0x0040) / 4)
  else if 0x2000 ≤ r ∧ r < 0x2400 then s.lkView (16 * pb + (r - 0x2000) / 0x100 * 4) (r % 0x100)
  else s.lv (instOf agent (pbBase pb + r))

/-- A live word outside the tile regions as it reads. -/
def State.globalView (s : State) (agent o : Nat) : Word :=
  if o = pwrStatus then s.pwrView
  else if 0x00800000 ≤ o ∧ o < 0x00802000 ∧ o % 0x40 = 0x14 then
    putBit (s.lv o) 9 (s.slotOf ((o - 0x00800000) / 0x40)).isSome
  else s.lv (instOf agent o)

/-- A live word as a serving agent reads it. -/
def State.liveView (s : State) (agent o : Nat) : Word :=
  match offTile o with
  | none => s.globalView agent o
  | some t =>
    let r := o % 0x01000000
    if r < 0x00100000 then s.tileView agent t r
    else s.pbView agent (8 * t + r / 0x00100000 - 1) (r % 0x00100000)

/-- What a 4-byte aligned register read returns (R6, R7, R36, R441): lead values in set fields, the current value elsewhere,
zero where nothing is. -/
def State.regRead (s : State) (via : Via) (o : Nat) : Word :=
  let agent := s.agentOf via
  if inMsix o then s.msixRead (s.msixPart via) o
  else if o = 0 then s.hkId
  else match regDef o with
    | none => 0
    | some d =>
      if !s.wordHere o then 0
      else
        let m := BitVec.ofNat 32 d.setM
        (s.conf (s.readEpoch agent o) o &&& m) ||| (s.liveView agent o &&& ~~~m)

end Sys2Proof.Machine
end

