-- ==== Sys2Proof/Machine/Ingress.lean ====
section
/-! DEFINITION. Memory requests that enter on PCI Express ports (R156, R160 to R163): the BARs of the fabric function (R231,
R232, R281), forwarding, multicast (R93, R142), and ingress that is held (R44, R276). -/

namespace Sys2Proof.Machine

/-! ### Held ingress (R44, R276) -/

/-- The PCI Express port through which a seat sends. -/
def State.seatPort (s : State) (e : Bool) (seat : Nat) : Nat :=
  if s.seatKind1 e seat then s.bindPort e (s.seatFunc e seat) else s.upPort e (s.seatPart e seat)
/-- Whether a port admits no header to lookup: its tile is between a curtain's fall and its flip, a seat that sends through it
is withheld or has a piece of a store waiting for a line (R175), or an earlier packet of the port waits. -/
def State.ingressHeld (s : State) (port : Nat) : Bool :=
  let t := tileOf port
  (s.cur.held.contains t && !s.cur.flipped.contains t) ||
    (s.sch.withheld.any fun k => k / 4096 == t && s.seatPort (s.tileEpoch t) (k % 4096) == port) ||
    (s.wc.stuck.any fun k => s.seatPort (s.tileEpoch t) k.seat == port) ||
    s.arrivals.any fun i => arrivalPort i == some port
/-- Whether anything can arrive on a port: its tile runs, its link is up and it is not in blackout. -/
def State.live? (s : State) (port : Nat) : Bool :=
  s.operates (tileOf port) && s.portEn (s.tileEpoch (tileOf port)) port && s.portUp port

/-! ### The receive side of the data-link layer (R81) -/

/-- The credits of a TLP of `n` payload bytes: one header, its payload in units of 16 bytes. -/
def rxCost (n : Nat) : Nat × Nat := (1, ceilDiv n 16)
/-- A TLP arrives in order on a PCI Express port: it is acknowledged, and its credits are owed to the partner. -/
def State.rxTlp (s : State) (port cls n : Nat) : State :=
  if !s.live? port || s.isVfl (s.tileEpoch (tileOf port)) port then s
  else
    let k := (s.portSt port).rxSeq
    (s.modPort port fun q => { q with
      rxSeq := (k + 1) % 4096
      owed := tmod (0, 0) q.owed cls fun u => (u.1 + (rxCost n).1, u.2 + (rxCost n).2) }).emit (.dllp port 0 k 0 0)
/-- The credits owed on a port are returned, unless a packet of it waits in its receive buffer or is refused admission (R44, R125,
R276). -/
def State.creditOut (s : State) (port : Nat) : State :=
  if !s.live? port || s.isVfl (s.tileEpoch (tileOf port)) port || (s.arrivals.any fun i => arrivalPort i == some port) ||
      s.pkts.any fun p => p.inPort == some port && p.loc == .refused then s
  else s.each (s.portSt port).owed fun s x =>
    let g := tget (0, 0) (s.portSt port).given x.1
    let g := (g.1 + x.2.1, g.2 + x.2.2)
    (s.modPort port fun q => { q with given := tset (0, 0) q.given x.1 g, owed := tset (0, 0) q.owed x.1 (0, 0) }).emit
      (.dllp port (2 + x.1) 0 (g.1 % 4096) (g.2 % 65536))
/-- What a TLP of `n` payload bytes does beside what its kind does: its acknowledgement, and its credits. -/
def State.tlpIn (s : State) (port cls n : Nat) (f : State → State) : State := (f (s.rxTlp port cls n)).creditOut port

/-! ### Sending on (R45, R137, R164) -/

/-- A packet that has entered on a port goes to the core of its tile. -/
def State.take (s : State) (port : Nat) (p : Packet) : State :=
  let t := tileOf port
  s.ingress { p with stamp := s.tileFt t, inPort := some port, tile := t, srcTile := t, src := port, chan := portChan port }
/-- A packet that has entered on a port ends there for a cause (R330, R333). -/
def State.endHere (s : State) (port : Nat) (p : Packet) (c : EndCause) : State :=
  let t := tileOf port
  match p.cls with
  | .posted => s.countDrop t (some port) p.seat (p.charged) c
  | .cpl => s.countDrop t (some port) p.seat (p.charged) c
  | .nonPosted => s.synthUr t p.epoch p.mgmt p.origin p.rRid p.rTag p.svc p.port (attrOf p.body)
  | .engine => match p.body with
    | .eng h _ => s.endEng t h false c.code
    | _ => s
/-- An Unsupported Request: UR for a non-posted request, a posted one is discarded. -/
def State.unsupported (s : State) (port : Nat) (p : Packet) : State :=
  if p.cls == .nonPosted then s.replyUr (tileOf port) p.epoch p.mgmt p.origin p.rRid p.rTag p.svc none (attrOf p.body)
  else s.modBo (tileOf port) p.seat fun b => { b with discard := b.discard + p.charged }
/-- Send a packet to a port of this part. -/
def State.sendTo (s : State) (port : Nat) (p : Packet) (tgt : Nat) : State :=
  if s.sees (tileOf port) (tileOf tgt) then s.take port { p with dest := pbOf tgt, ports := [tgt] }
  else s.endHere port { p with ports := [tgt] } .tileLost
/-- Send a packet to another part by the route table (R165, R166). -/
def State.sendFar (s : State) (port : Nat) (p : Packet) (fid : Nat) : State :=
  let t := tileOf port
  match s.nextHop p.epoch t (p.sfid.getD (fidOf (s.switchNum p.epoch) port)) fid with
  | some h => s.sendTo port { p with target := fid } h
  | none =>
    let s := s.count t .tlFabricUnreachable (some port) p.seat
    if p.cls == .nonPosted || p.cls == .engine then s.endHere port p .portDown
    else s.modBo t p.seat fun b => { b with discard := b.discard + p.charged }

/-- Send a request to a bound function: to its port, or to the part that has it (R150, R160). -/
def State.toFunction (s : State) (port : Nat) (p : Packet) (f : Nat) : State :=
  let e := p.epoch
  let q := s.bindPart e f
  let d := s.bindVdp e f
  let p := { p with func := some f }
  if s.vdpDark e q d then s.endHere port { p with ports := if s.vdpLocal e q d then [s.bindPort e f] else [] } .blackout
  else if s.vdpLocal e q d then s.sendTo port p (s.bindPort e f)
  else s.sendFar port p (fidOf (s.vdpSw e q d) (s.bindPort e f))

/-- Send copies of a packet to ports of this part, one for each tile (R142). -/
def State.copies (s : State) (port : Nat) (p : Packet) (ports : List Nat) : State :=
  s.each s.part.tiles fun s t =>
    let mine := ports.filter fun q => tileOf q == t
    match mine with
    | [] => s
    | q :: qs =>
      let low := qs.foldl min q
      if s.sees (tileOf port) t then s.take port { p with dest := pbOf low, ports := mine } else s.endHere port p .tileLost

/-! ### Requests as they enter -/

/-- The core class of a request. -/
def reqCls (r : Req) : PClass := if reqNp r then .nonPosted else .posted
/-- Whether a request is owed order (R136, R172): Relaxed Ordering, where it is honoured, frees memory writes, AtomicOps and
deferrable writes. -/
def reqOwed (r : Req) (honoured : Bool) : Bool :=
  !(honoured && r.relaxed && (r.kind == .memWrite || r.kind == .atomicOp || r.kind == .deferrableWrite))
/-- A request without its ECRC: a received one is never forwarded (R78). -/
def noEcrc (r : Req) : Req := { r with ecrcBad := false }
/-- The packet of a request that has entered. -/
def reqPacket (e : Bool) (r : Req) (o : Origin) (part seat : Option Nat) (ordered : Bool) : Packet :=
  { id := 0, cls := reqCls r, body := .req (noEcrc r), origin := o, rRid := r.rid, rTag := r.tag, part := part, epoch := e, seat := seat,
    svc := r.tc, ordered := ordered }

/-- A TLP that is discarded at ingress (R78, R79, R341): malformed, over the Max_Payload_Size of its port, or of bad ECRC where the
port's partition checks it. -/
def State.badTlp (s : State) (port p d : Nat) (r : Req) (mps : Nat) : Option State :=
  if r.malformed || decide (mps < r.data.length) then
    some ((s.count (tileOf port) .malformed (some port)).logAer p d .malformedTlp)
  else if s.ecrcFails (s.tileEpoch (tileOf port)) port r.ecrcBad then some ((s.count (tileOf port) .ecrcErr (some port)).logAer p d .ecrc)
  else none
/-- A poisoned TLP is forwarded and counted (R340). -/
def State.notePoison (s : State) (port p d : Nat) (poisoned : Bool) : State :=
  if poisoned then (s.count (tileOf port) .poisonFwd (some port)).logAer p d .poisonedTlp else s

/-- Which BAR of a partition's fabric function holds an address (R160 rule 1, R279, R280). -/
def State.barOf (s : State) (e : Bool) (p a : Nat) : Option Nat :=
  let f := s.fab p
  let n := s.bar4Log2 e p
  let within := fun (b k : Nat) => decide (b / 2 ^ k = a / 2 ^ k)
  if !f.mse || f.d3hot then none
  else if within f.bar0 28 then some 0
  else if within f.bar2 24 then some 2
  else if n ≠ 0 && within f.bar4 n then some 4
  else none

/-! ### BAR0 (R281) -/

/-- Whether an access to BAR0 is a register access for its seat, by the rows of R281 after the first. -/
def State.bar0Admits (s : State) (e : Bool) (seat : Option Nat) (o : Nat) : Bool :=
  match seat with
  | some 0 => true
  | some k => decide (0x00500000 ≤ o ∧ o < 0x00700000) && s.ringOwner e ((o - 0x00500000) / 32) == some k
  | none => false

/-- An access to BAR0 of a partition (R281); `up` where it entered on the partition's upstream port. An unseated access is
counted, whatever it finds (R229; DEDUCED, log entry 103). -/
def State.bar0 (s : State) (e : Bool) (p : Nat) (who : Requester) (up : Bool) (r : Req) : State :=
  let t := s.homeTile e p
  let o := r.addr.toNat % 2 ^ 28
  let seat := s.seatOf e p who r.pasid
  let ok := (up && inMsix o) || s.bar0Admits e seat o
  let via := Via.inband t (s.upPort e p)
  let s := if s.here t && seat.isNone && !(r.kind == .memWrite && r.poisoned) then s.count t .stUnseated else s
  if !s.here t then s
  else if r.kind == .memWrite then
    if r.poisoned then s.poisonedWrite p
    else if r.data.length ≠ 4 || o % 4 ≠ 0 || !r.be.all id then s.logFabAer p .unsupportedRequest
    else if ok then s.regWrite via o (BitVec.ofNat 32 (ofBytes r.data))
    else s.count t .stBar0Refused none seat
  else if r.kind != .memRead || r.len ≠ 4 || o % 4 ≠ 0 then s.barReply e p who r .ur []
  else if ok then s.barReply e p who r .sc (leBytes 4 (s.regRead via o).toNat)
  else (s.count t .stBar0Refused none seat).barReply e p who r .sc (leBytes 4 0)

/-! ### BAR2 (R231, R232) -/

/-- A word of a seat's doorbell page. -/
def State.pageWord (s : State) (t seat o : Nat) : Word :=
  let q := s.seatSt seat
  if o = 0x040 then putBit (putField 0 2 0 q.st) 3 (s.seatBlack t seat)
  else if o = 0x180 then putBit (putBit (putBit 0 0 (s.t2mFull seat)) 2 (s.m2tBusy seat)) 4 q.dropped
  else if 0x800 ≤ o ∧ o < 0x840 then tget 0 q.t2m ((o - 0x800) / 4)
  else if 0x840 ≤ o ∧ o < 0x880 then tget 0 q.m2t ((o - 0x840) / 4)
  else 0
/-- A byte of a seat's doorbell page. -/
def State.pageByte (s : State) (t seat o : Nat) : Byte :=
  (s.pageWord t seat (o / 4 * 4) >>> (8 * (o % 4))).setWidth 8

/-- An access to BAR2 of a partition. -/
def State.bar2 (s : State) (e : Bool) (p : Nat) (who : Requester) (r : Req) : State :=
  let t := s.homeTile e p
  let seat := r.addr.toNat % 2 ^ 24 / 4096
  let o := r.addr.toNat % 4096
  let unseated := (s.seatOf e p who r.pasid).isNone
  if !s.here t then s
  else if r.kind = .atomicOp then bar2Atomic p who seat r s
  else if r.kind = .memWrite then
    if o < 0x020 then ringDoorbell p who seat (o / 4) r s
    else if o < 0x024 then poolDoorbell p who seat r s
    else if 0x180 ≤ o ∧ o < 0x184 then
      s.mailbox p who seat r fun s => s.mbxFlagsWrite seat (BitVec.ofNat 32 (ofBytes (r.data.take 4)))
    else if 0x800 ≤ o ∧ o < 0x840 then mbxT2mWrite p who seat (o - 0x800) r s
    else if 0x840 ≤ o ∧ o < 0x880 then s.mailbox p who seat r id
    else if r.poisoned then s.poisonedWrite p
    else if unseated then s.count t .stUnseated else s
  else if r.kind ≠ .memRead then s.barReply e p who r .ur []
  else if 0x100 ≤ o ∧ o < 0x104 then fenceRead p who seat r s
  else
    let s := if unseated then s.count t .stUnseated else s
    let data := if s.onPage e p who seat r then (List.range r.len).map fun i => s.pageByte t seat (o + i)
      else List.replicate r.len 0
    s.barReply e p who r .sc data

/-- A request in a BAR of a partition's fabric function. -/
def State.barAccess (s : State) (e : Bool) (p : Nat) (who : Requester) (up : Bool) (r : Req) (bar : Nat) : State :=
  if bar = 0 then s.bar0 e p who up r else if bar = 2 then s.bar2 e p who r else s.bar4 e p who r

/-! ### PCI Express multicast (R93, R142) -/

/-- The ports that receive a multicast group of a partition, other than on virtual port `d`: those of this part, and fabric IDs
of remote ones. -/
def State.mcTargets (s : State) (e : Bool) (p d g : Nat) : List Nat × List Nat :=
  let ds := (List.range 32).filter fun k => k != d && s.vdpEn e p k && s.vdpPresents e p k && (s.vport p k).mcReceive.testBit g
  let up := if d ≠ 32 && (s.vport p 32).mcReceive.testBit g then [s.upPort e p] else []
  let open_ := ds.filter fun k => !s.vdpDark e p k
  (up ++ (open_.filter fun k => s.vdpLocal e p k).map fun k => s.vdpPort e p k,
   (open_.filter fun k => !s.vdpLocal e p k).map fun k => fidOf (s.vdpSw e p k) (s.vdpPort e p k))
/-- The ports of a multicast group's copies that DPC of a partition that does not own them ends (R88). -/
def State.mcDark (s : State) (e : Bool) (p d g : Nat) : List Nat :=
  ((List.range 32).filter fun k => k != d && s.vdpEn e p k && s.vdpPresents e p k && (s.vport p k).mcReceive.testBit g &&
    s.vdpDark e p k).map fun k => s.vdpPort e p k
/-- A multicast write that entered on virtual port `d` of partition `p`. -/
def State.multicast (s : State) (port p d g : Nat) (q : Packet) : State :=
  let e := q.epoch
  let w := s.conf e (0x00040000 + 4 * g)
  let drop := fun (s : State) => s.modBo (tileOf port) q.seat fun b => { b with discard := b.discard + q.charged }
  let owned := decide (g < 64) && bit w 8 && field w 7 0 == p
  let tgt := s.mcTargets e p d g
  if !owned then drop (s.count (tileOf port) .pbMcNoTarget (some port) q.seat)
  else if (s.vport p d).mcBlock.testBit g || (s.vport p d).mcUntrans.testBit g then drop (s.logAer p d .mcBlocked)
  else
    let dark := s.mcDark e p d g
    let s := s.each dark fun s k => s.countDrop (tileOf port) (some k) q.seat q.charged .portDown
    if !dark.isEmpty && tgt.1.isEmpty && tgt.2.isEmpty then s
    else if tgt.1.isEmpty && tgt.2.isEmpty then drop (s.count (tileOf port) .pbMcNoTarget (some port) q.seat)
    else (s.copies port q tgt.1).each tgt.2 fun s fid => s.sendFar port q fid

/-! ### From the host (R160) -/

/-- The port of this part through which a host's memory request would leave toward a function, none where it would leave by none. -/
def State.leavesBy (s : State) (e : Bool) (p a : Nat) : List Nat :=
  match s.amapHit e p a with
  | none => []
  | some x =>
    let f := s.amapFunc e x
    if s.vdpLocal e (s.bindPart e f) (s.bindVdp e f) then [s.bindPort e f] else []
/-- A host's memory request is routed by the first matching rule. -/
def State.hostRequest (s : State) (port p : Nat) (r : Req) : State :=
  let t := tileOf port
  let e := s.tileEpoch t
  let who := Requester.host r.rid
  let seat := s.seatOf e p who r.pasid
  let q := reqPacket e r (.host p) (some p) seat (reqOwed r (s.partRo e p))
  let dark := s.partBlack t p || seat.any fun k => s.seatBlack t k
  match s.badTlp port p 32 r (s.mps p) with
  | some s => s
  | none =>
    if r.kind = .ioRequest then s.unsupported port q
    else match (if r.mc.isSome && r.kind == .memWrite then none else s.barOf e p r.addr.toNat) with
      | some b => if s.here (s.homeTile e p) then s.barAccess e p who true r b else s.endHere port q .tileLost
      | none =>
        let s := s.notePoison port p 32 r.poisoned
        if dark then s.endHere port { q with ports := s.leavesBy e p r.addr.toNat } .blackout
        else match (if r.kind == .memWrite then r.mc else none), s.amapHit e p r.addr.toNat with
          | some g, _ => s.multicast port p 32 g q
          | none, some x =>
            let r' := { noEcrc r with addr := BitVec.ofNat 64 (s.amapTo e x r.addr.toNat) }
            s.toFunction port { q with body := .req r' } (s.amapFunc e x)
          | none, none => ((s.count t .tlUnrouted (some port) seat).logAer p 32 .unsupportedRequest).unsupported port q

/-- HOST_MEMORY_REQUEST (R160). -/
def hostMemoryRequest (port : Nat) (r : Req) (s : State) : State :=
  if !s.live? port then s
  else if s.ingressHeld port then s.hold (.hostMemoryRequest port r)
  else match s.partOfUp (s.tileEpoch (tileOf port)) port with
    | some p => s.hostRequest port p r
    | none => s

/-! ### From a bound function (R156, R161 to R163) -/

/-- Whether a port's internal bus range holds a routing ID (R151). -/
def State.busHolds (s : State) (e : Bool) (port rid : Nat) : Bool :=
  decide (s.cfld e (portBus port) 11 0 ≤ rid / 256 ∧ rid / 256 ≤ s.cfld e (portBus port) 27 16)
/-- The binding entry of a requester on a downstream port, if it passes source validation (R156); the virtual port of an entry
for a partition of another part is that part's, and only the port's bus range is tested (R168). -/
def State.srcFunc (s : State) (e : Bool) (port rid : Nat) : Option Nat :=
  let i := s.portRid e port rid
  (s.bindEntries e).find? fun f => s.bindRid e f == i &&
    if s.bindSw e f = s.switchNum e then
      s.vdpEn e (s.bindPart e f) (s.bindVdp e f) && s.vdpPresents e (s.bindPart e f) (s.bindVdp e f) &&
        s.vdpLocal e (s.bindPart e f) (s.bindVdp e f) && s.bindPort e f == port
    else s.busHolds e port i
/-- A request that fails source validation. -/
def State.srcInvalid (s : State) (port : Nat) (q : Packet) : State :=
  (s.count (tileOf port) .tlSrcInvalid (some port)).unsupported port q

/-- Whether a peer request goes straight to the target's port (R162); one whose target stands behind the port it came on is sent
upstream by Upstream Forwarding. -/
def State.peerDirect (s : State) (e : Bool) (p d g : Nat) : Bool :=
  let v := s.vport p d
  s.p2pEn e p && s.bindVdp e g != d && !v.acsCtrl.testBit 2 && !(v.acsCtrl.testBit 5 && v.egressVec.testBit (s.bindVdp e g))

/-- Rules 1 to 4 of R161 for a request of function `f` of a partition of this part, which entered on `port`. -/
def State.functionRoute (s : State) (port f : Nat) (r : Req) (q : Packet) : State :=
  let e := q.epoch
  let t := tileOf port
  let p := s.bindPart e f
  let d := s.bindVdp e f
  let dark := s.partBlack t p || q.seat.any fun k => s.seatBlack t k
  let a := r.addr.toNat
  let up := fun (s : State) => s.sendTo port q (s.upPort e p)
  if !(s.vport p d).bme then (s.logAer p d .unsupportedRequest).unsupported port q
  else match (if r.kind == .memWrite then r.mc else none) with
    | some g => if dark then s.endHere port q .blackout else (s.notePoison port p d r.poisoned).multicast port p d g q
    | none =>
      match s.amapHit e p a, s.barOf e p a with
      | none, some b =>
        if s.here t && s.here (s.homeTile e p) then s.barAccess e p (.func f) false r b else s.endHere port q .tileLost
      | hit, _ =>
        let s := s.notePoison port p d r.poisoned
        if dark then s.endHere port q .blackout
        else match hit with
          | some x =>
            let g := s.amapFunc e x
            if s.peerDirect e p d g then
              s.toFunction port { q with body := .req { noEcrc r with addr := BitVec.ofNat 64 (s.amapTo e x a) } } g
            else up s
          | none => up s

/-- A request of a bound function. -/
def State.functionRequest (s : State) (port : Nat) (r : Req) : State :=
  let t := tileOf port
  let e := s.tileEpoch t
  let own := s.slotOwner e port
  let bare := reqPacket e r (.port port) none none true
  match s.badTlp port own ((s.vdpOf e own port).getD 0) r (s.portMps e port) with
  | some s => s
  | none =>
    match s.srcFunc e port r.rid with
    | none => s.srcInvalid port bare
    | some f =>
      let p := s.bindPart e f
      let d := s.bindVdp e f
      let here := decide (s.bindSw e f = s.switchNum e)
      if r.atBits ≠ 0 then
        let s := if here then s.logAer p d .acsViolation else s
        s.unsupported port { bare with seat := if here then s.seatOf e p (.func f) r.pasid else none }
      else if !here then (s.notePoison port own ((s.vdpOf e own port).getD 0) r.poisoned).sendFar port bare
        (fidOf (s.bindSw e f) (s.bindUp e f))
      else
        let seat := s.seatOf e p (.func f) r.pasid
        let q := reqPacket e r (.func f) (some p) seat (reqOwed r (s.partRo e p))
        if s.vdpDark e p d then s.endHere port q .blackout else s.functionRoute port f r q

/-- FUNCTION_MEMORY_REQUEST (R161). -/
def functionMemoryRequest (port : Nat) (r : Req) (s : State) : State :=
  let e := s.tileEpoch (tileOf port)
  if !s.live? port || s.isVfl e port || (s.partOfUp e port).isSome then s
  else if s.ingressHeld port then s.hold (.functionMemoryRequest port r)
  else s.functionRequest port r

/-! ### The meanings -/

/-- The flow-control class of a request: posted or non-posted. -/
def reqFc (r : Req) : Nat := b2n (reqNp r)
/-- HOST_MEMORY_REQUEST. -/
def execHostMemoryRequest (port : Nat) (r : Req) (s : State) : Out :=
  .next (s.tlpIn port (reqFc r) r.data.length (hostMemoryRequest port r))
/-- FUNCTION_MEMORY_REQUEST. -/
def execFunctionMemoryRequest (port : Nat) (r : Req) (s : State) : Out :=
  .next (s.tlpIn port (reqFc r) r.data.length (functionMemoryRequest port r))

end Sys2Proof.Machine
end

