-- ==== Sys2Proof/Machine/CfgSpace.lean ====
section
/-! DEFINITION. The configuration space that a partition's host sees (R76, R93, R149 to R155, R159, R279): virtual bridges, the
fabric function, bound functions; Function Level Reset, Secondary Bus Reset, partition reset (R155, R403). Where a capability
stands in it the manual does not say (log entry 61); a bit that it does not give reads a free value and takes no write. -/

namespace Sys2Proof.Machine

/-! ### Words -/

/-- The bits that byte enables select. -/
def beMask (be : Nat) : Word :=
  (List.range 4).foldl (fun m i => if be.testBit i then m ||| BitVec.ofNat 32 (0xFF * 2 ^ (8 * i)) else m) 0
/-- A word of the fields known of a register, as (high bit, low bit, value): the mask of the known bits, and the word. -/
def packWord (l : List (Nat × Nat × Nat)) : Word × Word :=
  l.foldl (fun a x => (a.1 ||| maskOf x.1 x.2.1, putField a.2 x.1 x.2.1 x.2.2)) (0, 0)
/-- A register as it is read: known bits, and free values elsewhere. -/
def State.cfgWord (s : State) (k : Word × Word) : Word := (k.2 &&& k.1) ||| (s.freeW &&& ~~~k.1)

/-- The bit of an error in AER's Uncorrectable Error Status, as the base specification numbers them (PRESUMED, log entry 61). -/
def aerBit : AerKind → Option Nat
  | .dataLinkProtocol => some 4
  | .surpriseDown => some 5
  | .poisonedTlp => some 12
  | .completionTimeout => some 14
  | .unexpectedCompletion => some 16
  | .malformedTlp => some 18
  | .ecrc => some 19
  | .unsupportedRequest => some 20
  | .acsViolation => some 21
  | .mcBlocked => some 23
  | .replayRollover => none
/-- The fields of an AER log: Uncorrectable Error Status. -/
def aerFields (l : List AerKind) : List (Nat × Nat × Nat) :=
  [4, 5, 12, 14, 16, 18, 19, 20, 21, 23].map fun b => (b, b, b2n (l.any fun k => aerBit k == some b))
/-- The fields of AER's Capabilities and Control (R76): no first error pointer, ECRC generation and check capable with their enables, no
multiple header recording. -/
def ecrcFields (gen check : Bool) : List (Nat × Nat × Nat) :=
  [(4, 0, 0), (5, 5, 1), (6, 6, b2n gen), (7, 7, 1), (8, 8, b2n check), (9, 9, 0), (10, 10, 0)]
/-- A log after a write of ones to its Uncorrectable Error Status. -/
def aerClear (l : List AerKind) (w : Word) : List AerKind :=
  l.filter fun k => match aerBit k with
    | some b => !bit w b
    | none => true

/-! ### Virtual bridges (R76, R90, R149, R150) -/

/-- The physical port of a virtual bridge; `d` = 32 is the virtual upstream port. -/
def State.bridgePort (s : State) (e : Bool) (p d : Nat) : Nat := if d = 32 then s.upPort e p else s.vdpPort e p d
/-- Whether the physical port of a virtual bridge is of this part. -/
def State.bridgeLocal (s : State) (e : Bool) (p d : Nat) : Bool := d == 32 || s.vdpLocal e p d
/-- Whether a partition owns the link controls of its virtual bridge's port (R88). -/
def State.linkOwner (s : State) (e : Bool) (p d : Nat) : Bool :=
  d == 32 || (s.vdpLocal e p d && s.slotOwner e (s.vdpPort e p d) == p)
/-- The virtual bridge whose link controls hold the true values for a port (R88): the owner's. -/
def State.trueBridge (s : State) (e : Bool) (p d : Nat) : VPort :=
  if s.linkOwner e p d || !s.vdpLocal e p d then s.vport p d
  else
    let o := s.slotOwner e (s.vdpPort e p d)
    match s.vdpOf e o (s.vdpPort e p d) with
    | some k => s.vport o k
    | none => s.vport p d
/-- DL_Active as a virtual bridge's Link Status reads it: of its port, or of a live next hop toward its part (R150). -/
def State.bridgeActive (s : State) (e : Bool) (p d : Nat) : Bool :=
  if s.bridgeLocal e p d then s.dlActive (s.bridgePort e p d) && s.sees (s.homeTile e p) (tileOf (s.bridgePort e p d))
  else
    let t := s.homeTile e p
    (List.range (s.hopCount e t (s.vdpSw e p d))).any fun i => s.hopLive t (s.vdpSw e p d) i
/-- Whether a virtual downstream port presents a Slot Capability (R89, R150). -/
def State.hasSlot (s : State) (e : Bool) (p d : Nat) : Bool :=
  d != 32 && s.vdpLocal e p d && s.cflag e (slotCfg (s.vdpPort e p d)) 0

/-- The fields of a bridge's Slot Capabilities (R89, R90). -/
def State.slotCaps (s : State) (e : Bool) (port : Nat) : List (Nat × Nat × Nat) :=
  let b := fun n => b2n (s.cflag e (slotCfg port) n)
  [(0, 0, b 9), (1, 1, b 8), (2, 2, 0), (3, 3, b 10), (4, 4, b 11), (5, 5, b 12), (17, 17, 0), (31, 19, s.cfld e (slotCfg port) 31 24)]
/-- The fields of a bridge's Slot Control and Slot Status (R90). -/
def State.slotFields (s : State) (p d port : Nat) : List (Nat × Nat × Nat) :=
  let k := s.slotSt port
  let v := s.vport p d
  [(7, 6, k.attn), (9, 8, k.pwr), (10, 10, b2n k.off), (16, 16, b2n k.attnPressed), (17, 17, b2n k.fault),
   (19, 19, b2n (k.presChanged || v.presenceChanged)), (20, 20, b2n k.cmdDone), (22, 22, b2n k.present), (24, 24, b2n v.dllsc)]

/-- The extended capabilities of a bridge in their order, as offset and ID (R76, R80; PRESUMED, log entry 61): ACS and DPC on a
downstream port; Device 3, PTM, Multicast, AER, Lane Margining on every port. No other is there. -/
def extCaps (down : Bool) : List (Nat × Nat) :=
  (if down then [(0x100, 0x000D), (0x180, 0x001D)] else [(0x100, 0x0000)]) ++
    [(0x1A0, 0x002F), (0x1B0, 0x001F), (0x1C0, 0x0012), (0x200, 0x0001), (0x280, 0x0027)]
/-- Link Capabilities of a port of this part (R4, R76): the highest speed up to the lower of MAX_RATE and the fused cap, the width of
PB_PORT_CFG, L0s and L1. -/
def State.linkCaps (s : State) (e : Bool) (port : Nat) (down : Bool) : List (Nat × Nat × Nat) :=
  [(3, 0, s.rateCap port + 1), (9, 4, widthLanes (s.cfld e (portCfg port) 4 2)), (11, 10, 3), (20, 20, b2n down)]
/-- A dword of the header that the AER log of an object on a port holds (R76): 4 and a prefix log of 4 outside flit mode, 14 in flit
mode. -/
def State.headerLog (s : State) (hdr : Option Nat) (port i : Nat) : List (Nat × Nat × Nat) :=
  if i < (if s.flag (portStatus port) 7 then 14 else 8) then
    [(31, 0, match hdr with
      | some n => (Config.loggedHeader n i).toNat
      | none => 0)]
  else [(31, 0, 0)]
/-- The registers of a bridge that stand in arrays: capability headers, the ACS egress vector of 256 bits, the header log, the lanes'
margining controls. -/
def State.bridgeArrays (s : State) (e : Bool) (p d r : Nat) : List (Nat × Nat × Nat) :=
  let down := d != 32
  let port := s.bridgePort e p d
  let caps := extCaps down
  match (caps.zip (caps.drop 1 ++ [(0, 0)])).find? fun x => x.1.1 == r with
  | some x => [(15, 0, x.1.2), (31, 20, x.2.1)]
  | none =>
    if 0x108 ≤ r ∧ r < 0x128 then (if down then [(31, 0, (s.vport p d).egressVec / 2 ^ (8 * (r - 0x108)))] else [])
    else if 0x21C ≤ r ∧ r < 0x22C then s.headerLog (s.vport p d).aerHdr port ((r - 0x21C) / 4)
    else if 0x238 ≤ r ∧ r < 0x260 then s.headerLog (s.vport p d).aerHdr port (4 + (r - 0x238) / 4)
    else if 0x288 ≤ r ∧ r < 0x2C8 ∧ s.bridgeLocal e p d then
      let lane := port + (r - 0x288) / 4
      [(15, 0, (s.laneSt lane).margin), (31, 16, s.marginStatus lane)]
    else []

/-- The fields known of register `reg` of a virtual bridge. -/
def State.bridgeFields (s : State) (e : Bool) (p d reg : Nat) : List (Nat × Nat × Nat) :=
  let v := s.vport p d
  let port := s.bridgePort e p d
  let down := d != 32
  match reg with
  | 0x04 => [(1, 1, b2n v.mse), (2, 2, b2n v.bme), (20, 20, 1)]
  | 0x0C => [(22, 16, 1)]
  | 0x34 => [(7, 0, 0x40)]
  | 0x18 => [(7, 0, v.prim), (15, 8, v.sec), (23, 16, v.sub)]
  | 0x20 => [(15, 4, v.memBase / 2 ^ 20), (31, 20, v.memLimit / 2 ^ 20)]
  | 0x24 => [(3, 0, 1), (15, 4, v.prefBase / 2 ^ 20), (19, 16, 1), (31, 20, v.prefLimit / 2 ^ 20)]
  | 0x28 => [(31, 0, v.prefBase / 2 ^ 32)]
  | 0x2C => [(31, 0, v.prefLimit / 2 ^ 32)]
  | 0x3C => [(22, 22, b2n v.busReset)]
  | 0x40 => [(7, 0, 0x10), (15, 8, 0), (23, 20, if down then 6 else 5), (24, 24, b2n (s.hasSlot e p d))]
  | 0x44 => [(2, 0, 3)]
  | 0x48 => [(7, 5, v.mpsCode)]
  | 0x4C => if s.bridgeLocal e p d then s.linkCaps e port down else []
  | 0x50 =>
    let w := s.trueBridge e p d
    [(1, 0, w.aspm), (4, 4, b2n w.linkDisable)] ++ (if down then [(29, 29, b2n (s.bridgeActive e p d))] else []) ++
      (if s.bridgeLocal e p d then [(19, 16, s.fld (portStatus port) 6 4 + 1), (25, 20, widthLanes (s.fld (portStatus port) 3 1))]
       else [])
  | 0x54 => if s.hasSlot e p d then s.slotCaps e port else [(31, 0, 0)]
  | 0x58 => if s.hasSlot e p d then s.slotFields p d port else [(31, 0, 0)]
  | 0x64 => [(5, 5, b2n down), (6, 6, 1), (7, 7, 1), (8, 8, 1), (9, 9, 1), (11, 11, 0), (16, 16, 1), (17, 17, 1), (21, 21, 1)]
  | 0x68 => if down then [(5, 5, b2n v.ari)] else []
  | 0x6C => if s.bridgeLocal e p d then [(0, 0, 0), (7, 1, 2 ^ (s.rateCap port + 1) - 1)] else []
  | 0x104 => if down then [(15, 0, 0x3F), (22, 16, v.acsCtrl &&& 0x3F ||| 2)] else []
  | 0x184 => if down then [(5, 5, 0), (7, 7, 1), (17, 16, v.dpcEnable), (18, 18, 1), (22, 22, 0)] else []
  | 0x188 => if down then [(0, 0, b2n v.dpcStatus), (2, 1, v.dpcReason), (6, 5, v.dpcExt)] else []
  | 0x1C4 => [(5, 0, 63)]
  | 0x1D0 => [(31, 0, v.mcReceive)]
  | 0x1D4 => [(31, 0, v.mcReceive / 2 ^ 32)]
  | 0x1D8 => [(31, 0, v.mcBlock)]
  | 0x1DC => [(31, 0, v.mcBlock / 2 ^ 32)]
  | 0x1E0 => [(31, 0, v.mcUntrans)]
  | 0x1E4 => [(31, 0, v.mcUntrans / 2 ^ 32)]
  | 0x1E8 => [(31, 0, 0)]
  | 0x1EC => [(31, 0, 0)]
  | 0x1A4 => [(1, 1, 1), (2, 2, 1)]
  | 0x1B4 => [(0, 0, 0), (1, 1, 1), (2, 2, 1)]
  | 0x204 => aerFields v.aer
  | 0x210 => [(8, 8, b2n (v.aer.contains .replayRollover))]
  | 0x218 => ecrcFields v.ecrcGen v.ecrcCheck
  | 0x284 => [(0, 0, 0), (16, 16, b2n (decide (3 ≤ s.fld (portStatus port) 6 4) && s.bridgeActive e p d))]
  | r => s.bridgeArrays e p d r

/-- A 64-bit value with one of its two words replaced. -/
def setHalf (old : Nat) (high : Bool) (v : Word) : Nat :=
  if high then old % 2 ^ 32 + 2 ^ 32 * v.toNat else old / 2 ^ 32 * 2 ^ 32 + v.toNat
/-- The multicast groups that a partition owns (R93), as a vector. -/
def State.ownGroups (s : State) (e : Bool) (p : Nat) : Nat :=
  (List.range 64).foldl (fun m g =>
    if s.cflag e (0x00040000 + 4 * g) 8 && s.cfld e (0x00040000 + 4 * g) 7 0 == p then m + 2 ^ g else m) 0

/-- Slot Control and Slot Status written by the owner (R90): `v` the word, `w` the ones written to status.
Of one write that changes the indicators and Power Controller Control, a headless tile holds the power command as the later of the two
(DESIGN CHOICE, log entry 130). -/
def State.slotWrite (s : State) (p d : Nat) (v w : Word) : State :=
  match s.slotAt p d with
  | none => s
  | some port =>
    let k := s.slotSt port
    let s := s.modSlot port fun k => { k with
      attnPressed := k.attnPressed && !bit w 16, fault := k.fault && !bit w 17
      presChanged := k.presChanged && !bit w 19, cmdDone := k.cmdDone && !bit w 20 }
    let s := if field v 7 6 ≠ k.attn ∨ field v 9 8 ≠ k.pwr then slotIndicatorWrite p d (field v 7 6) (field v 9 8) s else s
    if bit v 10 then slotPowerOff p d s else slotPowerOn p d s

/-- DPC Control and its software trigger (R76, R86). -/
def State.dpcCtrlWrite (s : State) (p d : Nat) (v w : Word) : State :=
  let s := s.modVport p d fun q => { q with dpcEnable := field v 17 16 }
  if bit w 22 then dpcTrigger p d .software s else s
/-- Link Control, where the partition owns the link (R84, R88): Link Disable takes the link down. -/
def State.linkWrite (s : State) (e : Bool) (p d : Nat) (v : Word) : State :=
  if !s.linkOwner e p d then s
  else
    let port := s.bridgePort e p d
    let was := (s.vport p d).linkDisable
    let s := s.modVport p d fun q => { q with aspm := field v 1 0, linkDisable := d != 32 && bit v 4 }
    if !was && d != 32 && bit v 4 && s.sees (s.homeTile e p) (tileOf port) && s.dlActive port then s.portDown port .portDown else s

/-! ### Resets (R155, R403) -/

/-- Whether a binding entry's function stands behind a port of this part. -/
def State.behind (s : State) (e : Bool) (port f : Nat) : Bool :=
  if s.bindSw e f = s.switchNum e then
    s.vdpEn e (s.bindPart e f) (s.bindVdp e f) && s.vdpLocal e (s.bindPart e f) (s.bindVdp e f) && s.bindPort e f == port
  else s.busHolds e port (s.bindRid e f)
/-- The functions that a partition of this part binds behind a virtual port. -/
def State.boundAt (s : State) (e : Bool) (p d : Nat) : List Nat :=
  (s.bindEntries e).filter fun f => s.bindSw e f == s.switchNum e && s.bindPart e f == p && s.bindVdp e f == d
/-- The copies that the part keeps of a function's MSE and BARs return to 0. -/
def State.dropCopies (s : State) (e : Bool) (f : Nat) : State :=
  { s with hv := { s.hv with bindMse := tset false s.hv.bindMse f false
                             amBar := s.hv.amBar.filter fun x => s.amapFunc e x.1 != f } }
/-- The part sends a Function Level Reset to a bound function; where no hop toward its part is live it is counted (R166). -/
def State.sendFlr (s : State) (e : Bool) (p f : Nat) : State :=
  let t := s.homeTile e p
  let d := s.bindVdp e f
  let fid := fidOf (s.vdpSw e p d) (s.bindPort e f)
  let tgt := if s.vdpLocal e p d then some (s.bindPort e f) else s.nextHop e t (fidOf (s.switchNum e) 0) fid
  match tgt with
  | none => s.count t .tlFabricUnreachable
  | some h =>
    s.form { tile := t, dest := pbOf h, ports := [h], src := 1024 + t, part := some p, seat := none, mgmt := false, epoch := e,
             svc := 0, origin := .self p, purpose := .write, target := if s.vdpLocal e p d then 0 else fid } .nonPosted
      (.flr (s.bindRid e f / 256 % 256) (s.bindRid e f % 256))

/-- A Secondary Bus Reset is passed down a virtual port (R155): the link is hot-reset when its partition owns the port and every
function behind it, else each of the partition's functions is reset. -/
def State.busResetDown (s : State) (p d : Nat) : State :=
  let e := s.leadEpoch
  let port := s.vdpPort e p d
  let mine := s.boundAt e p d
  let all := (s.bindEntries e).filter fun f => s.behind e port f
  if !s.vdpEn e p d || !s.vdpPresents e p d then s
  else
    let s :=
      if s.linkOwner e p d && all.all fun f => s.bindSw e f == s.switchNum e && s.bindPart e f == p then
        (if s.sees (s.homeTile e p) (tileOf port) && s.dlActive port then s.portDown port .portDown else s)
      else s.each mine fun s f => s.sendFlr e p f
    s.each mine fun s f => s.dropCopies e f

/-- SECONDARY_BUS_RESET (R155): on a virtual downstream port, or on every one from the virtual upstream port (32). -/
def secondaryBusReset (p d : Nat) (s : State) : State :=
  if !s.partEn s.leadEpoch p then s
  else if d = 32 then s.each (List.range 32) fun s k => s.busResetDown p k
  else s.busResetDown p d

/-- PARTITION_RESET (R403): bridges but for sticky AER and DPC status, the fabric function, the copies of its functions' BARs
and MSE; then down, as a Secondary Bus Reset. -/
def partitionReset (p : Nat) (s : State) : State :=
  let e := s.leadEpoch
  if !s.partEn e p then s
  else
    let s := s.each (List.range 33) fun s d => s.modVport p d fun v =>
      { aer := v.aer, aerHdr := v.aerHdr, badMsgs := v.badMsgs, dpcStatus := v.dpcStatus, dpcReason := v.dpcReason, dpcExt := v.dpcExt }
    let s := s.modFab p fun f => { aer := f.aer, aerHdr := f.aerHdr }
    let s := { s with host := { s.host with msix := s.host.msix.filter fun x => !(x.1 / 65536 == p && x.1 % 16 == 12) } }
    let s := s.each ((s.bindEntries e).filter fun f => s.bindSw e f == s.switchNum e && s.bindPart e f == p) fun s f =>
      s.dropCopies e f
    s.each (List.range 32) fun s d => s.busResetDown p d

/-- Bridge Control: Secondary Bus Reset acts as it is set. -/
def State.busResetWrite (s : State) (p d : Nat) (v : Word) : State :=
  let was := (s.vport p d).busReset
  let s := s.modVport p d fun q => { q with busReset := bit v 22 }
  if bit v 22 && !was then secondaryBusReset p d s else s

/-- A write of a virtual bridge's register: `v` the word it leaves, `w` the bits written as 1. -/
def State.cfgBridgeWrite (s : State) (e : Bool) (p d reg : Nat) (v w : Word) : State :=
  let mod := s.modVport p d
  let down := d != 32
  match reg with
  | 0x04 => mod fun q => { q with mse := bit v 1, bme := bit v 2 }
  | 0x18 => mod fun q => { q with prim := field v 7 0, sec := field v 15 8, sub := field v 23 16 }
  | 0x20 => mod fun q => { q with memBase := field v 15 4 * 2 ^ 20, memLimit := field v 31 20 * 2 ^ 20 + 0xFFFFF }
  | 0x24 => mod fun q => { q with
      prefBase := q.prefBase / 2 ^ 32 * 2 ^ 32 + field v 15 4 * 2 ^ 20
      prefLimit := q.prefLimit / 2 ^ 32 * 2 ^ 32 + field v 31 20 * 2 ^ 20 + 0xFFFFF }
  | 0x28 => mod fun q => { q with prefBase := setHalf q.prefBase true v }
  | 0x2C => mod fun q => { q with prefLimit := setHalf q.prefLimit true v }
  | 0x3C => s.busResetWrite p d v
  | 0x48 => mod fun q => { q with mpsCode := field v 7 5 }
  | 0x50 => s.linkWrite e p d v
  | 0x58 => if s.hasSlot e p d then
      (s.slotWrite p d v w).modVport p d fun q => { q with
        presenceChanged := q.presenceChanged && !bit w 19, dllsc := q.dllsc && !bit w 24 } else s
  | 0x68 => if down then mod fun q => { q with ari := bit v 5 } else s
  | 0x104 => if down then mod fun q => { q with acsCtrl := field v 21 16 ||| 2 } else s
  | 0x184 => if down then s.dpcCtrlWrite p d v w else s
  | 0x188 => if down && bit w 0 then dpcTriggerStatusClear p d s else s
  | 0x1D0 => mod fun q => { q with mcReceive := setHalf q.mcReceive false v &&& s.ownGroups e p }
  | 0x1D4 => mod fun q => { q with mcReceive := setHalf q.mcReceive true v &&& s.ownGroups e p }
  | 0x1D8 => mod fun q => { q with mcBlock := setHalf q.mcBlock false v }
  | 0x1DC => mod fun q => { q with mcBlock := setHalf q.mcBlock true v }
  | 0x1E0 => mod fun q => { q with mcUntrans := setHalf q.mcUntrans false v }
  | 0x1E4 => mod fun q => { q with mcUntrans := setHalf q.mcUntrans true v }
  | 0x204 => mod fun q => { q with aer := aerClear q.aer w }
  | 0x210 => mod fun q => { q with aer := q.aer.filter fun k => !(bit w 8 && k == .replayRollover) }
  | 0x218 => mod fun q => { q with ecrcGen := bit v 6, ecrcCheck := bit v 8 }
  | r =>
    if 0x108 ≤ r ∧ r < 0x128 ∧ down then
      let i := 2 ^ (8 * (r - 0x108))
      mod fun q => { q with egressVec := q.egressVec - q.egressVec / i % 2 ^ 32 * i + v.toNat * i }
    else if 0x288 ≤ r ∧ r < 0x2C8 ∧ s.linkOwner e p d then
      let port := s.bridgePort e p d
      let lane := port + (r - 0x288) / 4
      if s.operates (tileOf port) && (s.lanesOf port).contains lane && decide (3 ≤ s.fld (portStatus port) 6 4) then
        s.marginCmd lane down (field v 15 0)
      else s
    else s

/-! ### The fabric function (R279, R280) -/

/-- The Device ID of the fabric function. -/
def deviceId : Part → Nat
  | .rh1024 => 0x1024
  | .rh512 => 0x0512
  | .rh256 => 0x0256
/-- A BAR's two words: the base of size `2 ^ n` and its type bits. -/
def barWords (base n type : Nat) : Nat := base / 2 ^ n * 2 ^ n % 2 ^ 64 + type

/-- The fields known of register `reg` of a partition's fabric function. -/
def State.fabFields (s : State) (e : Bool) (p reg : Nat) : List (Nat × Nat × Nat) :=
  let f := s.fab p
  let n4 := s.bar4Log2 e p
  let b4 := if n4 = 0 then 0 else barWords f.bar4 n4 0xC
  match reg with
  | 0x00 => [(15, 0, s.boot.sensed.toNat / 2 ^ 1600 % 65536), (31, 16, deviceId s.part)]
  | 0x04 => [(1, 1, b2n f.mse), (2, 2, b2n f.bme), (10, 10, b2n f.intDisable), (19, 19, b2n (s.intxLevel p))]
  | 0x08 => [(31, 8, 0x068000)]
  | 0x0C => [(22, 16, 0)]
  | 0x10 => [(31, 0, barWords f.bar0 28 4)]
  | 0x14 => [(31, 0, f.bar0 / 2 ^ 32)]
  | 0x18 => [(31, 0, barWords f.bar2 24 4)]
  | 0x1C => [(31, 0, f.bar2 / 2 ^ 32)]
  | 0x20 => [(31, 0, b4)]
  | 0x24 => [(31, 0, b4 / 2 ^ 32)]
  | 0x3C => [(15, 8, 1)]
  | 0x40 => [(31, 27, 0)]
  | 0x44 => [(1, 0, if f.d3hot then 3 else 0), (3, 3, 1)]
  | 0x54 => [(2, 0, 3), (28, 28, 0)]
  | 0x58 => [(7, 5, f.mpsCode), (14, 12, f.mrrsCode)]
  | 0x74 => [(3, 0, 0), (4, 4, 0), (17, 17, 1)]
  | 0x78 => [(12, 12, b2n f.tag10)]
  | 0x90 => [(26, 16, 2047), (30, 30, b2n f.funcMask), (31, 31, b2n f.msixEnable)]
  | 0x94 => [(31, 0, 0x00010000)]
  | 0x98 => [(31, 0, 0x00018000)]
  | 0x1A8 => [(2, 2, b2n f.tag14)]
  | 0x1B4 => [(1, 1, 0), (2, 2, 0), (12, 8, 20)]
  | 0x204 => aerFields f.aer
  | 0x210 => [(8, 8, b2n (f.aer.contains .replayRollover))]
  | 0x218 => ecrcFields f.ecrcGen f.ecrcCheck
  | r =>
    if 0x21C ≤ r ∧ r < 0x22C then s.headerLog f.aerHdr (s.upPort e p) ((r - 0x21C) / 4)
    else if 0x238 ≤ r ∧ r < 0x260 then s.headerLog f.aerHdr (s.upPort e p) (4 + (r - 0x238) / 4)
    else []

/-- A write of MSI-X Message Control: Function Mask and MSI-X Enable (R292, R293). -/
def State.msixCtrlWrite (s : State) (p : Nat) (v : Word) : State :=
  let s := s.modFab p fun f => { f with funcMask := bit v 30 }
  intxControlChange p (s.fab p).intDisable (bit v 31) s

/-- A write of a fabric function's register. -/
def State.fabWrite (s : State) (e : Bool) (p reg : Nat) (v w : Word) : State :=
  let mod := s.modFab p
  match reg with
  | 0x04 => intxControlChange p (bit v 10) (s.fab p).msixEnable (mod fun f => { f with mse := bit v 1, bme := bit v 2 })
  | 0x10 => mod fun f => { f with bar0 := setHalf f.bar0 false v }
  | 0x14 => mod fun f => { f with bar0 := setHalf f.bar0 true v }
  | 0x18 => mod fun f => { f with bar2 := setHalf f.bar2 false v }
  | 0x1C => mod fun f => { f with bar2 := setHalf f.bar2 true v }
  | 0x20 => if s.bar4Log2 e p = 0 then s else mod fun f => { f with bar4 := setHalf f.bar4 false v }
  | 0x24 => if s.bar4Log2 e p = 0 then s else mod fun f => { f with bar4 := setHalf f.bar4 true v }
  | 0x44 => if field v 1 0 = 0 ∨ field v 1 0 = 3 then fabricFunctionPowerState p (field v 1 0 == 3) s else s
  | 0x58 => mod fun f => { f with mpsCode := field v 7 5, mrrsCode := field v 14 12 }
  | 0x78 => mod fun f => { f with tag10 := bit v 12 }
  | 0x90 => s.msixCtrlWrite p v
  | 0x1A8 => mod fun f => { f with tag14 := bit v 2 }
  | 0x204 => mod fun f => { f with aer := aerClear f.aer w }
  | 0x210 => mod fun f => { f with aer := f.aer.filter fun k => !(bit w 8 && k == .replayRollover) }
  | 0x218 => mod fun f => { f with ecrcGen := bit v 6, ecrcCheck := bit v 8 }
  | _ => s

/-! ### Bound functions (R153, R154, R159) -/

/-- The bound function of a partition at a host function number of a virtual port (R152, R153). -/
def State.boundFn (s : State) (e : Bool) (p d fn : Nat) : Option Nat :=
  if !s.vdpPresents e p d || (!(s.vport p d).ari && decide (8 ≤ fn)) then none
  else (s.boundAt e p d).find? fun f => s.bindFn e f == fn
/-- The address map entry of a function's BAR `b`, and whether `b` names its upper half (R159). -/
def State.barEntry (s : State) (e : Bool) (f b : Nat) : Option (Nat × Bool) :=
  let at_ := fun k => (s.amapEntries e).find? fun x => s.amapValid e x && s.amapFunc e x == f && s.amapBar e x == k
  match at_ b with
  | some x => some (x, false)
  | none => if b = 0 then none else ((at_ (b - 1)).filter fun x => s.cflag e (amapReg x 0) 24).map fun x => (x, true)
/-- What a read of a bound function's BAR returns (R159). -/
def State.barRead (s : State) (e : Bool) (f b : Nat) : Word :=
  match s.barEntry e f b with
  | none => 0
  | some (x, high) =>
    let type := (if s.cflag e (amapReg x 0) 24 then 4 else 0) + (if s.cflag e (amapReg x 0) 25 then 8 else 0)
    BitVec.ofNat 32 (barWords (tget 0 s.hv.amBar x).toNat (s.amapLog2 e x) type / (if high then 2 ^ 32 else 1))
/-- A write of a bound function's BAR. -/
def State.barWrite (s : State) (e : Bool) (f b : Nat) (v : Word) (m : Word) : State :=
  match s.barEntry e f b with
  | none => s
  | some (x, high) =>
    let old := (tget 0 s.hv.amBar x).toNat
    let half : Word := BitVec.ofNat 32 (if high then old / 2 ^ 32 else old)
    let new := setHalf old high ((half &&& ~~~m) ||| (v &&& m))
    { s with hv := { s.hv with amBar := tset 0 s.hv.amBar x (BitVec.ofNat 64 new) } }

/-- A configuration request after its reading: who asked, at which home tile and in which epoch it is answered. -/
structure CfgAsk where
  port : Nat
  e : Bool
  p : Nat
  q : CfgReq

/-- Complete a configuration request that the part serves; `cid` is the routing ID of the object that serves it. -/
def State.cfgDone (s : State) (k : CfgAsk) (cid : Nat) (st : CplStatus) (data : List Byte) : State :=
  s.replyBy (tileOf k.port) k.e false (.host k.p) (cid % 65536) k.q.rid k.q.tag 0 st data
/-- Unsupported Request (R153). -/
def State.cfgUr (s : State) (k : CfgAsk) : State := s.cfgDone k (s.upRid k.p) .ur []
/-- A configuration request goes on to a bound function as Type 0 (R153, R154). -/
def State.cfgForward (s : State) (k : CfgAsk) (f : Nat) (be : Nat) (wr : Option Word) (note : Option CfgNote) : State :=
  s.toFunction k.port { id := 0, cls := .nonPosted, origin := .host k.p, rRid := k.q.rid, rTag := k.q.tag, part := some k.p
                        epoch := k.e, note := note
                        body := .cfg (s.bindRid k.e f / 256 % 256) (s.bindRid k.e f % 256) k.q.reg be wr } f
/-- Whether the part ignores a write of SR-IOV Control, NumVFs or a VF BAR (R154). -/
def sriovHeld (o : Nat) : Bool := o == 0x08 || o == 0x10 || decide (0x24 ≤ o ∧ o ≤ 0x38)

/-- A configuration request of a bound function (R154). -/
def State.cfgBound (s : State) (k : CfgAsk) (f : Nat) : State :=
  let q := k.q
  let e := k.e
  let r := q.reg / 4 * 4
  let m := beMask q.be
  let vf := s.bindVf e f
  let done := fun (s : State) (w : Word) => s.cfgDone k (s.hostRid e f) .sc (if q.wr.isSome then [] else leBytes 4 w.toNat)
  let mse := tget false s.hv.bindMse f
  if 0x10 ≤ r ∧ r ≤ 0x24 then
    match q.wr with
    | none => done s (s.barRead e f ((r - 0x10) / 4))
    | some v => done (s.barWrite e f ((r - 0x10) / 4) v m) 0
  else if r = 0x04 then
    match q.wr with
    | none => s.cfgForward k f q.be none (if vf then some { mask := 2, value := BitVec.ofNat 32 (2 * b2n mse) } else none)
    | some v => s.cfgForward k f q.be (some (if vf then putBit v 1 false else v))
        (if q.be.testBit 0 then some { mse := some (bit v 1) } else none)
  else if !vf then
    match q.sriov, q.wr with
    | some o, some v =>
      if !sriovHeld o then s.cfgForward k f q.be (some v) none
      else if o = 0x08 ∧ 4 ≤ q.be then s.cfgForward k f (q.be / 4 * 4) (some v) none
      else done s 0
    | _, _ => s.cfgForward k f q.be q.wr none
  else if r = 0x00 then done s (s.conf e (bindReg f 2))
  else if q.sriov.isSome then done s 0
  else if r = 0x0C && q.wr.isNone then
    let more := (s.boundAt e k.p (s.bindVdp e f)).any fun g => g != f && s.bindFn e g / 8 == s.bindFn e f / 8
    s.cfgForward k f q.be none (some { mask := 0x00800000#32, value := if more then 0x00800000#32 else 0 })
  else s.cfgForward k f q.be q.wr none

/-! ### Configuration requests (R153) -/

/-- A configuration request of a virtual bridge. -/
def State.cfgBridge (s : State) (k : CfgAsk) (d : Nat) : State :=
  let r := k.q.reg / 4 * 4
  let w := packWord (s.bridgeFields k.e k.p d r)
  let rid := if d = 32 then s.upRid k.p else (s.vport k.p 32).sec * 256 + 8 * d
  match k.q.wr with
  | none => s.used.cfgDone k rid .sc (leBytes 4 (s.cfgWord w).toNat)
  | some v =>
    let m := beMask k.q.be
    (s.cfgBridgeWrite k.e k.p d r ((w.2 &&& ~~~m) ||| (v &&& m)) (v &&& m)).cfgDone k rid .sc []
/-- A configuration request of a partition's fabric function. -/
def State.cfgFab (s : State) (k : CfgAsk) : State :=
  let r := k.q.reg / 4 * 4
  let w := packWord (s.fabFields k.e k.p r)
  match k.q.wr with
  | none => s.used.cfgDone k (s.ffRid k.p) .sc (leBytes 4 (s.cfgWord w).toNat)
  | some v =>
    let m := beMask k.q.be
    (s.fabWrite k.e k.p r ((w.2 &&& ~~~m) ||| (v &&& m)) (v &&& m)).cfgDone k (s.ffRid k.p) .sc []

/-- A host's configuration request, by the bus it names. -/
def State.cfgRequest (s : State) (k : CfgAsk) : State :=
  let q := k.q
  let ds := (List.range 32).filter fun d => s.vdpEn k.e k.p d
  if !q.type1 then
    if q.devfn = 0 then s.cfgBridge k 32 else if q.devfn = 1 then s.cfgFab k else s.cfgUr k
  else if q.bus = (s.vport k.p 32).sec then
    if s.vdpEn k.e k.p (q.devfn / 8) && q.devfn % 8 == 0 then s.cfgBridge k (q.devfn / 8) else s.cfgUr k
  else match (ds.find? fun d => (s.vport k.p d).sec == q.bus).bind fun d => s.boundFn k.e k.p d q.devfn with
    | some f => s.cfgBound k f
    | none => s.cfgUr k

/-- HOST_CONFIG_REQUEST (R153); in a partition in blackout it ends (R336). -/
def hostConfigRequest (port : Nat) (q : CfgReq) (s : State) : State :=
  let t := tileOf port
  let e := s.tileEpoch t
  if !s.live? port then s
  else if s.ingressHeld port then s.hold (.hostConfigRequest port q)
  else match s.partOfUp e port with
    | none => s
    | some p =>
      if s.ecrcFails e port q.ecrcBad then (s.count t .ecrcErr (some port)).logAer p 32 .ecrc
      else if s.partBlack t p then s.synthUr t e false (.host p) q.rid q.tag 0
      else s.cfgRequest { port := port, e := e, p := p, q := q }

/-- FUNCTION_LEVEL_RESET (R155): a host's Initiate Function Level Reset to a function it has bound. `vfs` are the routing IDs of the
function's virtual functions, which its device knows. -/
def functionLevelReset (p f rid tag : Nat) (vfs : List Nat) (s : State) : State :=
  let e := s.entryEpoch p
  let port := s.upPort e p
  let t := tileOf port
  let q : CfgReq := { rid := rid, tag := tag, type1 := true, bus := 0, devfn := 0, reg := 0, be := 15, sriov := none, wr := none }
  let k : CfgAsk := { port := port, e := e, p := p, q := q }
  if !s.partEn e p || !s.live? port then s
  else if s.ingressHeld port then s.hold (.functionLevelReset p f rid tag vfs)
  else if s.partBlack t p then s.synthUr t e false (.host p) rid tag 0
  else if !s.vdpEn e p (s.bindVdp e f) || s.boundFn e p (s.bindVdp e f) (s.bindFn e f) != some f then s.cfgUr k
  else if (s.bindEntries e).any fun g => !s.bindVf e f && vfs.contains (s.bindRid e g) &&
      !(s.bindSw e g == s.switchNum e && s.bindPart e g == p) then
    (s.count t .tlFlrWithheld (some port)).cfgDone k (s.hostRid e f) .sc []
  else (s.dropCopies e f).toFunction port
    { id := 0, cls := .nonPosted, origin := .host p, rRid := rid, rTag := tag, part := some p, epoch := e,
      body := .flr (s.bindRid e f / 256 % 256) (s.bindRid e f % 256) } f

/-! ### The meanings -/

/-- HOST_CONFIG_REQUEST. -/
def execHostConfigRequest (port : Nat) (q : CfgReq) (s : State) : Out :=
  .next (s.tlpIn port 1 (if q.wr.isSome then 4 else 0) (hostConfigRequest port q))
/-- FUNCTION_LEVEL_RESET. -/
def execFunctionLevelReset (p f rid tag : Nat) (vfs : List Nat) (s : State) : Out :=
  .next (s.tlpIn (s.upPort (s.entryEpoch p) p) 1 4 (functionLevelReset p f rid tag vfs))
/-- SECONDARY_BUS_RESET. -/
def execSecondaryBusReset (p d : Nat) (s : State) : Out := .next (secondaryBusReset p d s)
/-- PARTITION_RESET. -/
def execPartitionReset (p : Nat) (s : State) : Out := .next (partitionReset p s)

end Sys2Proof.Machine
end

