-- ==== Sys2Proof/Machine/Arrivals.lean ====
section
/-! DEFINITION. Completions (R46, R157, R158, R192, R222, R286, R295), packets that come over VFL (R101, R156, R164, R168, R169,
R191), messages of functions and hosts (R80, R161, R306), and the release of held ingress (R44, R276). -/

namespace Sys2Proof.Machine

/-! ### Completions -/

/-- The outstanding-request entry that a completion names: on its port, or, over VFL, toward the part it comes from. -/
def State.outFor (s : State) (port : Nat) (src : Option Nat) (c : Cpl) : Option OutEntry :=
  let mine := fun (o : OutEntry) => o.newTag == c.tag && o.carRid == c.rid
  (s.outs.find? fun o => o.port == port && mine o).orElse fun _ =>
    src.bind fun f => s.outs.find? fun o => s.vflNow o.port && fidSw o.fid == fidSw f && mine o
/-- Whether an epoch binds a function to a partition of this part. -/
def State.bindsHere (s : State) (e : Bool) (p f : Nat) : Bool :=
  s.bindValid e f && s.bindSw e f == s.switchNum e && s.bindPart e f == p
/-- Whether an epoch still binds a function of a recorded requester ID on the port it sent from, or behind its remote virtual port. -/
def State.sameFunc (s : State) (e : Bool) (p f : Nat) (o : OutEntry) : Bool :=
  s.bindsHere e p f && s.bindRid e f % 65536 == o.rid % 65536 &&
    (!s.vdpLocal e p (s.bindVdp e f) || o.inPort.all (· == s.bindPort e f))
/-- Whether an epoch still places an entry's requester, its port and its function in its recorded partition (R46, case of R169). -/
def State.placed (s : State) (e : Bool) (o : OutEntry) : Bool :=
  match o.part with
  | none => true
  | some p => s.partEn e p && o.func.all (s.bindsHere e p) && match o.origin with
    | .host _ => o.inPort.all (· == s.upPort e p)
    | .func f => s.sameFunc e p f o
    | _ => true
/-- The completer ID of a forwarded completion on a port (R157). -/
def State.complId (s : State) (e : Bool) (o : OutEntry) (c : Cpl) (tgt : Nat) : Nat :=
  match o.func, o.part with
  | some f, _ => (if (s.partOfUp e tgt).isSome then s.hostRid e f else s.bindRid e f) % 65536
  | none, some p => if o.port = s.upPort e p then s.proxyRid e p % 65536 else c.cid
  | none, none => c.cid
/-- The data of a forwarded completion, with the bits that the part serves itself (R154). -/
def noteData (n : Option CfgNote) (c : Cpl) : List Byte :=
  match n with
  | some n => if c.status == .sc && c.data.length == 4 then
      leBytes 4 ((BitVec.ofNat 32 (ofBytes c.data) &&& ~~~n.mask) ||| (n.value &&& n.mask)).toNat else c.data
  | none => c.data
/-- An entry's request has its last completion. -/
def State.closeOut (s : State) (o : OutEntry) (c : Cpl) : State :=
  if c.last || c.status != .sc then { s with outs := s.outs.filter fun k => k.id != o.id }
  else { s with outs := s.outs.map fun k => if k.id = o.id then { k with len := k.len - c.data.length } else k }

/-- Whether P2P Completion Redirect sends a peer's completion to the host (R162). -/
def State.redirects (s : State) (e : Bool) (port : Nat) (o : OutEntry) : Bool :=
  match o.origin, o.func with
  | .func _, some g => (s.partOfUp e port).isNone && (s.vport (s.bindPart e g) (s.bindVdp e g)).acsCtrl.testBit 3
  | _, _ => false
/-- Whether a completion's requester is a function toward which DPC of its partition, which does not own the port, ends traffic
(R88). -/
def State.cplDark (s : State) (e : Bool) : Origin → Bool
  | .func f => s.vdpDark e (s.bindPart e f) (s.bindVdp e f)
  | _ => false
/-- A forwarded completion goes back to its requester with the original requester ID and tag (R158); a redirected one goes up,
and its entry waits for it at the upstream port. `owed` is the order that its fabric header gives one that came over VFL (R172). -/
def State.forwardCpl (s : State) (port : Nat) (owed : Option Bool) (o : OutEntry) (c : Cpl) : State :=
  let t := tileOf port
  let e := s.tileEpoch t
  let ro := c.relaxed && match o.part with
    | some p => s.partRo e p
    | none => false
  let c := { c with ecrcBad := false }
  let q : Packet := {
    id := 0, cls := .cpl, body := .cpl c, origin := o.origin, rRid := o.rid, rTag := o.tag, epoch := e, mgmt := o.mgmt, svc := o.svc
    ordered := owed.getD !ro }
  match s.redirects e port o, o.origin with
  | true, .func f =>
    let p := s.bindPart e f
    let up := s.upPort e p
    let rid := s.hostRid e f % 65536
    let body := Body.cpl { c with rid := rid, tag := o.tag, cid := s.complId e o c up }
    let seen := s.sees t (tileOf up)
    let s := if !seen then s.closeOut o c else { s with outs := s.outs.map fun (k : OutEntry) =>
      if k.id = o.id then { k with port := up, tile := tileOf up, carRid := rid, newTag := o.tag } else k }
    if seen then s.take port { q with body := body, dest := pbOf up, ports := [up] }
    else s.endHere port { q with body := body } .tileLost
  | _, _ =>
    let s : State := match o.note.bind (·.mse), o.func with
      | some b, some f => if c.status == CplStatus.sc then { s with hv := { s.hv with bindMse := tset false s.hv.bindMse f b } } else s
      | _, _ => s
    let s := s.closeOut o c
    match s.replyWay t e port o.origin with
    | none => s.count t .tlFabricUnreachable (some port)
    | some w =>
    let body := Body.cpl { c with rid := o.rid, tag := o.tag, cid := s.complId e o c w.1, data := noteData o.note c }
    if s.cplDark e o.origin then s.endHere port { q with body := body } .blackout
    else if s.sees t (tileOf w.1) then s.take port { q with body := body, dest := pbOf w.1, ports := [w.1], target := w.2 }
    else s.endHere port { q with body := body } .tileLost

/-- The completion of an aperture read (R192): its data, or all bytes 0xFF. -/
def State.apReadCpl (s : State) (o : OutEntry) (tc : Nat) (c : Cpl) : State :=
  if c.status == .sc && !c.poisoned then
    (s.closeOut o c).replyBy o.srcTile (s.tileEpoch o.srcTile) o.mgmt o.origin (s.ownCid (s.tileEpoch o.srcTile) o.origin) o.rid o.tag tc .sc c.data c.addr c.last
  else
    (({ s with outs := s.outs.filter fun k => k.id != o.id } : State).count o.srcTile .apRdErr (some o.port) o.seat).reply o.srcTile
      (s.tileEpoch o.srcTile) o.mgmt o.origin o.rid o.tag tc .sc (allOnes o.len)
/-- A completion to a request of the part's own reaches the unit that made it. A ring's data is taken with RING_FETCH_COMPLETE. -/
def State.ownCpl (s : State) (o : OutEntry) (c : Cpl) : State :=
  let bad := c.status != .sc || c.poisoned
  match o.purpose with
  | .dma id => (s.closeOut o c).dmaPiece id c
  | .issue id =>
    let s := s.closeOut o c
    if c.status != .sc then s.issued id 0x03 else if c.poisoned then s.issued id 0x09 else s.readDone id 5 c.data
  | .ringFetch r =>
    let s := if bad then { s with outs := s.outs.filter fun k => k.id != o.id } else s.closeOut o c
    if !bad then s else s.ringFail r (if c.status == .ur then 0 else if c.status == .ca then 1 else 2)
  | .flush t f st => flushReadComplete t f st c.status c.poisoned false 0 (s.closeOut o c)
  | .winFlush i => revokeFlushDone (s.winTile i) i (s.closeOut o c)
  | .perf key => (s.closeOut o c).shown key
  | .apRead _ tc => s.apReadCpl o tc c
  | _ => s.closeOut o c

/-- A completion that nothing waits for is discarded, counted and logged (R46, R341). -/
def State.unexpected (s : State) (port : Nat) : State :=
  let e := s.tileEpoch (tileOf port)
  let s := s.count (tileOf port) .unexpCpl (some port)
  if s.isVfl e port then s else s.logAer (s.seenAt e port).1 (s.seenAt e port).2 .unexpectedCompletion

/-- A completion that has entered on a port; over VFL with the fabric ID it came from and the order owed it. -/
def State.completionIn (s : State) (port : Nat) (src : Option Nat) (owed : Option Bool) (c : Cpl) : State :=
  let t := tileOf port
  let e := s.tileEpoch t
  let at_ := s.seenAt e port
  if src.isNone && decide (s.portMps e port < c.data.length) then
    (s.count t .malformed (some port)).logAer at_.1 at_.2 .malformedTlp
  else if src.isNone && s.ecrcFails e port c.ecrcBad then (s.count t .ecrcErr (some port)).logAer at_.1 at_.2 .ecrc
  else match s.outFor port src c with
    | none => s.unexpected port
    | some o =>
      if o.injected then State.unexpected (eccUncorrectable o.tile (.outstanding o.id) s) port
      else if !s.placed e o then
        State.unexpected { s with outs := s.outs.filter fun k => k.id != o.id } port
      else match o.purpose with
        | .forward =>
          let s := if !c.poisoned then s
            else if src.isNone then s.notePoison port at_.1 at_.2 true else s.count t .poisonFwd (some port)
          s.forwardCpl port owed o c
        | _ => s.ownCpl o c

/-- COMPLETION_ARRIVAL (R46). -/
def completionArrival (port : Nat) (c : Cpl) (s : State) : State :=
  if !s.live? port || s.isVfl (s.tileEpoch (tileOf port)) port then s
  else if s.ingressHeld port then s.hold (.completionArrival port c)
  else s.completionIn port none none c

/-! ### Packets over VFL -/

/-- The port number of a fabric ID. -/
def fidPort (f : Nat) : Nat := f % 1024
/-- The packet of what came over VFL (R101): no seat (R260), its class and order from the fabric header (R172). -/
def State.vflPacket (s : State) (port : Nat) (k : VflPkt) (cls : PClass) (b : Body) (rid tag : Nat) : Packet :=
  let e := s.tileEpoch (tileOf port)
  { id := 0, cls := cls, body := b, origin := .vfl port k.src, rRid := rid, rTag := tag, epoch := e, mgmt := k.mgmtVc, svc := k.svc % 8, lens := k.lens
    ordered := k.ordered && !(k.ro && s.roEn e port), sfid := some k.src }
/-- The packet of each body. -/
def State.vflBody (s : State) (port : Nat) (k : VflPkt) : Packet :=
  let mk := s.vflPacket port k
  match k.body with
  | .req r _ => mk (reqCls r) (.req { noEcrc r with tc := k.svc % 8 }) r.rid r.tag
  | .cfg rid tag bus devfn reg be wr => mk .nonPosted (.cfg bus devfn reg be wr) rid tag
  | .cpl c => mk .cpl (.cpl c) c.rid c.tag
  | .intx rid pin b => mk .posted (.intx pin b) rid 0
  | .msg rid m d => mk .posted (.msg m d) rid 0
  | .eng h d => mk .engine (.eng h d) 0 0
  | .mgmt => mk .posted .mgmt 0 0

/-- The binding entry of a remote function's request for a partition of this part (R156, R168): by the switch number and port it
comes from and its requester ID. -/
def State.remoteFunc (s : State) (e : Bool) (src rid : Nat) : Option Nat :=
  (s.bindEntries e).find? fun f => s.bindSw e f == s.switchNum e && s.bindRid e f % 65536 == rid % 65536 &&
    s.vdpEn e (s.bindPart e f) (s.bindVdp e f) && s.vdpSw e (s.bindPart e f) (s.bindVdp e f) == fidSw src &&
    s.bindPort e f == fidPort src
/-- Whether a local downstream port takes traffic of another part (R168): a function behind it is bound to that part. -/
def State.portAdmits (s : State) (e : Bool) (port sw : Nat) : Bool :=
  s.portEn e port && !s.isVfl e port && (s.bindEntries e).any fun f =>
    s.bindSw e f == sw && s.busHolds e port (s.bindRid e f)
/-- Whether a partition imports aperture traffic of a switch (R191). -/
def State.imports (s : State) (e : Bool) (q sw : Nat) : Bool := s.cflag e (0x00141000 + 8 * q + 4 * (sw / 32)) (sw % 32)

/-- A fabric multicast packet (R142, R169). -/
def State.fabricCast (s : State) (port : Nat) (k : VflPkt) (p : Packet) : State :=
  let e := p.epoch
  let g := k.dst % 4096
  let tgt := (List.range 1024).filter fun q => q != port && s.cflag e (0x00400000 + 128 * g + 4 * (q / 32)) (q % 32)
  if fidSw k.src = s.switchNum e then s.count (tileOf port) .tlFmcLoop (some port)
  else if tgt.isEmpty then s.count (tileOf port) .pbMcNoTarget (some port)
  else s.copies port { p with fmc := some g } tgt

/-- A message that a remote function sends to its partition here goes to the host with its host-view ID (R157, R161). -/
def State.pinMessage (s : State) (port : Nat) (e : Bool) (f pin : Nat) (assert : Bool) : State :=
  let p := s.bindPart e f
  let hp := (pin + s.bindFn e f / 8 + s.bindVdp e f) % 4
  let me := 4 * f + pin % 4
  let rest := (s.pinSrcs p hp).filter (· != me)
  let (s, chg) := s.setPins p hp (if assert then rest ++ [me] else rest)
  let up := s.upPort e p
  let q : Packet := {
    id := 0, cls := .posted, body := .intx hp assert, origin := .func f, rRid := s.upRid p, part := some p, epoch := e, dest := pbOf up
    ports := [up] }
  if !chg then s else if s.partBlack (tileOf port) p then s.endHere port q .blackout else s.sendTo port q up
/-- A message of a bound function to the root complex. -/
def State.upMessage (s : State) (port : Nat) (e : Bool) (f : Nat) (m : MsgKind) (d : List Byte) : State :=
  let p := s.bindPart e f
  let q : Packet := {
    id := 0, cls := .posted, body := .msg m d, origin := .func f, rRid := s.hostRid e f, part := some p, epoch := e }
  if s.partBlack (tileOf port) p then s.endHere port q .blackout else s.sendTo port q (s.upPort e p)

/-- A function's message to its partition, where DPC of the partition does not end its port's traffic (R88). -/
def State.fnUp (s : State) (port : Nat) (e : Bool) (f : Nat) (m : MsgKind) (d : List Byte) : State :=
  if s.vdpDark e (s.bindPart e f) (s.bindVdp e f) then s.count (tileOf port) .blackoutDrop (some port) else s.upMessage port e f m d
/-- The same for an INTx message. -/
def State.fnPin (s : State) (port : Nat) (e : Bool) (f pin : Nat) (assert : Bool) : State :=
  if s.vdpDark e (s.bindPart e f) (s.bindVdp e f) then s.count (tileOf port) .blackoutDrop (some port)
  else s.pinMessage port e f pin assert

/-- A packet from another part whose destination is a port of this part. -/
def State.vflLocal (s : State) (port : Nat) (k : VflPkt) (p : Packet) : State :=
  let t := tileOf port
  let e := p.epoch
  let tgt := fidPort k.dst
  let fn := fun rid => s.remoteFunc e k.src rid
  let mine := fun (f : Nat) => s.upPort e (s.bindPart e f) == tgt
  match k.body with
  | .eng h _ =>
    let home := if h.mtype = 2 ∨ h.mtype = 5 ∨ h.mtype = 6 ∨ h.mtype = 7 then s.qpTile h.qpn else (s.pktKey h).2.2
    if s.here t && s.here home then s.take port { p with dest := 64 + home } else s.endHere port p .tileLost
  | .mgmt => s.take port { p with dest := 72 + t }
  | .cpl c => s.completionIn port (some k.src) (some p.ordered) c
  | .intx rid pin b =>
    match fn rid with
    | some f => if mine f then s.fnPin port e f pin b else s.srcInvalid port p
    | none => s.srcInvalid port p
  | .msg rid m d =>
    if s.portAdmits e tgt (fidSw k.src) then s.sendTo port p tgt
    else match fn rid with
      | some f => if mine f then s.fnUp port e f m d else s.srcInvalid port p
      | none => s.srcInvalid port p
  | .cfg .. => if s.portAdmits e tgt (fidSw k.src) then s.sendTo port p tgt else s.srcInvalid port p
  | .req r ap =>
    match s.partOfUp e tgt with
    | none => if !ap && s.portAdmits e tgt (fidSw k.src) then s.sendTo port p tgt else s.srcInvalid port p
    | some q =>
      if ap then
        if s.imports e q (fidSw k.src) then
          if s.canIssue q then s.sendTo port { p with part := some q } tgt else s.endHere port { p with part := some q } .blackout
        else (s.count t .apImportRefused (some port)).unsupported port p
      else match (fn r.rid).filter mine with
        | none => s.srcInvalid port p
        | some f =>
          let seat := s.seatOf e q (.func f) r.pasid
          let p := { p with origin := .func f, part := some q }
          if s.vdpDark e q (s.bindVdp e f) || seat.any fun x => s.seatBlack t x then s.endHere port p .blackout
          else s.functionRoute port f r p

/-- The engine's message header as its dwords carry it (R216). -/
def engHdrOf (ws : List Word) (sw : Nat) : EngHdr :=
  let w := fun i => ws.getD i 0
  { mtype := field (w 0) 3 0, srcSw := sw, reqSeat := field (w 0) 15 4, immV := bit (w 0) 16, aop := field (w 0) 19 17
    qpn := field (w 1) 23 0, keyOrImm := w 2, dstQpn := field (w 3) 23 0, code := field (w 3) 31 24
    rOffset := (w 4).toNat + (w 5).toNat * 2 ^ 32, wrSlot := field (w 6) 14 0, pkt := 0, ssn := field (w 6) 31 16
    length := (w 7).toNat }
/-- A packet that arrives as the item that brought it says (R101): its fabric header, its lengths, an engine packet's header and
payload. The other carried headers are those of the base specification, which the command reads (log entry 32). -/
def State.fromItem (s : State) (port : Nat) (x : RxItem) (k : VflPkt) : VflPkt :=
  let w0 := x.hdr.getD 0 0
  let w1 := x.hdr.getD 1 0
  { dst := field w0 15 0, src := field w0 31 16, kind := kindOf x.hdr, ordered := bit w1 4, ro := bit w1 5, svc := field w1 8 6
    mgmtVc := x.vc + 1 == s.vcs (.port port)
    body := if kindOf x.hdr = 1 then .eng (engHdrOf (x.hdr.drop 2) (fidSw (field w0 31 16))) x.body else k.body
    lens := some (hdrDw x.hdr, payLen x.hdr) }

/-- A packet that came over VFL goes on by its KIND, then by the switch number of DEST_FID (R101, R164, R169). -/
def vflArrive (port : Nat) (k : VflPkt) (s : State) : State :=
  let t := tileOf port
  let e := s.tileEpoch t
  if !s.operates t || !s.isVfl e port then s
  else if s.ingressHeld port then s.hold (.vflPacketArrival port k)
  else if 4 ≤ k.kind || (k.kind == 2 && !k.mgmtVc) then s.count t .lkBadKind (some port)
  else
    let p := s.vflBody port k
    if k.kind = 3 then s.fabricCast port k p
    else if fidSw k.dst = s.switchNum e then s.vflLocal port k p
    else match k.body with
      | .cpl c =>
        if (s.outFor port (some k.src) c).isSome then s.completionIn port (some k.src) (some p.ordered) c else s.sendFar port p k.dst
      | _ => s.sendFar port p k.dst
/-- VFL_PACKET_ARRIVAL: the packet of the oldest item that has moved to the cell buffer. Where none has, the command stands for its
flits too (DESIGN CHOICE, log entry 32). -/
def vflPacketArrival (port : Nat) (k : VflPkt) (s : State) : State :=
  match (s.linkSt (.port port)).moved with
  | x :: xs => vflArrive port (s.fromItem port x k) (s.modLink (.port port) fun q => { q with moved := xs })
  | [] => if s.live? port then vflArrive port k s else s

/-! ### Messages -/

/-- A message whose ECRC check fails is discarded (R78, R341). -/
def State.badEcrc (s : State) (port : Nat) (e : Bool) : State :=
  (s.count (tileOf port) .ecrcErr (some port)).logAer (s.seenAt e port).1 (s.seenAt e port).2 .ecrc
/-- INTX_MESSAGE (R306): of a bound function, to the partition it is bound to (R161). -/
def intxMessage (port rid pin : Nat) (assert ecrcBad : Bool) (s : State) : State :=
  let t := tileOf port
  let e := s.tileEpoch t
  if !s.live? port || s.isVfl e port || (s.partOfUp e port).isSome then s
  else if s.ingressHeld port then s.hold (.intxMessage port ⟨rid, [], ecrcBad⟩ pin assert)
  else if s.ecrcFails e port ecrcBad then s.badEcrc port e
  else
    let q : Packet := { id := 0, cls := .posted, body := .intx pin assert, origin := .port port, rRid := s.portRid e port rid, epoch := e }
    match s.srcFunc e port rid with
    | none => s.srcInvalid port q
    | some f => if s.bindSw e f = s.switchNum e then s.fnPin port e f pin assert
      else s.sendFar port q (fidOf (s.bindSw e f) (s.bindUp e f))

/-- A message of the part's own to a partition's host: PME_TO_Ack of its virtual ports (R161). -/
def State.ackUp (s : State) (port : Nat) (e : Bool) (p : Nat) : State :=
  s.sendTo port { id := 0, cls := .posted, body := .msg .pmeToAck [], origin := .self p, rRid := s.upRid p, part := some p, epoch := e }
    (s.upPort e p)
/-- A message that the part does not support is discarded; where `log`, it is logged, and counted as an unsupported message (R80): no
register shows that count. -/
def State.msgDiscard (s : State) (p d : Nat) (log : Bool) : State :=
  if log then (s.logAer p d .unsupportedRequest).modVport p d fun v => { v with badMsgs := v.badMsgs + 1 } else s

/-- A broadcast of a host reaches every enabled virtual port (R161). A PME_Turn_Off goes on to the ports that its partition owns,
and is answered by the others; the answer goes up once all have given it (PRESUMED, log entry 62). -/
def State.broadcast (s : State) (port : Nat) (e : Bool) (p : Nat) (m : MsgKind) (d : List Byte) : State :=
  let ds := (List.range 32).filter fun d => s.vdpEn e p d
  let own := ds.filter fun d => s.vdpLocal e p d && s.slotOwner e (s.vdpPort e p d) == p &&
    s.portUp (s.vdpPort e p d) && s.sees (tileOf port) (tileOf (s.vdpPort e p d))
  let q : Packet := { id := 0, cls := .posted, body := .msg m d, origin := .host p, rRid := s.proxyRid e p, part := some p, epoch := e }
  if m = .pmeTurnOff then
    let s := { s with hv := { s.hv with pmeWait := tset [] s.hv.pmeWait p own } }
    if own.isEmpty then s.ackUp port e p else s.each own fun s d => s.sendTo port q (s.vdpPort e p d)
  else s.each ds fun s d =>
    if s.vdpDark e p d then s.endHere port q .blackout
    else if s.vdpLocal e p d then s.sendTo port q (s.vdpPort e p d) else s.sendFar port q (fidOf (s.vdpSw e p d) (s.vdpPort e p d))

/-- A message of a host. -/
def State.hostMessage (s : State) (port p : Nat) (m : MsgKind) (d : List Byte) : State :=
  let e := s.tileEpoch (tileOf port)
  let q : Packet := { id := 0, cls := .posted, body := .msg m d, origin := .host p, rRid := s.proxyRid e p, part := some p, epoch := e }
  match m with
  | .pmeTurnOff => s.broadcast port e p m d
  | .otherBroadcast => s.broadcast port e p m d
  | .byId target =>
    let ds := (List.range 32).filter fun d => s.vdpEn e p d && (s.vport p d).sec == target / 256 % 256
    match ds.head?.bind fun d => s.boundFn e p d (target % 256) with
    | some f => s.toFunction port { q with body := .msg (.byId (s.bindRid e f % 65536)) d } f
    | none => s.msgDiscard p 32 true
  | .ltr => s.msgDiscard p 32 false
  | .vendorDiscard => s.msgDiscard p 32 false
  | .pmeToAck => s.msgDiscard p 32 true
  | .pmPme => s.msgDiscard p 32 true
  | .errMsg _ => s.msgDiscard p 32 true
  | .pageRequest => s.msgDiscard p 32 true
  | .toRoot => s.msgDiscard p 32 true

/-- A message of a function on a downstream port to its host, or to a peer by ID (R156, R161, R162). -/
def State.fnMessage (s : State) (port rid : Nat) (m : MsgKind) (d : List Byte) : State :=
  let e := s.tileEpoch (tileOf port)
  let q : Packet := { id := 0, cls := .posted, body := .msg m d, origin := .port port, rRid := s.portRid e port rid, epoch := e }
  match s.srcFunc e port rid with
  | none => s.srcInvalid port q
  | some f =>
    let p := s.bindPart e f
    if s.bindSw e f ≠ s.switchNum e then s.sendFar port q (fidOf (s.bindSw e f) (s.bindUp e f))
    else match m with
      | .byId target =>
        match (s.bindEntries e).find? fun g => s.bindsHere e p g && s.hostRid e g % 65536 == target % 65536 with
        | some g =>
          if s.peerDirect e p (s.bindVdp e f) g then
            let q := { q with origin := .func f, rRid := s.bindRid e f, part := some p, body := .msg (.byId (s.bindRid e g % 65536)) d }
            if s.partBlack (tileOf port) p || s.vdpDark e p (s.bindVdp e f) then s.endHere port q .blackout else s.toFunction port q g
          else s.fnUp port e f m d
        | none => s.fnUp port e f m d
      | _ => s.fnUp port e f m d

/-- A message that enters on a downstream port. -/
def State.portMessage (s : State) (port rid : Nat) (m : MsgKind) (d : List Byte) : State :=
  let e := s.tileEpoch (tileOf port)
  let at_ := s.seenAt e port
  match m with
  | .pmeToAck =>
    let p := at_.1
    let wait := tget [] s.hv.pmeWait p
    let left := wait.filter (· != at_.2)
    let s := { s with hv := { s.hv with pmeWait := tset [] s.hv.pmeWait p left } }
    if left.isEmpty && !wait.isEmpty then s.ackUp port e p else s
  | .pageRequest => s.msgDiscard at_.1 at_.2 true
  | .ltr => s.msgDiscard at_.1 at_.2 false
  | .vendorDiscard => s.msgDiscard at_.1 at_.2 false
  | .pmeTurnOff => s.msgDiscard at_.1 at_.2 true
  | .otherBroadcast => s.msgDiscard at_.1 at_.2 true
  | .toRoot => s.fnMessage port rid m d
  | .pmPme => s.fnMessage port rid m d
  | .errMsg _ => s.fnMessage port rid m d
  | .byId _ => s.fnMessage port rid m d

/-- MESSAGE_RECEIVED (R80, R161, R306). -/
def messageReceived (port rid : Nat) (m : MsgKind) (d : List Byte) (ecrcBad : Bool) (s : State) : State :=
  let e := s.tileEpoch (tileOf port)
  if !s.live? port || s.isVfl e port then s
  else if s.ingressHeld port then s.hold (.messageReceived port ⟨rid, d, ecrcBad⟩ m)
  else if s.ecrcFails e port ecrcBad then s.badEcrc port e
  else match s.partOfUp e port with
    | some p => s.hostMessage port p m d
    | none => s.portMessage port rid m d

/-! ### The release of held ingress (R44, R276) -/

/-- A packet that waited in a port's receive buffer is looked up, or waits on. -/
def State.retryArrival (s : State) (i : Instr) : State :=
  match i with
  | .hostMemoryRequest port r => hostMemoryRequest port r s
  | .functionMemoryRequest port r => functionMemoryRequest port r s
  | .hostConfigRequest port q => hostConfigRequest port q s
  | .functionLevelReset p f rid tag vfs => functionLevelReset p f rid tag vfs s
  | .completionArrival port c => completionArrival port c s
  | .vflPacketArrival port k => vflArrive port k s
  | .intxMessage port h pin b => intxMessage port h.rid pin b h.ecrcBad s
  | .messageReceived port h m => messageReceived port h.rid m h.data h.ecrcBad s
  | .bar4Write p who r => bar4Write p who r s
  | .bar4Read p who r => bar4Read p who r s
  | .fenceRead p who seat r => fenceRead p who seat r s
  | _ => s
/-- The lines to be flushed of the seats that are no longer withheld (R276). -/
def State.formAllDue (s : State) : State :=
  s.each ((s.wc.lines.filter fun l => l.flushing && !l.formed).map fun l => (l.tile, l.seat)).eraseDups fun s k => s.formDue k.1 k.2
/-- Every packet that waits in a receive buffer is tried again, in the order of arrival, behind the lines whose flush waited; credits
follow (R81). -/
def State.releaseArrivals (s : State) : State :=
  let s := s.formAllDue
  (({ s with arrivals := [] } : State).each s.arrivals State.retryArrival).each (s.arrivals.filterMap arrivalPort).eraseDups
    State.creditOut

/-! ### The meanings -/

/-- COMPLETION_ARRIVAL. -/
def execCompletionArrival (port : Nat) (c : Cpl) (s : State) : Out :=
  .next (s.tlpIn port 2 c.data.length (completionArrival port c))
/-- ADMISSION_RETRY: an admission lets credits and what waits at the ports go on. -/
def execAdmissionRetry (t n : Nat) (s : State) : Out :=
  .next (match (s.pkt n).bind (·.inPort) with
    | some port => ((admissionRetry t n s).creditOut port).releaseArrivals
    | none => (admissionRetry t n s).releaseArrivals)
/-- WC_FLUSH_ADMIT. -/
def execWcFlushAdmit (t l : Nat) (s : State) : Out := .next (wcFlushAdmit t l s).releaseArrivals
/-- VFL_PACKET_ARRIVAL. -/
def execVflPacketArrival (port : Nat) (k : VflPkt) (s : State) : Out := .next (vflPacketArrival port k s)
/-- INTX_MESSAGE. -/
def execIntxMessage (port : Nat) (h : MsgHdr) (pin : Nat) (assert : Bool) (s : State) : Out :=
  .next (s.tlpIn port 0 0 (intxMessage port h.rid pin assert h.ecrcBad))
/-- MESSAGE_RECEIVED. -/
def execMessageReceived (port : Nat) (h : MsgHdr) (m : MsgKind) (s : State) : Out :=
  .next (s.tlpIn port 0 h.data.length (messageReceived port h.rid m h.data h.ecrcBad))

end Sys2Proof.Machine
end

