-- ==== Sys2Proof/Machine/Commands.lean ====
section
/-! DEFINITION. Ring fetches and the command unit (R285, R286, R297, R298), direct stops (R299), the bridge, I3C and the management
port (R301 to R305), and a register write on any path. -/

namespace Sys2Proof.Machine

/-! ### Commands of a TYPE 3 ring (R297, R298) -/

/-- Change a command taken. -/
def State.modCmd (s : State) (id : Nat) (f : CmdRun → CmdRun) : State :=
  { s with host := { s.host with cmds := s.host.cmds.map fun c => if c.id = id then f c else c } }
/-- A command completes with a code and data. -/
def State.cmdEnds (s : State) (id code : Nat) (data : Word) : State :=
  s.modCmd id fun c => { c with result := some (c.result.getD (code, data)) }
/-- The completion record of a command (R298). -/
def State.cmdRec (s : State) (c : CmdRun) (code : Nat) (data : Word) : List Byte :=
  leBytes 8 c.cmd.cmdId.toNat ++ leBytes 3 0 ++ leBytes 1 c.cmd.opcode ++ leBytes 1 code ++ leBytes 3 0 ++
    leBytes 4 data.toNat ++ leBytes 8 0 ++ leBytes 4 (s.nsOf s.mgrTile)
/-- The FT that a WAIT_FT names (R297). -/
def waitTime (c : Cmd) : Nat :=
  ftOf (c.target % 4096 + c.kind % 4 * 2 ^ 12 + c.secTop % 4 * 2 ^ 14) c.data.toNat (c.offset.toNat % 2 ^ 30)
/-- Whether a command reads or writes a register. -/
def isReg (c : Cmd) : Bool := c.opcode == 0x40 || c.opcode == 0x41
/-- A register that lies on a lost tile (R332). -/
def State.lostReg (s : State) (o : Nat) : Bool := (offTile o).any fun t => s.part.hasTile t && s.cont.lost.contains t

/-- Start a command (R298). -/
def State.cmdStart (s : State) (c : CmdRun) : State :=
  let s := s.modCmd c.id fun k => { k with started := true }
  let o := c.cmd.offset.toNat
  if isReg c.cmd then
    if o % 4 ≠ 0 ∨ 0x10000000 ≤ o then s.cmdEnds c.id 0x01 0
    else if s.lostReg o then s.cmdEnds c.id 0x07 0
    else if c.cmd.opcode = 0x40 then (s.regWrite .command o c.cmd.data).cmdEnds c.id 0 0
    else s.cmdEnds c.id 0 (s.regRead .command o)
  else if c.cmd.opcode = 0x42 then
    if c.cmd.kind % 4 = 3 then s.cmdEnds c.id 0x0C 0
    else
      let r := s.issueStop s.mgrTile (c.cmd.kind % 4) (c.cmd.target % 4096) (!c.cmd.clear)
      match r.2 with
      | some n => r.1.modCmd c.id fun k => { k with stop := some n }
      | none => r.1.cmdEnds c.id 0 0
  else if c.cmd.opcode = 0x43 ∨ c.cmd.opcode = 0x44 then s
  else s.cmdEnds c.id 0x0C 0
/-- Whether an unfinished earlier command holds a later one (R298): a BARRIER, a WAIT_FT, or one on the same register. -/
def cmdHolds (a b : CmdRun) : Bool :=
  a.result.isNone && (a.cmd.opcode == 0x43 || a.cmd.opcode == 0x44 || (isReg a.cmd && isReg b.cmd && a.cmd.offset == b.cmd.offset))
/-- Bring one command as far as it can go: start it, complete a stop that holds, a barrier, a time that has come. -/
def State.cmdGo (s : State) (id : Nat) : State :=
  match s.host.cmds.find? fun c => c.id == id with
  | none => s
  | some c =>
    let before := (s.host.cmds.takeWhile fun k => k.id != id).filter fun k => k.ring == c.ring
    let s := if !c.started && !before.any fun a => cmdHolds a c then s.cmdStart c else s
    match s.host.cmds.find? fun c => c.id == id with
    | none => s
    | some c =>
      if c.result.isSome || !c.started then s
      else if c.cmd.opcode = 0x43 then (if before.all fun a => a.result.isSome then s.cmdEnds id 0 0 else s)
      else if c.cmd.opcode = 0x44 then (if waitTime c.cmd ≤ s.tm.ft then s.cmdEnds id 0 0 else s)
      else match c.stop with
        | some n => if s.host.stops.any fun m => m.id == n then s else s.cmdEnds id 0 0
        | none => s
/-- The record of a completed command goes to its ring's CQ_RING, in ring order. -/
def State.cmdOut (s : State) (id : Nat) : State :=
  match s.host.cmds.find? fun c => c.id == id with
  | none => s
  | some c =>
    match c.result with
    | none => s
    | some r =>
      if (s.host.cmds.takeWhile fun k => k.id != id).any fun k => k.ring == c.ring then s
      else
        let s := { s with host := { s.host with cmds := s.host.cmds.filter fun k => k.id != id } }
        if r.1 ≠ 0 || c.cmd.signal then s.pushRec (s.cmdCq c.ring) 0 (s.cmdRec c r.1 r.2) else s
/-- The command unit runs every command it has taken as far as it can go, then writes the records that are due. -/
def State.pump (s : State) : State :=
  let s := s.each (s.host.cmds.map (·.id)) State.cmdGo
  s.each (s.host.cmds.map (·.id)) State.cmdOut
/-- The command unit takes a command of a ring. -/
def State.cmdTake (s : State) (ring : Nat) (c : Cmd) : State :=
  State.pump { s with idCtr := s.idCtr + 1
                      host := { s.host with cmds := s.host.cmds ++ [{ id := s.idCtr, ring := ring, cmd := c }] } }
/-- Whether a ring hands commands to the command unit: a TYPE 3 ring of seat 0 whose home tile is present. -/
def State.cmdRing (s : State) (r : Nat) : Bool := s.workOwner r == some 0 && s.ringType r == 3 && s.here s.mgrTile
/-- A command of an opcode reaches the command unit. -/
def State.command (s : State) (r : Nat) (c : Cmd) (op : Nat) : State :=
  if s.cmdRing r then s.cmdTake r { c with opcode := op } else s
/-- WAIT_FT_REACHED (R298): the master FT reaches the time of a ring's WAIT_FT (log entry 12). -/
def waitFtReached (r : Nat) (s : State) : State :=
  match s.host.cmds.find? fun c => c.ring == r && c.started && c.cmd.opcode == 0x44 && c.result.isNone with
  | some c => ((s.reach (·.tm.ft) (waitTime c.cmd)).cmdEnds c.id 0 0).pump
  | none => s

/-! ### Fetches (R285, R286) -/

/-- An entry is accepted: HW_INDEX advances, the shadow is due (R285, R290). -/
def State.entryTaken (s : State) (r : Nat) : State :=
  (s.setFld (ringReg r 6) 15 0 ((s.hwIndex r + 1) % 65536)).modRing r fun q => { q with got := q.got.drop 1, shadowDue := true }
/-- Take fetched entries in ring order, up to the first that is not accepted. -/
def State.acceptGot (s : State) (r : Nat) : Nat → State
  | 0 => s
  | n + 1 =>
    match (s.ringSt r).got.head?, s.ringType r with
    | some (.work d c), 0 =>
      let x := s.engineTake r d (if d.opcode = 0x20 then some c else none)
      if x.2 then (x.1.entryTaken r).acceptGot r n else x.1
    | some (.command c), 3 => if s.cmdRing r then ((s.entryTaken r).cmdTake r c).acceptGot r n else s
    | _, _ => s
/-- RING_FETCH (R285): entries fetched and not accepted are offered again; else the next fetch is issued. -/
def ringFetch (r : Nat) (s : State) : State :=
  match s.workOwner r with
  | none => s
  | some seat =>
    let n := (s.ringSt r).got.length
    if n ≠ 0 then (if s.ringPaused r || !s.here (s.seatHome s.leadEpoch seat) then s else s.acceptGot r n)
    else if s.canFetch r seat then s.fetchStart r seat
    else s
/-- RING_FETCH_COMPLETE (R285, R286). -/
def ringFetchComplete (r : Nat) (how : DmaEnd) (l : List RingEntry) (s : State) : State :=
  if !(s.ringSt r).fetching then s
  else
    let s := s.modRing r fun q => { q with fetching := false }
    match how with
    | .ok =>
      let s := s.modRing r fun q => { q with got := l.take q.fetchN }
      s.acceptGot r (s.ringSt r).got.length
    | .ur => s.ringFail r 0
    | .ca => s.ringFail r 1
    | .poisoned => s.ringFail r 2
    | .timeout => s.ringFail r 3
    | .malformed => s.ringFail r 4

/-! ### Writes that stop, or that any path makes -/

/-- Whether a tile's mailboxes answer an agent: the tile is present, and the stage manager runs where it is the agent. -/
def State.agentOpen (s : State) (agent t : Nat) : Bool := s.here t && (decide (agent < 8) || !s.ilulysReset)
/-- A write of TL_STOP (R299). -/
def State.tlStopWrite (s : State) (agent t : Nat) (v : Word) (clear : Bool) : State :=
  if s.agentOpen agent t then (s.stopAct agent t (putBit v 14 clear)).pump else s
/-- REGISTER_WRITE (R48, R281): a 4-byte aligned write of BAR0 as seat 0. -/
def registerWrite (via : Via) (o : Nat) (v : Word) (s : State) : State :=
  if o % 4 = 0 && decide (o < 0x10000000) then (s.regWrite via o v).pump else s

/-! ### The bridge (R301, R302) -/

/-- Change the bridge. -/
def State.modBridge (s : State) (f : BridgeSt → BridgeSt) : State := { s with host := { s.host with bridge := f s.host.bridge } }
/-- Whether the bridge runs: the stage manager answers, and VDD_IO is good (R392). -/
def State.bridgeUp (s : State) : Bool := s.viaOpen .bridge
/-- The tile whose service link carries an access of the stage manager: the register's, or the global sequencer's (R440). -/
def State.bridgeTile (s : State) (o : Nat) : Option Nat :=
  match offTile o with
  | some t => some t
  | none => if inIlulys o then none else some (if s.here s.mgrTile then s.mgrTile else s.present.headD 0)
/-- Whether that service link is down (R302). -/
def State.linkDead (s : State) (o : Nat) : Bool := (s.bridgeTile o).any fun t => s.here t && s.headless t
/-- Whether the target acknowledges an offset (R301). -/
def bridgeOfs (o : Nat) : Bool := o % 4 == 0 && decide (o < 0x10000000)
/-- BRIDGE_WRITE (R301): applied, or failed where the tile cannot be reached; a failed PEC or an unsupported offset is NACKed. -/
def bridgeWrite (o : Nat) (v : Word) (pecOk : Bool) (s : State) : State :=
  if !s.bridgeUp then s
  else if !pecOk || !bridgeOfs o then s.emit .bridgeNack
  else if s.linkDead o then s.modBridge fun b => { b with status := 2 }
  else ((s.regWrite .bridge o v).pump).modBridge fun b => { b with status := 0 }
/-- The reply to a bridge read (R302): STATUS and DATA; with STATUS 0x02 the data is open. -/
def State.bridgeData (s : State) (o : Nat) : List Byte :=
  if s.linkDead o then leBytes 1 2 ++ leBytes 4 s.freeW.toNat else leBytes 1 0 ++ leBytes 4 (s.regRead .bridge o).toNat
/-- BRIDGE_READ (R301, R302). -/
def bridgeRead (o : Nat) (pecOk : Bool) (s : State) : State :=
  if !s.bridgeUp then s
  else if !pecOk || !bridgeOfs o then s.emit .bridgeNack
  else s.used.emit (.bridgeReply (s.bridgeData o))
/-- BRIDGE_STATUS (R301). -/
def bridgeStatus (s : State) : State :=
  if s.bridgeUp then s.emit (.bridgeReply (leBytes 1 s.host.bridge.status)) else s

/-- The reply of a read that was not served (R302). -/
def lateReply : List Byte := leBytes 1 1 ++ leBytes 4 0xFFFFFFFF
/-- HK_BRIDGE_TIMEOUT (R302 to R304): of a management-port read, of an I3C read that waits, or of an SMBus read. -/
def hkBridgeTimeout (mgmt : Bool) (s : State) : State :=
  if !s.viaOpen (if mgmt then .mgmtPort else .bridge) then s
  else
    let s := s.countHk 8
    if mgmt then s.modBridge fun b => { b with mgmtReply := some 0xFFFFFFFF#32 }
    else if s.host.bridge.readOff.isSome then
      s.modBridge fun b => { b with readOff := none, reply := lateReply, replyReady := true }
    else s.emit (.bridgeReply lateReply)

/-! ### I3C (R303) -/

/-- I3C_PRIVATE_WRITE: the payload of a bridge transaction: command code, count, bytes; a read's offset waits for its data. -/
def i3cPrivateWrite (bytes : List Byte) (s : State) : State :=
  if !s.bridgeUp then s
  else match bytes.map BitVec.toNat with
    | 0xB1 :: 8 :: _ => if bytes.length = 10 && bridgeOfs (ofBytes ((bytes.drop 2).take 4)) then
        bridgeWrite (ofBytes ((bytes.drop 2).take 4)) (BitVec.ofNat 32 (ofBytes (bytes.drop 6))) true s else s
    | 0xB2 :: 4 :: _ => if bytes.length = 6 && bridgeOfs (ofBytes (bytes.drop 2)) then
        s.modBridge fun b => { b with readOff := some (ofBytes (bytes.drop 2)), replyReady := false, reply := [] } else s
    | [0xB4] => s.modBridge fun b => { b with readOff := none, reply := leBytes 1 b.status, replyReady := true }
    | _ => s
/-- I3C_PRIVATE_READ: the data, or the busy byte where it is not there yet. -/
def i3cPrivateRead (ready : Bool) (s : State) : State :=
  let b := s.host.bridge
  if !s.bridgeUp then s
  else if b.replyReady then (s.emit (.bridgeReply b.reply)).modBridge fun b => { b with replyReady := false, reply := [] }
  else match b.readOff with
    | none => s
    | some o =>
      if ready then (s.used.emit (.bridgeReply (s.bridgeData o))).modBridge fun b => { b with readOff := none }
      else s.emit (.bridgeReply (leBytes 1 0x04))
/-- ENTDAA: the target takes a dynamic address. -/
def entdaa (addr : Nat) (s : State) : State :=
  if s.bridgeUp then s.modBridge fun b => { b with i3cAddr := some (addr % 128) } else s

/-! ### The management port (R304) -/

/-- MGMT_PORT_ACCESS: a 4-byte aligned access acts as seat 0's (R281); a read that no service link serves completes with all ones and
is counted. -/
def mgmtPortAccess (o len : Nat) (wr : Option Word) (s : State) : State :=
  if !s.viaOpen .mgmtPort then s
  else if len ≠ 4 || !bridgeOfs o then s.modBridge fun b => { b with mgmtReply := none }
  else match wr with
    | some v => if s.linkDead o then s else (s.regWrite .mgmtPort o v).pump
    | none =>
      if s.linkDead o then hkBridgeTimeout true s
      else s.modBridge fun b => { b with mgmtReply := some (s.regRead .mgmtPort o) }

/-! ### The meanings -/

/-- REGISTER_WRITE. -/
def execRegisterWrite (via : Via) (o : Nat) (v : Word) (s : State) : Out := .next (registerWrite via o v s)
/-- RING_FETCH. -/
def execRingFetch (r : Nat) (s : State) : Out := .next (ringFetch r s)
/-- RING_FETCH_COMPLETE. -/
def execRingFetchComplete (r : Nat) (how : DmaEnd) (l : List RingEntry) (s : State) : Out := .next (ringFetchComplete r how l s)
/-- REG_WRITE. -/
def execRegWrite (r : Nat) (c : Cmd) (s : State) : Out := .next (s.command r c 0x40)
/-- REG_READ. -/
def execRegRead (r : Nat) (c : Cmd) (s : State) : Out := .next (s.command r c 0x41)
/-- STOP. -/
def execStop (r : Nat) (c : Cmd) (s : State) : Out := .next (s.command r c 0x42)
/-- BARRIER. -/
def execBarrier (r : Nat) (c : Cmd) (s : State) : Out := .next (s.command r c 0x43)
/-- WAIT_FT. -/
def execWaitFt (r : Nat) (c : Cmd) (s : State) : Out := .next (s.command r c 0x44)
/-- WAIT_FT_REACHED. -/
def execWaitFtReached (r : Nat) (s : State) : Out := .next (waitFtReached r s)
/-- TL_STOP_APPLY: CLEAR = 0. -/
def execTlStopApply (agent t : Nat) (v : Word) (s : State) : Out := .next (s.tlStopWrite agent t v false)
/-- TL_STOP_RELEASE: CLEAR = 1. -/
def execTlStopRelease (agent t : Nat) (v : Word) (s : State) : Out := .next (s.tlStopWrite agent t v true)
/-- STOP_PROPAGATE; a STOP command that then holds everywhere completes. -/
def execStopPropagate (t id : Nat) (s : State) : Out := .next (stopPropagate t id s).pump
/-- CROSSING_STATE_NOTICE. -/
def execCrossingStateNotice (t x st : Nat) (s : State) : Out := .next (crossingStateNotice t x st s).pump
/-- TILE_LOSS. -/
def execTileLoss (t : Nat) (s : State) : Out := .next (tileLoss t s).pump
/-- BRIDGE_WRITE. -/
def execBridgeWrite (o : Nat) (v : Word) (pecOk : Bool) (s : State) : Out := .next (bridgeWrite o v pecOk s)
/-- BRIDGE_READ. -/
def execBridgeRead (o : Nat) (pecOk : Bool) (s : State) : Out := .next (bridgeRead o pecOk s)
/-- BRIDGE_STATUS. -/
def execBridgeStatus (s : State) : Out := .next (bridgeStatus s)
/-- HK_BRIDGE_TIMEOUT. -/
def execHkBridgeTimeout (mgmt : Bool) (s : State) : Out := .next (hkBridgeTimeout mgmt s)
/-- I3C_PRIVATE_WRITE. -/
def execI3cPrivateWrite (bytes : List Byte) (s : State) : Out := .next (i3cPrivateWrite bytes s)
/-- I3C_PRIVATE_READ. -/
def execI3cPrivateRead (ready : Bool) (s : State) : Out := .next (i3cPrivateRead ready s)
/-- ENTDAA. -/
def execEntdaa (addr : Nat) (s : State) : Out := .next (entdaa addr s)
/-- MGMT_PORT_ACCESS. -/
def execMgmtPortAccess (o len : Nat) (wr : Option Word) (s : State) : Out := .next (mgmtPortAccess o len wr s)

end Sys2Proof.Machine
end

