-- ==== Sys2Proof/Machine/Swap.lean ====
section
/-! DEFINITION. The swap of the two sets: a tile's epoch flip with what set data changes at it (R44, R47, R75, R169, R193, R235,
R237, R241, R267, R277), the forced retirement (R47), and a scheduling round (R266, R270, R275, R276). -/

namespace Sys2Proof.Machine

/-! ### What differs between the copies -/

/-- Whether bits `m` of a word differ between the copies. -/
def State.differs (s : State) (o : Nat) (m : Nat := allM) : Bool :=
  (s.conf false o ^^^ s.conf true o) &&& BitVec.ofNat 32 m != 0
/-- The objects of an array with a word listed in either copy. -/
def State.listed (s : State) (lo stride n : Nat) : List Nat :=
  ((s.set0 ++ s.set1).filterMap fun y =>
    if lo ≤ y.1 ∧ y.1 < lo + stride * n then some ((y.1 - lo) / stride) else none).eraseDups

/-! ### Buckets and red queues at the flip (R267, R277) -/

/-- A bucket is set full. -/
def State.refull (s : State) (k : Nat) : State := s.modSch fun c => { c with missing := tset 0 c.missing k 0 }
/-- A bucket keeps its level, capped at its new burst; bursts are in units of 64 bytes. -/
def State.rebase (s : State) (k old new : Nat) : State :=
  s.modSch fun c => { c with missing := tmod 0 c.missing k fun n => burstOf new + n - burstOf old }
/-- Two buckets whose bursts stand in the halves of a word. -/
def State.rebase2 (s : State) (e : Bool) (k : Bool → Nat) (w : Nat) : State :=
  (s.rebase (k false) (s.cfld e w 15 0) (s.cfld (!e) w 15 0)).rebase (k true) (s.cfld e w 31 16) (s.cfld (!e) w 31 16)

/-- The buckets of a seat node and of its service nodes, from the set of epoch `e` to the other. -/
def State.flipNode (s : State) (e : Bool) (pb n : Nat) : State :=
  let port := 16 * pb
  if s.differs (scNode pb n 0) 0x0FFF001E then
    let s := (s.refull (nodeKey port n false)).refull (nodeKey port n true)
    s.each (List.range 8) fun s c => (s.refull (svcKey port n c false)).refull (svcKey port n c true)
  else
    let s := s.rebase2 e (nodeKey port n) (scNode pb n 3)
    s.each (List.range 8) fun s c => s.rebase2 e (svcKey port n c) (scSvc pb n c 3)
/-- The buckets of a meter. -/
def State.flipMeter (s : State) (e : Bool) (t m : Nat) : State :=
  let k := meterKeys t m
  if s.differs (meterReg t m 0) 0x0FFF03FC then (s.refull k.1).refull k.2
  else s.rebase2 e (fun b => if b then k.2 else k.1) (meterReg t m 3)
/-- Every bucket of a tile. -/
def State.flipBuckets (s : State) (e : Bool) (t : Nat) : State :=
  let s := s.each ((List.range 8).map (8 * t + ·)) fun s pb =>
    let ns := (s.listed (scNode pb 0 0) 32 1024 ++ (s.listed (scSvc pb 0 0 0) 16 8192).map (· / 8)).eraseDups
    let s := s.each ns fun s n => s.flipNode e pb n
    s.each ((s.listed (scPort (16 * pb) 0) 32 16).map (16 * pb + ·)) fun s port =>
      s.rebase2 e (nodeKey port defNode) (scPort port 4)
  s.each (s.listed (meterReg t 0 0) 16 8192) fun s m => s.flipMeter e t m

/-- A packet leaves its meter's red queue in a colour. -/
def State.redOut (s : State) (p : Packet) (c : Nat) : State :=
  let s := s.modPkt p.id fun q => { q with colour := c, loc := if q.loc == .red then .voq else q.loc }
  (if p.loc == .red then s.toEnd p.id else s).countColour p.tile p.seat c p.chLen
/-- The red packets of the retiring epoch are released at once as yellow; the peak or excess bucket pays (R277). -/
def State.releaseRed (s : State) (e : Bool) (t : Nat) : State :=
  s.each (s.pkts.filter fun p => p.tile == t && p.colour == 2 && p.epoch == e) fun s p =>
    let m := p.meter.getD 0
    let pays := s.cflag e (meterReg t m 0) 1 || rateSet (s.conf e (meterReg t m 2))
    ((if pays then s.debit (meterKeys t m).2 (tokens p.chLen) else s).redOut p 1).setWithheld t (p.seat.getD 0)

/-! ### Ports and aperture entries at the flip (R75, R116, R193) -/

/-- The enabled ports of a set, ascending. -/
def State.portsIn (s : State) (u : Bool) : List Nat :=
  ascend (((s.copyOf u).filterMap fun y =>
    match offTile y.1 with
    | some t =>
      let r := y.1 % 0x01000000
      let o := r % 0x00100000
      if 0x00100000 ≤ r ∧ o < 0x40 then some (128 * t + 16 * (r / 0x00100000 - 1) + o / 4) else none
    | none => none).filter fun port => s.portEn u port)
/-- The enabled ports of a tile in a set. -/
def State.portsOn (s : State) (e : Bool) (t : Nat) : List Nat := (s.portsIn e).filter fun port => tileOf port == t

/-- Whether a port's lanes, width, mode, flit permission or VC count differ between the sets (R75, R116). -/
def State.portDiffers (s : State) (e : Bool) (port : Nat) : Bool :=
  s.differs (portCfg port) 0x11F || (s.isVfl e port && s.differs (lkReg port 0) 3)
/-- The ports of a tile that change at the flip go link-down, as the ports they were. -/
def State.flipPorts (s : State) (e : Bool) (t : Nat) : State :=
  s.each ((s.portsOn e t).filter fun port => s.portDiffers e port) fun s port =>
    s.portDown port (if s.isVfl e port then .vflDown else .portDown)
/-- A port whose rate exceeds a lower MAX_RATE is retrained (R75 case): it does not keep its link, and trains from Detect
(DEDUCED, log entry 98). -/
def State.flipRates (s : State) (e : Bool) (t : Nat) : State :=
  s.each ((s.portsOn e t).filter fun port => !s.portDiffers e port &&
      s.dlActive port && decide (s.cfld (!e) (portCfg port) 7 5 < s.fld (portStatus port) 6 4)) fun s port =>
    s.portDown port (if s.isVfl e port then .vflDown else .portDown)
/-- The entries of a tile whose set fields change: their open lines are flushed under the lines' own epoch (R176), and a contained one
leaves the contained state (R193). -/
def State.flipContained (s : State) (t : Nat) : State :=
  let xs := (s.wc.lines.filter fun l => l.tile == t).map (·.entry)
  let changed := xs.filter fun x => (List.range 8).any fun i => s.differs (apReg t x i)
  (s.flushLines t fun l => changed.contains l.entry).modWc fun w => { w with contained := w.contained.filter fun x =>
    !(x.1 / 16384 == t && (List.range 8).any fun i => s.differs (apReg t (x.1 % 16384) i)) }

/-! ### Seats and pool rings (R235, R237, R241) -/

/-- Whether a seat's binding differs between the sets. -/
def State.bindDiffers (s : State) (seat : Nat) : Bool := (List.range 3).any fun w => s.differs (stBind seat w)
/-- The seats with a binding listed in either copy. -/
def State.bindListed (s : State) : List Nat := s.listed (stBind 0 0) 16 4096

/-- A seat whose binding changes, as the lead set passes from epoch `e` to the other (R241). -/
def State.flipSeat (s : State) (e : Bool) (seat : Nat) : State :=
  let now := s.bound (!e) seat
  let s := s.clearMbx seat
  let s := { s with tel := { s.tel with
    rebound := (s.tel.rebound.filter (· != seat)) ++ [seat]
    finals := (s.tel.finals.filter (· != seat)) ++ if s.bound e seat && !now then [seat] else [] } }
  match (s.seatSt seat).st with
  | 1 => (s.seatStart e seat false true).modSeat seat fun q => { q with rebound := true }
  | 2 => (s.seatSquash seat).modSeat seat fun q => { q with rebound := true }
  | 3 => s.modSeat seat fun q => { q with rebound := true }
  | _ => s.modSeat seat fun q => { q with st := b2n now }

/-- A pool ring whose owner changes (R237): a work or command ring waits for the old owner's work; a completion or event ring
starts anew, and the event records that waited are lost. -/
def State.flipRing (s : State) (e : Bool) (r : Nat) : State :=
  if s.ringOwner e r = s.ringOwner (!e) r then s
  else if s.ringType r = 0 ∨ s.ringType r = 3 then
    s.modRing r fun q => { q with oldOwner := q.oldOwner.orElse fun _ => s.ringOwner e r, heldDb := none }
  else
    let n := (s.ringSt r).evs.length
    let s := (s.setLv (ringReg r 6) 0).setFld (ringReg r 7) 31 16 (satAdd 65535 (s.fld (ringReg r 7) 31 16) n)
    s.modRing r fun q => { q with evs := [], sinceSig := 0, firstUnsig := none, shadowDue := false }

/-! ### Functions and address map entries (R169) -/

/-- The virtual port that shows function `f` in the set of epoch `e` records its coming or going. -/
def State.showRebind (s : State) (e : Bool) (f : Nat) : State :=
  if s.bindValid e f && s.bindSw e f == s.switchNum e then
    let p := s.bindPart e f
    let d := s.bindVdp e f
    s.modVport p d fun v => { v with dllsc := true, presenceChanged := v.presenceChanged || s.hasSlot e p d }
  else s
/-- A binding entry whose function or whose place changes: its copy of Memory Space Enable starts at 0. -/
def State.flipBinding (s : State) (e : Bool) (f : Nat) : State :=
  let s := (s.showRebind e f).showRebind (!e) f
  { s with hv := { s.hv with bindMse := tset false s.hv.bindMse f false } }
/-- Whether a binding entry's function or place changes. -/
def State.rebinds (s : State) (f : Nat) : Bool := s.differs (bindReg f 0) || s.differs (bindReg f 1)
/-- The host's copies of an address map entry whose FUNC or BAR changes, or whose function is bound anew, return to 0. -/
def State.flipAmap (s : State) (e : Bool) (x : Nat) : State :=
  let f := s.amapFunc (!e) x
  let moved := s.differs (amapReg x 0) 0x3FFFE
  let s := if moved || s.rebinds f then { s with hv := { s.hv with amBar := tset 0 s.hv.amBar x 0 } } else s
  if moved then { s with hv := { s.hv with bindMse := tset false s.hv.bindMse f false } } else s

/-- What changes once for the part, as the first tile flips from epoch `e`. -/
def State.flipLead (s : State) (e : Bool) : State :=
  let s := s.setFlag tmStatus 5 (!e)
  let s := s.each (s.bindListed.filter s.bindDiffers) fun s k => s.flipSeat e k
  let s := s.each ((s.listed 0x00320000 4 32768).map (32768 + ·)) fun s r => s.flipRing e r
  let fs := (s.listed 0x00120000 16 16).map (4096 + ·) ++ (s.listed 0x00060000 16 16384).filter fun f => !decide (4096 ≤ f ∧ f < 4112)
  let s := s.each (fs.filter s.rebinds) fun s f => s.flipBinding e f
  let s := s.each (s.listed 0x000A0000 16 32768) fun s x => s.flipAmap e x
  s.each ((s.listed (partCfg 0) 8 256).filter fun p => s.partEn (!e) p && s.differs (partCfg p)) fun s p =>
    let up := s.upPort (!e) p
    if s.mgrHolds (tileOf up) 0 up then s.upstreamHold up else s.upstreamFree up

/-- The route table entries of a tile that change: the live bits are those of their new hops (R166, R170). -/
def State.flipHops (s : State) (e : Bool) (t : Nat) : State :=
  s.each ((List.range 64).filter fun k => (List.range 5).any fun w => s.differs (routeReg t k w)) fun s k =>
    let n := s.hopCount (!e) t k
    s.each (List.range 8) fun s i =>
      let h := s.hop (!e) t k i
      let live := decide (i < n) && s.isVfl (!e) h && s.sees t (tileOf h) && s.portUp h
      if s.hopLive t k i != live then (s.setFlag (routeLive t k) i live).sticky (routeLive t k) 8 else s

/-! ### The flip and the forced retirement (R44, R47) -/

/-- A tile flips from epoch `e`. -/
def State.flipTile (s : State) (e : Bool) (t : Nat) : State :=
  let s := ((s.releaseRed e t).flipPorts e t).flipRates e t
  let s := ((s.flipBuckets e t).flipContained t).flipHops e t
  let s := if s.leadEpoch = e then s.flipLead e else s
  let s := ((s.setFlag (slaveStatus t) 10 (!e)).setFlag (slaveStatus t) 11 false).setFlag (slaveStatus t) 12 false
  let s := s.modCur fun c => { c with flipped := c.flipped ++ [t] }
  if s.oldResident t then s.setFlag (slaveStatus t) 13 false else s
/-- EPOCH_FLIP (R44 step 5): a tile that holds ingress flips, and resumes ingress. -/
def epochFlip (t : Nat) (s : State) : State :=
  if !s.operates t || !s.cur.held.contains t || s.cur.flipped.contains t then s
  else (s.flipTile (s.tileEpoch t) t).releaseArrivals

/-- A held access of the retiring epoch ends as in blackout (R47): a read with all bytes 0xFF, a fence with its status word
(R332). -/
def State.endHeldAcc (s : State) (h : HeldAcc) : State :=
  match h.item with
  | .bar4 p who r e =>
    if reqNp r then (s.count h.tile .synthCpl).bar4Data e p who r (allOnes r.len)
    else s.tallyDrop h.tile h.seat 0x0A (lenOf (.req r))
  | .fence p who r e => (s.count h.tile .synthCpl).fenceForced e p who h.seat r
  | .work _ _ _ => s
/-- Every old-epoch line and held access ends. -/
def State.endOldHeld (s : State) (e : Bool) : State :=
  let s := s.each s.present fun s t => s.discardLines t (fun _ k => k == e) 0x0A
  let old := s.pu.held.filter fun h => heldEpoch h.item == some e
  let s := { s with pu := { s.pu with held := s.pu.held.filter fun h => heldEpoch h.item != some e } }
  s.each old State.endHeldAcc
/-- The retiring set is retired by force: what is resident of it ends, and is counted. -/
def State.forceRetire (s : State) (e : Bool) : State :=
  let old := s.pkts.filter fun p => p.epoch == e
  let n := old.length + (s.wc.lines.countP fun l => l.epoch == e && !l.formed) +
    (s.wc.stuck.countP fun k => k.epoch == e) + (s.pu.held.countP fun h => heldEpoch h.item == some e)
  let s := s.each old fun s p =>
    match s.pkt p.id with
    | some q => s.endPacket q .forced
    | none => s
  let s := s.endOldHeld e
  let s := (s.setLv 0x00030050 (BitVec.ofNat 32 (min n 0xFFFFFFFF))).sticky tmStatus 10
  let s := s.each s.present fun s t => s.setFlag (slaveStatus t) 13 true
  (s.countHk 1).modCur fun c => { c with retired := true, drained := s.present }
/-- FORCED_RETIREMENT (R44 step 7, R47). -/
def forcedRetirement (s : State) : State :=
  if s.cur.retired || s.cur.flipped.isEmpty || !(s.cur.held.all fun t => s.cur.flipped.contains t || !s.operates t) then s
  else ((s.reach (·.tm.ft) (s.cur.tc + 50000)).forceRetire (!s.leadEpoch)).releaseArrivals

/-! ### The scheduling round (R266, R270, R275, R276) -/

/-- The tile of a bucket. -/
def bucketTile (k : Nat) : Nat :=
  let i := k % 2 ^ 24
  match k / 2 ^ 24 with
  | 0 => tileOf i
  | 1 => tileOf i
  | 2 => tileOf i
  | 3 => i / 8192
  | 4 => i / 8192
  | 5 => i / 65536
  | 6 => i / 65536
  | _ => i / 8192
/-- The rate word of a bucket that is no meter's. -/
def State.bucketRate (s : State) (e : Bool) (k : Nat) : Word :=
  let i := k % 2 ^ 24
  match k / 2 ^ 24 with
  | 0 => s.conf e (scPort i 1)
  | 1 => s.conf e (scPort i 2)
  | 2 => s.conf e (scPort i 3)
  | 3 => s.conf e (scNode (i / 1024) (i % 1024) 1)
  | 4 => s.conf e (scNode (i / 1024) (i % 1024) 2)
  | 5 => s.conf e (scSvc (i / 8192) (i / 8 % 1024) (i % 8) 1)
  | _ => s.conf e (scSvc (i / 8192) (i / 8 % 1024) (i % 8) 2)
/-- Every bucket of a tile gains one round's tokens; a bucket that is not listed is full. -/
def State.refill (s : State) (e : Bool) (t : Nat) : State :=
  let ks := (s.sch.missing.map (·.1)).filter fun k => bucketTile k == t
  let s := s.each (ks.filter fun k => decide (k / 2 ^ 24 < 7)) fun s k => s.credit k (rateGain (s.bucketRate e k))
  let ms := ((ks.filter fun k => decide (7 ≤ k / 2 ^ 24)).map fun k => k % 8192).eraseDups
  s.each ms fun s m => s.refillMeter e t m
/-- The head of each red queue of a tile is coloured again. -/
def State.recolour (s : State) (t : Nat) : State :=
  let ms := (s.pkts.filterMap fun p => if p.tile == t && p.colour == 2 then p.meter else none).eraseDups
  s.each ms fun s m =>
    match s.redQueue t m with
    | [] => s
    | p :: _ =>
      let (s, c) := s.colour p.epoch t m p.chLen
      if c = 2 then s else (s.redOut p c).setWithheld t (p.seat.getD 0)
/-- SCHEDULING_ROUND: buckets refill, gates are evaluated at the tile's FT, red heads are coloured. -/
def schedulingRound (t : Nat) (s : State) : State :=
  if !s.operates t then s
  else
    let s := s.refill (s.tileEpoch t) t
    let s := s.modSch fun c => { c with roundAt := tset 0 c.roundAt t (s.tileFt t) }
    let s := s.recolour t
    let s := s.each (s.sch.withheld.filter fun k => k / 4096 == t) fun s k => s.setWithheld t (k % 4096)
    s.releaseArrivals

/-! ### The meanings -/

/-- EPOCH_FLIP. -/
def execEpochFlip (t : Nat) (s : State) : Out := .next (epochFlip t s)
/-- FORCED_RETIREMENT. -/
def execForcedRetirement (s : State) : Out := .next (forcedRetirement s)
/-- SCHEDULING_ROUND. -/
def execSchedulingRound (t : Nat) (s : State) : Out := .next (schedulingRound t s)

end Sys2Proof.Machine
end

