-- ==== Sys2Proof/Machine/Checks.lean ====
section
/-! DEFINITION. The consistency check of a set (R38, R39): each code's test answers its first failing object, as the TILE and the
DETAIL that are recorded. Objects are tested in ascending order, a row's clauses in the row's order (DESIGN CHOICE, log entry
70). -/

namespace Sys2Proof.Machine

/-! ### What a set holds -/

/-- A failing object: its tile, 15 for a global one, and its index. -/
abbrev Failing := Option (Nat × Nat)

/-- The partitions that a set enables, ascending. -/
def State.partsIn (s : State) (u : Bool) : List Nat := ascend ((s.listed (partCfg 0) 8 256).filter fun p => s.partEn u p)
/-- Whether a number names an enabled port of a set by its lowest lane. -/
def State.isPort (s : State) (u : Bool) (port : Nat) : Bool := s.portEn u port
/-- The enabled PCI Express ports of a set that are no partition's upstream port (R74). -/
def State.downPorts (s : State) (u : Bool) : List Nat :=
  (s.portsIn u).filter fun port => !s.isVfl u port && !(s.partsIn u).any fun p => s.upPort u p == port
/-- The ports that route-table entry `k` of tile `t` names. -/
def State.hopsIn (s : State) (u : Bool) (t k : Nat) : List Nat := (List.range (s.hopCount u t k)).map fun i => s.hop u t k i
/-- The route-table entries of a tile that a copy lists, ascending. -/
def State.routesIn (s : State) (t : Nat) : List Nat := ascend (s.listed (routeReg t 0 0) 32 64)
/-- The members of fabric multicast group `g` (R169). -/
def State.fmcIn (s : State) (u : Bool) (g : Nat) : List Nat :=
  (List.range 1024).filter fun port => s.cflag u (0x00400000 + 128 * g + 4 * (port / 32)) (port % 32)
/-- The fabric multicast groups that a copy lists, ascending. -/
def State.groupsIn (s : State) : List Nat := ascend (s.listed 0x00400000 128 4096)
/-- The valid binding entries of a set, ascending. -/
def State.bindsIn (s : State) (u : Bool) : List Nat := ascend (s.bindEntries u)
/-- The bound seats of a set, ascending. -/
def State.seatsIn (s : State) (u : Bool) : List Nat := ascend (s.boundSeats u)

/-- The first number of a list that fails a test. -/
def firstBad (l : List Nat) (bad : Nat → Bool) : Option Nat := l.find? bad
/-- The first two of a list, in order, that clash: the later one. -/
def firstClash (l : List Nat) (clash : Nat → Nat → Bool) : Option Nat :=
  l.find? fun y => (l.takeWhile fun x => x != y).any fun x => clash x y
/-- A global object. -/
def globally (o : Option Nat) : Failing := o.map fun n => (15, n)
/-- The first failing object of several clauses. -/
def firstOf (l : List Failing) : Failing := l.findSome? id
/-- The first tile with a failing object. -/
def State.onTiles (s : State) (f : Nat → Option Nat) : Failing := s.part.tiles.findSome? fun t => (f t).map fun n => (t, n)
/-- A port. -/
def atPort (o : Option Nat) : Failing := o.map fun n => (tileOf n, n)

/-! ### Codes 0x01 to 0x06 -/

/-- 0x01: a port named is absent on this part (R3), whether or not the entry that names it is enabled. The TILE is that of the
entry that names it, 0xF for a global entry (DEDUCED, log entry 99). -/
def State.check01 (s : State) (u : Bool) : Failing :=
  let gone := fun (port : Nat) => !s.part.hasTile (tileOf port)
  let ups := (ascend (s.listed (partCfg 0) 8 256)).map (s.upPort u)
  let vdps := (ascend (s.listed (vdpReg 0 0) 4 8192)).filterMap fun k =>
    if s.vdpLocal u (k / 32) (k % 32) then some (s.vdpPort u (k / 32) (k % 32)) else none
  firstOf [globally (firstBad (ups ++ vdps) gone),
           s.onTiles fun t => firstBad ((s.routesIn t).flatMap fun k => s.hopsIn u t k) gone,
           globally (firstBad (s.groupsIn.flatMap fun g => s.fmcIn u g) gone)]

/-- Whether a lane index permits a width code (R73). -/
def widthAt (i w : Nat) : Bool := decide (1 ≤ w ∧ w ≤ 5) && i % widthLanes w == 0
/-- 0x02: splits, widths and rates of ports (R4, R73). -/
def State.check02 (s : State) (u : Bool) : Failing :=
  let w := fun port => s.cfld u (portCfg port) 4 2
  let r := fun port => s.cfld u (portCfg port) 7 5
  let lane := fun port => port % 16
  let bad := fun port => !widthAt (lane port) (w port) || decide (5 < r port) ||
    ((s.portsIn u).any fun q => decide (port < q ∧ q < port + widthLanes (w port))) ||
    (s.isVfl u port && (decide (w port < 3) || decide (r port < 4))) ||
    decide ((if s.boot.sensed.getLsbD 1744 then 4 else 5) < r port)
  atPort (firstBad (s.portsIn u) bad)

/-- 0x03: upstream ports (R148). -/
def State.check03 (s : State) (u : Bool) : Failing :=
  let ps := s.partsIn u
  firstOf [globally (firstBad ps fun p => !s.isPort u (s.upPort u p) || s.isVfl u (s.upPort u p)),
           globally (firstClash ps fun p q => s.upPort u p == s.upPort u q)]

/-- 0x04: internal bus ranges and owners (R151). -/
def State.check04 (s : State) (u : Bool) : Failing :=
  let ps := s.partsIn u
  let b := s.busRange u
  let sec := fun port => s.cfld u (portBus port) 11 0
  let sub := fun port => s.cfld u (portBus port) 27 16
  let bad := fun port =>
    let p := s.slotOwner u port
    !s.partEn u p || decide (sub port < sec port) || sec port / 256 != sub port / 256 ||
      !decide ((b p).1 ≤ sec port ∧ sub port ≤ (b p).2)
  firstOf [globally (firstBad ps fun p => decide ((b p).2 < (b p).1)),
           globally (firstClash ps fun p q => decide ((b p).1 ≤ (b q).2 ∧ (b q).1 ≤ (b p).2)),
           atPort (firstBad (s.downPorts u) bad)]

/-- 0x05: address map entries (R159). -/
def State.check05 (s : State) (u : Bool) : Failing :=
  let xs := ascend ((s.amapEntries u).filter fun x => s.amapValid u x)
  let hi := fun x => s.amapBase u x + 2 ^ s.amapLog2 u x
  firstOf [globally (firstBad xs fun x => !s.bindValid u (s.amapFunc u x)),
           globally (firstClash xs fun x y => decide (s.amapBase u x < hi y ∧ s.amapBase u y < hi x))]

/-- 0x06: no function is bound twice (R152). -/
def State.check06 (s : State) (u : Bool) : Failing :=
  globally ((firstClash (s.bindsIn u) fun f g => s.bindRid u f == s.bindRid u g).map fun f => s.bindRid u f)

/-! ### Codes 0x07 to 0x0B -/

/-- 0x07: seat 0 is bound on a fused manager port (R282, R373). -/
def State.check07 (s : State) (u : Bool) : Failing :=
  if s.bound u 0 && s.mgrPorts.contains (s.upPort u (s.seatPart u 0)) then none else some (15, 0)

/-- Whether two seats name the same requester (R227). -/
def State.sameSeat (s : State) (u : Bool) (a b : Nat) : Bool :=
  s.seatPart u a == s.seatPart u b && s.seatKind1 u a == s.seatKind1 u b && s.seatPasid u a == s.seatPasid u b &&
    (if s.seatKind1 u a then s.seatFunc u a == s.seatFunc u b
     else s.seatAny u a == s.seatAny u b && (s.seatAny u a || s.seatRid u a == s.seatRid u b))
/-- 0x08: seat bindings (R227). -/
def State.check08 (s : State) (u : Bool) : Failing :=
  let ks := s.seatsIn u
  firstOf [globally (firstBad ks fun k => !s.partEn u (s.seatPart u k)),
           globally (firstBad ks fun k => s.seatKind1 u k &&
             !(s.bindValid u (s.seatFunc u k) && s.bindPart u (s.seatFunc u k) == s.seatPart u k)),
           globally (firstClash ks (s.sameSeat u))]

/-- ST_SHARE[s] word `w`. -/
def stShare (seat w : Nat) : Nat := 0x00310000 + 8 * seat + 4 * w
/-- The first seat at which a sum over seats passes a limit. -/
def overSum (share : Nat → Nat) (limit : Nat) : List Nat → Nat → Option Nat
  | [], _ => none
  | k :: ks, n => if limit < n + share k then some k else overSum share limit ks (n + share k)
/-- The valid meters of a tile, ascending. -/
def State.metersIn (s : State) (u : Bool) (t : Nat) : List Nat :=
  ascend ((s.meters u t).filter fun m => s.cflag u (meterReg t m 0) 0)
/-- The port blocks of the part. -/
def State.blocks (s : State) : List Nat := s.part.tiles.flatMap fun t => (List.range 8).map (8 * t + ·)
/-- The seat of a meter. -/
def State.meterSeat (s : State) (u : Bool) (t m : Nat) : Nat := s.cfld u (meterReg t m 0) 27 16
/-- The seat of a seat node. -/
def State.nodeSeat (s : State) (u : Bool) (pb n : Nat) : Nat := s.cfld u (scNode pb n 0) 27 16
/-- 0x09: pool rings, shares, slot-power channels (R89, R236, R262, R273). -/
def State.check09 (s : State) (u : Bool) : Failing :=
  let ks := s.seatsIn u
  let pool := ascend (s.listed 0x00320000 4 32768)
  let sum := fun w hi lo limit => globally (overSum (fun k => s.cfld u (stShare k w) hi lo) limit ks 0)
  let nodes := s.blocks.findSome? fun pb => ((ascend (s.scNodes u pb)).map (s.nodeSeat u pb)).find? fun k =>
    decide (s.cfld u (stShare k 1) 26 16 < (s.scNodes u pb).countP fun n => s.nodeSeat u pb n == k)
  let meters := s.part.tiles.findSome? fun t => ((s.metersIn u t).map (s.meterSeat u t)).find? fun k =>
    decide (s.cfld u (stShare k 1) 13 0 < (s.metersIn u t).countP fun m => s.meterSeat u t m == k)
  let slots := (s.portsIn u).filter fun port => s.cflag u (slotCfg port) 0 && s.cflag u (slotCfg port) 8
  let ch := fun port => s.cfld u (slotCfg port) 7 1
  firstOf [globally (firstBad pool fun r => (s.ringOwner u (32768 + r)).any fun k => !s.bound u k),
           sum 0 12 0 6144, sum 0 30 16 16384, sum 1 13 0 8192, sum 1 26 16 1024, globally nodes, globally meters,
           globally ((firstClash slots fun a b => ch a == ch b).map ch)]

/-- 0x0A: protection rules (R246). -/
def State.check0A (s : State) (u : Bool) : Failing :=
  s.onTiles fun t => firstBad (ascend (s.puRules u t)) fun r =>
    let k := s.puRuleAt u t r
    k.valid && (!s.bound u k.seat || decide (1 < k.space) || (k.space == 1 && k.kinds.testBit 2) || decide (k.limit < k.base))

/-- 0x0B: aperture entries in use and the sizes of BAR4 (R188, R190, R280). -/
def State.check0B (s : State) (u : Bool) : Failing :=
  let n := fun t x => s.apLog2 u t x
  let o := fun t x => s.apOfs u t x
  let used := fun t => ascend ((s.apEntries u t).filter fun x => s.apUsed u t x)
  let bad := fun t x =>
    let p := s.apPart u t x
    let b := s.bar4Log2 u p
    !decide (12 ≤ n t x ∧ n t x ≤ 36) || o t x % 2 ^ n t x != 0 || b == 0 || decide (2 ^ b < o t x + 2 ^ n t x) ||
      (s.apSw u t x == s.switchNum u && !s.partEn u (s.apTPart u t x))
  let clash := fun t x y => s.apPart u t x == s.apPart u t y &&
    decide (o t x < o t y + 2 ^ n t y ∧ o t y < o t x + 2 ^ n t x)
  firstOf [s.onTiles fun t => firstBad (used t) (bad t),
           s.onTiles fun t => firstClash (used t) (clash t),
           globally (firstBad (ascend (s.listed 0x00050C00 4 256)) fun p =>
             s.bar4Log2 u p != 0 && !decide (20 ≤ s.bar4Log2 u p ∧ s.bar4Log2 u p ≤ 40))]

/-! ### Codes 0x0C to 0x11 -/

/-- Whether a rate word is zero or lies from 1 Mb/s to 1.024 Tb/s (R265). -/
def rateOk (w : Word) : Bool :=
  field w 19 0 == 0 || (if bit w 19 then decide (1049 ≤ field w 18 0) else decide (field w 18 0 ≤ 262144))
/-- A scheduler object in DETAIL: kind 0 seat node, 1 service node, 2 port. -/
def schedObj (kind pb n : Nat) : Nat := n % 8192 + pb % 64 * 8192 + kind * 2 ^ 20
/-- A sum of rates in units of 2^-20 Gb/s. -/
def rateSum (l : List Word) : Nat := l.foldl (fun n w => n + rateGain w) 0
/-- A port's rate in units of 2^-20 Gb/s (R262). -/
def State.portRate (s : State) (u : Bool) (port : Nat) : Nat :=
  let w := s.conf u (scPort port 1)
  if rateSet w then rateGain w else widthLanes (s.cfld u (portCfg port) 4 2) * laneRate (s.cfld u (portCfg port) 7 5) * 2 ^ 19
/-- The first failing scheduler object of a port block. A node's rate is its PIR; without one it bounds nothing (DEDUCED, log
entry 71). -/
def State.check0Cat (s : State) (u : Bool) (pb : Nat) : Option Nat :=
  let ns := ascend (s.scNodes u pb)
  let ports := ((List.range 16).map (16 * pb + ·)).filter fun port => s.portEn u port
  let nodePort := fun n => s.cfld u (scNode pb n 0) 4 1
  let words := fun n => [s.conf u (scNode pb n 1), s.conf u (scNode pb n 2)]
  let kids := fun n => (List.range 8).map fun c => s.conf u (scSvc pb n c 1)
  let svcs := ns.flatMap fun n => (List.range 8).map fun c => 8 * n + c
  let node := fun (o : Option Nat) => o.map (schedObj 0 pb)
  [node (firstBad ns fun n => !(words n).all rateOk),
   (firstBad svcs fun k => !rateOk (s.conf u (scSvc pb (k / 8) (k % 8) 1)) || !rateOk (s.conf u (scSvc pb (k / 8) (k % 8) 2))).map
     (schedObj 1 pb),
   (firstBad ports fun q => !(rateOk (s.conf u (scPort q 1)) && rateOk (s.conf u (scPort q 2)) && rateOk (s.conf u (scPort q 3)))).map
     fun q => schedObj 2 pb (q % 16),
   node (firstBad ns fun n => !s.isPort u (16 * pb + nodePort n)),
   node (firstClash ns fun a b => nodePort a == nodePort b && s.nodeSeat u pb a == s.nodeSeat u pb b),
   node (firstBad ns fun n => rateSet (s.conf u (scNode pb n 2)) && decide (rateGain (s.conf u (scNode pb n 2)) < rateSum (kids n))),
   (firstBad ports fun q => decide (s.portRate u q < rateSum (s.conf u (scPort q 2) ::
     (ns.filter fun n => nodePort n == q % 16).map fun n => s.conf u (scNode pb n 1)))).map fun q => schedObj 2 pb (q % 16)].findSome? id
/-- 0x0C: the scheduler (R262, R265). -/
def State.check0C (s : State) (u : Bool) : Failing :=
  s.blocks.findSome? fun pb => (s.check0Cat u pb).map fun n => (pb / 8, n)

/-- 0x0D: meters (R265, R273). -/
def State.check0D (s : State) (u : Bool) : Failing :=
  s.onTiles fun t =>
    let w := fun m i => s.conf u (meterReg t m i)
    let bad := fun m =>
      let mode1 := bit (w m 0) 1
      !rateOk (w m 1) || decide (field (w m 3) 15 0 < 17) ||
        (!mode1 && (!rateOk (w m 2) || decide (field (w m 3) 31 16 < 17) ||
          (rateSet (w m 2) && decide (rateGain (w m 2) < rateGain (w m 1)))))
    (firstBad (s.metersIn u t) bad).orElse fun _ => firstClash (s.metersIn u t) fun a b =>
      s.meterSeat u t a == s.meterSeat u t b && (w a 0 &&& w b 0 &&& 0x3FC#32) != 0

/-- 0x0E: cue lists (R269). -/
def State.check0E (s : State) (u : Bool) : Failing :=
  let bad := fun pb l =>
    let n := s.cfld u (scHdr pb l 0) 8 0
    let start := fun k => s.cfld u (scCue pb l k 0) 23 0
    let cyc := (s.conf u (scHdr pb l 1)).toNat
    n != 0 && (decide (256 < n) || cyc == 0 || start 0 != 0 ||
      ((List.range (n - 1)).any fun k => decide (start (k + 1) ≤ start k)) || decide (cyc ≤ start (n - 1)) ||
      decide (nsPerSec ≤ (s.conf u (scHdr pb l 2)).toNat) || (List.range n).any fun k => !s.cflag u (scCue pb l k 1) 9)
  (s.blocks.find? fun pb => bad pb 0 || bad pb 1).map fun pb => (pb / 8, pb)

/-- 0x0F: multicast groups (R78, R169). -/
def State.check0F (s : State) (u : Bool) : Failing :=
  firstOf [globally ((firstBad (ascend (s.listed 0x00040000 4 64)) fun g =>
             s.cflag u (0x00040000 + 4 * g) 8 && !s.partEn u (s.cfld u (0x00040000 + 4 * g) 7 0)).map (0x1000 + ·)),
           globally (firstBad s.groupsIn fun g => (s.fmcIn u g).any fun port => !s.isPort u port)]

/-- 0x10: route tables (R164). -/
def State.check10 (s : State) (u : Bool) : Failing :=
  s.onTiles fun t => firstBad (s.routesIn t) fun k =>
    (s.hopsIn u t k).any fun port => !(s.isPort u port && s.isVfl u port) || k == s.switchNum u

/-- 0x11: a field whose fuse is blown keeps its lead value (R374). -/
def State.check11 (s : State) (_u : Bool) : Failing :=
  let os := ascend ((s.set0 ++ s.set1).map (·.1))
  (os.find? fun o => s.locked o && s.differs o (setMask o).toNat).map fun o => ((offTile o).getD 15, o / 4)

/-- The whole check of a set, in the order of its codes: the first failure as code, tile and detail. -/
def State.checkSet (s : State) (u : Bool) : Option (Nat × Nat × Nat) :=
  [s.check01, s.check02, s.check03, s.check04, s.check05, s.check06, s.check07, s.check08, s.check09, s.check0A, s.check0B,
    s.check0C, s.check0D, s.check0E, s.check0F, s.check10, s.check11].zipIdx.findSome? fun x =>
      (x.1 u).map fun f => (x.2 + 1, f)

/-! ### The end of a check (R38) -/

/-- TM_CHECK_STATUS. -/
def checkStatus : Nat := 0x00030040
/-- CONSISTENCY_CHECK_DONE (R39): a running check of the understudy set ends. A pass names no failing check or tile (DEDUCED, log
entry 99). -/
def consistencyCheckDone (s : State) : State :=
  if s.ilulysReset || s.checkState ≠ 1 then s
  else match s.checkSet (!s.leadEpoch) with
    | none => s.setLv checkStatus 2
    | some (code, t, d) =>
      (((s.setFld checkStatus 1 0 3).setFld checkStatus 15 8 code).setFld checkStatus 19 16 t).setLv 0x00030044
        (BitVec.ofNat 32 (d % 2 ^ 24))

/-- CONSISTENCY_CHECK_DONE. -/
def execConsistencyCheckDone (s : State) : Out := .next (consistencyCheckDone s)

end Sys2Proof.Machine
end

