-- ==== Sys2Proof/Machine/Boot.lean ====
section
/-! DEFINITION. Boot (R376 to R381), the end of an Ilulys restart (R369, R401, R450) and the rejoin of the Ilulys die (R402). -/

namespace Sys2Proof.Machine

/-! ### Firmware (R376, R380 steps 2 and 3) -/

/-- Whether a firmware slot passes step 3 against fuses `f`. -/
def slotOk (f : BitVec 2048) (c : SlotCheck) : Bool := c.keyOk && decide (fwSvn f ≤ c.svn ∧ c.svn ≤ 64) && c.codeLenOk && c.sigOk
/-- The slot that boots, with its measurement; none where both have failed. -/
def fwPick (f : BitVec 2048) (b : BootInput) : Option (Bool × BitVec 256) :=
  if !b.dirOk then none
  else if slotOk f b.slot0 then some (false, b.slot0.meas)
  else match b.slot1 with
    | some c => if slotOk f c then some (true, c.meas) else none
    | none => none
/-- HK_BOOT_STATUS of the fuses in force. -/
def State.fuseStatus (s : State) : State :=
  let f := s.boot.sensed
  ((s.setFlag bootStatus 12 (ownerSlots f).isEmpty).setFlag bootStatus 13 (f.getLsbD 1708)).setFld bootStatus 22 16 (fwSvn f)
/-- Slot 0 has failed. -/
def State.slot0Bad (s : State) : State := (s.setFlag bootStatus 5 true).countHk 48
/-- Verify the firmware (R380 step 3): the slot booted, or none. -/
def State.verifyFw (s : State) (b : BootInput) : State × Option (Bool × BitVec 256) :=
  let pick := fwPick s.boot.sensed b
  let s := (s.setFlag bootStatus 4 false).setFlag bootStatus 5 false
  match pick with
  | some (false, m) => (s.setFlag bootStatus 6 false, some (false, m))
  | some (true, m) => ((s.slot0Bad.setFlag bootStatus 4 true).setFlag bootStatus 6 false, some (true, m))
  | none => ((s.slot0Bad.setFlag bootStatus 6 true).countHk 49, none)

/-! ### The image (R377 to R379) -/

/-- Whether a lane exists on the part. -/
def State.laneThere (s : State) (l : Nat) : Bool := decide (l < 1024) && s.part.hasTile (tileOf l)
/-- Whether a record breaks cause 8. -/
def State.recBad (s : State) : ImgRec → Bool
  | .regWrites ps => ps.any fun x => x.1 % 4 != 0 || decide (0x10000000 ≤ x.1) || decide (0x00020000 ≤ x.1 ∧ x.1 < 0x00021000) ||
      decide (0x00030000 ≤ x.1 ∧ x.1 < 0x00031000)
  | .eqSets es => es.any fun x => !s.laneThere x.1 || !decide (2 ≤ x.2.1 ∧ x.2.1 ≤ 5)
  | .unknown _ _ => false
/-- Whether a record is CRITICAL and of unknown TYPE. -/
def recCritical : ImgRec → Bool
  | .unknown _ c => c
  | _ => false
/-- Whether a record is skipped. -/
def recSkipped : ImgRec → Bool
  | .unknown _ c => !c
  | _ => false
/-- Whether an OWNER_HASH slot is in force. -/
def State.owned (s : State) : Bool := !(ownerSlots s.boot.sensed).isEmpty
/-- The first of causes 1 to 8 that an image fails; 0 where it passes. -/
def State.imageCause (s : State) (i : Image) : Nat :=
  if !i.magicOk then 1
  else if i.cfgMax < i.totalLen ∨ i.totalLen < 804 then 2
  else if !i.checkOk then 3
  else if s.owned && !i.keySlots.any fun k => (ownerSlots s.boot.sensed).contains k then 4
  else if !i.sigOk then 5
  else if i.part ≠ fuseField s.boot.sensed 1746 1745 then 6
  else if i.records.any recCritical then 7
  else if i.records.any s.recBad then 8
  else 0

/-- Count an image's skipped records. -/
def State.countSkipped (s : State) (i : Image) : State := s.each (i.records.filter recSkipped) fun s _ => s.countHk 51
/-- An image that has passed its check is the running image: its measurement, sequence number and permissions. -/
def State.noteImage (s : State) (i : Image) : State :=
  (s.setFlag bootStatus 14 s.owned).modBoot fun b => { b with
    cfgMeas := i.meas, imageSeq := i.imageSeq, fuseProgEn := i.fuseProgEn
    eqSets := i.records.flatMap fun r => match r with
      | .eqSets es => es.map fun x => (x.1, x.2.1, x.2.2.toNat)
      | _ => [] }

/-! ### Applying (R374, R380 step 6, R381) -/

/-- The partition that LOCK bit 3 follows while an image is applied: the one that its last write of ST_BIND[0] names
(DEDUCED, log entry 93). -/
def State.imagePart (s : State) (i : Image) : Nat :=
  (i.records.flatMap fun r => match r with
    | .regWrites ps => ps.filterMap fun x => if x.1 = stBind 0 0 then some (field x.2 8 1) else none
    | _ => []).getLast?.getD (s.seatPart s.leadEpoch 0)
/-- One REG_WRITES pair: a locked field goes to both copies, any other as a write of the stage manager. `p` is the partition
whose TL_PART_CFG LOCK bit 3 locks. -/
def State.imageWrite (s : State) (p o : Nat) (v : Word) : State :=
  let put := fun (s : State) (e : Bool) => s.setConf e o ((s.conf e o &&& ~~~(setMask o)) ||| (v &&& setMask o))
  let mine := s.lockFuse 3 && o == partCfg p
  let other := s.locked o && o == partCfg (s.seatPart s.leadEpoch 0)
  if setMask o ≠ 0 && s.wordHere o && (mine || (s.locked o && !other)) then put (put s false) true
  else if other then put s (!s.leadEpoch)
  else s.regWrite .mgmtPort o v
/-- Apply a record. -/
def State.applyRec (s : State) (p : Nat) : ImgRec → State
  | .regWrites ps => s.each ps fun s x => s.imageWrite p x.1 x.2
  | .eqSets es => s.each es fun s x => s.modLane x.1 fun k => { k with saved := tset 0 k.saved x.2.1 x.2.2.toNat }
  | .unknown _ _ => s
/-- Apply an image: its records in order. -/
def State.applyImage (s : State) (i : Image) : State := (s.each i.records fun s r => s.applyRec (s.imagePart i) r).pump

/-- The understudy copy holds the factory defaults (R381); a locked field keeps its reset value (R374). -/
def State.defaults (s : State) : State :=
  let u := !s.leadEpoch
  let port := s.mgrPorts.headD 0
  let rate := if s.boot.sensed.getLsbD 1744 then 4 else 5
  let s := s.setConf u (portCfg port) (BitVec.ofNat 32 (1 + 5 * 4 + rate * 32 + 256))
  let s := s.setConf u 0x00050C00 0x800
  if s.locked (stBind 0 0) then s
  else (s.setConf u (partCfg 0) (BitVec.ofNat 32 (1 + port * 2))).setConf u (stBind 0 0) 0x401
/-- TM_CHECK_STATUS takes the outcome of the check that a boot runs. -/
def State.bootCheck (s : State) : State := consistencyCheckDone (s.setFld checkStatus 1 0 1)
/-- Factory defaults are applied, for a cause. -/
def State.applyDefaults (s : State) (cause : Nat) : State :=
  let s := ((s.setFld bootStatus 11 8 cause).setFlag bootStatus 7 true).countHk 50
  (s.defaults.bootCheck.setFlag bootStatus 14 false).modBoot fun b => { b with
    cfgMeas := 0, imageSeq := 0, fuseProgEn := false, eqSets := [] }

/-- The curtain of step 7: every tile flips, and the new lead set is copied into the understudy storage. -/
def State.bootCurtain (s : State) : State :=
  let e := s.leadEpoch
  let s := s.each s.present fun s t => s.flipTile e t
  let s := if s.leadEpoch = e then s.flipLead e else s
  { s with set0 := s.copyOf (!e), set1 := s.copyOf (!e), cur := {} }
/-- Steps 5 to 7: the image, or the defaults for its cause. With cause 9 the state before the image is taken up again. -/
def State.applyOrDefault (s : State) (i : Image) : State :=
  let c := s.imageCause i
  if c ≠ 0 then (s.applyDefaults c).bootCurtain
  else
    let s := s.countSkipped i
    let t := (s.applyImage i).bootCheck
    if t.checkState = 2 then (t.noteImage i).bootCurtain else (s.applyDefaults 9).bootCurtain

/-! ### The release of the tiles (R380 step 4, R390) -/

/-- Whether the good wires of a crossing let it run (R119). -/
def State.xgFit (s : State) (x : Nat) : Bool :=
  [(xgEnds x).1, (xgEnds x).2].all fun t =>
    decide ((s.linkSt (.xing t (endGroup x t))).wires.length ≤ 32) || s.mayHalve t (endGroup x t)
/-- A crossing between two tiles that run comes up, at half width where its wires left it so. -/
def State.xgRise (s : State) (x : Nat) : State :=
  let a := (xgEnds x).1
  let b := (xgEnds x).2
  if !s.xgFit x then s
  else
  let s := s.each [a, b] fun s u => s.setFlag (xgStatus u (endGroup x u)) 0 true
  let half := s.flag (xgStatus a (endGroup x a)) 1
  s.each s.present fun s u => s.seeXg u x (b2n half)
/-- The wire test maps bad wires; the tiles whose rails are good and which are not held for their temperature run; their crossings come up and, with a good
reference, their quad PLLs lock. -/
def State.releaseTiles (s : State) (bad : List (Nat × Nat × Nat)) : State :=
  let s := s.each bad fun s x => s.wireTested x.1 x.2.1 x.2.2
  let s := { s with cont := { s.cont with lost := (List.range 8).filter fun t =>
    !(s.part.hasTile t && s.railsOk t && !s.pwr.hot.contains t), cut := [] } }
  let s := s.each s.present fun s t => s.each s.present fun s u => s.setFlag (meshStatus t) u true
  let s := s.each ((List.range 10).filter fun x => s.here (xgEnds x).1 && s.here (xgEnds x).2) State.xgRise
  if s.refGood false || s.refGood true then
    s.each (s.present.flatMap fun t => (List.range 32).map (32 * t + ·)) fun s q => s.setFlag (quadStatus q) 0 true
  else s

/-! ### The three kinds of release -/

/-- The Ilulys die is out of reset and no release is due. -/
def State.released (s : State) : State :=
  ({ s with ilulysReset := false } : State).modPwr fun p => { p with due := none, valid := true }
/-- HK_BOOT_STATUS.STAGE. -/
def State.setStage (s : State) (n : Nat) : State := s.setFld bootStatus 3 0 n
/-- The fuses are sensed (R372). -/
def State.sense (s : State) : State := (s.modBoot fun b => { b with sensed := s.fuses }).fuseStatus

/-- A boot (R380): without firmware the ROM applies the defaults itself and stays in recovery; the tiles are not released. -/
def State.bootFull (s : State) (b : BootInput) : State :=
  let (s, fw) := s.released.sense.verifyFw b
  match fw with
  | none => (s.applyDefaults 0).bootCurtain.setStage 5
  | some (_, m) =>
    ((((s.modBoot fun k => { k with fwMeas := m }).releaseTiles b.wireTest).applyOrDefault b.image).setStage 4).dieEventsOut

/-- What the stage manager takes from the tiles of a curtain that was arming or armed (R450): one that is not complete is
withdrawn. -/
def State.curtainOutcome (s : State) : State :=
  if (s.curtainState = 1 ∨ s.curtainState = 2) && !s.armComplete then s.abortCurtain.setFld tmStatus 16 14 7 else s
/-- The tile service links return. -/
def State.linksReturn (s : State) (ts : List Nat) : State := s.each ts fun s t => serviceLinkReturn t s
/-- Each bound slot's power-good and fault state goes to its tile, and armed entries whose time has passed are late (R369). -/
def State.slotsAgain (s : State) : State :=
  let s := s.each (List.range 128) fun s ch =>
    let s := s.spMessage ch (if s.flag (spStatus ch) 6 then 4 else 5)
    if s.spState ch = 3 ∨ s.spState ch = 4 then s.spMessage ch 3 else s
  { s with seqLate := s.seqLate ++ (List.range 32).filter fun e =>
      s.flag (spSeq e 3) 9 && decide (s.seqTime e < s.tm.ft) && !s.seqLate.contains e }
/-- The end of an Ilulys restart (R401): the third within 10 s stays in STAGE 5, and so does one without firmware. -/
def State.restartEnds (s : State) (b : BootInput) : State :=
  let (s, fw) := s.released.verifyFw b
  if 3 ≤ s.pwr.restarts.length then (s.setStage 5).setFlag resetCause 4 true
  else match fw with
    | none => s.setStage 5
    | some _ => ((s.setStage 4).linksReturn s.running).slotsAgain.curtainOutcome

/-- The master FT is loaded from a tile's slave counter (R402). -/
def State.ftFrom (s : State) (t : Nat) : State :=
  let v := s.tileFt t
  let s := (s.shiftSlaves ((v : Int) - s.tm.ft)).modTm fun m => { m with ft := v }
  (s.setFlag tmStatus 0 false).setFlag tmStatus 2 (s.pwr.qualAtLoss.contains t)
/-- The image is checked and not applied (R402). -/
def State.imageNoted (s : State) (i : Image) : State :=
  let c := s.imageCause i
  let s := s.setFld bootStatus 11 8 c
  if c = 0 then (s.countSkipped i).noteImage i
  else s.modBoot fun b => { b with cfgMeas := 0, imageSeq := 0, fuseProgEn := false, eqSets := [] }
/-- Every bound slot that reads on receives Power Fault Detected (R402). -/
def State.slotsFault (s : State) : State :=
  s.each (List.range 128) fun s ch =>
    match s.slotOf ch with
    | some p => if (s.slotSt p).off then s else s.sendSide p 3
    | none => s
/-- A rejoin (R402): with a tile that runs, no image is applied and no running tile is reset. -/
def State.rejoin (s : State) (b : BootInput) : State :=
  let s := s.each (s.present.filter fun t => !b.running.contains t) State.loseTile
  match s.present with
  | [] => (s.deviceReset true 0).bootFull b
  | t :: _ =>
    let (s, fw) := s.released.sense.verifyFw b
    let s := s.setFld resetCause 3 0 7
    match fw with
    | none => s.setStage 5
    | some (_, m) =>
      let s := ((s.modBoot fun k => { k with fwMeas := m }).ftFrom t).imageNoted b.image
      ((s.setStage 4).linksReturn s.running).slotsFault.curtainOutcome

/-- BOOT: the release of the Ilulys die's reset, once an auxiliary supply is good. -/
def bootRun (b : BootInput) (s : State) : State :=
  if !s.pwr.vauxA && !s.pwr.vauxB then s
  else match s.pwr.due with
    | none => s
    | some .boot => s.bootFull b
    | some .restart => s.restartEnds b
    | some .rejoin => s.rejoin b

/-- BOOT. -/
def execBoot (b : BootInput) (s : State) : Out := .next (bootRun b s)

end Sys2Proof.Machine
end

