-- ==== Sys2Proof/Machine/Dispatch.lean ====
section
/-! DEFINITION. The dispatch: one arm per command, each one call of the command's meaning. -/

namespace Sys2Proof.Machine

def exec (i : Instr) (s : State) : Host.Outcome State Fault Refusal :=
  match i with
  | .ppsEdge => Sys2Proof.Machine.execPpsEdge s
  | .ppsEdgeMissing => Sys2Proof.Machine.execPpsEdgeMissing s
  | .trefClkAbsent => Sys2Proof.Machine.execTrefClkAbsent s
  | .todLoad v => Sys2Proof.Machine.execTodLoad v s
  | .deferredTodApply => Sys2Proof.Machine.execDeferredTodApply s
  | .syncFrame tile => Sys2Proof.Machine.execSyncFrame tile s
  | .ftSnap => Sys2Proof.Machine.execFtSnap s
  | .ftSnapDone => Sys2Proof.Machine.execFtSnapDone s
  | .setFieldWrite via off v => Sys2Proof.Machine.execSetFieldWrite via off v s
  | .understudyRead v => Sys2Proof.Machine.execUnderstudyRead v s
  | .understudyReadDone => Sys2Proof.Machine.execUnderstudyReadDone s
  | .consistencyCheck v => Sys2Proof.Machine.execConsistencyCheck v s
  | .consistencyCheckDone => Sys2Proof.Machine.execConsistencyCheckDone s
  | .curtainArm v => Sys2Proof.Machine.execCurtainArm v s
  | .curtainPrepare tile => Sys2Proof.Machine.execCurtainPrepare tile s
  | .curtainPrepareAck tile => Sys2Proof.Machine.execCurtainPrepareAck tile s
  | .curtainCommit tile => Sys2Proof.Machine.execCurtainCommit tile s
  | .curtainCommitAck tile => Sys2Proof.Machine.execCurtainCommitAck tile s
  | .lastCall => Sys2Proof.Machine.execLastCall s
  | .curtainAbort v => Sys2Proof.Machine.execCurtainAbort v s
  | .curtainQuery tile => Sys2Proof.Machine.execCurtainQuery tile s
  | .curtainFall tile => Sys2Proof.Machine.execCurtainFall tile s
  | .epochFlip tile => Sys2Proof.Machine.execEpochFlip tile s
  | .oldDrainedReport tile => Sys2Proof.Machine.execOldDrainedReport tile s
  | .forcedRetirement => Sys2Proof.Machine.execForcedRetirement s
  | .copyForwardDone => Sys2Proof.Machine.execCopyForwardDone s
  | .registerWrite via off v => Sys2Proof.Machine.execRegisterWrite via off v s
  | .partnerDetected port => Sys2Proof.Machine.execPartnerDetected port s
  | .linkUp2g5 port width reversed polInv skews partnerVfl => Sys2Proof.Machine.execLinkUp2g5 port width reversed polInv skews partnerVfl s
  | .vflConfirmTimeout port => Sys2Proof.Machine.execVflConfirmTimeout port s
  | .equalisationPhaseDone lane rate limitsOk reached converged => Sys2Proof.Machine.execEqualisationPhaseDone lane rate limitsOk reached converged s
  | .speedChangeDone port partner skews => Sys2Proof.Machine.execSpeedChangeDone port partner skews s
  | .eiExitDetect lane mv => Sys2Proof.Machine.execEiExitDetect lane mv s
  | .l0sEntry port => Sys2Proof.Machine.execL0sEntry port s
  | .l1Entry port pciPm => Sys2Proof.Machine.execL1Entry port pciPm s
  | .linkPowerExit port => Sys2Proof.Machine.execLinkPowerExit port s
  | .losDetect e => Sys2Proof.Machine.execLosDetect e s
  | .laneLol lane => Sys2Proof.Machine.execLaneLol lane s
  | .quadPllLol quad => Sys2Proof.Machine.execQuadPllLol quad s
  | .quadPllRelock quad => Sys2Proof.Machine.execQuadPllRelock quad s
  | .eiHoldRelease lane v => Sys2Proof.Machine.execEiHoldRelease lane v s
  | .vflMarker lane marker => Sys2Proof.Machine.execVflMarker lane marker s
  | .markerLoss lane => Sys2Proof.Machine.execMarkerLoss lane s
  | .patternModeEnter lane v => Sys2Proof.Machine.execPatternModeEnter lane v s
  | .patternModeExit lane v => Sys2Proof.Machine.execPatternModeExit lane v s
  | .injectOne lane v => Sys2Proof.Machine.execInjectOne lane v s
  | .cntClear lane v => Sys2Proof.Machine.execCntClear lane v s
  | .checkerLock lane => Sys2Proof.Machine.execCheckerLock lane s
  | .checkerUnlock lane => Sys2Proof.Machine.execCheckerUnlock lane s
  | .laneMbxRead agent pb v => Sys2Proof.Machine.execLaneMbxRead agent pb v s
  | .laneMbxWrite agent pb v => Sys2Proof.Machine.execLaneMbxWrite agent pb v s
  | .laneMbxDone agent pb => Sys2Proof.Machine.execLaneMbxDone agent pb s
  | .replayNumRollover port => Sys2Proof.Machine.execReplayNumRollover port s
  | .pcieLinkDown port => Sys2Proof.Machine.execPcieLinkDown port s
  | .dpcTrigger part vdp cause => Sys2Proof.Machine.execDpcTrigger part vdp cause s
  | .dpcTriggerStatusClear part vdp => Sys2Proof.Machine.execDpcTriggerStatusClear part vdp s
  | .slotPowerOn part vdp => Sys2Proof.Machine.execSlotPowerOn part vdp s
  | .slotPowerOff part vdp => Sys2Proof.Machine.execSlotPowerOff part vdp s
  | .slotIndicatorWrite part vdp attn pwr => Sys2Proof.Machine.execSlotIndicatorWrite part vdp attn pwr s
  | .commandCompleted port => Sys2Proof.Machine.execCommandCompleted port s
  | .slotSidebandMessage port => Sys2Proof.Machine.execSlotSidebandMessage port s
  | .presenceSample port present => Sys2Proof.Machine.execPresenceSample port present s
  | .attentionButton port => Sys2Proof.Machine.execAttentionButton port s
  | .flitReceive link flit => Sys2Proof.Machine.execFlitReceive link flit s
  | .packetItemAccept link => Sys2Proof.Machine.execPacketItemAccept link s
  | .initSend port => Sys2Proof.Machine.execInitSend port s
  | .initReceive port proto vcCount rxSeen fid bufs => Sys2Proof.Machine.execInitReceive port proto vcCount rxSeen fid bufs s
  | .initTimeout port => Sys2Proof.Machine.execInitTimeout port s
  | .initMismatchRetry port => Sys2Proof.Machine.execInitMismatchRetry port s
  | .ackDue link => Sys2Proof.Machine.execAckDue link s
  | .replayTimeout link => Sys2Proof.Machine.execReplayTimeout link s
  | .linkRetrainDone link ok width => Sys2Proof.Machine.execLinkRetrainDone link ok width s
  | .vflLinkDown port => Sys2Proof.Machine.execVflLinkDown port s
  | .routeHopRestore tile port => Sys2Proof.Machine.execRouteHopRestore tile port s
  | .injectBadCrc port v => Sys2Proof.Machine.execInjectBadCrc port v s
  | .injectDropAck port v => Sys2Proof.Machine.execInjectDropAck port v s
  | .injectStaleCredit port v => Sys2Proof.Machine.execInjectStaleCredit port v s
  | .injectSkipSeq port v => Sys2Proof.Machine.execInjectSkipSeq port v s
  | .injectFecSym port v => Sys2Proof.Machine.execInjectFecSym port v s
  | .wireFailure tile g wire => Sys2Proof.Machine.execWireFailure tile g wire s
  | .wireRepairDone tile g => Sys2Proof.Machine.execWireRepairDone tile g s
  | .crossingWireInject tile g v => Sys2Proof.Machine.execCrossingWireInject tile g v s
  | .crossingBulkLoss x => Sys2Proof.Machine.execCrossingBulkLoss x s
  | .crossingStateNotice tile x state => Sys2Proof.Machine.execCrossingStateNotice tile x state s
  | .cellSlot tile => Sys2Proof.Machine.execCellSlot tile s
  | .admissionRetry tile pkt => Sys2Proof.Machine.execAdmissionRetry tile pkt s
  | .ticketReturn tile fromTile dest count => Sys2Proof.Machine.execTicketReturn tile fromTile dest count s
  | .sprayRecompute tile => Sys2Proof.Machine.execSprayRecompute tile s
  | .egressArrival tile pkt => Sys2Proof.Machine.execEgressArrival tile pkt s
  | .voidNotice tile src dest seq => Sys2Proof.Machine.execVoidNotice tile src dest seq s
  | .reorderGapTimeout tile src dest => Sys2Proof.Machine.execReorderGapTimeout tile src dest s
  | .ticketQuery agent tile v => Sys2Proof.Machine.execTicketQuery agent tile v s
  | .ticketQueryDone agent tile => Sys2Proof.Machine.execTicketQueryDone agent tile s
  | .hostMemoryRequest port req => Sys2Proof.Machine.execHostMemoryRequest port req s
  | .functionMemoryRequest port req => Sys2Proof.Machine.execFunctionMemoryRequest port req s
  | .hostConfigRequest port req => Sys2Proof.Machine.execHostConfigRequest port req s
  | .functionLevelReset part f rid tag vfs => Sys2Proof.Machine.execFunctionLevelReset part f rid tag vfs s
  | .secondaryBusReset part vdp => Sys2Proof.Machine.execSecondaryBusReset part vdp s
  | .partitionReset part => Sys2Proof.Machine.execPartitionReset part s
  | .fabricFunctionPowerState part d3hot => Sys2Proof.Machine.execFabricFunctionPowerState part d3hot s
  | .intxControlChange part intDisable msixEnable => Sys2Proof.Machine.execIntxControlChange part intDisable msixEnable s
  | .msixUnmask part vector => Sys2Proof.Machine.execMsixUnmask part vector s
  | .completionArrival port cpl => Sys2Proof.Machine.execCompletionArrival port cpl s
  | .outstandingEntryAlloc port => Sys2Proof.Machine.execOutstandingEntryAlloc port s
  | .completionTimeout tile entry => Sys2Proof.Machine.execCompletionTimeout tile entry s
  | .vflPacketArrival port pkt => Sys2Proof.Machine.execVflPacketArrival port pkt s
  | .intxMessage port hdr pin assert => Sys2Proof.Machine.execIntxMessage port hdr pin assert s
  | .messageReceived port hdr msg => Sys2Proof.Machine.execMessageReceived port hdr msg s
  | .bar4Write part who req => Sys2Proof.Machine.execBar4Write part who req s
  | .bar4Read part who req => Sys2Proof.Machine.execBar4Read part who req s
  | .wcLineTimeout tile line => Sys2Proof.Machine.execWcLineTimeout tile line s
  | .wcFlushAdmit tile line => Sys2Proof.Machine.execWcFlushAdmit tile line s
  | .fenceRead part who seat req => Sys2Proof.Machine.execFenceRead part who seat req s
  | .flushReadComplete tile fence stream status poisoned synthetic code => Sys2Proof.Machine.execFlushReadComplete tile fence stream status poisoned synthetic code s
  | .fenceTimeout tile fence => Sys2Proof.Machine.execFenceTimeout tile fence s
  | .apContReadState agent tile v => Sys2Proof.Machine.execApContReadState agent tile v s
  | .apContClear agent tile v => Sys2Proof.Machine.execApContClear agent tile v s
  | .apContContain agent tile v => Sys2Proof.Machine.execApContContain agent tile v s
  | .apContDone agent tile => Sys2Proof.Machine.execApContDone agent tile s
  | .windowTableInit v => Sys2Proof.Machine.execWindowTableInit v s
  | .windowTableInitDone => Sys2Proof.Machine.execWindowTableInitDone s
  | .windowFetchDone tile index => Sys2Proof.Machine.execWindowFetchDone tile index s
  | .revokeDrained tile index => Sys2Proof.Machine.execRevokeDrained tile index s
  | .revokeFlushDone tile index => Sys2Proof.Machine.execRevokeFlushDone tile index s
  | .windowViolationIntervalEnd tile index => Sys2Proof.Machine.execWindowViolationIntervalEnd tile index s
  | .qpTableInit v => Sys2Proof.Machine.execQpTableInit v s
  | .qpTableInitDone => Sys2Proof.Machine.execQpTableInitDone s
  | .contextFetchDone tile qpn => Sys2Proof.Machine.execContextFetchDone tile qpn s
  | .nop ring d => Sys2Proof.Machine.execNop ring d s
  | .write ring d => Sys2Proof.Machine.execWrite ring d s
  | .read ring d => Sys2Proof.Machine.execRead ring d s
  | .send ring d => Sys2Proof.Machine.execSend ring d s
  | .recvPost ring d => Sys2Proof.Machine.execRecvPost ring d s
  | .fetchAdd8 ring d => Sys2Proof.Machine.execFetchAdd8 ring d s
  | .cmpSwap8 ring d => Sys2Proof.Machine.execCmpSwap8 ring d s
  | .cmpSwap16 ring d => Sys2Proof.Machine.execCmpSwap16 ring d s
  | .fence ring d => Sys2Proof.Machine.execFence ring d s
  | .countAdd ring d => Sys2Proof.Machine.execCountAdd ring d s
  | .winOpen ring d => Sys2Proof.Machine.execWinOpen ring d s
  | .winRevoke ring d => Sys2Proof.Machine.execWinRevoke ring d s
  | .qpCreate ring d c => Sys2Proof.Machine.execQpCreate ring d c s
  | .qpDestroy ring d => Sys2Proof.Machine.execQpDestroy ring d s
  | .qpDestroyDone qpn => Sys2Proof.Machine.execQpDestroyDone qpn s
  | .workRequestStart wr => Sys2Proof.Machine.execWorkRequestStart wr s
  | .engineWritePacket hdr data => Sys2Proof.Machine.execEngineWritePacket hdr data s
  | .readReq hdr => Sys2Proof.Machine.execReadReq hdr s
  | .readResp hdr data => Sys2Proof.Machine.execReadResp hdr data s
  | .sendPacket hdr entryAddr entryLen entryWrId data => Sys2Proof.Machine.execSendPacket hdr entryAddr entryLen entryWrId data s
  | .atomicReq hdr data => Sys2Proof.Machine.execAtomicReq hdr data s
  | .atomicResp hdr data => Sys2Proof.Machine.execAtomicResp hdr data s
  | .engineAck hdr => Sys2Proof.Machine.execEngineAck hdr s
  | .notReady hdr => Sys2Proof.Machine.execNotReady hdr s
  | .notReadyBackoff wr pkt => Sys2Proof.Machine.execNotReadyBackoff wr pkt s
  | .notify hdr => Sys2Proof.Machine.execNotify hdr s
  | .workRequestTimeout wr => Sys2Proof.Machine.execWorkRequestTimeout wr s
  | .dmaReadCompletion dma cpl => Sys2Proof.Machine.execDmaReadCompletion dma cpl s
  | .ringDoorbell part who seat k req => Sys2Proof.Machine.execRingDoorbell part who seat k req s
  | .poolDoorbell part who seat req => Sys2Proof.Machine.execPoolDoorbell part who seat req s
  | .bar2Atomic part who seat req => Sys2Proof.Machine.execBar2Atomic part who seat req s
  | .mbxT2mWrite part who seat off req => Sys2Proof.Machine.execMbxT2mWrite part who seat off req s
  | .t2mPost part who seat req => Sys2Proof.Machine.execT2mPost part who seat req s
  | .t2mAck via seat v => Sys2Proof.Machine.execT2mAck via seat v s
  | .mbxM2tWrite via seat off v => Sys2Proof.Machine.execMbxM2tWrite via seat off v s
  | .m2tPost via seat v => Sys2Proof.Machine.execM2tPost via seat v s
  | .m2tAck part who seat req => Sys2Proof.Machine.execM2tAck part who seat req s
  | .seatReset via tile seat v => Sys2Proof.Machine.execSeatReset via tile seat v s
  | .seatRemove via tile seat v => Sys2Proof.Machine.execSeatRemove via tile seat v s
  | .seatEscalate via tile seat v => Sys2Proof.Machine.execSeatEscalate via tile seat v s
  | .drainTimeout seat => Sys2Proof.Machine.execDrainTimeout seat s
  | .seatResetDone seat => Sys2Proof.Machine.execSeatResetDone seat s
  | .poolRingHandover ring => Sys2Proof.Machine.execPoolRingHandover ring s
  | .seatStop via tile seat v => Sys2Proof.Machine.execSeatStop via tile seat v s
  | .puDisable tile seat v => Sys2Proof.Machine.execPuDisable tile seat v s
  | .puDisabled tile seat => Sys2Proof.Machine.execPuDisabled tile seat s
  | .puEnable tile seat v => Sys2Proof.Machine.execPuEnable tile seat v s
  | .puHoldTimeout tile held => Sys2Proof.Machine.execPuHoldTimeout tile held s
  | .puEdit agent tile v => Sys2Proof.Machine.execPuEdit agent tile v s
  | .puEditDone agent tile => Sys2Proof.Machine.execPuEditDone agent tile s
  | .puViolationIntervalEnd tile seat => Sys2Proof.Machine.execPuViolationIntervalEnd tile seat s
  | .schedulingRound tile => Sys2Proof.Machine.execSchedulingRound tile s
  | .schedulePacketStart port => Sys2Proof.Machine.execSchedulePacketStart port s
  | .takeoverArm pb v => Sys2Proof.Machine.execTakeoverArm pb v s
  | .takeoverCancel pb v => Sys2Proof.Machine.execTakeoverCancel pb v s
  | .takeover pb => Sys2Proof.Machine.execTakeover pb s
  | .backlogRead agent tile v => Sys2Proof.Machine.execBacklogRead agent tile v s
  | .backlogReadDone agent tile => Sys2Proof.Machine.execBacklogReadDone agent tile s
  | .ringEnable ring v => Sys2Proof.Machine.execRingEnable ring v s
  | .ringDisable ring v => Sys2Proof.Machine.execRingDisable ring v s
  | .ringFetch ring => Sys2Proof.Machine.execRingFetch ring s
  | .ringFetchComplete ring how entries => Sys2Proof.Machine.execRingFetchComplete ring how entries s
  | .ringFetchResume ring v => Sys2Proof.Machine.execRingFetchResume ring v s
  | .recordWrite ring => Sys2Proof.Machine.execRecordWrite ring s
  | .shadowWrite ring => Sys2Proof.Machine.execShadowWrite ring s
  | .irqModTimeout ring => Sys2Proof.Machine.execIrqModTimeout ring s
  | .regWrite ring c => Sys2Proof.Machine.execRegWrite ring c s
  | .regRead ring c => Sys2Proof.Machine.execRegRead ring c s
  | .stop ring c => Sys2Proof.Machine.execStop ring c s
  | .barrier ring c => Sys2Proof.Machine.execBarrier ring c s
  | .waitFt ring c => Sys2Proof.Machine.execWaitFt ring c s
  | .waitFtReached ring => Sys2Proof.Machine.execWaitFtReached ring s
  | .tlStopApply agent tile v => Sys2Proof.Machine.execTlStopApply agent tile v s
  | .tlStopRelease agent tile v => Sys2Proof.Machine.execTlStopRelease agent tile v s
  | .stopPropagate tile stopId => Sys2Proof.Machine.execStopPropagate tile stopId s
  | .bridgeWrite off v pecOk => Sys2Proof.Machine.execBridgeWrite off v pecOk s
  | .bridgeRead off pecOk => Sys2Proof.Machine.execBridgeRead off pecOk s
  | .bridgeStatus => Sys2Proof.Machine.execBridgeStatus s
  | .hkBridgeTimeout mgmt => Sys2Proof.Machine.execHkBridgeTimeout mgmt s
  | .i3cPrivateWrite bytes => Sys2Proof.Machine.execI3cPrivateWrite bytes s
  | .i3cPrivateRead ready => Sys2Proof.Machine.execI3cPrivateRead ready s
  | .entdaa addr => Sys2Proof.Machine.execEntdaa addr s
  | .mgmtPortAccess off len wr => Sys2Proof.Machine.execMgmtPortAccess off len wr s
  | .counterRead agent v => Sys2Proof.Machine.execCounterRead agent v s
  | .counterReadDone agent => Sys2Proof.Machine.execCounterReadDone agent s
  | .counterWrap block index => Sys2Proof.Machine.execCounterWrap block index s
  | .ctProgWrite tile k v => Sys2Proof.Machine.execCtProgWrite tile k v s
  | .snapshotArm v => Sys2Proof.Machine.execSnapshotArm v s
  | .snapshot block => Sys2Proof.Machine.execSnapshot block s
  | .snapshotDone => Sys2Proof.Machine.execSnapshotDone s
  | .histogramClear tile h v => Sys2Proof.Machine.execHistogramClear tile h v s
  | .captureEnable tile c v => Sys2Proof.Machine.execCaptureEnable tile c v s
  | .captureRecordWrite tile c => Sys2Proof.Machine.execCaptureRecordWrite tile c s
  | .minuteMarkLatch tile => Sys2Proof.Machine.execMinuteMarkLatch tile s
  | .boContribution tile => Sys2Proof.Machine.execBoContribution tile s
  | .boCollectDeadline => Sys2Proof.Machine.execBoCollectDeadline s
  | .eccCorrectable tile => Sys2Proof.Machine.execEccCorrectable tile s
  | .eccUncorrectable tile store => Sys2Proof.Machine.execEccUncorrectable tile store s
  | .eccScrub tile => Sys2Proof.Machine.execEccScrub tile s
  | .injCell tile v => Sys2Proof.Machine.execInjCell tile v s
  | .injTable tile v => Sys2Proof.Machine.execInjTable tile v s
  | .tileLoss tile => Sys2Proof.Machine.execTileLoss tile s
  | .tileRejoin tile => Sys2Proof.Machine.execTileRejoin tile s
  | .serviceLinkLoss tile => Sys2Proof.Machine.execServiceLinkLoss tile s
  | .serviceLinkReturn tile => Sys2Proof.Machine.execServiceLinkReturn tile s
  | .spEnable ch fromSlot => Sys2Proof.Machine.execSpEnable ch fromSlot s
  | .spDisable ch fromSlot => Sys2Proof.Machine.execSpDisable ch fromSlot s
  | .mgrOffSet ch v => Sys2Proof.Machine.execMgrOffSet ch v s
  | .mgrOffClear ch v => Sys2Proof.Machine.execMgrOffClear ch v s
  | .slotPowerTick ch vsense vout vin inLimit => Sys2Proof.Machine.execSlotPowerTick ch vsense vout vin inLimit s
  | .fastTripLatch ch => Sys2Proof.Machine.execFastTripLatch ch s
  | .fastTrip ch => Sys2Proof.Machine.execFastTrip ch s
  | .thermalTrip ch => Sys2Proof.Machine.execThermalTrip ch s
  | .faultTimerTrip ch => Sys2Proof.Machine.execFaultTimerTrip ch s
  | .stoppingGateOff ch => Sys2Proof.Machine.execStoppingGateOff ch s
  | .vinStart ch => Sys2Proof.Machine.execVinStart ch s
  | .vinLowTimeout ch => Sys2Proof.Machine.execVinLowTimeout ch s
  | .powerGood ch => Sys2Proof.Machine.execPowerGood ch s
  | .perstDeassert ch => Sys2Proof.Machine.execPerstDeassert ch s
  | .retryStart ch => Sys2Proof.Machine.execRetryStart ch s
  | .attemptsReset ch => Sys2Proof.Machine.execAttemptsReset ch s
  | .spSeqArm e v => Sys2Proof.Machine.execSpSeqArm e v s
  | .spSeqFire e => Sys2Proof.Machine.execSpSeqFire e s
  | .boot b => Sys2Proof.Machine.execBoot b s
  | .fuseSelect v => Sys2Proof.Machine.execFuseSelect v s
  | .fuseSelectDone => Sys2Proof.Machine.execFuseSelectDone s
  | .fuseBlow via v => Sys2Proof.Machine.execFuseBlow via v s
  | .fuseBlowDone verified => Sys2Proof.Machine.execFuseBlowDone verified s
  | .attReadWord v => Sys2Proof.Machine.execAttReadWord v s
  | .attFormReport v => Sys2Proof.Machine.execAttFormReport v s
  | .attLoadModulus v => Sys2Proof.Machine.execAttLoadModulus v s
  | .attDone => Sys2Proof.Machine.execAttDone s
  | .devkeyReady => Sys2Proof.Machine.execDevkeyReady s
  | .flashRead v => Sys2Proof.Machine.execFlashRead v s
  | .flashProgram v => Sys2Proof.Machine.execFlashProgram v s
  | .flashErase v => Sys2Proof.Machine.execFlashErase v s
  | .flashDone => Sys2Proof.Machine.execFlashDone s
  | .jtagInstruction isPrivate code => Sys2Proof.Machine.execJtagInstruction isPrivate code s
  | .railGood rail => Sys2Proof.Machine.execRailGood rail s
  | .railLost rail => Sys2Proof.Machine.execRailLost rail s
  | .vauxInputLost b => Sys2Proof.Machine.execVauxInputLost b s
  | .vauxLoss => Sys2Proof.Machine.execVauxLoss s
  | .refclkBad b within300ppm => Sys2Proof.Machine.execRefclkBad b within300ppm s
  | .refclkGood b spread => Sys2Proof.Machine.execRefclkGood b spread s
  | .refclkRevert within300ppm => Sys2Proof.Machine.execRefclkRevert within300ppm s
  | .refclkForce v within300ppm => Sys2Proof.Machine.execRefclkForce v within300ppm s
  | .warmReset via v => Sys2Proof.Machine.execWarmReset via v s
  | .coldReset via v => Sys2Proof.Machine.execColdReset via v s
  | .ilulysRestart cause => Sys2Proof.Machine.execIlulysRestart cause s
  | .tileReset via v => Sys2Proof.Machine.execTileReset via v s
  | .keyErr via v => Sys2Proof.Machine.execKeyErr via v s
  | .sysReset => Sys2Proof.Machine.execSysReset s
  | .watchdogExpiry => Sys2Proof.Machine.execWatchdogExpiry s
  | .strapSample vddIoGood addr0 addr1 => Sys2Proof.Machine.execStrapSample vddIoGood addr0 addr1 s
  | .tempSample tile sensors => Sys2Proof.Machine.execTempSample tile sensors s
  | .tileOvertemp tile => Sys2Proof.Machine.execTileOvertemp tile s
  | .ilulysOvertemp => Sys2Proof.Machine.execIlulysOvertemp s
  | .trefClkPresent => Sys2Proof.Machine.execTrefClkPresent s
  | .l0pEntry port width => Sys2Proof.Machine.execL0pEntry port width s
  | .pcieRecoveryDone port link => Sys2Proof.Machine.execPcieRecoveryDone port link s
  | .dllpReceive port kind seq hdr dat => Sys2Proof.Machine.execDllpReceive port kind seq hdr dat s
  | .ptmRequest port => Sys2Proof.Machine.execPtmRequest port s
  | .egressPacketSent port pkt => Sys2Proof.Machine.execEgressPacketSent port pkt s
  | .boIndexSwWrite v => Sys2Proof.Machine.execBoIndexSwWrite v s
  | .corePllRelock tile => Sys2Proof.Machine.execCorePllRelock tile s

end Sys2Proof.Machine
end

