-- ==== Sys2Proof/Safety.lean ====
section
/-! DEFINITION. What the claims about every state rest on: the canonical form of the register file and of the flash. -/

namespace Sys2Proof.Machine

/-- A register file in canonical form on a part: offsets strictly rise, and no entry equals its register's reset value. -/
def regsWf (p : Part) (m : NMap Word) : Bool := twf (regReset p) m

/-- The well-formed states: the live registers, both set copies and the flash are in canonical form, so that equal
contents are equal data. -/
def State.Wf (s : State) : Prop :=
  regsWf s.part s.live = true ∧ regsWf s.part s.set0 = true ∧ regsWf s.part s.set1 = true ∧ s.boot.flash.wf = true

/-- The fuse bits of both copies that are blown in `s` are blown in `t` (R382: a blown bit stays blown). -/
def State.fusesKept (s t : State) : Prop :=
  (∀ i, s.boot.fuseA.getLsbD i = true → t.boot.fuseA.getLsbD i = true) ∧
    ∀ i, s.boot.fuseB.getLsbD i = true → t.boot.fuseB.getLsbD i = true

/-- Every live register word but those at the offsets listed reads in `t` as in `s`. -/
def State.regsKept (s t : State) (l : List Nat) : Prop := ∀ o, o ∉ l → t.lv o = s.lv o

/-- Both set copies are in `t` as in `s`. -/
def State.setsKept (s t : State) : Prop := t.set0 = s.set0 ∧ t.set1 = s.set1

/-! ### Descriptors at the engine (R209 to R214) -/

/-- The state in which the engine checks a descriptor of a seat: the object it needs is its home tile's most recently
used one. -/
def State.descAt (s : State) (seat : Nat) (d : Desc) : State :=
  match descKey d with
  | none => s
  | some (isWin, k) => s.touch isWin (s.descTile seat d) k

/-- A ring of a seat hands the engine a descriptor whose object is cached and has nothing parked for it. -/
def State.servesDesc (s : State) (ring seat : Nat) (d : Desc) : Bool :=
  s.workOwner ring == some seat && s.here (s.descTile seat d) && match descKey d with
    | none => true
    | some (isWin, k) => s.isCached isWin (s.descTile seat d) k && !s.eng.parked.any fun j => j.isWin == isWin && j.key == k

/-- A descriptor that reaches the engine and passes the six checks of R213, its protection unit on. -/
def State.admits (s : State) (ring seat : Nat) (d : Desc) (c : Option CtxInit) : Bool :=
  s.servesDesc ring seat d &&
    let u := s.descAt seat d
    let t := s.descTile seat d
    u.seatCode t seat == none && u.descCode t seat d c == none && !u.puOff t seat && !u.workHeld t d.qpn &&
      ((localRange d).bind fun r => u.puCheck t seat 0 d.localAddr.toNat r.1 r.2).isNone

/-- The work request that an admitted descriptor becomes. -/
def State.wrOf (s : State) (ring seat : Nat) (d : Desc) (c : Option CtxInit) : Wr :=
  (s.descAt seat d).newWr (s.descTile seat d) seat ring d c .held 0

/-- The state with an admitted descriptor's work request held, behind those before it. -/
def State.withWr (s : State) (ring seat : Nat) (d : Desc) (c : Option CtxInit) : State :=
  (s.descAt seat d).addWr (s.wrOf ring seat d c)

/-- The state with that work request started. -/
def State.withStarted (s : State) (ring seat : Nat) (d : Desc) (c : Option CtxInit) : State :=
  (s.withWr ring seat d c).used.modWr (s.wrOf ring seat d c).id fun k =>
    { k with st := .started, slot := (s.withWr ring seat d c).freeSlot (s.wrOf ring seat d c).tile }
/-- That work request as it is when it has started: it holds an outstanding-work index (R216). -/
def State.startedWr (s : State) (ring seat : Nat) (d : Desc) (c : Option CtxInit) : Wr :=
  { s.wrOf ring seat d c with st := .started, slot := (s.withWr ring seat d c).freeSlot (s.wrOf ring seat d c).tile }

/-- An engine packet at its home tile whose window entry or context is cached, with nothing parked for it, and whose
owner is not in blackout (R209, R336). -/
def State.servesPkt (s : State) (h : EngHdr) : Bool :=
  let k := s.pktKey h
  s.here k.2.2 && decide (if k.1 then k.2.1 < 2 ^ s.winN else k.2.1 < 2 ^ s.qpQ) &&
    !((s.objOwner k.1 k.2.1).any fun o => s.seatBlack k.2.2 o) && s.isCached k.1 k.2.2 k.2.1 &&
    !s.eng.parked.any fun j => j.isWin == k.1 && j.key == k.2.1

/-! ### The command unit (R297, R298) -/

/-- A command that a ring hands to an idle command unit, as it starts. -/
def State.taken (s : State) (r : Nat) (c : Cmd) : CmdRun := { id := s.idCtr, ring := r, cmd := c, started := true }
/-- The state in which an idle command unit starts that command. -/
def State.taking (s : State) (r : Nat) (c : Cmd) : State :=
  { s with idCtr := s.idCtr + 1, host := { s.host with cmds := [s.taken r c] } }
/-- The records of the commands that have completed go to their rings. -/
def State.recordsOut (s : State) : State := s.each (s.host.cmds.map (·.id)) State.cmdOut

end Sys2Proof.Machine
end

