-- ==== Sys2Proof/Certificates/Slice0/Obligations.lean ====
section
/-! DEFINITION. The statements for the provers: what the commands do, family by family, and what every step keeps. -/

open Sys2Proof Sys2Proof.Machine

/-- With the Ilulys die out of reset: TREF_CLK_ABSENT and TREF_CLK_PRESENT write only CLK10_PRESENT; a valid PPS_EDGE
becomes the last edge, ends the misses and sets PPS_PRESENT, and leaves both sets and every packet; an invalid one is
only counted as HK event 0 (stray); the first PPS_EDGE_MISSING clears PPS_PRESENT, the second in a row ends Locked for
Holdover; a SYNC_FRAME to a tile with its service link corrects the slave and sets its QUALIFIED exactly when it then
stands within 2 ns of a Locked master. (R25, R26, R29, R34) -/
def Obligations.TimeReferenceEvents : Prop :=
  ∀ s : State, s.ilulysReset = false →
    exec .trefClkAbsent s = .next (s.setFlag tmStatus 4 false) ∧
    exec .trefClkPresent s = .next (s.setFlag tmStatus 4 true) ∧
    (s.pwr.io = true → s.flag tmCtrl 6 = true → s.edgeValid = true →
      ∃ t, exec .ppsEdge s = .next t ∧ t.tm.lastEdge = some s.tm.now ∧ t.tm.misses = 0 ∧ t.flag tmStatus 3 = true ∧
        s.setsKept t ∧ t.pkts = s.pkts) ∧
    (s.pwr.io = true → s.flag tmCtrl 6 = true → s.edgeValid = false → exec .ppsEdge s = .next (s.countHk 0)) ∧
    (s.tm.lastEdge.isSome = true → s.tm.misses = 0 →
      exec .ppsEdgeMissing s =
        .next ((s.modTm fun m => { m with misses := 1, inRow := 0 }).setFlag tmStatus 3 false)) ∧
    (s.tm.lastEdge.isSome = true → s.tm.misses = 1 → s.qualified = true →
      ∃ t, exec .ppsEdgeMissing s = .next t ∧ t.tm.misses = 2 ∧ t.qualified = false ∧ t.flag tmStatus 1 = true ∧
        t.flag tmStatus 3 = false ∧ s.regsKept t [tmStatus] ∧ s.setsKept t) ∧
    ∀ n, s.operates n = true → s.headless n = false →
      ∃ t, exec (.syncFrame n) s = .next t ∧ t.tm.ft = s.tm.ft ∧
        t.flag (slaveStatus n) 8 = (decide ((tget 0 t.tm.slaveOff n).natAbs ≤ 20) && s.qualified) ∧
        s.regsKept t [slaveStatus n] ∧ s.setsKept t ∧ t.pkts = s.pkts

/-- With the Ilulys die out of reset: a TOD_LOAD (bit 3 of the value) with TOD_NOW (bit 4), in no curtain, makes the time
in TM_TOD_* FT at once, leaves no load pending, sets TOD_VALID and STEPPED and changes no register but TM_CTRL and
TM_STATUS; with TOD_NOW 0, or in a curtain, it latches the time of TM_TOD_*, TOD_NOW and whether a curtain was in
progress, leaves FT, and changes no register but TM_CTRL. DEFERRED_TOD_APPLY of a latched load with TOD_NOW 1, the
curtain idle, makes the latched time FT, leaves no load pending and sets TOD_VALID and STEPPED; with no load latched,
with TOD_NOW 0 latched, or in a curtain, it changes nothing. FT_SNAP holds the master FT for the capture and clears
VALID; FT_SNAP_DONE of a capture puts its nanoseconds, its seconds 31:0 and its seconds 47:32 in TM_FT_NS,
TM_FT_SEC_LO and TM_FT_SEC_HI and sets VALID; with no capture it changes nothing. None of them changes a word of
either set. (R28, R34) -/
def Obligations.TimeLoadsAndSnapshots : Prop :=
  ∀ s : State, s.ilulysReset = false →
    (∀ v, bit v 3 = true → bit v 4 = true → s.curtainState = 0 →
      ∃ t, exec (.todLoad v) s = .next t ∧ t.tm.ft = s.ftWords 0x00030018 ∧ t.tm.tod = none ∧ t.flag tmStatus 2 = true ∧
        t.flag tmStatus 11 = true ∧ s.regsKept t [tmCtrl, tmStatus] ∧ s.setsKept t) ∧
    (∀ v, bit v 3 = true → ¬(bit v 4 = true ∧ s.curtainState = 0) →
      ∃ t, exec (.todLoad v) s = .next t ∧ t.tm.ft = s.tm.ft ∧ s.regsKept t [tmCtrl] ∧ s.setsKept t ∧
        t.tm.tod = some { value := s.ftWords 0x00030018, atOnce := bit v 4, deferred := decide (s.curtainState ≠ 0) }) ∧
    (∀ q, s.tm.tod = some q → q.atOnce = true → s.curtainState = 0 →
      ∃ t, exec .deferredTodApply s = .next t ∧ t.tm.ft = q.value ∧ t.tm.tod = none ∧ t.flag tmStatus 2 = true ∧
        t.flag tmStatus 11 = true ∧ s.regsKept t [tmStatus] ∧ s.setsKept t) ∧
    ((∀ q, s.tm.tod = some q → q.atOnce = false ∨ s.curtainState ≠ 0) → exec .deferredTodApply s = .next s) ∧
    (∃ t, exec .ftSnap s = .next t ∧ t.tm = { s.tm with snap := some s.tm.ft } ∧ t.flag 0x00030008 0 = false ∧
      s.regsKept t [0x00030008] ∧ s.setsKept t) ∧
    (∀ n, s.tm.snap = some n →
      ∃ t, exec .ftSnapDone s = .next t ∧ t.tm = { s.tm with snap := none } ∧ t.flag 0x00030008 0 = true ∧
        t.lv 0x00030014 = BitVec.ofNat 32 (n % nsPerSec) ∧ t.lv 0x00030010 = BitVec.ofNat 32 (n / nsPerSec) ∧
        t.lv 0x0003000C = BitVec.ofNat 32 (n / nsPerSec / 2 ^ 32) ∧
        s.regsKept t [0x00030008, 0x0003000C, 0x00030010, 0x00030014] ∧ s.setsKept t) ∧
    (s.tm.snap = none → exec .ftSnapDone s = .next s)

/-- On an open path, for a word that holds set fields, exists now and is not locked by a fuse: with no curtain in progress
and US_READY 1 the write replaces exactly the set bits of that one word of the understudy copy, the consistency check
starts over (not checked), and the lead copy, the packets and the boot state stay; with a curtain in progress or
US_READY 0 the write sets US_WR_DROPPED and changes nothing else. A write of a word that holds no set field, does not
exist now or is locked by a fuse changes nothing, and neither does any write on a path that is not open. (R34, R36,
R38) -/
def Obligations.SetFieldWriteCompletes : Prop :=
  ∀ s : State,
    (∀ via o v, s.viaOpen via = true → setMask o ≠ 0 → s.wordHere o = true → s.locked o = false → s.curtainState = 0 →
      s.flag tmStatus 8 = true → ∃ t, exec (.setFieldWrite via o v) s = .next t ∧
        (∀ i, t.conf (!s.leadEpoch) i =
          if i = o then (s.conf (!s.leadEpoch) o &&& ~~~setMask o) ||| (v &&& setMask o) else s.conf (!s.leadEpoch) i) ∧
        (∀ i, t.conf s.leadEpoch i = s.conf s.leadEpoch i) ∧ t.checkState = 0 ∧ t.pkts = s.pkts ∧ t.boot = s.boot) ∧
    (∀ via o v, s.viaOpen via = true → setMask o ≠ 0 → s.wordHere o = true → s.locked o = false →
      (s.curtainState ≠ 0 ∨ s.flag tmStatus 8 = false) → exec (.setFieldWrite via o v) s = .next (s.sticky tmStatus 9)) ∧
    (∀ via o v, (setMask o = 0 ∨ s.wordHere o = false ∨ s.locked o = true) → exec (.setFieldWrite via o v) s = .next s) ∧
    (∀ via o v, s.viaOpen via = false → exec (.setFieldWrite via o v) s = .next s)

/-- Whatever the path, the offset, the value and the state, a SET_FIELD_WRITE leaves every word of the lead copy, and
which copy leads, as they are: a write to a set field changes only the understudy value. (R35, R36) -/
def Obligations.SetWriteNeverTouchesTheLead : Prop :=
  ∀ (s t : State) via o v, exec (.setFieldWrite via o v) s = .next t →
    t.leadEpoch = s.leadEpoch ∧ ∀ i, t.conf s.leadEpoch i = s.conf s.leadEpoch i

/-- A write of TM_US_RD_ADDR clears VALID; when the read is done VALID is 1 and TM_US_RD_DATA holds the understudy value
of the set fields at the offset; where the offset holds no set field NOT_SET reads 1 and the data is zero. Both sets
and every other register stay. (R37) -/
def Obligations.UnderstudyReadReturnsTheSetValue : Prop :=
  ∀ (s : State) (v : Word), s.ilulysReset = false →
    ∃ t u, exec (.understudyRead v) s = .next t ∧ t.flag 0x00030048 0 = false ∧
      exec .understudyReadDone t = .next u ∧ u.flag 0x00030048 0 = true ∧
      s.regsKept u [0x00030048, 0x0003004C] ∧ s.setsKept u ∧
      (let o := v.toNat % 2 ^ 28 / 4 * 4
       (setMask o ≠ 0 ∧ s.wordHere o = true → u.flag 0x00030048 1 = false ∧
          u.lv 0x0003004C = (s.conf (!s.leadEpoch) o &&& setMask o)) ∧
       (¬(setMask o ≠ 0 ∧ s.wordHere o = true) → u.flag 0x00030048 1 = true ∧ u.lv 0x0003004C = 0))

/-- With the Ilulys die out of reset: TM_CTRL.CHECK outside a curtain starts the check, and its end records a pass or the
first failing code, tile and detail; ARM with no cause of R40 against it begins the arming and sends a prepare to
every present tile, with a cause it records the cause and sets ABORTED (or ARM_REFUSED while a curtain is in progress)
and nothing else; a reachable tile sent a prepare sets PREPARED, loads the time and acknowledges, one sent a commit
sets COMMITTED and acknowledges; the acknowledgements are collected, and complete the phase. (R38, R39, R40, R41) -/
def Obligations.CurtainArmingPhases : Prop :=
  ∀ s : State,
    (s.ilulysReset = false → ∀ v, bit v 0 = true → (s.tmFields v).curtainState = 0 →
      exec (.consistencyCheck v) s = .next ((s.tmFields v).setFld 0x00030040 1 0 1)) ∧
    (s.ilulysReset = false → s.checkState = 1 → s.checkSet (!s.leadEpoch) = none →
      ∃ t, exec .consistencyCheckDone s = .next t ∧ t.fld 0x00030040 1 0 = 2 ∧ s.regsKept t [0x00030040] ∧ s.setsKept t) ∧
    (s.ilulysReset = false → s.checkState = 1 → ∀ code tile d, s.checkSet (!s.leadEpoch) = some (code, tile, d) →
      exec .consistencyCheckDone s =
        .next ((((s.setFld 0x00030040 1 0 3).setFld 0x00030040 15 8 code).setFld 0x00030040 19 16 tile).setLv 0x00030044
          (BitVec.ofNat 32 (d % 2 ^ 24)))) ∧
    (s.ilulysReset = false → ∀ v, bit v 1 = true → (s.tmFields v).armCause = 0 →
      ∃ t, exec (.curtainArm v) s = .next t ∧ t.curtainState = 1 ∧ t.cur.prepSent = (s.tmFields v).present ∧
        t.cur.tc = (s.tmFields v).ftWords 0x00030030 ∧ s.regsKept t [tmCtrl, tmStatus] ∧ s.setsKept t) ∧
    (s.ilulysReset = false → ∀ v k, bit v 1 = true → (s.tmFields v).armCause = k → k ≠ 0 → k ≠ 6 →
      exec (.curtainArm v) s = .next (((s.tmFields v).setFld tmStatus 16 14 k).sticky tmStatus 12)) ∧
    (s.ilulysReset = false → ∀ v, bit v 1 = true → (s.tmFields v).armCause = 6 →
      exec (.curtainArm v) s = .next (((s.tmFields v).setFld tmStatus 16 14 6).sticky tmStatus 17)) ∧
    (s.ilulysReset = false → ∀ n, s.here n = true → s.headless n = false → s.curtainState = 1 → n ∈ s.cur.prepSent →
      exec (.curtainPrepare n) s = .next ((s.setFlag (slaveStatus n) 11 true).modCur fun c => { c with
        tileTc := tset 0 c.tileTc n c.tc, prepSent := c.prepSent.erase n, prepAckSent := c.prepAckSent ++ [n] })) ∧
    (s.ilulysReset = false → ∀ n, n ∈ s.cur.prepAckSent → s.curtainState = 1 → s.cur.commitSent = [] →
      s.cur.commitAckSent = [] → s.cur.commitAcks = [] → (∀ u ∈ s.present, u ∈ s.cur.prepAcks ++ [n]) →
      exec (.curtainPrepareAck n) s = .next (s.modCur fun c => { c with
        prepAckSent := c.prepAckSent.erase n, prepAcks := c.prepAcks ++ [n], commitSent := s.present })) ∧
    (s.ilulysReset = false → ∀ n u, n ∈ s.cur.prepAckSent → u ∈ s.present → u ∉ s.cur.prepAcks ++ [n] →
      exec (.curtainPrepareAck n) s = .next (s.modCur fun c => { c with
        prepAckSent := c.prepAckSent.erase n, prepAcks := c.prepAcks ++ [n] })) ∧
    (s.ilulysReset = false → ∀ n, s.here n = true → s.headless n = false → s.curtainState = 1 → n ∈ s.cur.commitSent →
      exec (.curtainCommit n) s = .next ((s.setFlag (slaveStatus n) 12 true).modCur fun c => { c with
        commitSent := c.commitSent.erase n, commitAckSent := c.commitAckSent ++ [n] })) ∧
    (s.ilulysReset = false → ∀ n, n ∈ s.cur.commitAckSent → s.curtainState = 1 →
      (∀ u ∈ s.present, u ∈ s.cur.commitAcks ++ [n]) →
      exec (.curtainCommitAck n) s = .next ((s.modCur fun c => { c with
        commitAckSent := c.commitAckSent.erase n, commitAcks := c.commitAcks ++ [n] }).setCurtain 2)) ∧
    (s.ilulysReset = false → ∀ n u, n ∈ s.cur.commitAckSent → u ∈ s.present → u ∉ s.cur.commitAcks ++ [n] →
      exec (.curtainCommitAck n) s = .next (s.modCur fun c => { c with
        commitAckSent := c.commitAckSent.erase n, commitAcks := c.commitAcks ++ [n] }))

/-- An ABORT before last call, while arming or armed, clears PREPARED and COMMITTED on every present tile, sets ABORTED,
returns CURTAIN_STATE to idle and leaves both sets; at or after last call, or while draining or copying, it only sets
ABORT_REFUSED; while idle it changes nothing but the RW fields of TM_CTRL that the write carries. (R43) -/
def Obligations.AbortEndsAnArming : Prop :=
  ∀ (s : State) (v : Word), s.ilulysReset = false → bit v 2 = true →
    ((s.curtainState = 1 ∨ s.curtainState = 2) → s.cur.lastCall = false →
      ∃ t, exec (.curtainAbort v) s = .next t ∧ t.curtainState = 0 ∧ t.flag tmStatus 12 = true ∧
        (∀ n ∈ s.present, t.flag (slaveStatus n) 11 = false ∧ t.flag (slaveStatus n) 12 = false) ∧ s.setsKept t ∧
        t.cur.commitSent = [] ∧ t.cur.prepSent = []) ∧
    ((s.curtainState = 3 ∨ (s.curtainState ≠ 0 ∧ s.cur.lastCall = true)) →
      exec (.curtainAbort v) s = .next ((s.tmFields v).sticky tmStatus 13)) ∧
    (s.curtainState = 0 → exec (.curtainAbort v) s = .next (s.tmFields v))

/-- Out of reset, while arming or armed, LAST_CALL first lets the time up to 10 µs before the curtain time pass, if it has
not; if every present tile then holds COMMITTED it only passes last call, and otherwise it ends the arming and sets
ARM_ERR 4. CURTAIN_QUERY of a present headless tile with PREPARED changes nothing when every present tile holds
COMMITTED, and otherwise clears its PREPARED and COMMITTED. CURTAIN_FALL of an operating tile with COMMITTED that does
not yet hold its ingress first lets the time up to that tile's curtain time pass, if it has not; then the tile holds
its ingress, CURTAIN_STATE is draining and US_READY is 0. EPOCH_FLIP of an operating tile that holds its ingress and
has not flipped puts it among the flipped, inverts its stamping epoch and clears its PREPARED and COMMITTED, and only
then the arrivals held there go on. OLD_DRAINED_REPORT of a present flipped tile that has not reported and holds
nothing of the old epoch sets its OLD_DRAINED, puts it among the reported, and then retires the old set if every
present tile has reported. FORCED_RETIREMENT of a set not yet retired, every holding tile flipped or lost, first lets
the time up to 50 µs after the curtain time pass, retires the old set by force, with FORCED set and every present tile
among the reported, and then held arrivals go on. COPY_FORWARD_DONE after the retirement makes both copies equal to
the lead copy, sets US_READY, returns to idle and leaves the packets. (R41, R42, R44, R45, R47) -/
def Obligations.CurtainFallsAndEnds : Prop :=
  ∀ s : State,
    (s.ilulysReset = false → (s.curtainState = 1 ∨ s.curtainState = 2) →
      (s.reach (·.tm.ft) (s.cur.tc - 10000)).armComplete = true →
      exec .lastCall s = .next ((s.reach (·.tm.ft) (s.cur.tc - 10000)).modCur fun c => { c with lastCall := true })) ∧
    (s.ilulysReset = false → (s.curtainState = 1 ∨ s.curtainState = 2) →
      (s.reach (·.tm.ft) (s.cur.tc - 10000)).armComplete = false →
      exec .lastCall s = .next ((s.reach (·.tm.ft) (s.cur.tc - 10000)).abortCurtain.setFld tmStatus 16 14 4)) ∧
    (∀ n, s.here n = true → s.headless n = true → s.flag (slaveStatus n) 11 = true →
      exec (.curtainQuery n) s = .next (if s.armComplete then s
        else (s.setFlag (slaveStatus n) 11 false).setFlag (slaveStatus n) 12 false)) ∧
    (∀ n, s.operates n = true → s.flag (slaveStatus n) 12 = true → n ∉ s.cur.held →
      exec (.curtainFall n) s = .next ((((s.reach (·.tileFt n) (tget 0 s.cur.tileTc n)).setCurtain 3).setFlag tmStatus 8
        false).modCur fun c => { c with held := c.held ++ [n] })) ∧
    (∀ n, s.operates n = true → n ∈ s.cur.held → n ∉ s.cur.flipped →
      ∃ u : State, exec (.epochFlip n) s = .next u.releaseArrivals ∧ n ∈ u.cur.flipped ∧
        u.flag (slaveStatus n) 10 = (!s.tileEpoch n) ∧ u.flag (slaveStatus n) 11 = false ∧
        u.flag (slaveStatus n) 12 = false) ∧
    (∀ n, s.here n = true → n ∈ s.cur.flipped → n ∉ s.cur.drained → s.oldResident n = false →
      exec (.oldDrainedReport n) s = .next
        ((s.setFlag (slaveStatus n) 13 true).modCur fun c => { c with drained := c.drained ++ [n] }).retireIfDrained) ∧
    (s.cur.retired = false → s.cur.flipped ≠ [] → (∀ n ∈ s.cur.held, n ∈ s.cur.flipped ∨ s.operates n = false) →
      ∃ u : State, u = (s.reach (·.tm.ft) (s.cur.tc + 50000)).forceRetire (!s.leadEpoch) ∧
        exec .forcedRetirement s = .next u.releaseArrivals ∧ u.cur.retired = true ∧ u.cur.drained = u.present ∧
        u.flag tmStatus 10 = true) ∧
    (s.cur.retired = true → ∃ t, exec .copyForwardDone s = .next t ∧ t.set0 = s.copyOf s.leadEpoch ∧
      t.set1 = s.copyOf s.leadEpoch ∧ t.curtainState = 0 ∧ t.flag tmStatus 8 = true ∧ t.cur.retired = false ∧
      t.pkts = s.pkts)

/-- PARTNER_DETECTED of a port that may train, in Detect, with EI_HOLD of its first lane 0, takes it to Polling and leaves
both sets and every packet; of any other port it changes nothing. LINK_UP_2G5 of a port in Polling that may train and
whose partner runs its mode takes the lanes' polarity, reversal and skews, excludes the held and the lost lanes, and
takes the widest width of good lanes from logical lane 0 within the partner's and the configured width (x1 where
REV_DISABLE meets reversal): with no such width, with a lost lane and DEGRADE_EN 0, or on VFL below x4, the port is
back in Detect; otherwise its lanes link at 2.5 GT/s and it trains on, a PCI Express port recording width and rate,
advertising its credits and going link-active. A partner of the other mode changes nothing. VFL_CONFIRM_TIMEOUT of a
VFL port in Polling returns it to Detect, idle, and counts PB_MODE_MISMATCH. EQUALISATION_PHASE_DONE at the lane's
next rate writes whether the set read at the start was used (asked for, valid, within limits, on target), puts the
converged set in force, saves it where EQ asks, and changes no other register than LANE_STATUS; at another rate it
changes nothing. SPEED_CHANGE_DONE of a training port that is not held, its used lanes equalised to the new rate, puts
that rate and the flit mode in PB_PORT_STATUS, ends the training, and then takes the measured skews. (R54, R55, R56,
R57, R58, R59) -/
def Obligations.LaneTrainingSteps : Prop :=
  ∀ s : State,
    (∀ port, s.mayTrain port = true → (s.portSt port).train = 0 → s.flag (laneCtrl port) 5 = false →
      ∃ t, exec (.partnerDetected port) s = .next t ∧ (t.portSt port).train = 1 ∧ s.setsKept t ∧ t.pkts = s.pkts) ∧
    (∀ port, (s.mayTrain port = false ∨ (s.portSt port).train ≠ 0 ∨ s.flag (laneCtrl port) 5 = true) →
      exec (.partnerDetected port) s = .next s) ∧
    (∀ port width rev pol sk pv, s.mayTrain port = true → (s.portSt port).train = 1 →
      s.isVfl (s.tileEpoch (tileOf port)) port = pv →
      let noRev := rev && s.cflag (s.tileEpoch (tileOf port)) (portCfg port) 9
      let r := s.lanesUp port (rev && !noRev) pol sk
      let top := if noRev then 1 else min width (r.cfld (s.tileEpoch (tileOf port)) (portCfg port) 4 2)
      let lanes := r.logical port
      let held := fun l => r.flag (laneCtrl l) 5
      let bad := fun l => (r.laneSt l).bad
      let w := goodWidth lanes (fun l => !held l && !bad l) top
      let x := r.each lanes fun u l => if held l || bad l then u.setFlag (laneStatus l) 10 true else u
      let v := ((x.lanesLink (lanes.take (widthLanes w))).modPort port fun k =>
        { k with train := 2, trainWidth := w }).setEi lanes
      let no := w = 0 ∨ ((lanes.take (widthLanes top)).any bad = true ∧ x.flag (phyCfg port) 18 = false) ∨
        (x.isVfl (s.tileEpoch (tileOf port)) port = true ∧ w < 3)
      (no → exec (.linkUp2g5 port width rev pol sk pv) s = .next (x.modPort port fun _ => {})) ∧
      (¬no → v.isVfl (s.tileEpoch (tileOf port)) port = true →
        exec (.linkUp2g5 port width rev pol sk pv) s = .next v) ∧
      (¬no → v.isVfl (s.tileEpoch (tileOf port)) port = false → exec (.linkUp2g5 port width rev pol sk pv) s =
        .next ((((v.setFld (portStatus port) 3 1 w).setFld (portStatus port) 6 4 0).advertise port).linkActive port))) ∧
    (∀ port width rev pol sk pv, s.isVfl (s.tileEpoch (tileOf port)) port ≠ pv →
      exec (.linkUp2g5 port width rev pol sk pv) s = .next s) ∧
    (∀ port, s.laneHere port = true → s.isVfl (s.tileEpoch (tileOf port)) port = true → (s.portSt port).train = 1 →
      exec (.vflConfirmTimeout port) s = .next
        (((s.modPort port fun _ => {}).setEi (s.lanesOf port)).count (tileOf port) .pbModeMismatch (some port))) ∧
    (∀ lane rate lim ok conv, s.laneHere lane = true → s.eqTurn lane rate = true →
      let k := s.laneSt lane
      let new := mkSet conv.toNat rate (s.fld (eqCtrl lane) 15 8)
      ∃ t, exec (.equalisationPhaseDone lane rate lim ok conv) s = .next t ∧ (t.laneSt lane).inForce = new ∧
        t.flag (laneStatus lane) 12 = (k.eqUse && setValid (tget 0 k.eqSaved rate) rate k.eqTag && lim && ok) ∧
        tget 0 (t.laneSt lane).saved rate = (if s.flag (eqCtrl lane) 1 then new else tget 0 k.saved rate) ∧
        s.regsKept t [laneStatus lane] ∧ s.setsKept t ∧ t.pkts = s.pkts) ∧
    (∀ lane rate lim ok conv, s.eqTurn lane rate = false → exec (.equalisationPhaseDone lane rate lim ok conv) s = .next s) ∧
    (∀ port partner flit skews, s.laneHere port = true → 2 ≤ (s.portSt port).train → s.linkHeld port = false →
      let e := s.tileEpoch (tileOf port)
      let vfl := s.isVfl e port
      let fm := !vfl && s.cflag e (portCfg port) 8 && flit
      let top := min (s.rateCap port) partner
      let rate := if vfl then (if 5 ≤ top then 5 else 4) else if fm then top else min 4 top
      let lanes := (s.logical port).take (widthLanes
        (if vfl then (s.portSt port).trainWidth else s.fld (portStatus port) 3 1))
      s.eqReached lanes rate = true →
      ∃ u : State, exec (.speedChangeDone port ⟨partner, flit⟩ skews) s = .next (u.skewIn (lanes.zip skews)) ∧
        (u.portSt port).train = 3 ∧ u.fld (portStatus port) 6 4 = rate ∧ u.flag (portStatus port) 7 = fm ∧
        s.setsKept u ∧ u.pkts = s.pkts)

/-- On a port whose transmitter may idle, L0S_ENTRY below 64 GT/s with L0s enabled sets L0S, and L1_ENTRY with L1 enabled
or asked for by PCI-PM sets L1, clears L0S and powers down the quads that are all idle; L0P_ENTRY of an operating,
active PCI Express port in flit mode, to a width narrower than its own and not zero, sets L0P and that width;
LINK_POWER_EXIT of an operating port that is in L0s, L1 or L0p powers its quads up, clears the three bits and the L0p
width. Each then shows in IN_EI which of the port's transmitters are idle; where its condition does not hold it
changes nothing. An exit detected above 175 mV clears LOS of the lane and, on a port in L1, acts as LINK_POWER_EXIT of
that port; below 65 mV nothing is detected, and between the two a free value decides; each detection takes one free
value. (R60, R61, R62, R84, R85) -/
def Obligations.LinkPowerStates : Prop :=
  ∀ s : State,
    (∀ port, s.txIdle port = true → s.fld (portStatus port) 6 4 < 5 → s.aspm port % 2 = 1 →
      exec (.l0sEntry port) s = .next ((s.setFlag (portStatus port) 8 true).setEi (s.lanesOf port))) ∧
    (∀ port, (s.txIdle port = false ∨ 5 ≤ s.fld (portStatus port) 6 4 ∨ s.aspm port % 2 = 0) →
      exec (.l0sEntry port) s = .next s) ∧
    (∀ port pm, s.txIdle port = true → (pm = true ∨ s.aspm port / 2 % 2 = 1) → exec (.l1Entry port pm) s =
      .next ((((s.setFlag (portStatus port) 9 true).setFlag (portStatus port) 8 false).pllDown port).setEi (s.lanesOf port))) ∧
    (∀ port pm, (s.txIdle port = false ∨ (pm = false ∧ s.aspm port / 2 % 2 = 0)) → exec (.l1Entry port pm) s = .next s) ∧
    (∀ port, s.operates (tileOf port) = true → s.fld (portStatus port) 10 8 ≠ 0 → exec (.linkPowerExit port) s =
      .next ((((s.pllUp port).setFld (portStatus port) 10 8 0).modPort port fun k => { k with l0pWidth := 0 }).setEi
        (s.lanesOf port))) ∧
    (∀ port, (s.operates (tileOf port) = false ∨ s.fld (portStatus port) 10 8 = 0) → exec (.linkPowerExit port) s = .next s) ∧
    (∀ port width, s.operates (tileOf port) = true → s.dlActive port = true → s.flag (portStatus port) 7 = true →
      s.vflNow port = false → 1 ≤ width → width < s.fld (portStatus port) 3 1 → exec (.l0pEntry port width) s =
      .next (((s.setFlag (portStatus port) 10 true).modPort port fun k => { k with l0pWidth := width }).setEi
        (s.lanesOf port))) ∧
    (∀ port width, (s.operates (tileOf port) = false ∨ s.dlActive port = false ∨ s.flag (portStatus port) 7 = false ∨
      s.vflNow port = true ∨ width = 0 ∨ s.fld (portStatus port) 3 1 ≤ width) → exec (.l0pEntry port width) s = .next s) ∧
    (∀ lane mv, s.laneHere lane = true → (175 < mv ∨ (65 ≤ mv ∧ s.freeBelow 2 = 1)) →
      let u := s.used.setFlag (laneStatus lane) 5 false
      (∀ p, u.portOfLane lane = some p → u.flag (portStatus p) 9 = true →
        exec (.eiExitDetect lane mv) s = exec (.linkPowerExit p) u) ∧
      ((∀ p, u.portOfLane lane = some p → u.flag (portStatus p) 9 = false) →
        exec (.eiExitDetect lane mv) s = .next u)) ∧
    (∀ lane mv, s.laneHere lane = true → mv ≤ 175 → (mv < 65 ∨ s.freeBelow 2 ≠ 1) →
      exec (.eiExitDetect lane mv) s = .next s.used)

/-- LOS_DETECT of a lane whose LOS detector is enabled and that is expected to carry traffic, with no EIOS, below its LOS
threshold for at least its LOS time, sets LOS and its sticky bit and counts PB_LOS; LANE_LOL of a lane whose LOL
detector is enabled clears its lock, sets its sticky bit and counts PB_LOL; after either the lane is lost to its port,
or, in a pattern mode, its checker unlocks. LOS_DETECT of an expected EIOS, or of a lane that is not expected to carry
traffic, changes nothing. QUAD_PLL_LOL of an operating quad not powered down clears its lock, sets the sticky bit,
counts PB_QUAD_LOL, idles its four lanes, and then each port of theirs that has a linked width retrains.
QUAD_PLL_RELOCK, with the reference clock there, of an operating unlocked quad not powered down locks it, leaves both
sets, the ports and the packets. A VFL_MARKER with the right SYNC and CHECK on a lane of a VFL port records its SEQ,
its time and whether the lane is swapped, and then the lanes are aligned; one with another SYNC or CHECK changes
nothing. MARKER_LOSS of a linked VFL port's lane not in a pattern mode forgets the marker and loses the lane.
EI_HOLD_RELEASE of a held lane writes LANE_CTRL with EI_HOLD 0, clears EXCLUDED, and shows in IN_EI whether the lane
is idle now. (R62, R63, R64, R65, R66, R67) -/
def Obligations.LaneFaultsAndHolds : Prop :=
  ∀ s : State,
    (∀ lane mv ns, s.laneHere lane = true → s.flag (laneCtrl lane) 3 = true → s.expected lane = true → mv < s.losMv lane →
      s.losTime lane ≤ ns →
      let u := ((s.setFlag (laneStatus lane) 5 true).sticky (laneStatus lane) 6).count (tileOf lane) .pbLos (some lane)
      exec (.losDetect ⟨lane, mv, ns, false⟩) s = .next (if u.inPattern lane then u.unlock lane else u.laneLost lane)) ∧
    (∀ lane mv ns eios, (eios = true ∨ s.expected lane = false) → exec (.losDetect ⟨lane, mv, ns, eios⟩) s = .next s) ∧
    (∀ lane, s.laneHere lane = true → s.flag (laneCtrl lane) 4 = true →
      let u := ((s.setFlag (laneStatus lane) 4 false).sticky (laneStatus lane) 7).count (tileOf lane) .pbLol (some lane)
      exec (.laneLol lane) s = .next (if u.inPattern lane then u.unlock lane else u.laneLost lane)) ∧
    (∀ q, q < 256 → s.operates (tileOf (4 * q)) = true → s.flag (quadStatus q) 2 = false →
      let ls := (List.range 4).map (4 * q + ·)
      let w := ((s.setFlag (quadStatus q) 0 false).sticky (quadStatus q) 1).count (tileOf (4 * q)) .pbQuadLol (some (4 * q))
      let u := (w.modLane (4 * q) fun k => { k with pllLost := true }).setEi ls
      exec (.quadPllLol q) s = .next (u.each (ls.filterMap fun l => u.portOfLane l).eraseDups fun v p =>
        if v.fld (portStatus p) 3 1 = 0 then v else v.startRetrain p)) ∧
    (∀ q, q < 256 → s.flag 0x00020808 5 = false → s.operates (tileOf (4 * q)) = true → s.flag (quadStatus q) 0 = false →
      s.flag (quadStatus q) 2 = false →
      ∃ t, exec (.quadPllRelock q) s = .next t ∧ t.flag (quadStatus q) 0 = true ∧ t.pkts = s.pkts ∧ t.ports = s.ports ∧
        s.setsKept t) ∧
    (∀ lane m p, s.laneHere lane = true → m.toNat / 2 ^ 48 % 65536 = (crc16 (leBytes 6 m.toNat)).toNat →
      m.toNat % 2 ^ 32 = 0x4B1DE2A7 → s.portOfLane lane = some p → s.isVfl (s.tileEpoch (tileOf p)) p = true →
      exec (.vflMarker lane m) s = .next (((s.modLane lane fun k =>
        { k with marker := some (m.toNat / 2 ^ 40 % 256), markAt := s.tm.now }).setFlag (laneStatus lane) 9
          (decide (m.toNat / 2 ^ 32 % 256 ≠ lane - p))).align p)) ∧
    (∀ lane m, (m.toNat / 2 ^ 48 % 65536 ≠ (crc16 (leBytes 6 m.toNat)).toNat ∨ m.toNat % 2 ^ 32 ≠ 0x4B1DE2A7) →
      exec (.vflMarker lane m) s = .next s) ∧
    (∀ lane p, s.laneHere lane = true → s.portOfLane lane = some p → s.vflNow p = true → s.inPattern lane = false →
      exec (.markerLoss lane) s = .next ((s.modLane lane fun k => { k with marker := none }).laneLost lane)) ∧
    (∀ lane v, s.laneHere lane = true → s.flag (laneCtrl lane) 5 = true →
      let u := (s.advanceCounts lane).plainWrite (laneCtrl lane) (putBit v 5 false)
      exec (.eiHoldRelease lane v) s = .next (((u.setFlag (laneStatus lane) 10 false).setEi [lane]).genChange s lane))

/-- On a lane of a present tile a write of LANE_TEST_CTRL that enters a pattern mode (PATTERN_MODE_ENTER), one with
PATTERN 0 (PATTERN_MODE_EXIT), one with INJECT_ONE 1 (INJECT_ONE) and one with CNT_CLEAR 1 (CNT_CLEAR) act as a write
of LANE_TEST_CTRL with that value. CHECKER_LOCK of a lane in a pattern mode with its checker enabled sets CHK_LOCKED,
and of one that is not, changes nothing; CHECKER_UNLOCK of a locked lane takes the counts up to now and clears
CHK_LOCKED, and of an unlocked lane changes nothing. LANE_MBX_READ and LANE_MBX_WRITE latch the lane, the item and the
direction and clear VALID. LANE_MBX_DONE sets VALID and leaves both sets and every packet; a write of items 3 to 6
becomes the saved set of that item's rate, and a read of an item other than 0 puts the item's value in the two data
words. (R67, R68, R69, R70, R71, R72) -/
def Obligations.LaneTestHardware : Prop :=
  ∀ s : State,
    (∀ lane v, s.laneHere lane = true → exec (.patternModeEnter lane v) s = .next (s.testAct lane v)) ∧
    (∀ lane v, s.laneHere lane = true → exec (.patternModeExit lane v) s = .next (s.testAct lane (putField v 3 0 0))) ∧
    (∀ lane v, s.laneHere lane = true → exec (.injectOne lane v) s = .next (s.testAct lane (putBit v 7 true))) ∧
    (∀ lane v, s.laneHere lane = true → exec (.cntClear lane v) s = .next (s.testAct lane (putBit v 14 true))) ∧
    (∀ lane, s.laneHere lane = true → s.inPattern lane = true → s.flag (testCtrl lane) 5 = true →
      exec (.checkerLock lane) s = .next (s.setFlag (testCtrl lane) 6 true)) ∧
    (∀ lane, (s.inPattern lane = false ∨ s.flag (testCtrl lane) 5 = false) → exec (.checkerLock lane) s = .next s) ∧
    (∀ lane, s.laneHere lane = true → s.flag (testCtrl lane) 6 = true →
      exec (.checkerUnlock lane) s = .next ((s.advanceCounts lane).setFlag (testCtrl lane) 6 false)) ∧
    (∀ lane, s.flag (testCtrl lane) 6 = false → exec (.checkerUnlock lane) s = .next s) ∧
    (∀ agent pb v, pb < 64 → s.here (pb / 8) = true →
      exec (.laneMbxRead agent pb v) s = .next (s.setLv (laneSel agent pb) (putBit v 16 false &&& 0x10F0F#32))) ∧
    (∀ agent pb v, pb < 64 → s.here (pb / 8) = true →
      exec (.laneMbxWrite agent pb v) s = .next (s.setLv (laneSel agent pb) (putBit v 16 true &&& 0x10F0F#32))) ∧
    (∀ agent pb, pb < 64 → s.here (pb / 8) = true →
      let v := s.lv (laneSel agent pb)
      let lane := 16 * pb + field v 3 0
      ∃ t, exec (.laneMbxDone agent pb) s = .next t ∧ t.flag (laneSel agent pb) 31 = true ∧ s.setsKept t ∧
        t.pkts = s.pkts ∧
        (bit v 16 = true → 3 ≤ field v 11 8 → field v 11 8 ≤ 6 →
          tget 0 (t.laneSt lane).saved (field v 11 8 - 1) =
            (s.lv (laneSel agent pb + 4)).toNat + (s.lv (laneSel agent pb + 8)).toNat * 2 ^ 32) ∧
        (bit v 16 = false → field v 11 8 ≠ 0 →
          t.lv (laneSel agent pb + 4) = BitVec.ofNat 32 (s.laneItem lane (field v 11 8)) ∧
          t.lv (laneSel agent pb + 8) = BitVec.ofNat 32 (s.laneItem lane (field v 11 8) / 2 ^ 32)))

/-- A REPLAY_NUM roll-over of an active PCI Express port is counted in its run and starts a Recovery; when DOWN_AFTER is
not 0 and the run reaches it, the port also sets its sticky bit, counts PB_REPLAY_DOWN, logs the error for its owner
and goes link-down. PCIE_LINK_DOWN takes an active port down. PCIE_RECOVERY_DONE of a recovering port with no width of
good lanes, or with a lost lane and DEGRADE_EN 0, takes it down; otherwise it relinks at the widest good width, ends
the Recovery, sends the unacknowledged TLPs again if a roll-over asked for it, and takes the measured skews. A DPC
trigger by any cause, through an enabled virtual port that presents DPC: if it is local and its partition owns the
slot of an operating port not in DPC, the cause is recorded in DPC Status and the port is in DPC; where a holder had
it blacked out already nothing more happens, and otherwise it enters blackout; through a virtual port of another kind
the cause is recorded and the traffic of the partition with that port alone ends. Clearing the trigger status of an
owned local port clears DPC Status and DPC, unless the manager holds the port, which then stays in DPC; of any other
enabled virtual port it clears DPC Status. (R64, R82, R83, R84, R86, R87) -/
def Obligations.PciExpressLinkEvents : Prop :=
  ∀ s : State,
    (∀ port, s.pcieUp port = true → (s.downAfter port = 0 ∨ (s.portSt port).rolls + 1 < s.downAfter port) →
      exec (.replayNumRollover port) s =
        .next (s.modPort port fun k => { k with rolls := (s.portSt port).rolls + 1, recovering := true })) ∧
    (∀ port, s.pcieUp port = true → s.downAfter port ≠ 0 → s.downAfter port ≤ (s.portSt port).rolls + 1 →
      let u := s.modPort port fun k => { k with rolls := (s.portSt port).rolls + 1, recovering := true }
      exec (.replayNumRollover port) s = .next (State.portDown
        (((u.sticky (portStatus port) 14).count (tileOf port) .pbReplayDown (some port)).ownerAer port .replayRollover)
        port .portDown)) ∧
    (∀ port, s.pcieUp port = true → exec (.pcieLinkDown port) s = .next (s.portDown port .portDown)) ∧
    (∀ port gl sk, s.operates (tileOf port) = true → s.dlActive port = true → s.vflNow port = false →
      (s.portSt port).recovering = true →
      let lanes := s.logical port
      let good := fun l => gl.contains (l - port) && !s.flag (laneCtrl l) 5 && !s.flag (laneStatus l) 10
      let lost := (lanes.take (widthLanes (s.fld (portStatus port) 3 1))).any fun l => !gl.contains (l - port)
      let w := goodWidth lanes good (s.cfld (s.tileEpoch (tileOf port)) (portCfg port) 4 2)
      let no := w = 0 ∨ (lost = true ∧ s.flag (phyCfg port) 18 = false)
      let r := ((s.relink port w good).modPort port fun k => { k with recovering := false }).setEi lanes
      let u := if (s.portSt port).rolls = 0 then r
        else r.each (s.portSt port).unacked fun v x => v.emit (.tlp port x.2 (v.ecrcOut x.2.epoch port))
      (no → exec (.pcieRecoveryDone port ⟨gl, sk⟩) s = .next (s.portDown port .portDown)) ∧
      (¬no → exec (.pcieRecoveryDone port ⟨gl, sk⟩) s = .next (u.skewIn ((lanes.take (widthLanes w)).zip sk)))) ∧
    (∀ p d cause, s.partEn s.leadEpoch p = true → s.vdpEn s.leadEpoch p d = true → s.vdpDpc s.leadEpoch p d = true →
      let port := s.vdpPort s.leadEpoch p d
      let r : Nat × Nat := match cause with
        | .software => (3, 1)
        | .uncorrectable => (0, 0)
        | .errNonfatalMsg => (1, 0)
        | .errFatalMsg => (2, 0)
      let m := s.setDpc p d r.1 r.2
      let u : State := { m with cont := { m.cont with dpc := tset false m.cont.dpc port true } }
      let w := u.portEnter port r.1 r.2
      (s.vdpLocal s.leadEpoch p d = true → s.slotOwner s.leadEpoch port = p → s.operates (tileOf port) = true →
        tget false s.cont.dpc port = false → exec (.dpcTrigger p d cause) s = .next (if s.portBlack port then u
          else (w.each w.present fun x n => x.portDark n port).darkRecords 0 port true 1 (tileOf port) (tileOf port))) ∧
      ((s.vdpLocal s.leadEpoch p d = false ∨ s.slotOwner s.leadEpoch port ≠ p) →
        exec (.dpcTrigger p d cause) s = .next (m.dpcPair s.leadEpoch p d))) ∧
    (∀ p d, s.partEn s.leadEpoch p = true → s.vdpEn s.leadEpoch p d = true →
      let port := s.vdpPort s.leadEpoch p d
      let m := s.modVport p d fun v => { v with dpcStatus := false, dpcReason := 0, dpcExt := 0 }
      let u : State := { m with cont := { m.cont with dpc := tset false m.cont.dpc port false } }
      (s.vdpLocal s.leadEpoch p d = true → s.slotOwner s.leadEpoch port = p → s.mgrHolds (tileOf port) 0 port = false →
        exec (.dpcTriggerStatusClear p d) s =
          .next (if s.portBlack port then u.darkRecords 0 port false 1 (tileOf port) (tileOf port) else u)) ∧
      (s.vdpLocal s.leadEpoch p d = true → s.slotOwner s.leadEpoch port = p → s.mgrHolds (tileOf port) 0 port = true →
        exec (.dpcTriggerStatusClear p d) s =
          .next { s with cont := { s.cont with dpc := tset false s.cont.dpc port true } }) ∧
      ((s.vdpLocal s.leadEpoch p d = false ∨ s.slotOwner s.leadEpoch port ≠ p) →
        exec (.dpcTriggerStatusClear p d) s = .next m))

/-- SLOT_POWER_ON of a slot with a slot-power channel that Power Controller Control has off turns it on and sends the
slot's enable command, and SLOT_POWER_OFF of one that it has on turns it off and sends the disable command; of a slot
that already is so, or has no channel, they change nothing. SLOT_INDICATOR_WRITE stores the attention and the power
indicator that the slot has and sends the indicator command; of a slot that has neither it changes nothing. Where the
virtual port has no slot none of the three does anything. COMMAND_COMPLETED of a waiting slot ends the wait and sets
Command Completed, and of any other changes nothing. SLOT_SIDEBAND_MESSAGE to an operating tile with its service link
and the Ilulys die up delivers the first signal that waits for the slot. PRESENCE_SAMPLE of an enabled port with a
slot whose presence is not taken in-band, differing from the last sample, and ATTENTION_BUTTON of an enabled port with
a slot that has the button, with the Ilulys die and VDD_IO up, send their signal to the tile; a sample equal to the
last changes nothing. (R89, R90, R91, R306) -/
def Obligations.HotPlugSlots : Prop :=
  ∀ s : State,
    (∀ p d port, s.slotAt p d = some port → (s.slotChan port).isSome = true → (s.slotSt port).off = true →
      exec (.slotPowerOn p d) s = .next ((s.modSlot port fun k => { k with off := false }).slotCommand port 1)) ∧
    (∀ p d port, s.slotAt p d = some port → (s.slotChan port).isSome = true → (s.slotSt port).off = false →
      exec (.slotPowerOff p d) s = .next ((s.modSlot port fun k => { k with off := true }).slotCommand port 0)) ∧
    (∀ p d port, s.slotAt p d = some port → ((s.slotChan port).isSome = false ∨ (s.slotSt port).off = false) →
      exec (.slotPowerOn p d) s = .next s) ∧
    (∀ p d port, s.slotAt p d = some port → ((s.slotChan port).isSome = false ∨ (s.slotSt port).off = true) →
      exec (.slotPowerOff p d) s = .next s) ∧
    (∀ p d port a w, s.slotAt p d = some port →
      let hasA := s.cflag s.leadEpoch (slotCfg port) 10
      let hasP := s.cflag s.leadEpoch (slotCfg port) 11
      ((hasA = true ∨ hasP = true) → exec (.slotIndicatorWrite p d a w) s =
        .next ((s.modSlot port fun k => { k with attn := if hasA then a % 4 else k.attn,
                                                 pwr := if hasP then w % 4 else k.pwr }).slotCommand port 2)) ∧
      (hasA = false → hasP = false → exec (.slotIndicatorWrite p d a w) s = .next s)) ∧
    (∀ p d a w, s.slotAt p d = none → exec (.slotPowerOn p d) s = .next s ∧ exec (.slotPowerOff p d) s = .next s ∧
      exec (.slotIndicatorWrite p d a w) s = .next s) ∧
    (∀ port, (s.slotSt port).waiting = true →
      exec (.commandCompleted port) s = .next (s.modSlot port fun k => { k with waiting := false, cmdDone := true })) ∧
    (∀ port, (s.slotSt port).waiting = false → exec (.commandCompleted port) s = .next s) ∧
    (∀ port c cs, s.operates (tileOf port) = true → s.headless (tileOf port) = false → s.ilulysReset = false →
      tget [] s.host.sideband port = c :: cs → exec (.slotSidebandMessage port) s =
        .next (State.slotSignal { s with host := { s.host with sideband := tset [] s.host.sideband port cs } } port c)) ∧
    (∀ port b, s.ilulysReset = false → s.pwr.io = true → s.portEn s.leadEpoch port = true →
      s.cflag s.leadEpoch (slotCfg port) 0 = true → s.cflag s.leadEpoch (slotCfg port) 13 = false →
      (s.slotSt port).sampled ≠ b → exec (.presenceSample port b) s =
        .next ((s.modSlot port fun k => { k with sampled := b }).sendSide port (b2n b))) ∧
    (∀ port b, (s.slotSt port).sampled = b → exec (.presenceSample port b) s = .next s) ∧
    (∀ port, s.ilulysReset = false → s.pwr.io = true → s.portEn s.leadEpoch port = true →
      s.cflag s.leadEpoch (slotCfg port) 0 = true → s.cflag s.leadEpoch (slotCfg port) 9 = true →
      exec (.attentionButton port) s = .next (s.sendSide port 2))

/-- In the INIT phase INIT_SEND records the remap mode in LK_STATUS, notes that an INIT was sent, and sends an INIT flit
with PROTO 1, the count of VCs, whether an INIT was received, the fabric ID and the receive buffers of VC0 to VC7.
INIT_RECEIVE with PROTO 1 and another count of VCs sets INIT_ERR, counts LK_INIT_MISMATCH and returns the port to
Detect, held down; with the same count and RX_SEEN 0 it only notes that an INIT was received; with RX_SEEN 1 it
records the peer in LK_PEER and makes the link up and active, and leaves both sets and every packet; with another
PROTO, or outside the INIT phase, it changes nothing. INIT_TIMEOUT in the INIT phase, after a first INIT was sent,
returns the port to Detect; INIT_MISMATCH_RETRY of a port held down lets it train. VFL_LINK_DOWN takes an active VFL
port down. ROUTE_HOP_RESTORE at a tile that the port's tile is in service with, of a port that is up, sets the port's
next hops live again. (R94, R95, R96, R99, R113, R166) -/
def Obligations.VflInitialisation : Prop :=
  ∀ s : State,
    (∀ port, s.initPhase port = true →
      let e := s.tileEpoch (tileOf port)
      let n := s.cfgVcs e port
      let u := (s.setFld (lkStatus port) 7 6 (s.cfld e (lkReg port 0) 1 0)).modLink (.port port) fun k =>
        { k with initSent := true }
      exec (.initSend port) s = .next (u.emit (.linkFlit (.port port) (flitWords { ftype := 3 } (initChunks n
        (u.linkSt (.port port)).seenInit (fidOf (u.switchNum e) port) ((List.range 8).map fun v => u.divided port n v)) false)
          0))) ∧
    (∀ port n rx fid bufs, s.initPhase port = true → n ≠ s.cfgVcs (s.tileEpoch (tileOf port)) port →
      exec (.initReceive port 1 n rx fid bufs) s =
        .next (((s.sticky (lkStatus port) 4).countLink (.port port) .lkInitMismatch).toDetect port true)) ∧
    (∀ port fid bufs, s.initPhase port = true →
      exec (.initReceive port 1 (s.cfgVcs (s.tileEpoch (tileOf port)) port) false fid bufs) s =
        .next (s.modLink (.port port) fun k => { k with seenInit := true })) ∧
    (∀ port fid bufs, s.initPhase port = true →
      ∃ t, exec (.initReceive port 1 (s.cfgVcs (s.tileEpoch (tileOf port)) port) true fid bufs) s = .next t ∧
        (t.linkSt (.port port)).peer = some fid ∧ (t.linkSt (.port port)).seenInit = true ∧
        t.flag (portStatus port) 0 = true ∧ t.flag (lkStatus port) 0 = true ∧
        t.lv (lkReg port 0x1C) = BitVec.ofNat 32 (fid % 65536 + 65536) ∧ s.setsKept t ∧ t.pkts = s.pkts) ∧
    (∀ port proto n rx fid bufs, (proto ≠ 1 ∨ s.initPhase port = false) →
      exec (.initReceive port proto n rx fid bufs) s = .next s) ∧
    (∀ port, s.initPhase port = true → (s.linkSt (.port port)).initSent = true →
      exec (.initTimeout port) s = .next (s.toDetect port false)) ∧
    (∀ port, (s.linkSt (.port port)).hold = true →
      exec (.initMismatchRetry port) s = .next (s.modLink (.port port) fun k => { k with hold := false })) ∧
    (∀ port, s.operates (tileOf port) = true → s.isVfl (s.tileEpoch (tileOf port)) port = true → s.dlActive port = true →
      exec (.vflLinkDown port) s = .next (s.portDown port .vflDown)) ∧
    (∀ n port, s.sees n (tileOf port) = true → s.portUp port = true → exec (.routeHopRestore n port) s = .next (s.setHops n port true))

/-- FLIT_RECEIVE on a link that listens counts the symbols corrected, and on a crossing the wires that erred; then a flit
with an uncorrectable codeword or a bad CRC is only counted in LK_CRC_ERR, one of a reserved type only in
LK_BAD_FTYPE; on a link that is up any other has its acknowledgement, its credit count, and then the counts of an ACK
flit or the payload of a DATA flit taken, in that order; before link-up it is taken as an INIT flit. A link that does
not listen takes nothing. PACKET_ITEM_ACCEPT takes the first item whose class is not held back out of the receive
buffer, frees its blocks and moves it on; with no such item it changes nothing. An acknowledgement that is owed goes
out with a waiting DATA flit that may be sent, and otherwise in an ACK flit. A replay time-out with flits outstanding
is counted, and resends them; the fourth in a row retrains the link instead, and after three such retrains takes it
down. A retrain that fails takes the link down; one that ends well resends on a crossing, and on a port relinks at the
widest good width and resends, or takes the link down where that is below x4 or where a used lane was lost and
DEGRADE_EN is 0. (R97, R98, R100, R102, R103, R104, R105, R106, R107, R110, R111, R118) -/
def Obligations.VflLinkLayer : Prop :=
  ∀ s : State,
    (∀ l f, s.hears l = true →
      let a := s.countLink l .lkFecCorr (flitFixed f)
      let u := match l with
        | .xing t g => a.each f.wires fun z w => z.wireError t g w
        | .port _ => a
      let h := flitHead f
      let b := if h.ackV then u.ackIn l h.ack else u
      let c := if h.crV then b.creditIn l h.crVc h.crCount else b
      (flitGood f = false → exec (.flitReceive l f) s = .next (u.countLink l .lkCrcErr)) ∧
      (flitGood f = true → 4 ≤ h.ftype → exec (.flitReceive l f) s = .next (u.countLink l .lkBadFtype)) ∧
      (flitGood f = true → h.ftype < 4 → u.linkUp l = true → exec (.flitReceive l f) s =
        .next (if h.ftype = 2 then c.each (ackCounts (flitBody f)) fun z x => z.creditIn l x.1 x.2
          else if h.ftype = 1 then c.dataIn l h.seq (flitBody f) else c)) ∧
      (∀ p, l = .port p → flitGood f = true → h.ftype < 4 → u.linkUp l = false →
        exec (.flitReceive l f) s = .next (u.initIn p f))) ∧
    (∀ l f, s.hears l = false → exec (.flitReceive l f) s = .next s) ∧
    (∀ l, let ok := fun (x : RxItem) => x.vc + 1 == s.vcs l || !s.rxHeld l
      (∀ x, (s.linkSt l).items.find? ok = some x → exec (.packetItemAccept l) s = .next (s.modLink l fun k => { k with
        items := k.items.eraseP ok, moved := k.moved ++ [x],
        inUse := tmod 0 k.inUse x.vc (· - x.blocks), freed := tmod 0 k.freed x.vc (· + x.blocks) })) ∧
      ((s.linkSt l).items.find? ok = none → exec (.packetItemAccept l) s = .next s)) ∧
    (∀ l, s.linkUp l = true → (s.linkSt l).stopped = false → s.operates (linkTile l) = true → s.ackOwed l = true →
      exec (.ackDue l) s =
        .next (if s.canSendData l = true ∧ (s.linkSt l).waiting ≠ 0 then s.sendFlits l 1 1 else s.sendAck l)) ∧
    (∀ l, s.linkUp l = true → (s.linkSt l).stopped = false → (s.linkSt l).outst ≠ [] → s.operates (linkTile l) = true →
      let u := s.countLink l .lkTimeout
      let n := u.timeouts l + 1
      (n < 4 → exec (.replayTimeout l) s = .next ((u.setEsc l n (u.retrains l)).resend l)) ∧
      (4 ≤ n → u.retrains l < 3 → exec (.replayTimeout l) s =
        .next (((u.setEsc l 0 (u.retrains l + 1)).setStopped l true).modLink l fun k => { k with idleEsc := true })) ∧
      (4 ≤ n → 3 ≤ u.retrains l → exec (.replayTimeout l) s = .next (u.linkFail l))) ∧
    (∀ l width, s.linkUp l = true → (s.linkSt l).stopped = true →
      exec (.linkRetrainDone l false width) s = .next (s.linkFail l)) ∧
    (∀ n g width, s.linkUp (.xing n g) = true → (s.linkSt (.xing n g)).stopped = true →
      exec (.linkRetrainDone (.xing n g) true width) s = .next ((s.setStopped (.xing n g) false).resend (.xing n g))) ∧
    (∀ p width, s.linkUp (.port p) = true → (s.linkSt (.port p)).stopped = true →
      let lanes := s.logical p
      let good := fun l => (lanes.take (widthLanes width)).contains l && !s.flag (laneCtrl l) 5 && !s.flag (laneStatus l) 10
      let w := goodWidth lanes good (s.cfld (s.tileEpoch (tileOf p)) (portCfg p) 4 2)
      let no := w < 3 ∨ ((lanes.take (widthLanes (s.fld (portStatus p) 3 1))).any (fun l => !good l) = true ∧
        s.flag (pbBase (pbOf p) + 0x1090) 18 = false)
      (no → exec (.linkRetrainDone (.port p) true width) s = .next (s.linkFail (.port p))) ∧
      (¬no → exec (.linkRetrainDone (.port p) true width) s =
        .next (((s.relink p w good).setStopped (.port p) false).resend (.port p))))

/-- On a VFL port that is up, each injection of LK_INJECT arms its own fault and changes nothing but the links' own state;
on a port that is not up it changes nothing. WIRE_FAILURE of a used wire of a crossing that is up is mapped on both
ends; with a spare left it is counted as XG_WIRE_REPAIR and both ends retrain; with none left the crossing goes down
where it may not halve; where it may and is half already both ends retrain, and where it is not, HALF is set on both
ends, both tiles see it at half rate, it is recorded, and both ends retrain. WIRE_REPAIR_DONE resends on each of the
two ends that is up and stopped. CROSSING_WIRE_INJECT takes the RW fields of the written word and, with INJ_EN set,
fails the wire it names as its peer receives it. CROSSING_BULK_LOSS of a crossing that is up, with no packet on it,
clears UP and sets the sticky down bit on both ends, leaves both sets and every packet, and records it; with packets
on it, it takes the crossing down as a link failure does. CROSSING_STATE_NOTICE at a present tile writes the
crossing's state in the tile's MESH_STATUS, and each other present tile that it had in service and whose crossings it
now sees all down is lost; held engine work then goes on. (R112, R117, R118, R119, R120, R121, R345) -/
def Obligations.VflInjectionsAndWires : Prop :=
  ∀ s : State,
    (∀ port v, s.linkUp (.port port) = true → ∃ t, exec (.injectBadCrc port v) s = .next t ∧
      (t.linkSt (.port port)).badCrc = true ∧ t = { s with links := t.links }) ∧
    (∀ port v, s.linkUp (.port port) = true → ∃ t, exec (.injectDropAck port v) s = .next t ∧
      (t.linkSt (.port port)).dropAck = true ∧ t = { s with links := t.links }) ∧
    (∀ port v, s.linkUp (.port port) = true → ∃ t, exec (.injectStaleCredit port v) s = .next t ∧
      (t.linkSt (.port port)).staleCredit = true ∧ t = { s with links := t.links }) ∧
    (∀ port v, s.linkUp (.port port) = true → ∃ t, exec (.injectSkipSeq port v) s = .next t ∧
      (t.linkSt (.port port)).skipSeq = true ∧ t = { s with links := t.links }) ∧
    (∀ port v, s.linkUp (.port port) = true → ∃ t, exec (.injectFecSym port v) s = .next t ∧
      (t.linkSt (.port port)).fecSym = (if field v 6 4 = 0 then (s.linkSt (.port port)).fecSym else field v 6 4) ∧
      t = { s with links := t.links }) ∧
    (∀ port v, s.linkUp (.port port) = false → exec (.injectBadCrc port v) s = .next s ∧
      exec (.injectDropAck port v) s = .next s ∧ exec (.injectStaleCredit port v) s = .next s ∧
      exec (.injectSkipSeq port v) s = .next s ∧ exec (.injectFecSym port v) s = .next s) ∧
    (∀ n g w u x, xgPeer n g = some u → s.part.xgOf n g = some x → s.xgUp x = true → s.here n = true → w < 672 →
      (s.linkSt (.xing n g)).wireUsed w = true →
      let h := xgGroup u n
      let v := s.mapWire n g u w
      let both := fun (z : State) => (z.otherRetrain (.xing n g)).otherRetrain (.xing u h)
      let b := (v.setFlag (xgStatus n g) 1 true).setFlag (xgStatus u h) 1 true
      (s.fld (xgStatus n g) 13 8 < 32 →
        exec (.wireFailure n g w) s = .next (both (v.countLink (.xing n g) .xgWireRepair))) ∧
      (32 ≤ s.fld (xgStatus n g) 13 8 → v.mayHalve n g = false →
        exec (.wireFailure n g w) s = .next (v.crossingDown x)) ∧
      (32 ≤ s.fld (xgStatus n g) 13 8 → v.mayHalve n g = true → v.flag (xgStatus n g) 1 = true →
        exec (.wireFailure n g w) s = .next (both v)) ∧
      (32 ≤ s.fld (xgStatus n g) 13 8 → v.mayHalve n g = true → v.flag (xgStatus n g) 1 = false →
        exec (.wireFailure n g w) s = .next (both (((b.seeXg n x 1).seeXg u x 1).xgRecord x 1)))) ∧
    (∀ n g u, xgPeer n g = some u → exec (.wireRepairDone n g) s =
      .next (s.each [Link.xing n g, Link.xing u (xgGroup u n)] fun z l =>
        if z.linkUp l && (z.linkSt l).stopped then (z.setStopped l false).resend l else z)) ∧
    (∀ n g v u, s.here n = true → (s.part.xgOf n g).isSome = true → xgPeer n g = some u →
      let w := s.plainWrite (xgCtrl n g) v
      exec (.crossingWireInject n g v) s =
        .next (if bit v 26 then w.wireFails u (xgGroup u n) (field v 25 16) else w)) ∧
    (∀ x, s.xgThere x = true → s.xgUp x = true → s.core.locks = [] →
      ∃ u : State, exec (.crossingBulkLoss x) s = .next (u.xgRecord x 2) ∧
        (∀ n ∈ [(xgEnds x).1, (xgEnds x).2], u.flag (xgStatus n (endGroup x n)) 0 = false ∧
          u.flag (xgStatus n (endGroup x n)) 19 = true) ∧ u.pkts = s.pkts ∧ s.setsKept u) ∧
    (∀ x, exec (.crossingBulkLoss x) s = .next (s.crossingDown x)) ∧
    (∀ n x st, s.here n = true → s.xgThere x = true →
      let v := s.seeXg n x (min st 2)
      exec (.crossingStateNotice n x st) s = .next (State.pump (v.each (v.present.filter (· != n)) fun z u =>
        if z.flag (meshStatus n) u && !(z.xgsOf u).isEmpty && (z.xgsOf u).all fun y => !z.flag (meshStatus n) (8 + y) then
          z.loseTileAs u (z.railsOk u)
        else z)))

/-- A CELL_SLOT of an operating tile ends what is bound for a tile it no longer sees, gives the waiting packets their
paths, lets matcher A sample at an even slot, moves on to the next of the four slot phases, lets each of the 40
outputs send its cell by the schedule of this slot, and lets matcher B sample at an even slot. ADMISSION_RETRY of a
refused packet of an operating tile that is admissible admits it and resumes the aperture stores that waited; of one
that is not admissible it admits nothing; in both cases credit owed to its port and the arrivals that waited then go
on. A TICKET_RETURN for another present tile whose count is ahead of the last, by less than half the count's range,
gives back that many tickets; one that is not ahead changes nothing. SPRAY_RECOMPUTE with SPRAY_ADAPT set gives each
path column to each other present tile its weight by queue depth, halved where the path is not full; without it, it
changes nothing. EGRESS_ARRIVAL puts the packet in the egress tile, held by its streams, and then each of its numbers
arrives. VOID_NOTICE of a number in flight with no packet ends its flight, sets VOID_SEEN and passes the number.
REORDER_GAP_TIMEOUT with packets waiting ends the flight of the expected number, sets GAP_SEEN, counts TL_REORDER_GAP
and passes it. TICKET_QUERY latches its selection; TICKET_QUERY_DONE puts the tickets left in the next word, sets
VALID, and leaves every other register, both sets, the packets and the core. (R125, R128, R131, R135, R138, R140,
R147) -/
def Obligations.SwitchCoreSteps : Prop :=
  ∀ s : State,
    (∀ n, s.operates n = true →
      let u := (s.endUnseen n).givePaths n
      let k := tget 0 u.core.slot n
      let a := if k % 2 = 0 then u.matchSlot n 0 (k + 2) else u
      let b := (a.modCore fun c => { c with slot := tset 0 c.slot n ((k + 1) % 4) }).each (List.range 40) fun v o =>
        v.slotOut n (u.core.locks.filter fun l => l.tile == n) (tget {} u.core.sched (4 * n + k)) o
      exec (.cellSlot n) s = .next (if k % 2 = 0 then b.matchSlot n 1 (k + 3) else b)) ∧
    (∀ n k p, s.pkt k = some p → p.tile = n → s.operates n = true →
      let a := if s.admissible p then (s.admitPkt p).resumePieces n else s
      exec (.admissionRetry n k) s = .next (match p.inPort with
        | some port => (a.creditOut port).releaseArrivals
        | none => a.releaseArrivals)) ∧
    (∀ n u d k, s.here n = true → s.here u = true → destTile d = u → n ≠ u →
      let got := modSub (2 ^ 24) k (tget 0 s.core.acceptedCount (destKey n d))
      0 < got → got < 2 ^ 23 → exec (.ticketReturn n u d k) s = .next (s.modCore fun c => { c with
        spent := tmod 0 c.spent (destKey n d) (· - got)
        acceptedCount := tset 0 c.acceptedCount (destKey n d) (k % 2 ^ 24) })) ∧
    (∀ n u d k, let got := modSub (2 ^ 24) k (tget 0 s.core.acceptedCount (destKey n d))
      (got = 0 ∨ 2 ^ 23 ≤ got) → exec (.ticketReturn n u d k) s = .next s) ∧
    (∀ n, s.here n = true → s.flag (tileBase n + 0x6000) 0 = true →
      exec (.sprayRecompute n) s = .next (s.each (s.present.filter (· != n)) fun v d => v.each (pathCols n d) fun z c =>
        let w := 16 - min 15 (z.queuedTo n (towards n d c) / 1024)
        z.modCore fun q => { q with
          unweight := tset 0 q.unweight (sprayKey n d c) (16 - (if z.pathFull n d c then w else w / 2)) })) ∧
    (∀ n, s.flag (tileBase n + 0x6000) 0 = false → exec (.sprayRecompute n) s = .next s) ∧
    (∀ n k p, s.pkt k = some p → p.tile = n → p.loc = .arriving → s.operates n = true → exec (.egressArrival n k) s =
      .next (((s.modPkt k fun q => { q with loc := .egress, held := q.seqs.map (·.1) }).toEnd k).each p.seqs fun v x =>
        v.arriveOne p x.1 x.2)) ∧
    (∀ n src d k, s.operates n = true → destTile d = n →
      (s.core.flights.any fun f => f.stream == src && f.dest == d && f.seqNo == k) = true →
      (s.pkts.any fun p => p.src == src && p.seqs.contains (d, k)) = false →
      exec (.voidNotice n src d k) s =
        .next (((s.endFlight src d k true).sticky (tileBase n + 0x6018) 18).numberHere src d k)) ∧
    (∀ n src d, s.operates n = true → destTile d = n → tget [] s.core.arrived (streamKey src d) ≠ [] →
      let x := tget 0 s.core.expected (streamKey src d)
      exec (.reorderGapTimeout n src d) s = .next
        ((((s.endFlight src d x true).sticky (tileBase n + 0x6018) 17).count n .tlReorderGap).numberHere src d x)) ∧
    (∀ agent n v, s.here n = true →
      exec (.ticketQuery agent n v) s = .next (s.setLv (ticketSel agent n) (v &&& 0x7F#32))) ∧
    (∀ agent n, s.here n = true → ∃ t, exec (.ticketQueryDone agent n) s = .next t ∧ t.flag (ticketSel agent n) 31 = true ∧
      t.lv (ticketSel agent n + 4) = BitVec.ofNat 32
        (s.ticketsLeft n (field (s.lv (ticketSel agent n)) 2 0) (field (s.lv (ticketSel agent n)) 6 3)) ∧
      s.regsKept t [ticketSel agent n, ticketSel agent n + 4] ∧ s.setsKept t ∧ t.pkts = s.pkts ∧ t.core = s.core)

/-- A request that enters a live port with no held ingress is acknowledged to the link, then has this effect, and then its
credit goes back. HOST_MEMORY_REQUEST of a partition's host: a malformed one or one with a failed ECRC has its error;
an I/O request is answered Unsupported Request; one in a BAR goes to the BAR at the home tile, or ends as on a lost
tile; with its poison noted, one of a dark partition or seat ends as in blackout, a multicast write goes to its group,
one an address map entry covers goes to that entry's function at the entry's address, and any other is counted
TL_UNROUTED, logged and answered Unsupported Request. FUNCTION_MEMORY_REQUEST on a downstream port: a bad one
likewise; one of no binding entry is TL_SRC_INVALID; one with AT not 0 is logged as an ACS violation for a local
function and answered Unsupported Request; one for another switch goes there; in a dark virtual port it ends as in
blackout; any other routes as its function's. HOST_CONFIG_REQUEST: one with a failed ECRC is counted and logged; in
blackout it gets a synthetic completion; Type 0 reaches the upstream bridge, the fabric function or nothing; Type 1 on
the internal bus an enabled downstream bridge or nothing; on another bus the function bound there, or nothing
(Unsupported Request). On a port that is not live all three change nothing; with ingress held they wait as arrivals.
(R153, R160, R161) -/
def Obligations.RequestsEnteringAPort : Prop :=
  ∀ s : State,
    (∀ port p r,
      let u := s.rxTlp port (reqFc r) r.data.length
      let e := u.tileEpoch (tileOf port)
      u.live? port = true → u.ingressHeld port = false → u.partOfUp e port = some p →
      let seat := u.seatOf e p (.host r.rid) r.pasid
      let q := reqPacket e r (.host p) (some p) seat (reqOwed r (u.partRo e p))
      let dark := u.partBlack (tileOf port) p || seat.any fun k => u.seatBlack (tileOf port) k
      let grp := if r.kind == .memWrite then r.mc else none
      let bar := if r.mc.isSome && r.kind == .memWrite then none else u.barOf e p r.addr.toNat
      let v := u.notePoison port p 32 r.poisoned
      let gives := fun (w : State) => exec (.hostMemoryRequest port r) s = .next (w.creditOut port)
      (∀ b, u.badTlp port p 32 r (u.mps p) = some b → gives b) ∧
      (u.badTlp port p 32 r (u.mps p) = none → r.kind = .ioRequest → gives (u.unsupported port q)) ∧
      (u.badTlp port p 32 r (u.mps p) = none → r.kind ≠ .ioRequest →
        (∀ b, bar = some b → gives (if u.here (u.homeTile e p) then u.barAccess e p (.host r.rid) true r b
          else u.endHere port q .tileLost)) ∧
        (bar = none → dark = true → gives (v.endHere port { q with ports := v.leavesBy e p r.addr.toNat } .blackout)) ∧
        (bar = none → dark = false → ∀ g, grp = some g → gives (v.multicast port p 32 g q)) ∧
        (bar = none → dark = false → grp = none → ∀ x, v.amapHit e p r.addr.toNat = some x → gives (v.toFunction port
          { q with body := .req { noEcrc r with addr := BitVec.ofNat 64 (v.amapTo e x r.addr.toNat) } } (v.amapFunc e x))) ∧
        (bar = none → dark = false → grp = none → v.amapHit e p r.addr.toNat = none →
          gives (((v.count (tileOf port) .tlUnrouted (some port) seat).logAer p 32 .unsupportedRequest).unsupported port q)))) ∧
    (∀ port r,
      let u := s.rxTlp port (reqFc r) r.data.length
      let e := u.tileEpoch (tileOf port)
      u.live? port = true → u.isVfl e port = false → u.partOfUp e port = none → u.ingressHeld port = false →
      let own := u.slotOwner e port
      let d0 := (u.vdpOf e own port).getD 0
      let bare := reqPacket e r (.port port) none none true
      let gives := fun (w : State) => exec (.functionMemoryRequest port r) s = .next (w.creditOut port)
      (∀ b, u.badTlp port own d0 r (u.portMps e port) = some b → gives b) ∧
      (u.badTlp port own d0 r (u.portMps e port) = none → u.srcFunc e port r.rid = none → gives (u.srcInvalid port bare)) ∧
      (u.badTlp port own d0 r (u.portMps e port) = none → ∀ f, u.srcFunc e port r.rid = some f →
        let p := u.bindPart e f
        let d := u.bindVdp e f
        let here := u.bindSw e f = u.switchNum e
        let seat := u.seatOf e p (.func f) r.pasid
        let q := reqPacket e r (.func f) (some p) seat (reqOwed r (u.partRo e p))
        (r.atBits ≠ 0 → here → gives ((u.logAer p d .acsViolation).unsupported port { bare with
          seat := (u.logAer p d .acsViolation).seatOf e p (.func f) r.pasid })) ∧
        (r.atBits ≠ 0 → ¬here → gives (u.unsupported port { bare with seat := none })) ∧
        (r.atBits = 0 → ¬here → gives ((u.notePoison port own d0 r.poisoned).sendFar port bare
          (fidOf (u.bindSw e f) (u.bindUp e f)))) ∧
        (r.atBits = 0 → here → gives (if u.vdpDark e p d then u.endHere port q .blackout else u.functionRoute port f r q)))) ∧
    (∀ port p q,
      let u := s.rxTlp port 1 (if q.wr.isSome then 4 else 0)
      let e := u.tileEpoch (tileOf port)
      u.live? port = true → u.ingressHeld port = false → u.partOfUp e port = some p →
      let k : CfgAsk := { port := port, e := e, p := p, q := q }
      let ds := (List.range 32).filter fun d => u.vdpEn e p d
      let gives := fun (w : State) => exec (.hostConfigRequest port q) s = .next (w.creditOut port)
      (u.ecrcFails e port q.ecrcBad = true → gives ((u.count (tileOf port) .ecrcErr (some port)).logAer p 32 .ecrc)) ∧
      (u.ecrcFails e port q.ecrcBad = false → u.partBlack (tileOf port) p = true →
        gives (u.synthUr (tileOf port) e false (.host p) q.rid q.tag 0)) ∧
      (u.ecrcFails e port q.ecrcBad = false → u.partBlack (tileOf port) p = false →
        (q.type1 = false →
          gives (if q.devfn = 0 then u.cfgBridge k 32 else if q.devfn = 1 then u.cfgFab k else u.cfgUr k)) ∧
        (q.type1 = true → q.bus = (u.vport p 32).sec → gives (if u.vdpEn e p (q.devfn / 8) = true ∧ q.devfn % 8 = 0
          then u.cfgBridge k (q.devfn / 8) else u.cfgUr k)) ∧
        (q.type1 = true → q.bus ≠ (u.vport p 32).sec →
          gives (match (ds.find? fun d => (u.vport p d).sec == q.bus).bind fun d => u.boundFn e p d q.devfn with
            | some f => u.cfgBound k f
            | none => u.cfgUr k)))) ∧
    (∀ port r q, s.live? port = false → exec (.hostMemoryRequest port r) s = .next s ∧
      exec (.functionMemoryRequest port r) s = .next s ∧ exec (.hostConfigRequest port q) s = .next s) ∧
    (∀ port r, let u := s.rxTlp port (reqFc r) r.data.length
      u.live? port = true → u.ingressHeld port = true →
      exec (.hostMemoryRequest port r) s = .next ((u.hold (.hostMemoryRequest port r)).creditOut port) ∧
      (u.isVfl (u.tileEpoch (tileOf port)) port = false → u.partOfUp (u.tileEpoch (tileOf port)) port = none →
        exec (.functionMemoryRequest port r) s = .next ((u.hold (.functionMemoryRequest port r)).creditOut port))) ∧
    (∀ port q, let u := s.rxTlp port 1 (if q.wr.isSome then 4 else 0)
      u.live? port = true → u.ingressHeld port = true →
      exec (.hostConfigRequest port q) s = .next ((u.hold (.hostConfigRequest port q)).creditOut port))

/-- FUNCTION_LEVEL_RESET through the live upstream port of an enabled partition, its ingress not held, is acknowledged to
the link, and its credit goes back after it: in blackout it gets a synthetic completion; where the binding entry
cannot be reached behind an enabled virtual port it is answered Unsupported Request; of a physical function whose
named VFs belong to another switch or partition it is withheld, counted and answered as done; any other clears the
part's copies of the entry and goes to the function. In an enabled partition: SECONDARY_BUS_RESET acts on the bridge
named, or on all 32 behind the upstream bridge; PARTITION_RESET leaves of the fabric function and of the upstream
bridge only the error log, clears the upstream bridge's bus number and memory enable, leaves the live registers and
both sets, and then resets the bus behind every bridge; FABRIC_FUNCTION_POWER_STATE stores D3hot, or stores D0 and
then sends what waits on the vectors and follows the pin; INTX_CONTROL_CHANGE stores Interrupt Disable and MSI-X
Enable, and then does these two, the pin first; MSIX_UNMASK clears the mask of the vector named, or the function mask
where none is named, and then sends what waits on the vectors, and for a vector number beyond the table does only
that. In a partition that is not enabled each changes nothing. (R155, R279, R292, R293, R403) -/
def Obligations.ResetsAndFabricFunctionControls : Prop :=
  ∀ s : State,
    (∀ p f rid tag vfs,
      let port0 := s.upPort (s.entryEpoch p) p
      let u := s.rxTlp port0 1 4
      let e := u.entryEpoch p
      let port := u.upPort e p
      u.partEn e p = true → u.live? port = true → u.ingressHeld port = false →
      let q : CfgReq := { rid := rid, tag := tag, type1 := true, bus := 0, devfn := 0, reg := 0, be := 15, sriov := none, wr := none }
      let k : CfgAsk := { port := port, e := e, p := p, q := q }
      let reach := u.vdpEn e p (u.bindVdp e f) = true ∧ u.boundFn e p (u.bindVdp e f) (u.bindFn e f) = some f
      let far := (u.bindEntries e).any fun g => !u.bindVf e f && vfs.contains (u.bindRid e g) &&
        !(u.bindSw e g == u.switchNum e && u.bindPart e g == p)
      let gives := fun (w : State) => exec (.functionLevelReset p f rid tag vfs) s = .next (w.creditOut port0)
      (u.partBlack (tileOf port) p = true → gives (u.synthUr (tileOf port) e false (.host p) rid tag 0)) ∧
      (u.partBlack (tileOf port) p = false → ¬reach → gives (u.cfgUr k)) ∧
      (u.partBlack (tileOf port) p = false → reach → far = true →
        gives ((u.count (tileOf port) .tlFlrWithheld (some port)).cfgDone k (u.hostRid e f) .sc [])) ∧
      (u.partBlack (tileOf port) p = false → reach → far = false → gives ((u.dropCopies e f).toFunction port
        { id := 0, cls := .nonPosted, origin := .host p, rRid := rid, rTag := tag, part := some p, epoch := e,
          body := .flr (u.bindRid e f / 256 % 256) (u.bindRid e f % 256) } f))) ∧
    (∀ p d, s.partEn s.leadEpoch p = true → d ≠ 32 → exec (.secondaryBusReset p d) s = .next (s.busResetDown p d)) ∧
    (∀ p, s.partEn s.leadEpoch p = true →
      exec (.secondaryBusReset p 32) s = .next (s.each (List.range 32) fun v k => v.busResetDown p k)) ∧
    (∀ p, s.partEn s.leadEpoch p = true → ∃ u : State, exec (.partitionReset p) s =
        .next (u.each (List.range 32) fun v d => v.busResetDown p d) ∧
      u.fab p = { aer := (s.fab p).aer, aerHdr := (s.fab p).aerHdr } ∧ (u.vport p 32).sec = 0 ∧ (u.vport p 32).mse = false ∧
      (u.vport p 32).aer = (s.vport p 32).aer ∧ u.live = s.live ∧ s.setsKept u) ∧
    (∀ p, s.partEn s.leadEpoch p = true →
      exec (.fabricFunctionPowerState p true) s = .next (s.modFab p fun f => { f with d3hot := true })) ∧
    (∀ p, s.partEn s.leadEpoch p = true → exec (.fabricFunctionPowerState p false) s =
      .next (((s.modFab p fun f => { f with d3hot := false }).msixFlush p).syncIntx p)) ∧
    (∀ p i m, s.partEn s.leadEpoch p = true → exec (.intxControlChange p i m) s =
      .next (((s.modFab p fun f => { f with intDisable := i, msixEnable := m }).syncIntx p).msixFlush p)) ∧
    (∀ p v, s.partEn s.leadEpoch p = true →
      exec (.msixUnmask p (some v)) s = .next (State.msixFlush (if v < 2048 then s.setMsix p (16 * v + 12) 0 else s) p)) ∧
    (∀ p, s.partEn s.leadEpoch p = true →
      exec (.msixUnmask p none) s = .next ((s.modFab p fun f => { f with funcMask := false }).msixFlush p)) ∧
    (∀ p d i m v, s.partEn s.leadEpoch p = false → exec (.secondaryBusReset p d) s = .next s ∧
      exec (.partitionReset p) s = .next s ∧ exec (.fabricFunctionPowerState p i) s = .next s ∧
      exec (.intxControlChange p i m) s = .next s ∧ exec (.msixUnmask p v) s = .next s)

/-- COMPLETION_ARRIVAL, INTX_MESSAGE and MESSAGE_RECEIVED on a live PCI Express port with no held ingress are acknowledged
to the link, and their credit goes back after their effect. A completion that is too long or fails its ECRC is counted
and logged; one no outstanding request matches is unexpected; of one with an injected error, or that belongs to a
function no longer placed there, the entry ends and it is unexpected; any other is forwarded, with its poison noted,
or taken by the part's own request. OUTSTANDING_ENTRY_ALLOC starts the first waiting management request, else the
first that waits for the port, when the port, an entry and the link admit it. COMPLETION_TIMEOUT removes the entry,
counts it, and ends the part's own request by its kind. VFL_PACKET_ARRIVAL takes the next packet out of the receive
buffer, or, where none waits, the packet given; one of an undefined kind is counted LK_BAD_KIND, a multicast goes to
its group, one for this switch is taken here, a completion that an outstanding request here matches is taken for it,
and any other is sent on. An INTx with a failed ECRC has its error; one of no binding entry is TL_SRC_INVALID; one of
a local function follows its pin; any other goes to its switch. A message with a failed ECRC has its error; else one
of a host, and one of a function, is broadcast, routed or discarded by its kind. (R46, R158, R161, R164, R306, R344) -/
def Obligations.CompletionsAndMessages : Prop :=
  ∀ s : State,
    (∀ port c,
      let u := s.rxTlp port 2 c.data.length
      let e := u.tileEpoch (tileOf port)
      u.live? port = true → u.isVfl e port = false → u.ingressHeld port = false →
      let a := u.seenAt e port
      let gives := fun (w : State) => exec (.completionArrival port c) s = .next (w.creditOut port)
      (u.portMps e port < c.data.length → gives ((u.count (tileOf port) .malformed (some port)).logAer a.1 a.2 .malformedTlp)) ∧
      (c.data.length ≤ u.portMps e port → u.ecrcFails e port c.ecrcBad = true →
        gives ((u.count (tileOf port) .ecrcErr (some port)).logAer a.1 a.2 .ecrc)) ∧
      (c.data.length ≤ u.portMps e port → u.ecrcFails e port c.ecrcBad = false →
        (u.outFor port none c = none → gives (u.unexpected port)) ∧
        (∀ o, u.outFor port none c = some o →
          (o.injected = true → gives (State.unexpected (eccUncorrectable o.tile (.outstanding o.id) u) port)) ∧
          (o.injected = false → u.placed e o = false →
            gives (State.unexpected { u with outs := u.outs.filter fun k => k.id != o.id } port)) ∧
          (o.injected = false → u.placed e o = true →
            (o.purpose = .forward →
              gives ((if c.poisoned then u.notePoison port a.1 a.2 true else u).forwardCpl port none o c)) ∧
            (o.purpose ≠ .forward → gives (u.ownCpl o c)))))) ∧
    (∀ port p, let ws := s.pkts.filter fun q => q.npWait && q.ports.contains port
      ((ws.find? (·.mgmt)).orElse fun _ => ws.head?) = some p → s.portReady port = true →
      s.entryFree port p = true → s.canLeave port p = true →
      exec (.outstandingEntryAlloc port) s = .next ((s.chargeStart port p).depart port p)) ∧
    (∀ n id o, (s.outs.find? fun k => k.id == id && k.tile == n) = some o → s.operates n = true →
      let u := State.count { s with outs := s.outs.filter fun k => k.id != o.id } o.tile .cplTimeout (some o.port) o.seat
      exec (.completionTimeout n id) s = .next (match o.purpose with
        | .perf key => u.shown key
        | .apRead _ tc => (u.count o.srcTile .apRdErr (some o.port) o.seat).reply o.srcTile (u.tileEpoch o.srcTile) o.mgmt
            o.origin o.rid o.tag tc .sc (allOnes o.len)
        | .dma i => u.dmaEnd i 0x08
        | .issue i => u.issued i 0x08
        | .ringFetch r => u.ringFail r 3
        | _ => u)) ∧
    (∀ port k x xs, (s.linkSt (.port port)).moved = x :: xs → exec (.vflPacketArrival port k) s =
      .next (vflArrive port (s.fromItem port x k) (s.modLink (.port port) fun q => { q with moved := xs }))) ∧
    (∀ port k, (s.linkSt (.port port)).moved = [] → s.live? port = true → s.isVfl (s.tileEpoch (tileOf port)) port = true →
      s.ingressHeld port = false →
      let e := s.tileEpoch (tileOf port)
      let p := s.vflBody port k
      let undefinedKind := 4 ≤ k.kind ∨ (k.kind = 2 ∧ k.mgmtVc = false)
      let gives := fun (w : State) => exec (.vflPacketArrival port k) s = .next w
      (undefinedKind → gives (s.count (tileOf port) .lkBadKind (some port))) ∧
      (¬undefinedKind → k.kind = 3 → gives (s.fabricCast port k p)) ∧
      (¬undefinedKind → k.kind ≠ 3 → fidSw k.dst = s.switchNum e → gives (s.vflLocal port k p)) ∧
      (¬undefinedKind → k.kind ≠ 3 → fidSw k.dst ≠ s.switchNum e → gives (match k.body with
        | .cpl c => if (s.outFor port (some k.src) c).isSome then s.completionIn port (some k.src) (some p.ordered) c
            else s.sendFar port p k.dst
        | _ => s.sendFar port p k.dst))) ∧
    (∀ port rid (d : List Byte) pin a (bad : Bool),
      let u := s.rxTlp port 0 0
      let e := u.tileEpoch (tileOf port)
      u.live? port = true → u.isVfl e port = false → u.partOfUp e port = none → u.ingressHeld port = false →
      let q : Packet := { id := 0, cls := .posted, body := .intx pin a, origin := .port port, rRid := u.portRid e port rid, epoch := e }
      let gives := fun (w : State) => exec (.intxMessage port ⟨rid, d, bad⟩ pin a) s = .next (w.creditOut port)
      (u.ecrcFails e port bad = true → gives (u.badEcrc port e)) ∧
      (u.ecrcFails e port bad = false → u.srcFunc e port rid = none → gives (u.srcInvalid port q)) ∧
      (u.ecrcFails e port bad = false → ∀ f, u.srcFunc e port rid = some f →
        gives (if u.bindSw e f = u.switchNum e then u.fnPin port e f pin a
          else u.sendFar port q (fidOf (u.bindSw e f) (u.bindUp e f))))) ∧
    (∀ port rid m (d : List Byte) (bad : Bool),
      let u := s.rxTlp port 0 d.length
      let e := u.tileEpoch (tileOf port)
      u.live? port = true → u.isVfl e port = false → u.ingressHeld port = false →
      let gives := fun (w : State) => exec (.messageReceived port ⟨rid, d, bad⟩ m) s = .next (w.creditOut port)
      (u.ecrcFails e port bad = true → gives (u.badEcrc port e)) ∧
      (u.ecrcFails e port bad = false → ∀ p, u.partOfUp e port = some p → gives (u.hostMessage port p m d)) ∧
      (u.ecrcFails e port bad = false → u.partOfUp e port = none → gives (u.portMessage port rid m d)))

/-- BAR4_WRITE (any access then a memory write) and BAR4_READ (never a write) of an enabled partition at its present home
tile, for a seat that waits for nothing: a poisoned write is dropped, counted and logged; an atomic, locked or I/O
read is answered Unsupported Request, counted ST_UNSEATED where its sender has no seat and, but for I/O, AP_BAD_SIZE;
an access of no seat is counted ST_UNSEATED and is unmapped, and so is one that no admitting aperture entry covers.
Otherwise: while the seat's protection unit is off and the seat is not stopped the access is held, or faults where
1,024 are queued; a stopped seat's ends with its code; with the unit on, one that it faults ends as that fault, and
any other accesses its aperture. An access of a seat whose lines are withheld or whose stores wait for a line waits as
an arrival. WC_LINE_TIMEOUT of an open line marks it flushing, last in flush order, and then forms the seat's due
lines in that order, unless the seat is withheld. WC_FLUSH_ADMIT of a flushing line of an operating tile forms the
seat's due lines, admits the refused line writes that now fit and resumes stores that waited for a line, and then held
arrivals go on; where no such line is flushing only the arrivals do. (R176, R177, R189) -/
def Obligations.ApertureAccesses : Prop :=
  ∀ s : State,
    (∀ p who r, s.partEn (s.entryEpoch p) p = true → s.here (s.homeTile (s.entryEpoch p) p) = true →
      s.barWaits p who r.pasid = false → 
      let w : Req := { r with kind := .memWrite }
      let e := s.entryEpoch p
      let n := s.homeTile e p
      let o := s.bar4Ofs e p w
      let hit := fun k => (s.apHit e n p o).filter fun x => s.apAdmits e n x k w
      let gives := fun (v : State) => exec (.bar4Write p who r) s = .next v
      (w.poisoned = true → gives ((s.count n .poisonDrop).logFabAer p .poisonedTlp)) ∧
      (w.poisoned = false → (s.seatOf e p who w.pasid = none → gives ((s.count n .stUnseated).apUnmapped e p who none w)) ∧
        (∀ k, s.seatOf e p who w.pasid = some k →
          (hit k = none → gives (s.apUnmapped e p who (some k) w)) ∧
          (∀ x, hit k = some x →
            (s.puOff n k = true → s.seatCode n k = none → gives (if 1024 ≤ (s.pu.held.countP fun h => h.tile == n && h.queued)
              then s.bar4Fault e p who k (if reqNp w then 0 else 1) 5 0xFFF o w else s.puHold n k (.bar4 p who w e))) ∧
            (∀ code, s.seatCode n k = some code → gives (s.apStopped e p who k code w)) ∧
            (s.puOff n k = false → s.seatCode n k = none →
              (∀ c, s.puFaultOf e n k 1 (if reqNp w then 0 else 1) o w.len = some c →
                gives (s.bar4Fault e p who k (if reqNp w then 0 else 1) c.1 c.2 o w)) ∧
              (s.puFaultOf e n k 1 (if reqNp w then 0 else 1) o w.len = none → gives (s.apAccess e p who k x o w))))))) ∧
    (∀ p who r, s.partEn (s.entryEpoch p) p = true → s.here (s.homeTile (s.entryEpoch p) p) = true →
      s.barWaits p who r.pasid = false → 
      let w : Req := if r.kind = .memWrite then { r with kind := .memRead } else r
      let e := s.entryEpoch p
      let n := s.homeTile e p
      let o := s.bar4Ofs e p w
      let hit := fun k => (s.apHit e n p o).filter fun x => s.apAdmits e n x k w
      let gives := fun (v : State) => exec (.bar4Read p who r) s = .next v
      (w.kind ≠ .memRead →
        let v := if (s.seatOf e p who w.pasid).isNone then s.count n .stUnseated else s
        gives (if w.kind = .ioRequest then v.bar4Ur e p who w else (v.count n .apBadSize).bar4Ur e p who w)) ∧
      (w.kind = .memRead → (s.seatOf e p who w.pasid = none → gives ((s.count n .stUnseated).apUnmapped e p who none w)) ∧
        (∀ k, s.seatOf e p who w.pasid = some k →
          (hit k = none → gives (s.apUnmapped e p who (some k) w)) ∧
          (∀ x, hit k = some x →
            (s.puOff n k = true → s.seatCode n k = none → gives (if 1024 ≤ (s.pu.held.countP fun h => h.tile == n && h.queued)
              then s.bar4Fault e p who k (if reqNp w then 0 else 1) 5 0xFFF o w else s.puHold n k (.bar4 p who w e))) ∧
            (∀ code, s.seatCode n k = some code → gives (s.apStopped e p who k code w)) ∧
            (s.puOff n k = false → s.seatCode n k = none →
              (∀ c, s.puFaultOf e n k 1 (if reqNp w then 0 else 1) o w.len = some c →
                gives (s.bar4Fault e p who k (if reqNp w then 0 else 1) c.1 c.2 o w)) ∧
              (s.puFaultOf e n k 1 (if reqNp w then 0 else 1) o w.len = none → gives (s.apAccess e p who k x o w))))))) ∧
    (∀ p who r, s.barWaits p who r.pasid = true → exec (.bar4Write p who r) s = .next (s.hold (.bar4Write p who r)) ∧
      exec (.bar4Read p who r) s = .next (s.hold (.bar4Read p who r))) ∧
    (∀ n l k, (s.wc.lines.find? fun q => q.id == l && q.tile == n && !q.flushing) = some k →
      let u := s.modWc fun w => { w with lines := w.lines.map fun q =>
        if q.id = k.id ∧ !q.flushing then { q with flushing := true, order := s.idCtr } else q }
      let v : State := { u with idCtr := s.idCtr + 1 }
      exec (.wcLineTimeout n l) s =
        .next (if v.withheld k.tile k.seat then v else v.each (v.dueLines k.tile k.seat) State.formLine)) ∧
    (∀ n l k, (s.wc.lines.find? fun q => q.id == l && q.tile == n && q.flushing) = some k → s.operates n = true →
      exec (.wcFlushAdmit n l) s = .next (((s.formDue n k.seat).admitLines n).resumePieces n).releaseArrivals) ∧
    (∀ n l, (s.wc.lines.find? fun q => q.id == l && q.tile == n && q.flushing) = none →
      exec (.wcFlushAdmit n l) s = .next s.releaseArrivals)

/-- FENCE_READ in an enabled partition at its present home tile, for a seat that waits for nothing: by another sender than
the page's seat, or of a seat not bound to the partition, it is answered Unsupported Request, counted ST_UNSEATED
where the sender has no seat; of another size than 4 or 8 bytes, or not aligned, it is answered Unsupported Request;
with accesses of the seat held behind a protection unit that is off it is held behind them; otherwise it is accepted.
For a seat that waits it waits as an arrival. FLUSH_READ_COMPLETE, of a stream that a fence not yet ended waits for: a
good completion takes the stream off the fence; a completion with another status or poisoned changes nothing; a
synthetic one takes the stream off and adds its code to the tally, containing the stream's entries unless the code is
0x06; fences that now wait for nothing complete in order. FENCE_TIMEOUT of a fence not ended ends it, unconfirmed if a
flush read is owed, and completes fences in order. A write of AP_CONT_SEL latches the entry; STATE 1 also clears its
containment, 2 contains an entry that is not contained (its lines are flushed, AP_CONTAINED is counted), and reading
or containing it again does no more. AP_CONT_DONE shows whether the latched entry is contained, with VALID. (R179,
R181, R193, R204) -/
def Obligations.FencesAndContainedEntries : Prop :=
  ∀ s : State,
    (∀ p who seat r, s.partEn (s.entryEpoch p) p = true → s.here (s.homeTile (s.entryEpoch p) p) = true →
      s.barWaits p who r.pasid = false →
      let e := s.entryEpoch p
      let n := s.homeTile e p
      let w : Req := { r with kind := .memRead }
      let own := s.seatOf e p who r.pasid = some seat ∧ s.bound e seat = true ∧ s.seatPart e seat = p
      let fits := (r.len = 4 ∨ r.len = 8) ∧ r.addr.toNat % r.len = 0
      let queued := s.puOff n seat = true ∧ (s.pu.held.any fun h => h.tile == n && h.seat == seat) = true
      let gives := fun (v : State) => exec (.fenceRead p who seat r) s = .next v
      (¬own → gives (State.barReply (if (s.seatOf e p who r.pasid).isNone then s.count n .stUnseated else s) e p who w .ur [])) ∧
      (own → ¬fits → gives (s.barReply e p who w .ur [])) ∧
      (own → fits → queued → gives (s.puHold n seat (.fence p who w e))) ∧
      (own → fits → ¬queued → gives (s.fenceAccept e p who seat w))) ∧
    (∀ p who seat r, s.partEn (s.entryEpoch p) p = true → s.here (s.homeTile (s.entryEpoch p) p) = true →
      s.barWaits p who r.pasid = true → exec (.fenceRead p who seat r) s = .next (s.hold (.fenceRead p who seat r))) ∧
    (∀ n k j f q, (s.wc.fences.find? fun y => y.id == k && y.tile == n && !y.ended) = some f →
      (f.reads.find? fun y => y.dest == j) = some q →
      let rest := f.reads.filter fun z => z.dest != j
      let put := fun (g : Fence) => (s.modWc fun w => { w with
        fences := w.fences.map fun y => if y.id = f.id then g else y }).completeFences n f.seat
      exec (.flushReadComplete n k j .sc false false 0) s = .next (put { f with reads := rest }) ∧
      (∀ st po c, st ≠ .sc ∨ po = true → exec (.flushReadComplete n k j st po false c) s = .next s) ∧
      (∀ st po c, exec (.flushReadComplete n k j st po true c) s = .next (put { f with
        reads := rest, tally := f.tally.add c (if c = 0x06 then [] else q.entries.map (·.1)) }))) ∧
    (∀ n k f, (s.wc.fences.find? fun y => y.id == k && y.tile == n && !y.ended) = some f →
      exec (.fenceTimeout n k) s = .next ((s.modWc fun w => { w with fences := w.fences.map fun y =>
        if y.id = f.id then { y with unconf := !y.reads.isEmpty, ended := true } else y }).completeFences n f.seat)) ∧
    (∀ agent n v, s.here n = true →
      exec (.apContReadState agent n v) s = .next (s.setLv (apCont agent n) (putField v 15 14 0 &&& 0xFFFF#32))) ∧
    (∀ agent n v, s.here n = true → exec (.apContClear agent n v) s =
      .next ((s.setLv (apCont agent n) (putField v 15 14 1 &&& 0xFFFF#32)).modWc fun w =>
        { w with contained := tset false w.contained (entKey n (field v 13 0)) false })) ∧
    (∀ agent n v, s.here n = true →
      let u := s.setLv (apCont agent n) (putField v 15 14 2 &&& 0xFFFF#32)
      (s.contained n (field v 13 0) = true → exec (.apContContain agent n v) s = .next u) ∧
      (s.contained n (field v 13 0) = false → exec (.apContContain agent n v) s =
        .next (((u.flushLines n fun l => l.entry == field v 13 0).modWc fun w =>
          { w with contained := tset false w.contained (entKey n (field v 13 0)) true }).count n .apContained))) ∧
    (∀ agent n, s.here n = true → exec (.apContDone agent n) s =
      .next ((s.setFlag (apCont agent n) 30 (s.contained n (s.fld (apCont agent n) 13 0))).setFlag (apCont agent n) 31 true))

/-- WIN_INIT before the table is ready takes the written set-up fields and, with INIT, sets INIT_BUSY; once it is ready it
only sets INIT_REFUSED. WINDOW_TABLE_INIT_DONE while INIT_BUSY empties the table, the free list and the cache, sets
READY and clears INIT_BUSY, and changes no other register, no set and no engine state; when not INIT_BUSY it changes
nothing. WINDOW_FETCH_DONE of an entry of the tile's table serves what waited for the entry; an entry found revoking
with no revocation in progress gets one first. REVOKE_DRAINED of a revoking window with nothing in flight starts its
flush: it forms the flush read through the owner's partition, where that may issue. REVOKE_FLUSH_DONE ends the
revocation: at generation 0xFF the window is retired and counted RM_WIN_RETIRED, and at any other it is free and its
index joins the tile's free list; its table entry is written back; the work request that asked for it, if any,
completes with code 0. A WINDOW_VIOLATION_INTERVAL_END with no rejection counted closes the interval, and with
rejections reports them to the owner and keeps it open with the count 0. (R194, R196, R201, R203) -/
def Obligations.WindowTableAndRevocation : Prop :=
  ∀ s : State,
    (∀ v, s.winReady = false → exec (.windowTableInit v) s =
      .next (if bit v 5 then (s.plainWrite 0x00140000 v).setFlag 0x0014000C 1 true else s.plainWrite 0x00140000 v)) ∧
    (∀ v, s.winReady = true → exec (.windowTableInit v) s = .next (s.sticky 0x0014000C 2)) ∧
    (s.flag 0x0014000C 1 = true → ∃ t, exec .windowTableInitDone s = .next t ∧ t.flag 0x0014000C 0 = true ∧
      t.flag 0x0014000C 1 = false ∧ t.win.tbl = [] ∧ t.win.freed = [] ∧ t.win.lru = [] ∧
      s.regsKept t [0x0014000C] ∧ s.setsKept t ∧ t.eng = s.eng) ∧
    (s.flag 0x0014000C 1 = false → exec .windowTableInitDone s = .next s) ∧
    (∀ n i, s.here n = true → s.winReady = true → s.winTile i = n → i < 2 ^ s.winN →
      let u := if (s.window i).state = 2 && !s.win.revokes.any fun r => r.index == i then
        s.modWin fun w => { w with revokes := w.revokes ++ [{ index := i, wr := none, seat := none }] } else s
      exec (.windowFetchDone n i) s = .next (u.fetchDone true n i)) ∧
    (∀ n i, s.winTile i = n → s.here n = true → (s.window i).inflight = 0 →
      (s.win.revokes.any fun r => r.index == i && !r.flushing) = true →
      let w := s.window i
      let u := s.modWin fun x => { x with revokes := x.revokes.map fun r => if r.index = i then { r with flushing := true } else r }
      let p := u.seatPart u.leadEpoch w.owner
      exec (.revokeDrained n i) s = .next (if u.canIssue p then
          u.form (u.upForm (u.tileEpoch n) n p (some w.owner) false (u.engClass n) (.winFlush i)) .nonPosted
            (.req (ownReq .memRead w.base 0 [] (u.ffRid p) w.pasid (u.engClass n)))
        else u)) ∧
    (∀ n i r, s.winTile i = n → s.here n = true → (s.win.revokes.find? fun q => q.index == i && q.flushing) = some r →
      let a := s.modWin fun x => { x with revokes := x.revokes.filter fun k => k.index != r.index }
      let b := if (a.window r.index).gen = 0xFF then
          (a.modWindow r.index fun w => { w with state := 3 }).count n .rmWinRetired none (some (a.window r.index).owner)
        else (a.modWindow r.index fun w => { w with state := 0 }).modWin fun x =>
          { x with freed := tmod [] x.freed n (· ++ [r.index]) }
      exec (.revokeFlushDone n i) s = .next (match r.wr with
        | some w => (b.tableWrite true n r.index).finishWr w 0
        | none => b.tableWrite true n r.index)) ∧
    (∀ n i q, s.winTile i = n → tget none s.win.viol i = some q → q.n = 0 →
      exec (.windowViolationIntervalEnd n i) s = .next (s.setWinViol i none)) ∧
    (∀ n i q, s.winTile i = n → tget none s.win.viol i = some q → q.n ≠ 0 →
      exec (.windowViolationIntervalEnd n i) s = .next ((s.event (s.window i).owner 0x0010 (s.window i).owner n
        (violBody q)).setWinViol i (some { q with n := 0 })))

/-- A descriptor of a ring of a seat whose object is cached at its home tile with nothing parked for it, that passes the
checks of R213 with its protection unit on, and whose work request may start, takes an outstanding-work index and
starts. Then NOP ends with code 0; RECV_POST raises RQ_PI of its queue pair by LENGTH and ends with code 0; FENCE ends
with 0x0B if one it waited for failed and with 0 otherwise; COUNT_ADD advances the trigger counter of DONE_QPN by IMM
and ends with code 0; WIN_OPEN opens a window and ends with the code of the open and its key; WIN_REVOKE of an index
beyond the table, of a window that is not open or of another generation ends with 0x04, of an open window by a seat
that is neither seat 0 nor its owner ends with 0x02, and of any other starts the revocation, which ends the work
request; QP_CREATE writes the context that it carries as ready and ends with code 0; QP_DESTROY sets the queue pair
destroying, to end this work request when it is done, and squashes the queue pair's held work with 0x06. (R183, R197,
R200, R212, R221) -/
def Obligations.EngineCommandsServedAtOnce : Prop :=
  ∀ s : State,
    (∀ ring seat d0,
      let d : Desc := { d0 with opcode := 0x00 }
      s.admits ring seat d none = true → (s.withWr ring seat d none).canStart (s.wrOf ring seat d none) = true →
      let w := s.wrOf ring seat d none
      let v := s.withStarted ring seat d none
      exec (.nop ring d0) s = .next (v.finishWr w.id 0)) ∧
    (∀ ring seat d0,
      let d : Desc := { d0 with opcode := 0x04 }
      s.admits ring seat d none = true → (s.withWr ring seat d none).canStart (s.wrOf ring seat d none) = true →
      let w := s.wrOf ring seat d none
      let v := s.withStarted ring seat d none
      exec (.recvPost ring d0) s = .next ((v.modQp d.qpn fun k => { k with pi := (k.pi + d.length) % 65536 }).finishWr w.id 0)) ∧
    (∀ ring seat d0,
      let d : Desc := { d0 with opcode := 0x08 }
      s.admits ring seat d none = true → (s.withWr ring seat d none).canStart (s.wrOf ring seat d none) = true →
      let w := s.wrOf ring seat d none
      let v := s.withStarted ring seat d none
      exec (.fence ring d0) s = .next (v.finishWr w.id (if w.waitedFail then 0x0B else 0))) ∧
    (∀ ring seat d0,
      let d : Desc := { d0 with opcode := 0x09 }
      s.admits ring seat d none = true → (s.withWr ring seat d none).canStart (s.wrOf ring seat d none) = true →
      let w := s.wrOf ring seat d none
      let v := s.withStarted ring seat d none
      exec (.countAdd ring d0) s = .next ((v.advTrig d.doneQpn d.imm.toNat).finishWr w.id 0)) ∧
    (∀ ring seat d0,
      let d : Desc := { d0 with opcode := 0x10 }
      s.admits ring seat d none = true → (s.withWr ring seat d none).canStart (s.wrOf ring seat d none) = true →
      let w := s.wrOf ring seat d none
      let v := s.withStarted ring seat d none
      exec (.winOpen ring d0) s = .next (let r := v.winOpen w.tile seat d
        (r.1.modWr w.id fun k => { k with key := r.2.2 }).finishWr w.id r.2.1)) ∧
    (∀ ring seat d0,
      let d : Desc := { d0 with opcode := 0x11 }
      s.admits ring seat d none = true → (s.withWr ring seat d none).canStart (s.wrOf ring seat d none) = true →
      let w := s.wrOf ring seat d none
      let v := s.withStarted ring seat d none
      exec (.winRevoke ring d0) s = .next (if 2 ^ v.winN ≤ d.rKey.toNat / 256 ∨ (v.window (d.rKey.toNat / 256)).state ≠ 1 ∨
          (v.window (d.rKey.toNat / 256)).gen ≠ d.rKey.toNat % 256 then v.finishWr w.id 0x04
        else if seat ≠ 0 ∧ (v.window (d.rKey.toNat / 256)).owner ≠ seat then v.finishWr w.id 0x02
        else v.revokeWin (d.rKey.toNat / 256) (some w.id) none)) ∧
    (∀ ring seat d0 c,
      let d : Desc := { d0 with opcode := 0x20 }
      s.admits ring seat d (some c) = true → (s.withWr ring seat d (some c)).canStart (s.wrOf ring seat d (some c)) = true →
      let w := s.wrOf ring seat d (some c)
      let v := s.withStarted ring seat d (some c)
      exec (.qpCreate ring d0 c) s = .next ((v.modQp d.qpn fun _ => {
        state := 1, ordered := c.ordered, notifyEn := c.notifyEn,
        owner := c.ownerSeat, cq := c.cqRing, rQpn := c.remoteQpn, rSw := c.remoteSw, backoff := c.backoff,
        retryLimit := c.retryLimit, maxOut := c.maxOut, rqLog2 := c.rqLog2, rqBase := c.rqBase.toNat }).finishWr w.id 0)) ∧
    (∀ ring seat d0,
      let d : Desc := { d0 with opcode := 0x21 }
      s.admits ring seat d none = true → (s.withWr ring seat d none).canStart (s.wrOf ring seat d none) = true →
      let w := s.wrOf ring seat d none
      let v := s.withStarted ring seat d none
      exec (.qpDestroy ring d0) s = .next ((v.modQp d.qpn fun k => { k with state := 2, destroyer := some w.id }).squashHeld d.qpn 0x06))

/-- A descriptor of a ring of a seat whose object is cached at its home tile with nothing parked for it, that passes the
checks of R213 with its protection unit on, and whose work request may start, takes an outstanding-work index and
starts. Then WRITE gathers LENGTH bytes from LOCAL_ADDR, and one of no bytes settles at once; READ sends one READ_REQ
for each piece cut at 1,024-byte boundaries of R_OFFSET and settles if it sent none; SEND takes the next message
number of its queue pair and gathers its data, and one of no bytes sends one packet without data and settles;
FETCH_ADD8, CMP_SWAP8 and CMP_SWAP16 gather an operand block of 8, 16 and 32 bytes. WORK_REQUEST_START of a held work
request at a present tile that may start starts it, unless it waits on a counter for which an earlier one that may
start waits too, when it changes nothing; of one that may not start it asks, where only writes not shown performed
hold it back, that they be shown, and starts nothing. (R214, R215, R217, R220) -/
def Obligations.EngineCommandsWithPackets : Prop :=
  ∀ s : State,
    (∀ ring seat d0,
      let d : Desc := { d0 with opcode := 0x01 }
      s.admits ring seat d none = true → (s.withWr ring seat d none).canStart (s.wrOf ring seat d none) = true →
      let w := s.wrOf ring seat d none
      let v := s.withStarted ring seat d none
      exec (.write ring d0) s = .next (if d.length = 0 then v.settleWr w.id else v.gatherWr (s.startedWr ring seat d none) d.length)) ∧
    (∀ ring seat d0,
      let d : Desc := { d0 with opcode := 0x02 }
      s.admits ring seat d none = true → (s.withWr ring seat d none).canStart (s.wrOf ring seat d none) = true →
      let w := s.wrOf ring seat d none
      let v := s.withStarted ring seat d none
      exec (.read ring d0) s = .next ((v.each (pktCuts (d.length + 1) d.rOffset d.length) fun x k =>
        x.sendWr (s.startedWr ring seat d none) d.rSw (x.winTile (d.rKey.toNat / 256))
          (x.wrHdr (s.startedWr ring seat d none) 1 k.1 k.2) []).settleWr w.id)) ∧
    (∀ ring seat d0,
      let d : Desc := { d0 with opcode := 0x03 }
      s.admits ring seat d none = true → (s.withWr ring seat d none).canStart (s.wrOf ring seat d none) = true →
      let w := s.wrOf ring seat d none
      let v := s.withStarted ring seat d none
      exec (.send ring d0) s = .next (let q := v.qp d.qpn
        let a := { s.startedWr ring seat d none with ssn := q.ssn }
        let u := (v.modQp d.qpn fun k => { k with ssn := (k.ssn + 1) % 65536 }).modWr w.id fun k => { k with ssn := q.ssn }
        if d.length = 0 then (u.sendWr a q.rSw (u.qpTile q.rQpn) (u.wrHdr a 3 0 0) []).settleWr w.id
        else u.gatherWr a d.length)) ∧
    (∀ ring seat d0,
      let d : Desc := { d0 with opcode := 0x05 }
      s.admits ring seat d none = true → (s.withWr ring seat d none).canStart (s.wrOf ring seat d none) = true →
      let v := s.withStarted ring seat d none
      exec (.fetchAdd8 ring d0) s = .next (v.gatherWr (s.startedWr ring seat d none) 8)) ∧
    (∀ ring seat d0,
      let d : Desc := { d0 with opcode := 0x06 }
      s.admits ring seat d none = true → (s.withWr ring seat d none).canStart (s.wrOf ring seat d none) = true →
      let v := s.withStarted ring seat d none
      exec (.cmpSwap8 ring d0) s = .next (v.gatherWr (s.startedWr ring seat d none) 16)) ∧
    (∀ ring seat d0,
      let d : Desc := { d0 with opcode := 0x07 }
      s.admits ring seat d none = true → (s.withWr ring seat d none).canStart (s.wrOf ring seat d none) = true →
      let v := s.withStarted ring seat d none
      exec (.cmpSwap16 ring d0) s = .next (v.gatherWr (s.startedWr ring seat d none) 32)) ∧
    (∀ id w, s.wr id = some w → s.here w.tile = true → s.canStart w = true →
      exec (.workRequestStart id) s = .next (if w.d.trig = true ∧ ((s.eng.wrs.takeWhile fun k => k.id != id).any fun k =>
          k.d.trig && k.d.trigQpn == w.d.trigQpn && s.canStart k) = true then s
        else s.startWr w)) ∧
    (∀ id w, s.wr id = some w → s.here w.tile = true → s.canStart w = false →
      exec (.workRequestStart id) s = .next (s.askShown w))

/-- For each descriptor command, with c none but for QP_CREATE, which carries a context: of a ring of no seat it changes
nothing; for a home tile that is lost it is counted TL_TILE_DROP; while its object is in the table but not cached, or
others are parked for it, it is parked where fewer than 256 are, and otherwise sets RM_MISS_STATUS.FULL_SEEN and
pauses its ring. Where it is served: if the seat refuses work, is in blackout, or one of the checks 1 to 5 of R213
fails with a code, the work request ends at once with that code; if not, and the seat's protection unit is off, a
descriptor with a local range, or WIN_OPEN, is held there, WIN_OPEN pausing its ring; if it passes all checks but may
not start, it is held behind those accepted before it where fewer than 8,192 are held at the tile, and what it waits
for is asked to be shown performed; where 8,192 are, RM_HOLD_STATUS.FULL_SEEN is set and its ring pauses. (R209, R213,
R214, R253, R346) -/
def Obligations.HeldAndFailedDescriptors : Prop :=
  ∀ (s : State) (ring seat : Nat) (d0 : Desc) (k : CtxInit),
    ∀ x ∈ ([(0x00, none, .nop ring d0), (0x01, none, .write ring d0), (0x02, none, .read ring d0), (0x03, none, .send ring d0),
      (0x04, none, .recvPost ring d0), (0x05, none, .fetchAdd8 ring d0), (0x06, none, .cmpSwap8 ring d0),
      (0x07, none, .cmpSwap16 ring d0), (0x08, none, .fence ring d0), (0x09, none, .countAdd ring d0),
      (0x10, none, .winOpen ring d0), (0x11, none, .winRevoke ring d0), (0x20, some k, .qpCreate ring d0 k),
      (0x21, none, .qpDestroy ring d0)] : List (Nat × Option CtxInit × Instr)),
    let d : Desc := { d0 with opcode := x.1 }
    let c := x.2.1
    let t := s.descTile seat d
    let u := s.descAt seat d
    let gives := fun (v : State) => exec x.2.2 s = .next v
    (s.workOwner ring = none → gives s) ∧
    (s.workOwner ring = some seat → s.here t = false →
      gives (s.count (s.seatHome s.leadEpoch seat) .tileDrop none (some seat))) ∧
    (s.workOwner ring = some seat → s.here t = true → ∀ isWin n, descKey d = some (isWin, n) →
      (s.isCached isWin t n = false ∨ (s.eng.parked.any fun j => j.isWin == isWin && j.key == n) = true) →
      n < 2 ^ (if isWin then s.winN else s.qpQ) →
      gives (if s.missUsed t < 256 then s.park t isWin n (.desc ring d c)
        else (s.sticky (missStatus t) 9).pauseRing ring)) ∧
    (s.servesDesc ring seat d = true → ∀ code,
      ((u.seatCode t seat).orElse fun _ => u.descCode t seat d c) = some code → gives (u.failDesc t seat ring d c code)) ∧
    (s.servesDesc ring seat d = true → u.seatCode t seat = none → u.descCode t seat d c = none → u.puOff t seat = true →
      ((localRange d).isSome = true ∨ x.1 = 0x10) →
      gives (let v := u.puHold t seat (.work ring d c)
        if x.1 = 0x10 then v.pauseRing ring else v)) ∧
    (s.admits ring seat d c = true → (s.withWr ring seat d c).canStart (s.wrOf ring seat d c) = false →
      gives (if (u.eng.wrs.countP fun j => j.tile == t && j.st == .held) < 8192
        then (s.withWr ring seat d c).askShown (s.wrOf ring seat d c) else (u.sticky (holdStatus t) 14).pauseRing ring))

/-- A request packet at its present home tile, its window entry or context in the table: while the owner is in blackout it
is answered 0x0A; with the entry cached and nothing parked for it, it is served; otherwise it is parked where fewer
than 256 are, and refused with NOT_READY and FULL_SEEN where 256 are. Served: a packet that a check of its window
fails is answered with the code and reported; one that passes counts in flight, and then a WRITE's bytes are issued on
the owner's port, a READ_REQ starts a DMA read of the window, one of no bytes answering at once, and an ATOMIC_REQ
issues an AtomicOp, or ends with 0x0A where the owner's partition may not issue. A NOTIFY of the peer of a ready
context with NOTIFY_EN advances its trigger counter and is acknowledged, and any other is refused with 0x03. A SEND
packet of another sender than the peer, or of a message number already consumed, is refused with 0x03; of a number
with no receive entry posted, or while the protection unit is off, with NOT_READY; it opens its message if it is the
first, and then: of an ended message it is refused with 0x03; of one longer than its entry, or whose buffer the unit
faults, it is refused with 0x03 and the message ends with 0x01 or 0x02; any other is issued at the entry's address
plus its offset. (R216, R217, R218, R220) -/
def Obligations.EnginePacketsAreServed : Prop :=
  ∀ s : State,
    (∀ h0 data, let h : EngHdr := { h0 with mtype := 0 }
      let v := s.touch (s.pktKey h).1 (s.pktKey h).2.2 (s.pktKey h).2.1
      let n := (s.pktKey h).2.2
      let i := h.keyOrImm.toNat / 256
      let p := v.seatPart v.leadEpoch (v.window i).owner
      let u := (v.modWindow i fun w => { w with inflight := w.inflight + 1 }).addIssue n (some i) h data
      s.servesPkt h = true →
      (∀ code, v.winCheck n h 1 data.length = some code → exec (.engineWritePacket h0 data) s = .next (v.winReject n h code)) ∧
      (v.winCheck n h 1 data.length = none → exec (.engineWritePacket h0 data) s =
        .next (u.issueWrite n p (v.window i).owner (v.window i).pasid v.idCtr ((v.window i).base + h.rOffset) data))) ∧
    (∀ h0, let h : EngHdr := { h0 with mtype := 1 }
      let v := s.touch (s.pktKey h).1 (s.pktKey h).2.2 (s.pktKey h).2.1
      let n := (s.pktKey h).2.2
      let i := h.keyOrImm.toNat / 256
      let p := v.seatPart v.leadEpoch (v.window i).owner
      let u := (v.modWindow i fun w => { w with inflight := w.inflight + 1 }).addIssue n (some i) h []
      s.servesPkt h = true →
      (∀ code, v.winCheck n h 0 h.length = some code → exec (.readReq h0) s = .next (v.winReject n h code)) ∧
      (v.winCheck n h 0 h.length = none → exec (.readReq h0) s = .next (if h.length = 0 then u.readDone v.idCtr 2 []
        else u.dmaStart n p (v.window i).owner (v.window i).pasid none (some v.idCtr) ((v.window i).base + h.rOffset)
          h.length))) ∧
    (∀ h0 data, let h : EngHdr := { h0 with mtype := 4 }
      let v := s.touch (s.pktKey h).1 (s.pktKey h).2.2 (s.pktKey h).2.1
      let n := (s.pktKey h).2.2
      let i := h.keyOrImm.toNat / 256
      let p := v.seatPart v.leadEpoch (v.window i).owner
      let u := (v.modWindow i fun w => { w with inflight := w.inflight + 1 }).addIssue n (some i) h data
      let len := atomLen (h.aop + 5)
      s.servesPkt h = true →
      (∀ code, v.winCheck n h 2 len = some code → exec (.atomicReq h0 data) s = .next (v.winReject n h code)) ∧
      (v.winCheck n h 2 len = none → exec (.atomicReq h0 data) s = .next (if u.canIssue p then
          u.form (u.upForm (u.tileEpoch n) n p (some (v.window i).owner) false (u.engClass n) (.issue v.idCtr)) .nonPosted
            (.req (ownReq .atomicOp ((v.window i).base + h.rOffset) len data (u.ffRid p) (v.window i).pasid (u.engClass n)))
        else u.issued v.idCtr 0x0A))) ∧
    (∀ h0, let h : EngHdr := { h0 with mtype := 8 }
      let v := s.touch (s.pktKey h).1 (s.pktKey h).2.2 (s.pktKey h).2.1
      let n := (s.pktKey h).2.2
      let q := v.qp h.dstQpn
      s.servesPkt h = true → exec (.notify h0) s =
        .next (if q.state = 1 ∧ q.notifyEn = true ∧ q.rSw = h.srcSw ∧ q.rQpn = h.qpn then
            (v.advTrig h.dstQpn 1).answer n h 6 0x00 []
          else v.answer n h 6 0x03 [])) ∧
    (∀ h0 (ea : Addr) el ew data, let h : EngHdr := { h0 with mtype := 3 }
      let v := s.touch (s.pktKey h).1 (s.pktKey h).2.2 (s.pktKey h).2.1
      let n := (s.pktKey h).2.2
      let k := h.dstQpn
      let q := v.qp k
      let m := h.ssn % 65536
      let old := q.recv.find? fun r => r.ssn == m
      let r : RecvMsg := old.getD { ssn := m, addr := ea.toNat, entryLen := el, wrId := ew, len := h.length, got := 0,
                                      imm := if h.immV then some h.keyOrImm else none, srcQpn := h.qpn, srcSw := h.srcSw }
      let u := if old.isNone then v.modQp k fun z => { z with recv := z.recv ++ [r] } else v
      let p := u.seatPart (v.tileEpoch n) q.owner
      let peer := q.state = 1 ∧ q.rSw = h.srcSw ∧ q.rQpn = h.qpn
      let used := old = none ∧ 1 ≤ modSub 65536 q.ci m ∧ modSub 65536 q.ci m ≤ 32768
      let posted := old ≠ none ∨ (1 ≤ modSub 65536 q.pi m ∧ modSub 65536 q.pi m ≤ 2 ^ q.rqLog2)
      let fault := if old.isNone then u.puCheck n q.owner 0 r.addr r.len [1] else none
      let gives := fun (z : State) => exec (.sendPacket h0 ea el ew data) s = .next z
      s.servesPkt h = true →
      (¬peer ∨ used → gives (v.answer n h 6 0x03 [])) ∧
      (peer → ¬used → (¬posted ∨ v.puOff n q.owner = true) → gives (v.notReadySend n h)) ∧
      (peer → ¬used → posted → v.puOff n q.owner = false →
        (r.done = true → gives (u.answer n h 6 0x03 [])) ∧
        (r.done = false → r.entryLen < r.len → gives ((u.answer n h 6 0x03 []).recvEnd n k m 0x01)) ∧
        (r.done = false → r.len ≤ r.entryLen → ∀ x, fault = some x → gives ((x.answer n h 6 0x03 []).recvEnd n k m 0x02)) ∧
        (r.done = false → r.len ≤ r.entryLen → fault = none → gives ((u.addIssue n none h data).issueWrite n p q.owner
          (u.seatPasid u.leadEpoch q.owner) u.idCtr (r.addr + h.rOffset) data)))) ∧
    (∀ h0 (ea : Addr) el ew data, ∀ x ∈ ([(0, data, 0, 0, 0, .engineWritePacket h0 data), (1, [], 0, 0, 0, .readReq h0),
        (3, data, ea, el, ew, .sendPacket h0 ea el ew data), (4, data, 0, 0, 0, .atomicReq h0 data),
        (8, [], 0, 0, 0, .notify h0)] : List (Nat × List Byte × Addr × Nat × BitVec 64 × Instr)),
      let h : EngHdr := { h0 with mtype := x.1 }
      let k := s.pktKey h
      let gives := fun (z : State) => exec x.2.2.2.2.2 s = .next z
      s.here k.2.2 = true → k.2.1 < 2 ^ (if k.1 then s.winN else s.qpQ) →
      (((s.objOwner k.1 k.2.1).any fun o => s.seatBlack k.2.2 o) = true → gives (s.answer k.2.2 h 6 0x0A [])) ∧
      (((s.objOwner k.1 k.2.1).any fun o => s.seatBlack k.2.2 o) = false → (s.isCached k.1 k.2.2 k.2.1 = false ∨
          (s.eng.parked.any fun j => j.isWin == k.1 && j.key == k.2.1) = true) →
        gives (if s.missUsed k.2.2 < 256 then s.park k.2.2 k.1 k.2.1 (.pkt h x.2.1
            (BitVec.ofNat 64 x.2.2.1.toNat) x.2.2.2.1 x.2.2.2.2.1)
          else (s.sticky (missStatus k.2.2) 9).notReadySend k.2.2 h)))

/-- At the requester's present tile: an answer that names no outstanding work request is counted RM_LATE_RESPONSE; a
READ_RESP writes its data at the packet's place of LOCAL_ADDR, an ATOMIC_RESP at LOCAL_ADDR, and each settles one
packet well; an ACK settles one with its code; NOT_READY puts the packet in back-off while its resends are fewer than
RETRY_LIMIT, and settles it with 0x05 otherwise. The end of a back-off counts and resends the packet, which settles
with 0x07 where it cannot be sent. A started work request with packets owed that times out ends with 0x08, and one
with none owed goes on. When a destroying queue pair has no work left its context is free, and the QP_DESTROY that
asked for it ends with 0. QP_TABLE_INIT takes its set-up fields and with INIT sets INIT_BUSY, and once READY only sets
INIT_REFUSED; when it is done while INIT_BUSY the contexts and the cache are empty, READY is set and INIT_BUSY clear,
and no other register, no set and no work request changes. CONTEXT_FETCH_DONE serves what waited. A completion to a
DMA read with an error status ends the read with 0x02 for a work request and 0x03 for a packet; a poisoned one with
0x09; one that fits no piece, or is cut wrongly, is counted MALFORMED and ends it with 0x08; any other adds its piece,
and the data complete so far goes to the work request, or, when all is there, to the packet's answer. (R205, R209,
R210, R215, R216, R220, R221, R223, R295) -/
def Obligations.EngineAnswersAndTables : Prop :=
  ∀ s : State,
    (∀ h data id w, s.here (s.qpTile h.qpn) = true → s.wrBySlot h = some id → s.wr id = some w →
      exec (.readResp h data) s = .next ((((s.hostWrite (s.tileEpoch (s.qpTile h.qpn)) (s.qpTile h.qpn)
        (s.seatPart s.leadEpoch w.seat) (some w.seat) false (s.seatPasid s.leadEpoch w.seat) .write
        (w.d.localAddr.toNat + (h.rOffset - w.d.rOffset)) data)).modWr w.id fun k =>
          { k with bytes := k.bytes + data.length }).wrAnswer w.id 0)) ∧
    (∀ h data id w, s.here (s.qpTile h.qpn) = true → s.wrBySlot h = some id → s.wr id = some w →
      exec (.atomicResp h data) s = .next ((((s.hostWrite (s.tileEpoch (s.qpTile h.qpn)) (s.qpTile h.qpn)
        (s.seatPart s.leadEpoch w.seat) (some w.seat) false (s.seatPasid s.leadEpoch w.seat) .write
        w.d.localAddr.toNat data)).modWr w.id fun k =>
          { k with bytes := k.bytes + data.length }).wrAnswer w.id 0)) ∧
    (∀ h data, s.here (s.qpTile h.qpn) = true → s.wrBySlot h = none →
      exec (.readResp h data) s = .next (s.count (s.qpTile h.qpn) .rmLateResponse) ∧
      exec (.atomicResp h data) s = .next (s.count (s.qpTile h.qpn) .rmLateResponse) ∧
      exec (.engineAck h) s = .next (s.count (s.qpTile h.qpn) .rmLateResponse) ∧
      exec (.notReady h) s = .next (s.count (s.qpTile h.qpn) .rmLateResponse)) ∧
    (∀ h id, s.here (s.qpTile h.qpn) = true → s.wrBySlot h = some id →
      exec (.engineAck h) s = .next (s.wrAnswer id h.code)) ∧
    (∀ h id w, s.here (s.qpTile h.qpn) = true → s.wrBySlot h = some id → s.wr id = some w →
      let made := w.resent.countP fun r => r.1 == h.rOffset
      exec (.notReady h) s = .next (if made < (s.qp w.d.qpn).retryLimit
        then s.modWr w.id fun k => { k with refused := k.refused ++ [(h.rOffset, made)] } else s.wrAnswer w.id 0x05)) ∧
    (∀ id o w, s.wr id = some w → w.st = .started → (w.refused.any fun r => r.1 == o) = true → s.here w.tile = true →
      let u := (s.modWr id fun k => { k with refused := k.refused.filter (fun r => r.1 != o),
                                             resent := k.resent ++ [(o, 0)], retries := k.retries + 1 }).count w.tile
        .rmRetry none (some w.seat)
      let b := u.rebuild w o
      let r := u.sendEng w.tile b.1 b.2.1 w.seat (u.qp w.d.qpn).ordered b.2.2.1 b.2.2.2
      exec (.notReadyBackoff id o) s = .next (if r.2 then r.1 else r.1.wrAnswer id 0x07)) ∧
    (∀ id w, s.wr id = some w → w.st = .started → s.here w.tile = true →
      exec (.workRequestTimeout id) s = .next (if w.owed ≠ 0 then s.finishWr id 0x08 else s)) ∧
    (∀ n, (s.qp n).state = 2 → s.wrsOf n = [] → s.here (s.qpTile n) = true →
      exec (.qpDestroyDone n) s = .next (match (s.qp n).destroyer with
        | some w => (s.modQp n fun _ => {}).finishWr w 0
        | none => s.modQp n fun _ => {})) ∧
    (∀ v, s.qpReady = true → exec (.qpTableInit v) s = .next (s.sticky 0x0014001C 2)) ∧
    (∀ v, s.qpReady = false → exec (.qpTableInit v) s =
      .next (if bit v 5 then (s.plainWrite 0x00140010 v).setFlag 0x0014001C 1 true else s.plainWrite 0x00140010 v)) ∧
    (s.flag 0x0014001C 1 = true → ∃ t, exec .qpTableInitDone s = .next t ∧ t.flag 0x0014001C 0 = true ∧
      t.flag 0x0014001C 1 = false ∧ t.eng.qps = [] ∧ t.eng.lru = [] ∧ t.eng.wrs = s.eng.wrs ∧
      s.regsKept t [0x0014001C] ∧ s.setsKept t) ∧
    (∀ n k, s.here n = true → s.qpReady = true → s.qpTile k = n → k < 2 ^ s.qpQ →
      exec (.contextFetchDone n k) s = .next (s.fetchDone false n k)) ∧
    (∀ id c d, (s.host.dmas.find? fun x => x.id == id) = some d →
      let a := c.addr.toNat
      let n := c.data.length
      let piece := d.reqs.find? fun r => r.1 == a && decide (r.1 < r.2)
      let cutOk := fun (r : Nat × Nat) => n ≠ 0 ∧ a + n ≤ r.2 ∧ (a + n < r.2 → (a + n) % 64 = 0 ∧ c.last = false)
      let malformed := ((s.count d.tile .malformed).dmaEnd id 0x08).dmaForget id
      let gives := fun (z : State) => exec (.dmaReadCompletion id c) s = .next z
      (c.status ≠ .sc → gives ((s.dmaEnd id (if d.wr.isSome then 0x02 else 0x03)).dmaForget id)) ∧
      (c.status = .sc → c.poisoned = true → gives ((s.dmaEnd id 0x09).dmaForget id)) ∧
      (c.status = .sc → c.poisoned = false →
        (piece = none → gives malformed) ∧
        (∀ r, piece = some r → ¬cutOk r → gives malformed) ∧
        (∀ r, piece = some r → cutOk r →
          let d' : Dma := { d with reqs := d.reqs.map (fun q => if q = r then (a + n, r.2) else q),
                                   pieces := d.pieces ++ [(a - d.start, c.data)] }
          let full := d'.reqs.all fun q => q.1 == q.2
          let buf := gather d'.pieces (d'.pieces.length + 1) 0
          let u : State := { s with host := { s.host with
            dmas := if full then s.host.dmas.filter (fun k => k.id != id)
                    else s.host.dmas.map fun k => if k.id = id then d' else k } }
          let v := if full then u.dmaForget id else u
          gives (match d.wr, d.issue with
            | some w, _ => v.wrData w buf
            | none, some i => if full then v.readDone i 2 buf else v
            | none, none => v))))

/-- At the present home tile of an enabled partition, a poisoned doorbell or mailbox write is dropped, counted and logged,
and one not by the page's seat is counted ST_DB_REFUSED, with ST_UNSEATED where its sender has no seat. A
RING_DOORBELL (to bells 0 to 7) or POOL_DOORBELL that is an aligned write of 4 bytes to a ring the seat owns, of an
active seat not in blackout, is held while the ring is handed over and otherwise takes its index to the ring; any
other is refused, counted and marked. BAR2_ATOMIC is counted ST_DB_REFUSED and answered Unsupported Request.
MBX_T2M_WRITE of 4 or 8 aligned bytes within the 64 is stored while TO_MGR is not full; any other is dropped and
marked. T2M_POST copies the 16 words, sets TO_MGR full and tells seat 0, or, full already, is dropped and marked.
M2T_ACK of a full mailbox frees it and tells seat 0, and otherwise changes nothing. On an open path: a write of the
control word (T2M_ACK, M2T_POST) stores its plain fields; its ACK bit frees a full TO_MGR and tells the seat; its POST
bit latches the 16 words, sets TO_SEAT full and tells the seat, or sets the sticky bit where it is full already;
MBX_M2T_WRITE stores its word, or sets that bit where TO_SEAT is full. (R231, R232, R233, R234) -/
def Obligations.DoorbellsAndMailboxes : Prop :=
  ∀ s : State,
    (∀ p who seat k r, s.partEn (s.entryEpoch p) p = true → s.here (s.homeTile (s.entryEpoch p) p) = true →
      let e := s.entryEpoch p
      let n := s.homeTile e p
      let gives := fun (z : State) => exec (.ringDoorbell p who seat k r) s = .next z
      (r.poisoned = true → gives (s.poisonedWrite p)) ∧
      (r.poisoned = false → s.onPage e p who seat r = false → gives (s.pageRefused e p none (s.seatOf e p who r.pasid).isNone)) ∧
      (r.poisoned = false → s.onPage e p who seat r = true →
        let q := 8 * seat + k
        let refused := (s.pageRefused e p (some seat) false).sticky (stStatus n seat) 6
        let ok := r.kind = .memWrite ∧ r.data.length = 4 ∧ r.addr.toNat % 4 = 0 ∧ k < 8 ∧ s.ringOwner e q = some seat ∧
          s.takesDb n seat = true
        (¬ok → gives refused) ∧
        (ok → gives (if (s.ringSt q).oldOwner.isSome then s.modRing q fun x => { x with heldDb := some (ofBytes (r.data.take 2)) }
          else s.ringBell n seat q (ofBytes (r.data.take 2)))))) ∧
    (∀ p who seat r, s.partEn (s.entryEpoch p) p = true → s.here (s.homeTile (s.entryEpoch p) p) = true →
      let e := s.entryEpoch p
      let n := s.homeTile e p
      let gives := fun (z : State) => exec (.poolDoorbell p who seat r) s = .next z
      (r.poisoned = true → gives (s.poisonedWrite p)) ∧
      (r.poisoned = false → s.onPage e p who seat r = false → gives (s.pageRefused e p none (s.seatOf e p who r.pasid).isNone)) ∧
      (r.poisoned = false → s.onPage e p who seat r = true →
        let q := 32768 + ofBytes r.data / 65536 % 32768
        let refused := (s.pageRefused e p (some seat) false).sticky (stStatus n seat) 6
        let ok := r.kind = .memWrite ∧ r.data.length = 4 ∧ r.addr.toNat % 4 = 0 ∧ s.ringOwner e q = some seat ∧
          s.takesDb n seat = true
        (¬ok → gives refused) ∧
        (ok → gives (if (s.ringSt q).oldOwner.isSome then s.modRing q fun x => { x with heldDb := some (ofBytes (r.data.take 2)) }
          else s.ringBell n seat q (ofBytes (r.data.take 2)))))) ∧
    (∀ p who seat r, s.partEn (s.entryEpoch p) p = true → s.here (s.homeTile (s.entryEpoch p) p) = true →
      exec (.bar2Atomic p who seat r) s = .next ((s.count (s.homeTile (s.entryEpoch p) p) .stDbRefused none
        (some seat)).barReply (s.entryEpoch p) p who r .ur [])) ∧
    (∀ p who seat off r, s.partEn (s.entryEpoch p) p = true → s.here (s.homeTile (s.entryEpoch p) p) = true →
      let e := s.entryEpoch p
      let gives := fun (z : State) => exec (.mbxT2mWrite p who seat off r) s = .next z
      (r.poisoned = true → gives (s.poisonedWrite p)) ∧
      (r.poisoned = false → s.onPage e p who seat r = false → gives (s.pageRefused e p none (s.seatOf e p who r.pasid).isNone)) ∧
      (r.poisoned = false → s.onPage e p who seat r = true →
        let fits := (r.data.length = 4 ∨ r.data.length = 8) ∧ off % r.data.length = 0 ∧ off + r.data.length ≤ 64
        (s.t2mFull seat = false → fits → gives (s.modSeat seat fun q => { q with t2m := wordsInto q.t2m off r.data })) ∧
        ((s.t2mFull seat = true ∨ ¬fits) → gives (s.modSeat seat fun q => { q with dropped := true })))) ∧
    (∀ p who seat r, s.partEn (s.entryEpoch p) p = true → s.here (s.homeTile (s.entryEpoch p) p) = true →
      let e := s.entryEpoch p
      let gives := fun (z : State) => exec (.t2mPost p who seat r) s = .next z
      (r.poisoned = true → gives (s.poisonedWrite p)) ∧
      (r.poisoned = false → s.onPage e p who seat r = false → gives (s.pageRefused e p none (s.seatOf e p who r.pasid).isNone)) ∧
      (r.poisoned = false → s.onPage e p who seat r = true →
        (s.t2mFull seat = false → gives ((((s.each (List.range 16) fun x i =>
          x.setLv (stMbx seat i) (tget 0 (x.seatSt seat).t2m i)).setFlag (stMbxCtrl seat) 0 true)).event 0 0x0001 seat
            (s.mbxTile seat) [])) ∧
        (s.t2mFull seat = true → gives (s.modSeat seat fun q => { q with dropped := true })))) ∧
    (∀ p who seat r, s.partEn (s.entryEpoch p) p = true → s.here (s.homeTile (s.entryEpoch p) p) = true →
      let e := s.entryEpoch p
      let gives := fun (z : State) => exec (.m2tAck p who seat r) s = .next z
      (r.poisoned = true → gives (s.poisonedWrite p)) ∧
      (r.poisoned = false → s.onPage e p who seat r = false → gives (s.pageRefused e p none (s.seatOf e p who r.pasid).isNone)) ∧
      (r.poisoned = false → s.onPage e p who seat r = true →
        gives (if s.m2tBusy seat then (s.setFlag (stMbxCtrl seat) 2 false).event 0 0x0002 seat (s.mbxTile seat) [] else s))) ∧
    (∀ via seat v, s.viaOpen via = true → s.here (s.mbxTile seat) = true →
      ∀ x ∈ ([(v ||| 2, .t2mAck via seat v), (v ||| 8, .m2tPost via seat v)] : List (Word × Instr)),
      let u := s.plainWrite (stMbxCtrl seat) x.1
      let a := if bit x.1 1 && u.t2mFull seat then
        (u.setFlag (stMbxCtrl seat) 0 false).event seat 0x0002 seat (u.mbxTile seat) [] else u
      exec x.2 s = .next (if bit x.1 3 then
          if a.m2tBusy seat then a.sticky (stMbxCtrl seat) 4
          else ((a.modSeat seat fun q => { q with m2t := (List.range 16).foldl (fun m i =>
            tset 0 m i (a.lv (stMbx seat (16 + i)))) [] }).setFlag (stMbxCtrl seat) 2 true).event seat 0x0001 seat (a.mbxTile seat) []
        else a)) ∧
    (∀ via seat off v, s.viaOpen via = true → s.here (s.mbxTile seat) = true → off % 4 = 0 → off < 64 →
      exec (.mbxM2tWrite via seat off v) s = .next (if s.m2tBusy seat then s.sticky (stMbxCtrl seat) 4
        else s.setLv (stMbx seat (16 + off / 4)) v))

/-- A write of a seat's control word on a present tile over an open path, of seat 0 only out of band, as SEAT_RESET,
SEAT_REMOVE, SEAT_ESCALATE (its bit set) or SEAT_STOP (the stop bit changed from what the manager holds), stores its
plain fields; then, in this order, a changed stop bit issues the manager's stop or release of the seat, RESET and
REMOVE command the seat, with SQUASH or without, and ESCALATE squashes it. RESET of an active seat, and REMOVE, start
its drain, squashing with SQUASH; REMOVE of a seat that drains also closes it. DRAIN_TIMEOUT of a seat that drains
with work outstanding sets DRAIN_TIMEOUT on every present tile and squashes it; with none outstanding it changes
nothing. SEAT_RESET_DONE of a seat that drains or is squashed with nothing outstanding resets its rings, clears its
mailboxes if it closes or was rebound, makes it active, closed, or what its new binding says, sets RESET_DONE on every
present tile and tells seat 0. POOL_RING_HANDOVER of a ring that is handed over and no longer busy sets its index to
0, ends the handover, and delivers a held doorbell to a new owner; of one still busy it changes nothing. (R237, R239,
R240, R299) -/
def Obligations.SeatCommandsComplete : Prop :=
  ∀ s : State,
    (∀ via t seat v, s.viaOpen via = true → s.here t = true → seat < 4096 → (seat ≠ 0 ∨ via = .bridge ∨ via = .mgmtPort) →
      ∀ x ∈ ([(putBit v 1 true, .seatReset via t seat v), (putBit v 3 true, .seatRemove via t seat v),
        (putBit v 4 true, .seatEscalate via t seat v),
        (putBit v 0 (!s.mgrHolds t 2 seat), .seatStop via t seat v)] : List (Word × Instr)),
      let u := s.plainWrite (stCtrl t seat) x.1
      let a := if bit x.1 0 != u.mgrHolds t 2 seat then
        (u.issueStop (if via = .bridge ∨ via = .mgmtPort then 15 else t) 2 seat (bit x.1 0)).1 else u
      let cmd := fun (z : State) (remove squash : Bool) =>
        if (z.seatSt seat).st = 1 then z.seatStart z.leadEpoch seat remove squash
        else if (z.seatSt seat).st = 2 ∨ (z.seatSt seat).st = 3 then
          let y := if remove then z.modSeat seat fun q => { q with closing := true } else z
          if squash then y.seatSquash seat else y
        else z
      let b := if bit x.1 1 then cmd a false (bit x.1 2) else a
      let c := if bit x.1 3 then cmd b true (bit x.1 2) else b
      exec x.2 s = .next (if bit x.1 4 then c.seatSquash seat else c)) ∧
    (∀ seat, (s.seatSt seat).st = 2 → exec (.drainTimeout seat) s = .next (if s.seatIdle seat then s
      else (s.each s.present fun x t => x.sticky (stStatus t seat) 5).seatSquash seat)) ∧
    (∀ seat, let q := s.seatSt seat
      (q.st = 2 ∨ q.st = 3) → s.seatIdle seat = true →
      let a := s.each (s.ringsOf s.leadEpoch seat) State.resetRing
      let b := if q.closing || q.rebound then a.clearMbx seat else a
      let c := b.modSeat seat fun k => { k with
        st := if q.rebound then (if b.bound b.leadEpoch seat then 1 else 0) else if q.closing then 4 else 1,
        closing := false, rebound := false }
      exec (.seatResetDone seat) s = .next ((c.each c.present fun x t => x.sticky (stStatus t seat) 4).event
        0 0x0003 seat (s.mbxTile seat) [])) ∧
    (∀ r o, (s.ringSt r).oldOwner = some o → s.ringBusy r = false →
      let u := (s.setLv (ringReg r 6) 0).modRing r fun q => { q with oldOwner := none, heldDb := none }
      exec (.poolRingHandover r) s = .next (match (s.ringSt r).heldDb, u.ringOwner u.leadEpoch r with
        | some i, some seat => u.ringBell (u.seatHome u.leadEpoch seat) seat r i
        | _, _ => u)) ∧
    (∀ r o, (s.ringSt r).oldOwner = some o → s.ringBusy r = true → exec (.poolRingHandover r) s = .next s)

/-- On a present tile: PU_DISABLE stores the control word with DISABLE 1 and nothing else; PU_DISABLED sets the status bit
of a unit that is off, and of one that is on changes nothing; PU_ENABLE stores the word with DISABLE 0, clears that
bit and lets the held accesses of the seat go in order. PU_HOLD_TIMEOUT of a held access ends it as a protection fault
and then lets go the fences that now stand first; of a held fence it changes nothing. PU_EDIT of a record that is
refused writes the edit's result and nothing else; an accepted one writes result 0 and the record's five words in both
copies and leaves the held accesses and the packets. PU_EDIT_DONE sets VALID. PU_VIOLATION_INTERVAL_END with no
violation counted closes the interval, and otherwise reports the count and stays open at 0. (R252, R253, R254, R255) -/
def Obligations.ProtectionUnitCommands : Prop :=
  ∀ s : State,
    (∀ t seat v, s.here t = true → exec (.puDisable t seat v) s = .next (s.plainWrite (puCtrl t seat) (v ||| 1))) ∧
    (∀ t seat, s.here t = true →
      exec (.puDisabled t seat) s = .next (if s.puOff t seat then s.setFlag (puStatus t seat) 0 true else s)) ∧
    (∀ t seat v, s.here t = true → exec (.puEnable t seat v) s =
      .next (((s.plainWrite (puCtrl t seat) (v &&& ~~~1)).setFlag (puStatus t seat) 0 false).releaseHeld t seat)) ∧
    (∀ t id h, (s.pu.held.find? fun k => k.id == id && k.tile == t) = some h →
      (∀ p who r e, h.item = .fence p who r e → exec (.puHoldTimeout t id) s = .next s) ∧
      ((∀ p who r e, h.item ≠ .fence p who r e) → exec (.puHoldTimeout t id) s = .next (State.freeFences (State.heldFault
        { s with pu := { s.pu with held := s.pu.held.filter fun k => k.id != id } } h) t h.seat))) ∧
    (∀ agent t v, let r := field v 11 0
      let w := fun i => s.lv (puEditData agent t i)
      let res := s.puEditResult t r (puDecode w)
      s.here t = true → res ≠ 0 →
      exec (.puEdit agent t v) s = .next (s.setLv (puEditSel agent t) (BitVec.ofNat 32 (r + res * 2 ^ 24)))) ∧
    (∀ agent t v, let r := field v 11 0
      let w := fun i => s.lv (puEditData agent t i)
      s.here t = true → s.puEditResult t r (puDecode w) = 0 →
      ∃ u, exec (.puEdit agent t v) s = .next u ∧ u.fld (puEditSel agent t) 31 24 = 0 ∧ u.pu = s.pu ∧ u.pkts = s.pkts ∧
        ∀ e i, i < 5 → u.conf e (puRule t r i) =
          w i &&& setMask (puRule t r i)) ∧
    (∀ agent t, s.here t = true → exec (.puEditDone agent t) s = .next (s.setFlag (puEditSel agent t) 31 true)) ∧
    (∀ t seat v, tget none s.pu.viol (puKey t seat) = some v → v.n = 0 →
      exec (.puViolationIntervalEnd t seat) s = .next (s.setViol (puKey t seat) none)) ∧
    (∀ t seat v, tget none s.pu.viol (puKey t seat) = some v → v.n ≠ 0 → exec (.puViolationIntervalEnd t seat) s =
      .next ((s.puReport t seat v).setViol (puKey t seat) (some { v with n := 0 })))

/-- SCHEDULING_ROUND of an operating tile refills its buckets, notes its time, recolours the first waiting red packet of
each meter, sets each withheld seat by its backlog, and then arrivals go on. SCHEDULE_PACKET_START of a ready port
starts its first management packet that nothing stalls; without one, held at its peak rate, it starts nothing; else it
carries the packet that the scheduler chooses, if any; of a port that is not ready it changes nothing. TAKEOVER_ARM
writes the control word with ARM 1 and TAKEOVER_CANCEL with CANCEL 1: an ARM while none is armed arms it and notes
whether its time has passed, and a CANCEL disarms it. TAKEOVER of an armed block of an operating tile first lets the
time up to the takeover time pass, if it has not; then the block uses its other queue set, is disarmed, sets its done
bit, and sets LATE if the arming was late. BACKLOG_READ latches the seat; BACKLOG_READ_DONE shows its bytes and
whether it is withheld, sets VALID, and changes no other register, no set and nothing of the schedulers. (R264, R266,
R271, R278) -/
def Obligations.SchedulingCommands : Prop :=
  ∀ s : State,
    (∀ t, s.operates t = true →
      let r := s.refill (s.tileEpoch t) t
      let c := (r.modSch fun c => { c with roundAt := tset 0 c.roundAt t (r.tileFt t) }).recolour t
      exec (.schedulingRound t) s = .next (State.releaseArrivals (c.each (c.sch.withheld.filter fun k => k / 4096 == t)
        fun x k => x.setWithheld t (k % 4096)))) ∧
    (∀ port, let mg := (s.portQueue port).find? fun p => p.mgmt && !s.stalls port p
      (s.portReady port = false → exec (.schedulePacketStart port) s = .next s) ∧
      (s.portReady port = true → ∀ p, mg = some p → exec (.schedulePacketStart port) s = .next (s.startPkt port p)) ∧
      (s.portReady port = true → mg = none → exec (.schedulePacketStart port) s =
        .next (if s.portHeld port (s.tileEpoch (tileOf port)) then s
          else match s.portChoice port with
            | some x => s.carry port x
            | none => s))) ∧
    (∀ pb v, s.here (pb / 8) = true →
      ∀ x ∈ ([(v ||| 2, .takeoverArm pb v), (v ||| 4, .takeoverCancel pb v)] : List (Word × Instr)),
      let u := s.plainWrite (scCtrl pb) x.1
      let a := if bit x.1 1 && !u.flag (scCtrl pb) 3 then (u.setFlag (scCtrl pb) 3 true).modSch fun c =>
        { c with late := c.late.filter (· != pb) ++ if decide (u.takeoverTime pb < u.tileFt (pb / 8)) then [pb] else [] } else u
      exec x.2 s = .next (if bit x.1 2 then (a.setFlag (scCtrl pb) 3 false).modSch fun c =>
        { c with late := c.late.filter (· != pb) } else a)) ∧
    (∀ pb, s.operates (pb / 8) = true → s.flag (scCtrl pb) 3 = true →
      let r := s.reach (·.tileFt (pb / 8)) (s.takeoverTime pb)
      let u := (r.setFlag (scCtrl pb) 0 (!r.flag (scCtrl pb) 0)).setFlag (scCtrl pb) 3 false
      let w := (u.sticky (scCtrl pb) 4).modSch fun c => { c with late := c.late.filter (· != pb) }
      exec (.takeover pb) s = .next (if r.sch.late.contains pb then w.sticky (scCtrl pb) 5 else w)) ∧
    (∀ agent t v, s.here t = true →
      exec (.backlogRead agent t v) s = .next (s.setLv (backlogSel agent t) (v &&& 0xFFF#32))) ∧
    (∀ agent t, s.here t = true → ∃ u, exec (.backlogReadDone agent t) s = .next u ∧
      u.lv (backlogSel agent t + 4) = BitVec.ofNat 32 (s.backlog t (s.fld (backlogSel agent t) 11 0) % 2 ^ 18 +
        b2n (s.withheld t (s.fld (backlogSel agent t) 11 0)) * 2 ^ 18) ∧ u.flag (backlogSel agent t) 31 = true ∧
      s.regsKept u [backlogSel agent t, backlogSel agent t + 4] ∧ s.setsKept u ∧ u.sch = s.sch)

/-- Number of a ring below 65536: RING_ENABLE on a ring that is neither enabled nor busy stores the set-up fields with EN
1 and starts the ring; on one that is busy or enabled it stores only the two free fields, marks WR_IGNORED when the
set-up fields differ, and starts a ring only where EN reads 0. RING_DISABLE likewise, stopping an enabled ring.
RING_FETCH offers entries already fetched unless the ring is paused or its home tile is not running; else, where the
ring may fetch, it issues the read of the next entries, or ends in failure cause 0 where the partition may not issue;
else nothing. RING_FETCH_COMPLETE of a fetch in progress ends it: good entries are stored and offered; UR, CA, poison,
time-out and malformed fail with causes 0 to 4; with no fetch it changes nothing. RING_FETCH_RESUME writes word 7 with
bit 2. RECORD_WRITE writes the oldest record of the owning seat to a completion ring (TYPE 1) or of an event ring
(TYPE 2) when there is room; a full completion ring marks CQ_FULL, a full event ring waits, and no record, no EN, no
owner or a lost home change nothing. SHADOW_WRITE writes the 4-byte index when the shadow is on and due.
IRQ_MOD_TIMEOUT signals a ring that has unsignalled records, and else changes nothing. (R283, R285, R286, R287, R290,
R291) -/
def Obligations.RingsComplete : Prop :=
  ∀ s : State,
    (∀ r v, r < 65536 → s.ringEn r = false → s.ringBusy r = false →
      let u := s.setLv (ringReg r 0) ((s.lv (ringReg r 0) &&& ~~~(setupMask ||| 0x300#32)) |||
        (putBit v 0 true &&& (setupMask ||| 0x300#32)))
      exec (.ringEnable r v) s = .next (if u.ringEn r then u else u.ringOn r)) ∧
    (∀ r v, r < 65536 → s.ringEn r || s.ringBusy r → let w := putBit v 0 true
      let q := if (w &&& setupMask) != (s.lv (ringReg r 0) &&& setupMask) then s.sticky (ringReg r 7) 4 else s
      let u := q.setLv (ringReg r 0) ((q.lv (ringReg r 0) &&& ~~~0x300#32) ||| (w &&& 0x300#32))
      exec (.ringEnable r v) s = .next (if u.ringEn r then u else u.ringOn r)) ∧
    (∀ r v, r < 65536 → s.ringEn r = false → s.ringBusy r = false →
      let u := s.setLv (ringReg r 0) ((s.lv (ringReg r 0) &&& ~~~(setupMask ||| 0x300#32)) |||
        (putBit v 0 false &&& (setupMask ||| 0x300#32)))
      exec (.ringDisable r v) s = .next (if u.ringEn r then u.ringOff r else u)) ∧
    (∀ r v, r < 65536 → s.ringEn r || s.ringBusy r → let w := putBit v 0 false
      let q := if (w &&& setupMask) != (s.lv (ringReg r 0) &&& setupMask) then s.sticky (ringReg r 7) 4 else s
      let u := q.setLv (ringReg r 0) ((q.lv (ringReg r 0) &&& ~~~0x300#32) ||| (w &&& 0x300#32))
      exec (.ringDisable r v) s = .next (if u.ringEn r then u.ringOff r else u)) ∧
    (∀ r seat, s.workOwner r = some seat → (s.ringSt r).got = [] → s.canFetch r seat = true →
      s.canIssue (s.seatPart s.leadEpoch seat) = true →
      let u := s.modRing r fun q => { q with fetching := true, fetchN := s.fetchLen r, paused := false }
      exec (.ringFetch r) s = .next (u.hostRead (u.tileEpoch (s.seatHome s.leadEpoch seat)) (s.seatHome s.leadEpoch seat)
        (s.seatPart s.leadEpoch seat) (some seat) (seat == 0) (u.seatPasid s.leadEpoch seat) (.ringFetch r)
        (u.ringBase r + 64 * (u.hwIndex r % u.ringLen r)) (64 * s.fetchLen r))) ∧
    (∀ r seat, s.workOwner r = some seat → (s.ringSt r).got = [] → s.canFetch r seat = true →
      s.canIssue (s.seatPart s.leadEpoch seat) = false → exec (.ringFetch r) s = .next (s.ringFail r 0)) ∧
    (∀ r seat, s.workOwner r = some seat → (s.ringSt r).got ≠ [] →
      exec (.ringFetch r) s = .next (if s.ringPaused r || !s.here (s.seatHome s.leadEpoch seat) then s
        else s.acceptGot r (s.ringSt r).got.length)) ∧
    (∀ r seat, s.workOwner r = some seat → (s.ringSt r).got = [] → s.canFetch r seat = false →
      exec (.ringFetch r) s = .next s) ∧
    (∀ r l, (s.ringSt r).fetching = true →
      let u := (s.modRing r fun q => { q with fetching := false }).modRing r fun q => { q with got := l.take q.fetchN }
      exec (.ringFetchComplete r .ok l) s = .next (u.acceptGot r (u.ringSt r).got.length)) ∧
    (∀ r l, (s.ringSt r).fetching = true → let u := s.modRing r fun q => { q with fetching := false }
      exec (.ringFetchComplete r .ur l) s = .next (u.ringFail r 0) ∧
      exec (.ringFetchComplete r .ca l) s = .next (u.ringFail r 1) ∧
      exec (.ringFetchComplete r .poisoned l) s = .next (u.ringFail r 2) ∧
      exec (.ringFetchComplete r .timeout l) s = .next (u.ringFail r 3) ∧
      exec (.ringFetchComplete r .malformed l) s = .next (u.ringFail r 4)) ∧
    (∀ r how l, (s.ringSt r).fetching = false → exec (.ringFetchComplete r how l) s = .next s) ∧
    (∀ r v, r < 65536 → exec (.ringFetchResume r v) s = .next (s.plainWrite (ringReg r 7) (putBit v 2 true))) ∧
    (∀ r seat b, s.servedOwner r = some seat → s.ringEn r = true → s.here (s.seatHome s.leadEpoch seat) = true →
      s.ringType r = 1 → ((s.ringSt r).recs.find? fun x => x.1 == seat) = some b →
      exec (.recordWrite r) s = .next (if s.ringFull r then s.sticky (ringReg r 7) 1
        else (s.modRing r fun q => { q with recs := q.recs.erase b }).recordOut r seat b.2)) ∧
    (∀ r seat b bs, s.servedOwner r = some seat → s.ringEn r = true → s.here (s.seatHome s.leadEpoch seat) = true →
      s.ringType r = 2 → (s.ringSt r).evs = b :: bs → exec (.recordWrite r) s =
      .next (if s.ringFull r then s else (s.modRing r fun q => { q with evs := bs }).recordOut r seat b)) ∧
    (∀ r, (s.servedOwner r = none ∨ s.ringEn r = false ∨
        (s.ringType r = 1 ∧ (s.ringSt r).recs = []) ∨ (s.ringType r = 2 ∧ (s.ringSt r).evs = []) ∨
        (∃ seat, s.servedOwner r = some seat ∧ s.here (s.seatHome s.leadEpoch seat) = false)) →
      exec (.recordWrite r) s = .next s) ∧
    (∀ r seat, s.servedOwner r = some seat → s.here (s.seatHome s.leadEpoch seat) = true →
      s.flag (ringReg r 0) 9 = true → (s.ringSt r).shadowDue = true →
      exec (.shadowWrite r) s = .next ((s.modRing r fun q => { q with shadowDue := false }).hostWrite
        (s.tileEpoch (s.seatHome s.leadEpoch seat)) (s.seatHome s.leadEpoch seat) (s.seatPart s.leadEpoch seat)
        (some seat) (seat == 0) (s.seatPasid s.leadEpoch seat) .record (s.ringShadow r) (leBytes 4 (s.hwIndex r)))) ∧
    (∀ r, (s.flag (ringReg r 0) 9 = false ∨ (s.ringSt r).shadowDue = false) → exec (.shadowWrite r) s = .next s) ∧
    (∀ r seat, s.servedOwner r = some seat → s.here (s.seatHome s.leadEpoch seat) = true → s.irqRing r = true →
      (s.ringSt r).sinceSig ≠ 0 → exec (.irqModTimeout r) s = .next (s.signal r seat)) ∧
    (∀ r, (s.irqRing r = false ∨ (s.ringSt r).sinceSig = 0) → exec (.irqModTimeout r) s = .next s)

/-- On an idle command unit: REG_WRITE at an aligned offset below 256 MB of a tile that is present writes the register as
seat 0 and completes with 0, REG_READ completes with the register's value, a misaligned one with 0x01, one of a lost
tile with 0x07; both opcodes also with 0x01 at an offset of 256 MB or above; STOP of kind 3 completes with 0x0C, a
stop that is ignored completes with 0 and any other is issued with the next stop number and completes at once where
the stop already holds everywhere; BARRIER completes; WAIT_FT completes at once when its instant is not after the
fabric time, else it waits, and WAIT_FT_REACHED says that the instant of the first started WAIT_FT of its ring has
come and completes it and changes nothing where there is none. Each record then goes to its ring. On a ring that is no
served TYPE 3 ring of seat 0, none of the five commands has an effect. (R298) -/
def Obligations.ManagementCommandsComplete : Prop :=
  ∀ s : State,
    (∀ r c, let d : Cmd := { c with opcode := 0x40 }
      s.cmdRing r = true → s.host.cmds = [] → c.offset.toNat % 4 = 0 → c.offset.toNat < 0x10000000 → s.lostReg c.offset.toNat = false →
      exec (.regWrite r c) s = .next ((((s.taking r d).regWrite .command c.offset.toNat c.data).cmdEnds s.idCtr 0 0).recordsOut)) ∧
    (∀ r c, let d : Cmd := { c with opcode := 0x41 }
      s.cmdRing r = true → s.host.cmds = [] → c.offset.toNat % 4 = 0 → c.offset.toNat < 0x10000000 → s.lostReg c.offset.toNat = false →
      exec (.regRead r c) s = .next (((s.taking r d).cmdEnds s.idCtr 0
        ((s.taking r d).regRead .command c.offset.toNat)).recordsOut)) ∧
    (∀ r c, let d : Cmd := { c with opcode := 0x41 }
      let d' : Cmd := { c with opcode := 0x40 }
      s.cmdRing r = true → s.host.cmds = [] → (c.offset.toNat % 4 ≠ 0 ∨ 0x10000000 ≤ c.offset.toNat) →
      exec (.regRead r c) s = .next (((s.taking r d).cmdEnds s.idCtr 0x01 0).recordsOut) ∧
      exec (.regWrite r c) s = .next (((s.taking r d').cmdEnds s.idCtr 0x01 0).recordsOut)) ∧
    (∀ r c, let d : Cmd := { c with opcode := 0x41 }
      let d' : Cmd := { c with opcode := 0x40 }
      s.cmdRing r = true → s.host.cmds = [] → c.offset.toNat % 4 = 0 → c.offset.toNat < 0x10000000 → s.lostReg c.offset.toNat = true →
      exec (.regRead r c) s = .next (((s.taking r d).cmdEnds s.idCtr 0x07 0).recordsOut) ∧
      exec (.regWrite r c) s = .next (((s.taking r d').cmdEnds s.idCtr 0x07 0).recordsOut)) ∧
    (∀ r c, let d : Cmd := { c with opcode := 0x42 }
      s.cmdRing r = true → s.host.cmds = [] → c.kind % 4 = 3 → exec (.stop r c) s = .next (((s.taking r d).cmdEnds s.idCtr 0x0C 0).recordsOut)) ∧
    (∀ r c, let d : Cmd := { c with opcode := 0x42 }
      let u := s.taking r d
      let x := u.issueStop u.mgrTile (c.kind % 4) (c.target % 4096) (!c.clear)
      s.cmdRing r = true → s.host.cmds = [] → c.kind % 4 ≠ 3 → s.stopIgnored (c.kind % 4) (c.target % 4096) = true →
      exec (.stop r c) s = .next ((x.1.cmdEnds s.idCtr 0 0).recordsOut)) ∧
    (∀ r c, let d : Cmd := { c with opcode := 0x42 }
      let u := s.taking r d
      let v := (u.issueStop u.mgrTile (c.kind % 4) (c.target % 4096) (!c.clear)).1.modCmd s.idCtr fun k =>
        { k with stop := some s.host.stopCtr }
      s.cmdRing r = true → s.host.cmds = [] → c.kind % 4 ≠ 3 → s.stopIgnored (c.kind % 4) (c.target % 4096) = false →
      exec (.stop r c) s = .next (State.recordsOut
        (if v.host.stops.any fun m => m.id == s.host.stopCtr then v else v.cmdEnds s.idCtr 0 0))) ∧
    (∀ r c, let d : Cmd := { c with opcode := 0x43 }
      s.cmdRing r = true → s.host.cmds = [] → exec (.barrier r c) s = .next (((s.taking r d).cmdEnds s.idCtr 0 0).recordsOut)) ∧
    (∀ r c, let d : Cmd := { c with opcode := 0x44 }
      s.cmdRing r = true → s.host.cmds = [] → waitTime c ≤ s.tm.ft →
      exec (.waitFt r c) s = .next (((s.taking r d).cmdEnds s.idCtr 0 0).recordsOut)) ∧
    (∀ r c, let d : Cmd := { c with opcode := 0x44 }
      s.cmdRing r = true → s.host.cmds = [] → s.tm.ft < waitTime c → exec (.waitFt r c) s = .next (s.taking r d)) ∧
    (∀ r c, (s.host.cmds.find? fun c => c.ring == r && c.started && c.cmd.opcode == 0x44 && c.result.isNone) = some c →
      exec (.waitFtReached r) s = .next ((s.reach (·.tm.ft) (waitTime c.cmd)).cmdEnds c.id 0 0).pump) ∧
    (∀ r, (∀ c ∈ s.host.cmds, c.ring = r → c.started = true → c.cmd.opcode = 0x44 → c.result ≠ none) →
      exec (.waitFtReached r) s = .next s) ∧
    (∀ r c, s.cmdRing r = false → exec (.regWrite r c) s = .next s ∧ exec (.regRead r c) s = .next s ∧
      exec (.stop r c) s = .next s ∧ exec (.barrier r c) s = .next s ∧ exec (.waitFt r c) s = .next s)

/-- A register write at an aligned offset below 256 MB is made and the command unit goes on; at any other offset nothing
happens. TL_STOP_APPLY and TL_STOP_RELEASE write the register with CLEAR 0 or 1 where the agent's block is open, else
nothing; STOP_PROPAGATE applies a waiting stop on a tile it reaches and then lets the command unit go on. While the
bridge runs (the stage manager out of reset, VDD_IO good): a bridge write with a good PEC at a valid offset is made
and leaves STATUS 0, or only sets STATUS 2 where no service link reaches the register; a bridge read answers the
bridge's data, a bad PEC, a misaligned offset or one of 256 MB or above is NACKed and has no other effect, and the
status transaction answers STATUS; a bridge time-out is counted and answers 0xFFFFFFFF on the management port, or the
late reply on the bridge; an I3C write of the command bytes 0xB1 (8 bytes), 0xB2 (4 bytes) and 0xB4 carries the same
write, read and status; an I3C read answers the reply held, or the data of the read in progress (0x04 while not
ready), or nothing; ENTDAA stores 7 address bits; the management port writes and reads 4-byte aligned words, holds no
reply after another length or offset, does not write past a dead service link and reads all ones with the time-out
counted there. While the stage manager is reset the bridge, I3C and management port do nothing, and while VDD_IO is
lost the bridge and I3C do nothing. (R48, R299, R300, R301, R302, R303, R304) -/
def Obligations.StopsBridgeAndManagementPort : Prop :=
  ∀ s : State,
    (∀ via o v, exec (.registerWrite via o v) s =
      .next (if o % 4 = 0 ∧ o < 0x10000000 then (s.regWrite via o v).pump else s)) ∧
    (∀ agent t v, exec (.tlStopApply agent t v) s =
      .next (if s.agentOpen agent t then (s.stopAct agent t (putBit v 14 false)).pump else s)) ∧
    (∀ agent t v, exec (.tlStopRelease agent t v) s =
      .next (if s.agentOpen agent t then (s.stopAct agent t (putBit v 14 true)).pump else s)) ∧
    (∀ t id m, (s.host.stops.find? fun m => m.id == id && m.waiting.contains t) = some m →
      exec (.stopPropagate t id) s = .next (if s.stopReaches t m then s.stopAt t m else s).pump) ∧
    (∀ t id, (s.host.stops.find? fun m => m.id == id && m.waiting.contains t) = none →
      exec (.stopPropagate t id) s = .next s.pump) ∧
    (∀ o v, s.ilulysReset = false → s.pwr.io = true → o % 4 = 0 → o < 0x10000000 → exec (.bridgeWrite o v true) s =
      .next (if s.linkDead o then s.modBridge fun b => { b with status := 2 }
        else (s.regWrite .bridge o v).pump.modBridge fun b => { b with status := 0 })) ∧
    (∀ o v ok, s.ilulysReset = false → s.pwr.io = true → (ok = false ∨ o % 4 ≠ 0 ∨ 0x10000000 ≤ o) →
      exec (.bridgeWrite o v ok) s = .next (s.emit .bridgeNack) ∧ exec (.bridgeRead o ok) s = .next (s.emit .bridgeNack)) ∧
    (∀ o, s.ilulysReset = false → s.pwr.io = true → o % 4 = 0 → o < 0x10000000 →
      exec (.bridgeRead o true) s = .next (s.used.emit (.bridgeReply (s.bridgeData o)))) ∧
    (s.ilulysReset = false → s.pwr.io = true → exec .bridgeStatus s = .next (s.emit (.bridgeReply (leBytes 1 s.host.bridge.status)))) ∧
    (s.ilulysReset = false → exec (.hkBridgeTimeout true) s =
      .next ((s.countHk 8).modBridge fun b => { b with mgmtReply := some 0xFFFFFFFF#32 })) ∧
    (s.ilulysReset = false → s.pwr.io = true → exec (.hkBridgeTimeout false) s = .next (match s.host.bridge.readOff with
      | none => (s.countHk 8).emit (.bridgeReply lateReply)
      | some _ => (s.countHk 8).modBridge fun b => { b with readOff := none, reply := lateReply, replyReady := true })) ∧
    (∀ b0 b1 b2 b3 v0 v1 v2 v3 : Byte, exec (.i3cPrivateWrite [0xB1, 8, b0, b1, b2, b3, v0, v1, v2, v3]) s =
      if ofBytes [b0, b1, b2, b3] % 4 = 0 ∧ ofBytes [b0, b1, b2, b3] < 0x10000000 then
        exec (.bridgeWrite (ofBytes [b0, b1, b2, b3]) (BitVec.ofNat 32 (ofBytes [v0, v1, v2, v3])) true) s else .next s) ∧
    (∀ b0 b1 b2 b3 : Byte, s.ilulysReset = false → s.pwr.io = true → ofBytes [b0, b1, b2, b3] % 4 = 0 → ofBytes [b0, b1, b2, b3] < 0x10000000 →
      exec (.i3cPrivateWrite [0xB2, 4, b0, b1, b2, b3]) s = .next (s.modBridge fun b =>
        { b with readOff := some (ofBytes [b0, b1, b2, b3]), replyReady := false, reply := [] })) ∧
    (s.ilulysReset = false → s.pwr.io = true → exec (.i3cPrivateWrite [0xB4]) s = .next (s.modBridge fun b =>
      { b with readOff := none, reply := leBytes 1 b.status, replyReady := true })) ∧
    (∀ rd, s.ilulysReset = false → s.pwr.io = true → s.host.bridge.replyReady = true → exec (.i3cPrivateRead rd) s =
      .next ((s.emit (.bridgeReply s.host.bridge.reply)).modBridge fun b => { b with replyReady := false, reply := [] })) ∧
    (∀ o, s.ilulysReset = false → s.pwr.io = true → s.host.bridge.replyReady = false → s.host.bridge.readOff = some o →
      exec (.i3cPrivateRead true) s = .next ((s.used.emit (.bridgeReply (s.bridgeData o))).modBridge fun b =>
        { b with readOff := none }) ∧
      exec (.i3cPrivateRead false) s = .next (s.emit (.bridgeReply (leBytes 1 0x04)))) ∧
    (∀ rd, s.host.bridge.replyReady = false → s.host.bridge.readOff = none → exec (.i3cPrivateRead rd) s = .next s) ∧
    (∀ a, s.ilulysReset = false → s.pwr.io = true →
      exec (.entdaa a) s = .next (s.modBridge fun b => { b with i3cAddr := some (a % 128) })) ∧
    (∀ o len wr, s.ilulysReset = false → (len ≠ 4 ∨ o % 4 ≠ 0 ∨ 0x10000000 ≤ o) →
      exec (.mgmtPortAccess o len wr) s = .next (s.modBridge fun b => { b with mgmtReply := none })) ∧
    (∀ o v, s.ilulysReset = false → o % 4 = 0 → o < 0x10000000 → exec (.mgmtPortAccess o 4 (some v)) s =
      .next (if s.linkDead o then s else (s.regWrite .mgmtPort o v).pump)) ∧
    (∀ o, s.ilulysReset = false → o % 4 = 0 → o < 0x10000000 → exec (.mgmtPortAccess o 4 none) s =
      .next (if s.linkDead o then (s.countHk 8).modBridge fun b => { b with mgmtReply := some 0xFFFFFFFF#32 }
        else s.modBridge fun b => { b with mgmtReply := some (s.regRead .mgmtPort o) })) ∧
    (∀ o len v wr ok rd m l a, s.ilulysReset = true →
      exec (.bridgeWrite o v ok) s = .next s ∧ exec (.bridgeRead o ok) s = .next s ∧ exec .bridgeStatus s = .next s ∧
      exec (.hkBridgeTimeout m) s = .next s ∧ exec (.i3cPrivateWrite l) s = .next s ∧
      exec (.i3cPrivateRead rd) s = .next s ∧ exec (.entdaa a) s = .next s ∧
      exec (.mgmtPortAccess o len wr) s = .next s) ∧
    (∀ o v ok rd l a, s.pwr.io = false →
      exec (.bridgeWrite o v ok) s = .next s ∧ exec (.bridgeRead o ok) s = .next s ∧ exec .bridgeStatus s = .next s ∧
      exec (.hkBridgeTimeout false) s = .next s ∧ exec (.i3cPrivateWrite l) s = .next s ∧
      exec (.i3cPrivateRead rd) s = .next s ∧ exec (.entdaa a) s = .next s)

/-- A counter read at an agent that is present latches its counter and its end shows in LO and HI the 48-bit value, OVF
and the unknown-number flag, sets VALID and leaves the counters; a noted wrap is told to the manager once. CT_PROG of
a present tile is stored, and its counter starts at 0 when the word changed. Arming a snapshot clears DONE, sets ARMED
and forgets the blocks copied unless one is armed; SNAPSHOT of an armed, present, uncopied block waits for the instant
and copies its counters; SNAPSHOT_DONE clears ARMED and sets DONE when the stage manager and every present tile have
copied, else nothing. A histogram clear stores the word and zeroes 32 bins; enabling a capture that was off zeroes its
index and countdown. A captured record is taken off its queue and, where the partition is enabled, written at its
index, which rises and is written after it. A minute mark already open latches a present tile's billing sums once; a
contribution of a latched tile adds them once and closes the collection with the last; the deadline closes a
collection in progress. A correctable ECC error is counted; an uncorrectable one is counted, told to the manager and
given its effect; a scrub has no effect of its own. The injection commands store ECC_CTRL and arm the injections its
bits ask for. None of the tile commands acts on a tile that is not present. (R311, R312, R314, R316, R319, R320, R322,
R324, R327, R342, R343, R352) -/
def Obligations.CountersAndTelemetry : Prop :=
  ∀ s : State,
    (∀ agent v, exec (.counterRead agent v) s = .next (if s.agentHere agent then s.cntAct agent v else s)) ∧
    (∀ agent c, s.agentHere agent = true → tget none s.tel.counted agent = some c →
      ∃ t, exec (.counterReadDone agent) s = .next t ∧ t.lv (cntSel agent + 4) = BitVec.ofNat 32 c.1.n ∧
        t.lv (cntSel agent + 8) =
          BitVec.ofNat 32 (c.1.n / 2 ^ 32 % 65536 + b2n c.1.ovf * 2 ^ 16 + b2n c.2 * 2 ^ 17) ∧
        t.flag (cntSel agent) 31 = true ∧ t.tel.ctr = s.tel.ctr ∧
        s.regsKept t [cntSel agent, cntSel agent + 4, cntSel agent + 8] ∧ s.setsKept t) ∧
    (∀ agent, (s.agentHere agent = false ∨ tget none s.tel.counted agent = none) → exec (.counterReadDone agent) s = .next s) ∧
    (∀ block i x, (s.tel.wraps.find? fun x => x.2 == 256 * block + i) = some x →
      exec (.counterWrap block i) s = .next ((s.modTel fun k => { k with wraps := k.wraps.erase x }).eventMgr 0x0150
        (if block < 8 then block else 15) (leBytes 2 (x.2 % 65536) ++ leBytes 1 x.1))) ∧
    (∀ t k v, s.here t = true → k < 32 → let u := s.plainWrite (ctProg t k) v
      exec (.ctProgWrite t k v) s = .next (if u.lv (ctProg t k) = s.lv (ctProg t k) then u
        else u.modTel fun q => { q with
          ctr := tset {} q.ctr (ctrKey 0 (256 * t + 128 + k)) {}, fresh := q.fresh.filter fun x => x.key != 256 * t + 128 + k })) ∧
    (∀ v, let u := s.plainWrite snapCtrl (v ||| 1)
      exec (.snapshotArm v) s = .next (if u.flag snapCtrl 1 then u
        else ((u.setFlag snapCtrl 1 true).setFlag snapCtrl 2 false).modTel fun k => { k with snapDone := [] })) ∧
    (∀ b, exec (.snapshot b) s =
      .next (if s.flag snapCtrl 1 ∧ s.tel.snapDone.contains b = false ∧ s.agentHere b then (s.snapReach b).snapCopy b else s)) ∧
    exec .snapshotDone s = .next (if s.flag snapCtrl 1 ∧ (8 :: s.present).all s.tel.snapDone.contains then
        (s.setFlag snapCtrl 1 false).setFlag snapCtrl 2 true else s) ∧
    (∀ t h v, s.here t = true → h < 8 → exec (.histogramClear t h v) s =
      .next ((s.plainWrite (ctHist t h) (putBit v 30 true)).modTel fun k => {
        k with ctr := (List.range 32).foldl (fun m b => tset {} m (ctrKey 4 (256 * t + 32 * h + b)) {}) k.ctr })) ∧
    (∀ t c v, s.here t = true → c < 4 → let u := s.plainWrite (ctCap t c 0) (putBit v 0 true)
      exec (.captureEnable t c v) s = .next (if s.flag (ctCap t c 0) 0 then u
        else (u.setFld (ctCap t c 7) 15 0 0).modCap t c fun k => { k with countdown := 0 })) ∧
    (∀ t c b bs, (s.cap t c).queue = b :: bs → s.here t = true → c < 4 →
      s.partEn (s.tileEpoch t) (s.fld (ctCap t c 0) 28 21) = false →
      exec (.captureRecordWrite t c) s = .next (s.modCap t c fun k => { k with queue := bs })) ∧
    (∀ t c b bs, let e := s.tileEpoch t
      let p := s.fld (ctCap t c 0) 28 21
      let svc := s.fld (ctCap t c 0) 12 10
      let u := s.modCap t c fun k => { k with queue := bs }
      let i := u.fld (ctCap t c 7) 15 0
      (s.cap t c).queue = b :: bs → s.here t = true → c < 4 → u.partEn e p = true →
      exec (.captureRecordWrite t c) s = .next
        (let w := (u.hostWriteAs svc e t p none false none .write (u.addr2 (ctCap t c 3) 128 + i % u.capSize t c * 128) b).setFld
          (ctCap t c 7) 15 0 ((i + 1) % 65536)
        w.hostWriteAs svc e t p none false none .write (w.addr2 (ctCap t c 5) 4) (leBytes 4 ((i + 1) % 65536)))) ∧
    (∀ t, s.here t = true → markOf (s.tileFt t) ≤ s.tel.markAt → s.tel.deferred = false →
      s.tel.latchedTiles.contains t = false → s.tel.collecting = true →
      ∃ u, exec (.minuteMarkLatch t) s = .next u ∧ u.tel.latchedTiles = s.tel.latchedTiles ++ [t] ∧
        u.tel.bo = s.tel.bo.filter (fun x => !(x.1 / 4096 == t)) ∧
        u.tel.latched = (s.tel.bo.filter fun x => x.1 / 4096 == t).foldl (fun l x => tmod {} l x.1 x.2.plus) s.tel.latched ∧
        u.live = s.live ∧ s.setsKept u) ∧
    (∀ t, s.here t = true → markOf (s.tileFt t) ≤ s.tel.markAt → s.tel.latchedTiles.contains t = true →
      exec (.minuteMarkLatch t) s = .next s) ∧
    (∀ t, s.tel.latchedTiles.contains t = true → s.tel.gotTiles.contains t = false → s.here t = true →
      let u := s.modTel fun k =>
        { k with
          sum := (k.latched.filter fun x => x.1 / 4096 == t).foldl (fun l x => tmod {} l (x.1 % 4096) x.2.plus) k.sum,
          latched := k.latched.filter (fun x => !(x.1 / 4096 == t)), gotTiles := k.gotTiles ++ [t] }
      exec (.boContribution t) s =
        .next (if u.tel.collecting && u.part.tiles.all u.tel.gotTiles.contains then u.boClose else u)) ∧
    (∀ t, (s.tel.latchedTiles.contains t = false ∨ s.tel.gotTiles.contains t = true) → exec (.boContribution t) s = .next s) ∧
    exec .boCollectDeadline s = .next (if s.tel.collecting then s.boClose else s) ∧
    (∀ t, exec (.eccCorrectable t) s = .next (s.count t .eccCorr)) ∧
    (∀ t st, s.operates t = true → let u := s.count t .eccUncorr
      exec (.eccUncorrectable t st) s = .next (State.eccEffect (u.used.eventMgr 0x0103 t
        (leBytes 1 (eccIndex st) ++ leBytes 3 0 ++ leBytes 4 u.freeW.toNat)) t st)) ∧
    (∀ t st, s.operates t = false → exec (.eccUncorrectable t st) s = .next s) ∧
    (∀ t, exec (.eccScrub t) s = .next s) ∧
    (∀ t v, s.here t = true → let u := injCell t (s.plainWrite (tileBase t + 0xE008) (putBit v 1 true))
      exec (.injCell t v) s = .next (if bit v 2 then injTable t u else u)) ∧
    (∀ t v, s.here t = true → let u := s.plainWrite (tileBase t + 0xE008) (putBit v 2 true)
      exec (.injTable t v) s = .next (injTable t (if bit v 1 then injCell t u else u))) ∧
    (∀ t v k h c, s.here t = false → exec (.ctProgWrite t k v) s = .next s ∧ exec (.histogramClear t h v) s = .next s ∧
      exec (.captureEnable t c v) s = .next s ∧ exec (.captureRecordWrite t c) s = .next s ∧
      exec (.minuteMarkLatch t) s = .next s ∧ exec (.boContribution t) s = .next s ∧
      exec (.injCell t v) s = .next s ∧ exec (.injTable t v) s = .next s)

/-- The loss of a present tile has the effects of a lost tile, and that of an absent one takes what a tile that was cut
off still held; either way the command unit then goes on. A lost tile of the part whose rails are good and which is
not hot, with no window of its own being revoked, rejoins while the stage manager serves: it is present again; a tile
that is not lost, that is hot or whose rails are not good, or any tile while the stage manager does not serve, does
not rejoin and nothing changes. Losing the service link of a tile that operates and is not headless sets HEADLESS, its
sticky bit and HOLDOVER, clears QUALIFIED and keeps what QUALIFIED read before, and it changes no packet, set word or
other register; of any other tile it has no effect. The return, while the stage manager serves, clears HEADLESS, lets
the slave slew, delivers the slot commands held and sends the events of the Ilulys die that waited; of a tile that is
not headless or does not operate it has no effect. (R16, R30, R346, R348) -/
def Obligations.TileLossAndRejoin : Prop :=
  ∀ s : State,
    (∀ t, s.here t = false → exec (.tileLoss t) s = .next (s.stopTile t).pump) ∧
    (∀ t, s.here t = true → exec (.tileLoss t) s = .next (s.loseTileAs t false).pump) ∧
    (∀ t, s.part.hasTile t = true → s.cont.lost.contains t = true → s.railsOk t = true → s.pwr.hot.contains t = false →
      s.ilulysReset = false → s.fld 0x00020000 3 0 = 4 →
      s.win.tbl.filter (fun x => s.winTile x.1 == t && x.2.state == 2) = [] →
      ∃ u, exec (.tileRejoin t) s = .next u ∧ u.here t = true) ∧
    (∀ t, (s.cont.lost.contains t = false ∨ s.railsOk t = false ∨ s.pwr.hot.contains t = true ∨ s.ilulysReset = true ∨
      s.fld 0x00020000 3 0 ≠ 4) → exec (.tileRejoin t) s = .next s) ∧
    (∀ t, s.operates t = true → s.headless t = false →
      ∃ u, exec (.serviceLinkLoss t) s = .next u ∧ u.flag (tlStatus t) 0 = true ∧ u.flag (tlStatus t) 3 = true ∧
        u.flag (slaveStatus t) 8 = false ∧ u.flag (slaveStatus t) 9 = true ∧
        u.pwr.qualAtLoss.contains t = s.flag (slaveStatus t) 8 ∧
        s.regsKept u [tlStatus t, slaveStatus t] ∧ s.setsKept u ∧ u.pkts = s.pkts) ∧
    (∀ t, (s.operates t = false ∨ s.headless t = true) → exec (.serviceLinkLoss t) s = .next s) ∧
    (∀ t, s.operates t = true → s.headless t = true → s.ilulysReset = false → s.fld bootStatus 3 0 ≠ 5 →
      let u := (s.setFlag (tlStatus t) 0 false).modTm fun m => { m with slewing := tset false m.slewing t true }
      exec (.serviceLinkReturn t) s = .next (State.dieEventsOut
        (u.each (u.slots.filter fun x => tileOf x.1 == t && x.2.held.isSome) fun v x => match x.2.held with
          | some op => (v.modSlot x.1 fun k => { k with held := none }).slotDeliver x.1 op
          | none => v))) ∧
    (∀ t, (s.operates t = false ∨ s.headless t = false ∨ s.ilulysReset = true) →
      exec (.serviceLinkReturn t) s = .next s)

/-- While the stage manager runs, for a channel below 128: a waiting enable or disable of a slot is taken off the
channel's commands and carried out; one of a register or sequencer likewise where no slot owns the channel, and where
one does it is refused. MGR_OFF set (or cleared) by a write stores SP_CTRL and hands on the enable and disable bits of
the write, and the MGR_OFF command when the bit changes. A tick stores VSENSE and VOUT, VIN and VIN_OK, takes the
commands that wait, steps the thermal model with the sensed current of a gate that is on, shows TEMP and LIMITING;
then, for a gate that is on, a latched fast over-current trips with cause 1, a temperature at TTRIP with cause 2; a
limiting channel counts its timer, trips with cause 3 at FAULT_TO and else loses power good; one that is not limiting
clears the timer, loses power good below the threshold, and after 2000 clear ticks is given it. With the stage manager
in reset a channel whose gate is off still measures and steps its model and keeps its timer and latch. For a sequencer
entry below 32, arming stores the entry with ARMED and notes whether it is late; firing an armed entry waits for the
tick at or after its instant, clears ARMED, sets FIRED, marks and counts a late one, writes MGR_OFF and carries out
the operation, and an unarmed one does nothing. While the stage manager is reset none of the commands but the tick has
an effect. (R357, R359, R363, R368) -/
def Obligations.SlotPowerCommandsComplete : Prop :=
  ∀ s : State,
    (∀ ch, ch < 128 → s.ilulysReset = false → exec (.spEnable ch true) s =
      .next ((s.modSp ch fun k => { k with cmds := k.cmds.erase (0, true) }).spEnable ch)) ∧
    (∀ ch, ch < 128 → s.ilulysReset = false → exec (.spDisable ch true) s =
      .next ((s.modSp ch fun k => { k with cmds := k.cmds.erase (1, true) }).spDisable ch)) ∧
    (∀ ch, ch < 128 → s.ilulysReset = false → (s.slotOf ch).isSome = true →
      exec (.spEnable ch false) s = .next ((s.modSp ch fun k => { k with cmds := k.cmds.erase (0, false) }).spRefuse ch) ∧
      exec (.spDisable ch false) s = .next ((s.modSp ch fun k => { k with cmds := k.cmds.erase (1, false) }).spRefuse ch)) ∧
    (∀ ch, ch < 128 → s.ilulysReset = false → s.slotOf ch = none →
      exec (.spEnable ch false) s = .next ((s.modSp ch fun k => { k with cmds := k.cmds.erase (0, false) }).spEnable ch) ∧
      exec (.spDisable ch false) s = .next ((s.modSp ch fun k => { k with cmds := k.cmds.erase (1, false) }).spDisable ch)) ∧
    (∀ ch v, ch < 128 → s.ilulysReset = false →
      let a := s.plainWrite (spReg ch 0) (v ||| 4)
      let b := if bit v 0 then a.spAccept ch 0 false else a
      let c := if bit v 1 then b.spAccept ch 1 false else b
      exec (.mgrOffSet ch v) s = .next (if s.flag (spReg ch 0) 2 then c else c.spAccept ch 2 false)) ∧
    (∀ ch v, ch < 128 → s.ilulysReset = false →
      let a := s.plainWrite (spReg ch 0) (v &&& 3)
      let b := if bit v 0 then a.spAccept ch 0 false else a
      let c := if bit v 1 then b.spAccept ch 1 false else b
      exec (.mgrOffClear ch v) s = .next (if s.flag (spReg ch 0) 2 then c.spAccept ch 3 false else c)) ∧
    (∀ ch vs vo vi lim, ch < 128 →
      let a := s.setLv (spReg ch 0x18) (BitVec.ofNat 32 (vs % 4096 + vo % 4096 * 65536))
      let b := (a.setLv (spVin ch)
        (BitVec.ofNat 32 (vi % 4096 + b2n (decide (a.fld 0x00802020 11 0 ≤ vi % 4096)) * 4096))).spTake ch
      let on := b.gateOn ch
      let c := b.stepModel ch (if on then vs % 4096 else 0) (vi % 4096 - vo % 4096)
      let d := (c.setLv (spReg ch 0x1C) (BitVec.ofNat 32 (lowBits 16 ((c.spSt ch).temp / 1024)))).setFlag
        (spStatus ch) 7 (on && lim)
      let up := d.modSp ch fun k => { k with timer := k.timer + 1 }
      let ok := d.modSp ch fun k => { k with timer := 0 }
      let good := ok.modSp ch fun k => { k with clear := min 2000 (k.clear + 1) }
      (on = false → exec (.slotPowerTick ch vs vo vi lim) s = .next d) ∧
      (on = true → (d.spSt ch).latched = true → exec (.slotPowerTick ch vs vo vi lim) s = .next (d.trip ch 1)) ∧
      (on = true → (d.spSt ch).latched = false → deg (d.ttrip ch) ≤ (d.spSt ch).temp →
        exec (.slotPowerTick ch vs vo vi lim) s = .next (d.trip ch 2)) ∧
      (on = true → (d.spSt ch).latched = false → (d.spSt ch).temp < deg (d.ttrip ch) → lim = true →
        exec (.slotPowerTick ch vs vo vi lim) s =
          .next (if up.faultTo ch ≤ (up.spSt ch).timer then up.trip ch 3 else up.pgLose ch)) ∧
      (on = true → (d.spSt ch).latched = false → (d.spSt ch).temp < deg (d.ttrip ch) → lim = false →
        exec (.slotPowerTick ch vs vo vi lim) s = .next (if vo % 4096 < ok.pgTh ch then ok.pgLose ch
          else if 2000 ≤ (good.spSt ch).clear then good.pgGive ch else good))) ∧
    (∀ ch vs vo vi lim, ch < 128 → s.ilulysReset = true →
      let a := s.setLv (spReg ch 0x18) (BitVec.ofNat 32 (vs % 4096 + vo % 4096 * 65536))
      let u := a.setLv (spVin ch) (BitVec.ofNat 32 (vi % 4096 + b2n (decide (a.fld 0x00802020 11 0 ≤ vi % 4096)) * 4096))
      u.gateOn ch = false →
      ∃ t, exec (.slotPowerTick ch vs vo vi lim) s = .next t ∧
        t.lv (spReg ch 0x18) = BitVec.ofNat 32 (vs % 4096 + vo % 4096 * 65536) ∧
        (t.spSt ch).timer = (s.spSt ch).timer ∧ (t.spSt ch).latched = (s.spSt ch).latched ∧
        t.fld (spReg ch 0x1C) 15 0 = lowBits 16 ((t.spSt ch).temp / 1024) ∧ s.setsKept t) ∧
    (∀ e v, e < 32 → s.ilulysReset = false →
      let u := s.plainWrite (spSeq e 3) (v ||| 0x200)
      exec (.spSeqArm e v) s = .next { u with seqLate := (u.seqLate.filter fun x => x != e) ++
        (if u.flag (spSeq e 3) 9 && decide (u.seqTime e < u.tm.ft) then [e] else []) }) ∧
    (∀ e, e < 32 → s.ilulysReset = false → s.flag (spSeq e 3) 9 = true →
      let r := s.reach (·.tm.ft) (ceilDiv (max (s.seqTime e) s.tm.ft) 1000 * 1000)
      let a := (r.setFlag (spSeq e 3) 9 false).setFlag (spSeq e 3) 11 true
      let b := if r.seqLate.contains e then (a.setFlag (spSeq e 3) 10 true).countHk 25 else a
      let c := { b with seqLate := b.seqLate.filter (· != e) }
      let ch := c.fld (spSeq e 3) 6 0
      let op := c.fld (spSeq e 3) 8 7
      exec (.spSeqFire e) s = .next ((if op = 2 then c.setFlag (spReg ch 0) 2 true
        else if op = 3 then c.setFlag (spReg ch 0) 2 false else c).spApply ch op false)) ∧
    (∀ e, s.flag (spSeq e 3) 9 = false → exec (.spSeqFire e) s = .next s) ∧
    (∀ ch e v b, s.ilulysReset = true → exec (.spEnable ch b) s = .next s ∧ exec (.spDisable ch b) s = .next s ∧
      exec (.mgrOffSet ch v) s = .next s ∧ exec (.mgrOffClear ch v) s = .next s ∧
      exec (.spSeqArm e v) s = .next s ∧ exec (.spSeqFire e) s = .next s)

/-- For a channel below 128: a fast over-current of a gate that is on latches, and once latched trips with cause 1; a
thermal trip raises the model to TTRIP and trips with cause 2; a fault timer trip of a channel that is LIMITING trips
with cause 3; none of the four acts on a gate that is off. The gate of a channel in STOPPING goes off, and a held
enable then starts it again while the stage manager runs. A start that waits for VIN (OFF with START_WAIT) ramps when
VIN is good and fails with cause 4 when its time is out; without START_WAIT neither acts. Power good of a channel that
ramps or is on, is not limiting and has its output at the threshold is given. PERST deasserts for a channel that is on
with power good, and else stays. A channel in COOL that has cooled half-way to the board ramps again and the retry is
counted. The attempts of a channel with power good go back to 0. Starts, retries and the reset of attempts wait while
the stage manager is in reset. (R357, R358, R360, R362, R364, R365, R366, R367) -/
def Obligations.SlotPowerTripsAndStarts : Prop :=
  ∀ s : State,
    (∀ ch, ch < 128 → s.gateOn ch = true →
      exec (.fastTripLatch ch) s = .next (s.modSp ch fun k => { k with latched := true })) ∧
    (∀ ch, ch < 128 → s.gateOn ch = true → (s.spSt ch).latched = true → exec (.fastTrip ch) s = .next (s.trip ch 1)) ∧
    (∀ ch, (s.spSt ch).latched = false → exec (.fastTrip ch) s = .next s) ∧
    (∀ ch, s.gateOn ch = false → exec (.fastTripLatch ch) s = .next s ∧ exec (.fastTrip ch) s = .next s ∧
      exec (.thermalTrip ch) s = .next s ∧ exec (.faultTimerTrip ch) s = .next s) ∧
    (∀ ch, ch < 128 → s.gateOn ch = true → exec (.thermalTrip ch) s =
      .next ((s.modSp ch fun k => { k with temp := max k.temp (deg (s.ttrip ch)) }).trip ch 2)) ∧
    (∀ ch, ch < 128 → s.gateOn ch = true →
      exec (.faultTimerTrip ch) s = .next (if s.flag (spStatus ch) 7 then s.trip ch 3 else s)) ∧
    (∀ ch, ch < 128 → s.spState ch = 5 → exec (.stoppingGateOff ch) s =
      .next (if ((s.gateOff ch 0).spSt ch).heldEnable = true ∧ (s.gateOff ch 0).ilulysReset = false then
        ((s.gateOff ch 0).modSp ch fun k => { k with heldEnable := false }).spEnable ch else s.gateOff ch 0)) ∧
    (∀ ch, s.spState ch ≠ 5 → exec (.stoppingGateOff ch) s = .next s) ∧
    (∀ ch, ch < 128 → s.spState ch = 0 → s.flag (spStatus ch) 14 = true → s.ilulysReset = false →
      exec (.vinStart ch) s = .next (if s.vinOk ch then s.ramp ch else s) ∧
      exec (.vinLowTimeout ch) s = .next (s.startFail ch 4 24)) ∧
    (∀ ch, (s.flag (spStatus ch) 14 = false ∨ s.ilulysReset = true) →
      exec (.vinStart ch) s = .next s ∧ exec (.vinLowTimeout ch) s = .next s) ∧
    (∀ ch, ch < 128 → (s.spState ch = 1 ∨ s.spState ch = 2) → s.flag (spStatus ch) 7 = false →
      s.pgTh ch ≤ s.fld (spReg ch 0x18) 27 16 →
      exec (.powerGood ch) s = .next ((s.modSp ch fun k => { k with clear := 2000 }).pgGive ch)) ∧
    (∀ ch, (s.flag (spStatus ch) 7 = true ∨ s.fld (spReg ch 0x18) 27 16 < s.pgTh ch) → exec (.powerGood ch) s = .next s) ∧
    (∀ ch, ch < 128 → exec (.perstDeassert ch) s =
      .next (if s.spState ch = 2 ∧ s.flag (spStatus ch) 6 then s.setFlag (spStatus ch) 8 false else s)) ∧
    (∀ ch, ch < 128 → s.spState ch = 3 → s.ilulysReset = false → exec (.retryStart ch) s =
      .next (if (s.spSt ch).temp * 2 ≤ deg (s.tboard ch) * 2 + deg (s.ttrip ch - s.tboard ch) then
        (s.ramp ch).countHk 19 else s)) ∧
    (∀ ch, (s.spState ch ≠ 3 ∨ s.ilulysReset = true) → exec (.retryStart ch) s = .next s) ∧
    (∀ ch, ch < 128 → s.ilulysReset = false → exec (.attemptsReset ch) s =
      .next (if s.flag (spStatus ch) 6 then s.setFld (spStatus ch) 13 10 0 else s)) ∧
    (∀ ch, s.ilulysReset = true → exec (.attemptsReset ch) s = .next s)

/-- While the stage manager runs: a fuse select stores the word number, clears VALID and starts a read, whose end shows
the sensed word (the seed reads as zero) and sets VALID; with no read in progress the end changes nothing. A blow of
an open path that is allowed clears DONE and waits in line, one that is refused shows its code in RESULT, sets DONE
and is counted. The end of the first blow: verified sets its bit in both copies of the array, shows RESULT 0 and
counts it; unverified shows RESULT 3; DONE is set when no other blow waits; the sensed values stay until the next
sense; with no blow nothing changes. The three attestation operations (OP 3 as written) store the control word, clear
DONE and start; they end with the mailbox word; with the report and its signature, counted, once the device key is
ready and the set-change sequencer is idle; or with the modulus, once the key is ready; until then they go on.
DEVKEY_READY sets its bit. While the stage manager is reset none of these but a blow's end acts. (R382, R384, R385,
R386, R388) -/
def Obligations.FusesAndAttestation : Prop :=
  ∀ s : State,
    (∀ v, s.ilulysReset = false → exec (.fuseSelect v) s =
      .next (((s.plainWrite fuseSel v).setFlag fuseSel 31 false).modBoot fun b => { b with fuseRead := true })) ∧
    (s.boot.fuseRead = true → s.ilulysReset = false → exec .fuseSelectDone s =
      .next (((s.setLv 0x00020008 (s.fuseWord (s.fld fuseSel 5 0))).setFlag fuseSel 31 true).modBoot fun b =>
        { b with fuseRead := false })) ∧
    (s.boot.fuseRead = false → exec .fuseSelectDone s = .next s) ∧
    (∀ via v, s.ilulysReset = false → s.viaOpen via = true →
      let u := (s.plainWrite fuseProg v).setFlag fuseProg 31 false
      let n := 32 * field v 5 0 + field v 10 6
      (u.blowCode n = 0 → exec (.fuseBlow via v) s = .next (u.modBoot fun b => { b with blows := b.blows ++ [n] })) ∧
      ∀ c, u.blowCode n = c + 1 → exec (.fuseBlow via v) s =
        .next (((u.setFld fuseProg 15 14 (c + 1)).setFlag fuseProg 31 true).countHk 53)) ∧
    (∀ n ns, s.boot.blows = n :: ns → (s.boot.blowReset = none ∨ ns ≠ []) → ∃ t, exec (.fuseBlowDone true) s = .next t ∧
      t.boot.fuseA = s.boot.fuseA ||| BitVec.ofNat 2048 (2 ^ n) ∧ t.boot.fuseB = s.boot.fuseB ||| BitVec.ofNat 2048 (2 ^ n) ∧
      t.fld fuseProg 15 14 = 0 ∧ t.flag fuseProg 31 = ns.isEmpty ∧
      t.boot.blows = ns ∧ t.boot.sensed = s.boot.sensed ∧ s.regsKept t [fuseProg] ∧ s.setsKept t) ∧
    (∀ n ns, s.boot.blows = n :: ns → (s.boot.blowReset = none ∨ ns ≠ []) → ∃ t, exec (.fuseBlowDone false) s = .next t ∧
      t.fld fuseProg 15 14 = 3 ∧ t.flag fuseProg 31 = ns.isEmpty ∧ t.boot.blows = ns ∧
      t.boot.sensed = s.boot.sensed ∧ s.regsKept t [fuseProg] ∧ s.setsKept t) ∧
    (∀ ok, s.boot.blows = [] → exec (.fuseBlowDone ok) s = .next s) ∧
    (∀ v, s.ilulysReset = false → exec (.attReadWord v) s = .next (s.attAct (if field v 9 8 = 3 then v else putField v 9 8 0)) ∧
      exec (.attFormReport v) s = .next (s.attAct (putField v 9 8 1)) ∧
      exec (.attLoadModulus v) s = .next (s.attAct (putField v 9 8 2))) ∧
    (∀ op, s.boot.attOp = some op → op ≠ 1 → op ≠ 2 → s.ilulysReset = false → exec .attDone s =
      .next (((s.used.setLv 0x00020014 (s.attWord (s.fld attCtrl 7 0))).setFlag attCtrl 31 true).modBoot fun b =>
        { b with attOp := none })) ∧
    (s.boot.attOp = some 1 → s.ilulysReset = false → s.flag bootStatus 15 = true → s.curtainState = 0 →
      let d := s.report ++ Config.rsaSign s.deviceSeed s.report s.boot.attRuns
      exec .attDone s = .next ((((((s.modBoot fun b => { b with att := d ++ b.att.drop d.length }).setFlag attCtrl 31 true).modBoot
        fun b => { b with attOp := none }).modBoot fun b => { b with attRuns := b.attRuns + 1 })).countHk 54)) ∧
    (s.boot.attOp = some 2 → s.ilulysReset = false → s.flag bootStatus 15 = true → ∃ t, exec .attDone s = .next t ∧
      t.boot.att = Config.deviceModulus s.deviceSeed ++ s.boot.att.drop (Config.deviceModulus s.deviceSeed).length ∧
      t.boot.attOp = none ∧ t.flag attCtrl 31 = true ∧ s.regsKept t [attCtrl] ∧ s.setsKept t) ∧
    ((s.boot.attOp = none ∨ ((s.boot.attOp = some 1 ∨ s.boot.attOp = some 2) ∧ s.flag bootStatus 15 = false) ∨
      (s.boot.attOp = some 1 ∧ s.curtainState ≠ 0)) → exec .attDone s = .next s) ∧
    (s.ilulysReset = false → exec .devkeyReady s = .next (s.setFlag bootStatus 15 true)) ∧
    (∀ via v, s.ilulysReset = true → exec (.fuseSelect v) s = .next s ∧ exec .fuseSelectDone s = .next s ∧
      exec (.fuseBlow via v) s = .next s ∧ exec (.attReadWord v) s = .next s ∧ exec (.attFormReport v) s = .next s ∧
      exec (.attLoadModulus v) s = .next s ∧ exec .attDone s = .next s ∧ exec .devkeyReady s = .next s)

/-- While the stage manager runs: a flash read, program or erase stores the control word with its operation (a written 3
stays as it is in a read), clears DONE, and starts at the address in the address register once the boot has ended
(stage 4 or 5); before that it only sets REFUSED. Its end, with a good I/O supply, programs the 256-byte page, erases
the 4-KiB sector or reads the page at its address and sets DONE; with no operation or no I/O supply the end changes
nothing. With a good I/O supply a private JTAG instruction with DEBUG_LOCK sensed is refused and any other is taken;
without one it does nothing. While the stage manager is reset the flash commands do nothing. (R375, R388) -/
def Obligations.FlashAndTest : Prop :=
  ∀ s : State,
    (∀ v, s.ilulysReset = false → let w := if field v 1 0 = 3 then v else putField v 1 0 0
      let u := (s.plainWrite flashCtrl w).setFlag flashCtrl 31 false
      exec (.flashRead v) s = .next (if u.stage = 4 ∨ u.stage = 5 then
        u.modBoot fun b => { b with flashOp := some (field w 1 0, (u.lv 0x00020020).toNat) } else u.sticky flashCtrl 2)) ∧
    (∀ v, s.ilulysReset = false → let w := putField v 1 0 1
      let u := (s.plainWrite flashCtrl w).setFlag flashCtrl 31 false
      exec (.flashProgram v) s = .next (if u.stage = 4 ∨ u.stage = 5 then
        u.modBoot fun b => { b with flashOp := some (field w 1 0, (u.lv 0x00020020).toNat) } else u.sticky flashCtrl 2)) ∧
    (∀ v, s.ilulysReset = false → let w := putField v 1 0 2
      let u := (s.plainWrite flashCtrl w).setFlag flashCtrl 31 false
      exec (.flashErase v) s = .next (if u.stage = 4 ∨ u.stage = 5 then
        u.modBoot fun b => { b with flashOp := some (field w 1 0, (u.lv 0x00020020).toNat) } else u.sticky flashCtrl 2)) ∧
    (∀ op a, s.boot.flashOp = some (op, a) → s.ilulysReset = false → s.pwr.io = true →
      let u := if op = 1 then s.flashProgram a else if op = 2 then s.flashErase a else State.flashRead s a
      exec .flashDone s = .next ((u.setFlag flashCtrl 31 true).modBoot fun b => { b with flashOp := none })) ∧
    ((s.boot.flashOp = none ∨ s.pwr.io = false) → exec .flashDone s = .next s) ∧
    (∀ p code, exec (.jtagInstruction p code) s = .next (if s.pwr.io then s.modBoot fun b =>
      { b with jtag := if p && s.boot.sensed.getLsbD 1708 then none else some code } else s)) ∧
    (∀ v, s.ilulysReset = true → exec (.flashRead v) s = .next s ∧ exec (.flashProgram v) s = .next s ∧
      exec (.flashErase v) s = .next s ∧ exec .flashDone s = .next s)

/-- A good rail is noted (a tile's once, and only of a tile of the part), SerDes rails then ending SERDES_OFF when both
are there. A lost core rail loses its tile, a lost SerDes rail turns its ports off, a lost I/O rail sets its sticky
bit, a lost VAUX rail is one input lost, or the loss of VAUX when it was the last. Losing one of two good VAUX inputs
is counted and marked. Losing both resets the Ilulys die and its slot-power channels, and keeps the flash, the blown
fuses, containment and both sets. A bad unselected reference only shows; the selected one is left for a good other one
and counted, or held; a reference that is good or bad already changes nothing. A revert goes to a good primary where
reverting is enabled; a forced switch stores the word, takes references turned off as bad and switches to a good other
one. The first strap sample is latched, 0 without a good I/O supply. A sample of an operating tile shows its hottest
sensor; at the warning threshold it warns once; below it by more than the hysteresis the warning may come again. A
sample below the threshold lets a hot tile that is down cool. An over-temperature of an operating tile loses it. A
relocked core PLL is noted. (R390, R391, R392, R393, R394, R416, R436) -/
def Obligations.SuppliesAndClocks : Prop :=
  ∀ s : State,
    (∀ t, let add := fun (l : List Nat) => if s.part.hasTile t && !l.contains t then l ++ [t] else l
      exec (.railGood (.core t)) s = .next (s.modPwr fun p => { p with core := add p.core }) ∧
      exec (.railGood (.sda t)) s = .next ((s.modPwr fun p => { p with sda := add p.sda }).serdesUp t) ∧
      exec (.railGood (.sdh t)) s = .next ((s.modPwr fun p => { p with sdh := add p.sdh }).serdesUp t)) ∧
    exec (.railGood .io) s = .next (s.modPwr fun p => { p with io := true }) ∧
      exec (.railGood .vauxA) s = .next (s.modPwr fun p => { p with vauxA := true }) ∧
      exec (.railGood .vauxB) s = .next (s.modPwr fun p => { p with vauxB := true }) ∧
    (∀ t, exec (.railLost (.core t)) s = .next ((s.modPwr fun p => { p with core := p.core.filter (· != t) }).loseTile t) ∧
      exec (.railLost (.sda t)) s = .next ((s.modPwr fun p => { p with sda := p.sda.filter (· != t) }).serdesDown t) ∧
      exec (.railLost (.sdh t)) s = .next ((s.modPwr fun p => { p with sdh := p.sdh.filter (· != t) }).serdesDown t)) ∧
    exec (.railLost .io) s = .next ((s.modPwr fun p => { p with io := false }).sticky pwrStatus 5) ∧
    exec (.railLost .vauxA) s = (if s.pwr.vauxB then exec (.vauxInputLost false) s else exec .vauxLoss s) ∧
      exec (.railLost .vauxB) s = (if s.pwr.vauxA then exec (.vauxInputLost true) s else exec .vauxLoss s) ∧
    (s.pwr.vauxA = true → s.pwr.vauxB = true →
      exec (.vauxInputLost false) s = .next (((s.modPwr fun p => { p with vauxA := false }).countHk 56).sticky pwrStatus 2) ∧
      exec (.vauxInputLost true) s = .next (((s.modPwr fun p => { p with vauxB := false }).countHk 57).sticky pwrStatus 3)) ∧
    (∀ b, (s.pwr.vauxA = false ∨ s.pwr.vauxB = false) → exec (.vauxInputLost b) s = .next s) ∧
    (∃ t, exec .vauxLoss s = .next t ∧ t.ilulysReset = true ∧ t.pwr.vauxA = false ∧ t.pwr.vauxB = false ∧ t.sp = [] ∧
      t.host.bridge = {} ∧ t.boot.sensed = 0 ∧ t.boot.flash = s.boot.flash ∧ t.cont = s.cont ∧ s.setsKept t ∧
      s.fusesKept t) ∧
    (∀ b w, s.refGood b = true →
      let u := s.setFlag clkStatus (if b then 2 else 1) false
      let c := u.countHk (if b then 59 else 58)
      exec (.refclkBad b w) s = .next (if u.refSel ≠ b then u else if u.ilulysReset then u.refHold
        else if c.refGood (!b) then c.refSwitch w else c.refHold)) ∧
    (∀ b w, s.refGood b = false → exec (.refclkBad b w) s = .next s) ∧
    (∀ b sp, s.flag clkCtrl (if b then 4 else 3) = true →
      let u := (s.setFlag clkStatus (if b then 2 else 1) true).setFlag clkStatus (if b then 4 else 3) sp
      exec (.refclkGood b sp) s = .next (
        if u.refSel = b then (if u.flag clkStatus 5 then u.setFlag clkStatus 5 false else u)
        else if u.refGood u.refSel || u.ilulysReset then u
        else if u.flag clkStatus 5 then (u.setFlag clkStatus 5 false).refSwitch false
        else u.setFlag clkStatus 0 b)) ∧
    (∀ b sp, s.flag clkCtrl (if b then 4 else 3) = false → exec (.refclkGood b sp) s = .next s) ∧
    (∀ w, exec (.refclkRevert w) s = .next (if s.ilulysReset = false ∧ s.flag clkCtrl 1 ∧ s.refSel ≠ s.flag clkCtrl 0 ∧
        s.refGood (s.flag clkCtrl 0) then s.refSwitch w else s)) ∧
    (∀ v w, s.ilulysReset = false →
      let a := s.plainWrite clkCtrl (v ||| 4)
      let c := if bit v 3 then a else refclkBad false w a
      let u := if bit v 4 then c else refclkBad true w c
      exec (.refclkForce v w) s = .next (if u.refGood (!u.refSel) then u.refSwitch w else u)) ∧
    (∀ v w, s.ilulysReset = true → exec (.refclkForce v w) s = .next s) ∧
    (∀ g a b, s.pwr.strap = none → exec (.strapSample g a b) s =
      .next (s.modPwr fun p => { p with strap := some (if g then 2 * b2n b + b2n a else 0) })) ∧
    (∀ g a b x, s.pwr.strap = some x → exec (.strapSample g a b) s = .next s) ∧
    (∀ t l, s.part.hasTile t = true → l ≠ [] → s.operates t = true →
      let u := (s.modPwr fun p => { p with temps := tset 0 p.temps t (hottest l) }).setFld (tlTemp t) 11 0 (lowBits 12 (hottest l))
      let v := (u.sticky (tlTemp t) 20).modPwr fun p => { p with warned := p.warned ++ [t] }
      exec (.tempSample t l) s = .next (if u.warnTh t ≤ hottest l then
          (if u.pwr.warned.contains t then u
            else v.eventMgr 0x0120 t (leBytes 1 t ++ leBytes 1 0 ++ leBytes 2 (lowBits 12 (hottest l))))
        else if hottest l < u.warnTh t - 20 then u.modPwr fun p => { p with warned := p.warned.filter (· != t) }
        else u)) ∧
    (∀ t l, s.part.hasTile t = true → l ≠ [] → s.operates t = false →
      let u := s.modPwr fun p => { p with temps := tset 0 p.temps t (hottest l) }
      exec (.tempSample t l) s = .next (if hottest l < u.warnTh t then
        u.modPwr fun p => { p with hot := p.hot.filter (· != t) } else u)) ∧
    (∀ t l, (s.part.hasTile t = false ∨ l = []) → exec (.tempSample t l) s = .next s) ∧
    (∀ t, exec (.tileOvertemp t) s = .next (if s.operates t then
      (s.modPwr fun p => { p with hot := p.hot.filter (· != t) ++ [t] }).loseTile t else s)) ∧
    (∀ t, exec (.corePllRelock t) s = .next (s.modPwr fun p => { p with relocking := p.relocking.filter (· != t) }))

/-- A boot with a supply and a release due runs: after a device reset the full boot, after an Ilulys restart the restart,
after VAUX the rejoin; with no supply or none due it does nothing. SYS_RESET_N is a cold reset with cause 1: every
live register but the cause reads its reset value, both sets, the packets and the requests are gone, and the flash and
the blown fuses stay. A keyed write of HK_RESET_CTRL is stored; with TILE it loses the tile of the part it names, or
sets REFUSED where it came from a port of that tile; then it asks for a cold reset with COLD, else a warm one with
WARM, else restarts the Ilulys die with ILULYS. Without the key the write only sets KEY_ERR. A watchdog, an over-
temperature and a commanded Ilulys restart record their cause, count, forget the bridge, hold the stage manager in
reset and leave the packets, both sets and the blown fuses alone. While the stage manager is in reset the write and a
further restart do nothing. (R380, R398, R400, R401, R436) -/
def Obligations.BootAndResets : Prop :=
  ∀ s : State,
    (∀ b, (s.pwr.vauxA = true ∨ s.pwr.vauxB = true) →
      (s.pwr.due = some .boot → exec (.boot b) s = .next (s.bootFull b)) ∧
      (s.pwr.due = some .restart → exec (.boot b) s = .next (s.restartEnds b)) ∧
      (s.pwr.due = some .rejoin → exec (.boot b) s = .next (s.rejoin b)) ∧
      (s.pwr.due = none → exec (.boot b) s = .next s)) ∧
    (∀ b, s.pwr.vauxA = false → s.pwr.vauxB = false → exec (.boot b) s = .next s) ∧
    (∃ t, exec .sysReset s = .next t ∧ t.fld resetCause 3 0 = 1 ∧ t.pkts = [] ∧ t.outs = [] ∧ t.set0 = [] ∧ t.set1 = [] ∧
      t.pwr.due = some .boot ∧ t.tm.ft = 0 ∧ t.sp = [] ∧ t.boot.flash = s.boot.flash ∧ s.fusesKept t ∧
      ∀ o, o ≠ resetCause → t.lv o = regReset s.part o) ∧
    (∀ via v, s.ilulysReset = false → field v 31 16 = 0xA5C3 →
      let tile := fun (u : State) (w : Word) => if bit w 3 = false ∨ u.part.hasTile (field w 6 4) = false then u
        else if Via.onTile via (field w 6 4) then u.sticky resetCtrl 7 else u.loseTile (field w 6 4)
      exec (.coldReset via v) s = .next ((tile (s.plainWrite resetCtrl (v ||| 2)) (v ||| 2)).resetAsk true) ∧
      exec (.warmReset via v) s = .next ((tile (s.plainWrite resetCtrl (v ||| 1)) (v ||| 1)).resetAsk (bit v 1))) ∧
    (∀ via v, s.ilulysReset = false → field v 31 16 = 0xA5C3 →
      let tile := fun (u : State) (w : Word) => if bit w 3 = false ∨ u.part.hasTile (field w 6 4) = false then u
        else if Via.onTile via (field w 6 4) then u.sticky resetCtrl 7 else u.loseTile (field w 6 4)
      let u := tile (s.plainWrite resetCtrl (v ||| 8)) (v ||| 8)
      exec (.tileReset via v) s = .next (if bit v 1 then u.resetAsk true else if bit v 0 then u.resetAsk false
        else if bit v 2 then u.ilulysRestart 4 else u)) ∧
    (∀ via v, s.ilulysReset = false → field v 31 16 ≠ 0xA5C3 →
      exec (.keyErr via v) s = .next (s.sticky resetCtrl 8)) ∧
    (∀ via v, (s.ilulysReset = true ∨ field v 31 16 = 0xA5C3) → exec (.keyErr via v) s = .next s) ∧
    (∀ c, c < 16 → s.ilulysReset = false → ∃ t, exec (.ilulysRestart c) s = .next t ∧ t.fld resetCause 3 0 = c ∧
      t.fld resetCause 15 8 = min 255 (s.fld resetCause 15 8 + 1) ∧ t.ilulysReset = true ∧ t.host.bridge = {} ∧
      t.pkts = s.pkts ∧ s.setsKept t ∧ s.fusesKept t) ∧
    (s.ilulysReset = false → exec .watchdogExpiry s = exec (.ilulysRestart 5) s ∧
      exec .ilulysOvertemp s = exec (.ilulysRestart 8) s ∧
      (∃ t, exec .watchdogExpiry s = .next t ∧ t.fld resetCause 3 0 = 5) ∧
      ∃ t, exec .ilulysOvertemp s = .next t ∧ t.fld resetCause 3 0 = 8) ∧
    (∀ c via v, s.ilulysReset = true → exec (.ilulysRestart c) s = .next s ∧ exec .watchdogExpiry s = .next s ∧
      exec .ilulysOvertemp s = .next s ∧ exec (.coldReset via v) s = .next s ∧ exec (.warmReset via v) s = .next s ∧
      exec (.tileReset via v) s = .next s)

/-- An ACK of an active PCI Express port retires the packets it covers and clears the roll-overs if it retired any; a NAK
does the same and then sends the rest again, each with the ECRC the port gives it. A flow-control update sets the
limits of its class when the class had none and is not 0, and else raises them modulo 4,096 headers and 65,536 data
units; another DLLP, or one of a port that is not active, changes nothing. A PTM request of an active port is answered
with the low 64 bits of its tile's FT, and of no other. A packet on the wire of a port is measured, and what waited
for its end there goes out: with more ports ahead it leaves only that port; at its last it is charged and retired, and
a posted write of a queue pair then counts as issued; a packet that is not on that port's wire changes nothing. A
write of the billing ring's index stores it and writes what has room. (R31, R81, R128, R326) -/
def Obligations.PortFramesAndBilling : Prop :=
  ∀ s : State,
    (∀ port n hdr dat, s.pcieUp port = true →
      exec (.dllpReceive port 0 n hdr dat) s = .next (s.modPort port fun k =>
        { k with unacked := afterAck (s.portSt port).unacked n,
                 rolls := if (afterAck (s.portSt port).unacked n).length < (s.portSt port).unacked.length then 0 else k.rolls })) ∧
    (∀ port n hdr dat, s.pcieUp port = true →
      let left := afterAck (s.portSt port).unacked n
      let u := s.modPort port fun k =>
        { k with unacked := left, rolls := if left.length < (s.portSt port).unacked.length then 0 else k.rolls }
      exec (.dllpReceive port 1 n hdr dat) s =
        .next (u.each left fun v x => v.emit (.tlp port x.2 (v.ecrcOut x.2.epoch port)))) ∧
    (∀ port kind n hdr dat, s.pcieUp port = true → 2 ≤ kind → kind < 5 → exec (.dllpReceive port kind n hdr dat) s =
      .next (s.modPort port fun k => { k with limit := tset none k.limit (kind - 2) (match tget none k.limit (kind - 2) with
        | none => if hdr = 0 ∧ dat = 0 then none else some (hdr % 4096, dat % 65536)
        | some l => some (creditTo 4096 l.1 (hdr % 4096), creditTo 65536 l.2 (dat % 65536))) })) ∧
    (∀ port kind n hdr dat, (s.pcieUp port = false ∨ 5 ≤ kind) → exec (.dllpReceive port kind n hdr dat) s = .next s) ∧
    (∀ port, exec (.ptmRequest port) s = .next (if s.pcieUp port then
      s.emit (.ptmResponse port (s.tileFt (tileOf port) % 2 ^ 64)) else s)) ∧
    (∀ port n p w, s.pkt n = some p → (p.onWire.find? fun w => w.1 == port) = some w → 2 ≤ p.ports.length →
      exec (.egressPacketSent port n) s = .next (((s.measure port p w.2).sendAll (.port port)).modPkt n fun q =>
        { q with ports := q.ports.filter (· != port), onWire := q.onWire.filter fun w => w.1 != port })) ∧
    (∀ port n p w, s.pkt n = some p → (p.onWire.find? fun w => w.1 == port) = some w → p.ports.length < 2 →
      (p.cls = .posted → ∀ id, p.purpose ≠ .issue id) →
      exec (.egressPacketSent port n) s = .next ((((s.measure port p w.2).sendAll (.port port)).settle p 0).retire p)) ∧
    (∀ port n p w id, s.pkt n = some p → (p.onWire.find? fun w => w.1 == port) = some w → p.ports.length < 2 →
      p.cls = .posted → p.purpose = .issue id → exec (.egressPacketSent port n) s =
      .next (((((s.measure port p w.2).sendAll (.port port)).settle p 0).retire p).issued id 0)) ∧
    (∀ port n, (∀ p, s.pkt n = some p → (p.onWire.find? fun w => w.1 == port) = none) →
      exec (.egressPacketSent port n) s = .next s) ∧
    (∀ v, exec (.boIndexSwWrite v) s = .next (s.plainWrite boIndex v).boDrain)

/-- Each of these commands, whenever it answers a next state, changes nothing but the live words of the registers named
for it: the TREF presence, a headless tile's slave status, a lane's checker lock, the mailboxes of tickets, apertures,
protection edits and backlogs, the set-up of the window and queue-pair tables, the snapshot control, a channel's PERST
and attempt count and the device key bit. Both set copies, every packet, queue, table and pin stay as they are. (R26,
R42, R68, R147, R194, R204, R205, R253, R255, R278, R316, R365) -/
def Obligations.FrameOfRegisterCommands : Prop :=
  ∀ s : State,
    (∀ t, exec .trefClkAbsent s = .next t →
      t = { s with live := t.live } ∧ s.regsKept t [tmStatus]) ∧
    (∀ t, exec .trefClkPresent s = .next t →
      t = { s with live := t.live } ∧ s.regsKept t [tmStatus]) ∧
    (∀ tile t, exec (.curtainQuery tile) s = .next t →
      t = { s with live := t.live } ∧ s.regsKept t [slaveStatus tile]) ∧
    (∀ lane t, exec (.checkerLock lane) s = .next t →
      t = { s with live := t.live } ∧ s.regsKept t [testCtrl lane]) ∧
    (∀ agent tile t, exec (.ticketQueryDone agent tile) s = .next t →
      t = { s with live := t.live } ∧ s.regsKept t [ticketSel agent tile, ticketSel agent tile + 4]) ∧
    (∀ agent tile t, exec (.apContDone agent tile) s = .next t →
      t = { s with live := t.live } ∧ s.regsKept t [apCont agent tile]) ∧
    (∀ v t, exec (.windowTableInit v) s = .next t →
      t = { s with live := t.live } ∧ s.regsKept t [0x00140000, 0x0014000C]) ∧
    (∀ v t, exec (.qpTableInit v) s = .next t →
      t = { s with live := t.live } ∧ s.regsKept t [0x00140010, 0x0014001C]) ∧
    (∀ tile seat t, exec (.puDisabled tile seat) s = .next t →
      t = { s with live := t.live } ∧ s.regsKept t [puStatus tile seat]) ∧
    (∀ agent tile t, exec (.puEditDone agent tile) s = .next t →
      t = { s with live := t.live } ∧ s.regsKept t [puEditSel agent tile]) ∧
    (∀ agent tile v t, exec (.backlogRead agent tile v) s = .next t →
      t = { s with live := t.live } ∧ s.regsKept t [backlogSel agent tile]) ∧
    (∀ agent tile t, exec (.backlogReadDone agent tile) s = .next t →
      t = { s with live := t.live } ∧ s.regsKept t [backlogSel agent tile, backlogSel agent tile + 4]) ∧
    (∀ t, exec .snapshotDone s = .next t →
      t = { s with live := t.live } ∧ s.regsKept t [snapCtrl]) ∧
    (∀ ch t, exec (.perstDeassert ch) s = .next t →
      t = { s with live := t.live } ∧ s.regsKept t [spStatus ch]) ∧
    (∀ ch t, exec (.attemptsReset ch) s = .next t →
      t = { s with live := t.live } ∧ s.regsKept t [spStatus ch]) ∧
    (∀ t, exec .devkeyReady s = .next t →
      t = { s with live := t.live } ∧ s.regsKept t [bootStatus])

/-- Each of these commands, whenever it answers a next state, changes one component of the state only: the live registers,
the set-change sequencer, the slots, the host interface, the links, the switch core, the log, the telemetry, the slot-
power channels, the boot unit or the supplies. An ECC scrub changes nothing. (R31, R38, R39, R41, R72, R84, R90, R99,
R100, R121, R128, R135) -/
def Obligations.FrameOfOneUnitCommands : Prop :=
  ∀ s : State,
    (∀ v t, exec (.consistencyCheck v) s = .next t →
      t = { s with live := t.live }) ∧
    (∀ t, exec .consistencyCheckDone s = .next t →
      t = { s with live := t.live }) ∧
    (∀ tile t, exec (.curtainPrepareAck tile) s = .next t →
      t = { s with cur := t.cur }) ∧
    (∀ port t, exec (.l0sEntry port) s = .next t →
      t = { s with live := t.live }) ∧
    (∀ port pciPm t, exec (.l1Entry port pciPm) s = .next t →
      t = { s with live := t.live }) ∧
    (∀ agent pb v t, exec (.laneMbxRead agent pb v) s = .next t →
      t = { s with live := t.live }) ∧
    (∀ agent pb v t, exec (.laneMbxWrite agent pb v) s = .next t →
      t = { s with live := t.live }) ∧
    (∀ port t, exec (.commandCompleted port) s = .next t →
      t = { s with slots := t.slots }) ∧
    (∀ port t, exec (.attentionButton port) s = .next t →
      t = { s with host := t.host }) ∧
    (∀ link t, exec (.packetItemAccept link) s = .next t →
      t = { s with links := t.links }) ∧
    (∀ port t, exec (.initMismatchRetry port) s = .next t →
      t = { s with links := t.links }) ∧
    (∀ tile port t, exec (.routeHopRestore tile port) s = .next t →
      t = { s with live := t.live }) ∧
    (∀ port v t, exec (.injectBadCrc port v) s = .next t →
      t = { s with links := t.links }) ∧
    (∀ port v t, exec (.injectDropAck port v) s = .next t →
      t = { s with links := t.links }) ∧
    (∀ port v t, exec (.injectStaleCredit port v) s = .next t →
      t = { s with links := t.links }) ∧
    (∀ port v t, exec (.injectSkipSeq port v) s = .next t →
      t = { s with links := t.links }) ∧
    (∀ port v t, exec (.injectFecSym port v) s = .next t →
      t = { s with links := t.links }) ∧
    (∀ tile fromTile dest count t, exec (.ticketReturn tile fromTile dest count) s = .next t →
      t = { s with core := t.core }) ∧
    (∀ tile t, exec (.sprayRecompute tile) s = .next t →
      t = { s with core := t.core }) ∧
    (∀ agent tile v t, exec (.ticketQuery agent tile v) s = .next t →
      t = { s with live := t.live }) ∧
    (∀ via seat off v t, exec (.mbxM2tWrite via seat off v) s = .next t →
      t = { s with live := t.live }) ∧
    (∀ t, exec .bridgeStatus s = .next t →
      t = { s with wire := t.wire }) ∧
    (∀ addr t, exec (.entdaa addr) s = .next t →
      t = { s with host := t.host }) ∧
    (∀ tile t, exec (.eccScrub tile) s = .next t →
      t = s) ∧
    (∀ ch t, exec (.fastTripLatch ch) s = .next t →
      t = { s with sp := t.sp }) ∧
    (∀ isPrivate code t, exec (.jtagInstruction isPrivate code) s = .next t →
      t = { s with boot := t.boot }) ∧
    (∀ vddIoGood addr0 addr1 t, exec (.strapSample vddIoGood addr0 addr1) s = .next t →
      t = { s with pwr := t.pwr }) ∧
    (∀ port t, exec (.ptmRequest port) s = .next t →
      t = { s with wire := t.wire }) ∧
    (∀ tile t, exec (.corePllRelock tile) s = .next t →
      t = { s with pwr := t.pwr })

/-- Each of these commands, whenever it answers a next state, changes the live registers and one further component, or the
two components named: what the time reference, the set change, the lanes, ports and links, the schedulers, rings,
counters, injections, slot power, boot mailboxes and supplies do leaves both set copies, the packets and every other
component unchanged. (R26, R28, R34, R37, R40, R41, R43, R44, R57, R64, R81, R84) -/
def Obligations.FrameOfTwoUnitCommands : Prop :=
  ∀ s : State,
    (∀ t, exec .ppsEdgeMissing s = .next t →
      t = { s with live := t.live, tm := t.tm }) ∧
    (∀ v t, exec (.todLoad v) s = .next t →
      t = { s with live := t.live, tm := t.tm }) ∧
    (∀ t, exec .deferredTodApply s = .next t →
      t = { s with live := t.live, tm := t.tm }) ∧
    (∀ t, exec .ftSnap s = .next t →
      t = { s with live := t.live, tm := t.tm }) ∧
    (∀ t, exec .ftSnapDone s = .next t →
      t = { s with live := t.live, tm := t.tm }) ∧
    (∀ v t, exec (.understudyRead v) s = .next t →
      t = { s with cur := t.cur, live := t.live }) ∧
    (∀ t, exec .understudyReadDone s = .next t →
      t = { s with cur := t.cur, live := t.live }) ∧
    (∀ v t, exec (.curtainArm v) s = .next t →
      t = { s with cur := t.cur, live := t.live }) ∧
    (∀ tile t, exec (.curtainPrepare tile) s = .next t →
      t = { s with cur := t.cur, live := t.live }) ∧
    (∀ tile t, exec (.curtainCommit tile) s = .next t →
      t = { s with cur := t.cur, live := t.live }) ∧
    (∀ tile t, exec (.curtainCommitAck tile) s = .next t →
      t = { s with cur := t.cur, live := t.live }) ∧
    (∀ v t, exec (.curtainAbort v) s = .next t →
      t = { s with cur := t.cur, live := t.live }) ∧
    (∀ tile t, exec (.oldDrainedReport tile) s = .next t →
      t = { s with cur := t.cur, live := t.live }) ∧
    (∀ lane rate limitsOk reached converged t, exec (.equalisationPhaseDone lane rate limitsOk reached converged) s = .next t →
      t = { s with lanes := t.lanes, live := t.live }) ∧
    (∀ port t, exec (.linkPowerExit port) s = .next t →
      t = { s with live := t.live, ports := t.ports }) ∧
    (∀ quad t, exec (.quadPllRelock quad) s = .next t →
      t = { s with lanes := t.lanes, live := t.live }) ∧
    (∀ port t, exec (.slotSidebandMessage port) s = .next t →
      t = { s with host := t.host, slots := t.slots }) ∧
    (∀ port present t, exec (.presenceSample port present) s = .next t →
      t = { s with host := t.host, slots := t.slots }) ∧
    (∀ t, exec .windowTableInitDone s = .next t →
      t = { s with live := t.live, win := t.win }) ∧
    (∀ t, exec .qpTableInitDone s = .next t →
      t = { s with eng := t.eng, live := t.live }) ∧
    (∀ pb v t, exec (.takeoverArm pb v) s = .next t →
      t = { s with live := t.live, sch := t.sch }) ∧
    (∀ pb v t, exec (.takeoverCancel pb v) s = .next t →
      t = { s with live := t.live, sch := t.sch }) ∧
    (∀ ring v t, exec (.ringEnable ring v) s = .next t →
      t = { s with host := t.host, live := t.live }) ∧
    (∀ ring v t, exec (.ringDisable ring v) s = .next t →
      t = { s with host := t.host, live := t.live }) ∧
    (∀ ring v t, exec (.ringFetchResume ring v) s = .next t →
      t = { s with host := t.host, live := t.live }) ∧
    (∀ off pecOk t, exec (.bridgeRead off pecOk) s = .next t →
      t = { s with freeCtr := t.freeCtr, wire := t.wire }) ∧
    (∀ agent t, exec (.counterReadDone agent) s = .next t →
      t = { s with live := t.live, tel := t.tel }) ∧
    (∀ tile k v t, exec (.ctProgWrite tile k v) s = .next t →
      t = { s with live := t.live, tel := t.tel }) ∧
    (∀ v t, exec (.snapshotArm v) s = .next t →
      t = { s with live := t.live, tel := t.tel }) ∧
    (∀ tile h v t, exec (.histogramClear tile h v) s = .next t →
      t = { s with live := t.live, tel := t.tel }) ∧
    (∀ tile c v t, exec (.captureEnable tile c v) s = .next t →
      t = { s with live := t.live, tel := t.tel }) ∧
    (∀ tile t, exec (.eccCorrectable tile) s = .next t →
      t = { s with live := t.live, tel := t.tel }) ∧
    (∀ tile v t, exec (.injCell tile v) s = .next t →
      t = { s with cont := t.cont, live := t.live }) ∧
    (∀ tile v t, exec (.injTable tile v) s = .next t →
      t = { s with cont := t.cont, live := t.live }) ∧
    (∀ ch v t, exec (.mgrOffSet ch v) s = .next t →
      t = { s with live := t.live, sp := t.sp }) ∧
    (∀ ch v t, exec (.mgrOffClear ch v) s = .next t →
      t = { s with live := t.live, sp := t.sp }) ∧
    (∀ ch t, exec (.vinStart ch) s = .next t →
      t = { s with live := t.live, sp := t.sp }) ∧
    (∀ e v t, exec (.spSeqArm e v) s = .next t →
      t = { s with live := t.live, seqLate := t.seqLate }) ∧
    (∀ v t, exec (.fuseSelect v) s = .next t →
      t = { s with boot := t.boot, live := t.live }) ∧
    (∀ t, exec .fuseSelectDone s = .next t →
      t = { s with boot := t.boot, live := t.live }) ∧
    (∀ v t, exec (.attReadWord v) s = .next t →
      t = { s with boot := t.boot, live := t.live }) ∧
    (∀ v t, exec (.attFormReport v) s = .next t →
      t = { s with boot := t.boot, live := t.live }) ∧
    (∀ v t, exec (.attLoadModulus v) s = .next t →
      t = { s with boot := t.boot, live := t.live }) ∧
    (∀ v t, exec (.flashRead v) s = .next t →
      t = { s with boot := t.boot, live := t.live }) ∧
    (∀ v t, exec (.flashProgram v) s = .next t →
      t = { s with boot := t.boot, live := t.live }) ∧
    (∀ v t, exec (.flashErase v) s = .next t →
      t = { s with boot := t.boot, live := t.live }) ∧
    (∀ t, exec .flashDone s = .next t →
      t = { s with boot := t.boot, live := t.live }) ∧
    (∀ rail t, exec (.railGood rail) s = .next t →
      t = { s with live := t.live, pwr := t.pwr }) ∧
    (∀ b spread t, exec (.refclkGood b spread) s = .next t →
      t = { s with live := t.live, pwr := t.pwr }) ∧
    (∀ within300ppm t, exec (.refclkRevert within300ppm) s = .next t →
      t = { s with live := t.live, pwr := t.pwr }) ∧
    (∀ port width t, exec (.l0pEntry port width) s = .next t →
      t = { s with live := t.live, ports := t.ports }) ∧
    (∀ port kind seq hdr dat t, exec (.dllpReceive port kind seq hdr dat) s = .next t →
      t = { s with ports := t.ports, wire := t.wire })

/-- Each of these commands, whenever it answers a next state, changes only the components named: a PPS edge or
synchronisation frame the time state; a set write or a protection edit the live words and both copies, the end of a
copy-forward the sequencer too; link training and initialisation the lanes, ports, links and slots; mailbox and seat
commands the seats, the host interface and the counters; violation reports the host interface and their interval;
supplies, fuses and captures their own unit and the counters. (R16, R26, R29, R36, R44, R55, R56, R60, R64, R68, R72,
R99) -/
def Obligations.FrameOfThreeUnitCommands : Prop :=
  ∀ s : State,
    (∀ t, exec .ppsEdge s = .next t →
      t = { s with freeCtr := t.freeCtr, live := t.live, tel := t.tel, tm := t.tm }) ∧
    (∀ tile t, exec (.syncFrame tile) s = .next t →
      t = { s with freeCtr := t.freeCtr, live := t.live, tm := t.tm }) ∧
    (∀ via off v t, exec (.setFieldWrite via off v) s = .next t →
      t = { s with live := t.live, set0 := t.set0, set1 := t.set1 }) ∧
    (∀ t, exec .copyForwardDone s = .next t →
      t = { s with cur := t.cur, live := t.live, set0 := t.set0, set1 := t.set1 }) ∧
    (∀ port t, exec (.partnerDetected port) s = .next t →
      t = { s with lanes := t.lanes, live := t.live, ports := t.ports, slots := t.slots }) ∧
    (∀ port t, exec (.vflConfirmTimeout port) s = .next t →
      t = { s with live := t.live, ports := t.ports, tel := t.tel }) ∧
    (∀ lane mv t, exec (.eiExitDetect lane mv) s = .next t →
      t = { s with freeCtr := t.freeCtr, live := t.live, ports := t.ports }) ∧
    (∀ lane v t, exec (.eiHoldRelease lane v) s = .next t →
      t = { s with freeCtr := t.freeCtr, lanes := t.lanes, live := t.live, wire := t.wire }) ∧
    (∀ lane t, exec (.checkerUnlock lane) s = .next t →
      t = { s with freeCtr := t.freeCtr, lanes := t.lanes, live := t.live }) ∧
    (∀ agent pb t, exec (.laneMbxDone agent pb) s = .next t →
      t = { s with freeCtr := t.freeCtr, lanes := t.lanes, live := t.live, wire := t.wire }) ∧
    (∀ port t, exec (.initSend port) s = .next t →
      t = { s with links := t.links, live := t.live, wire := t.wire }) ∧
    (∀ port proto vcCount rxSeen fid bufs t, exec (.initReceive port proto vcCount rxSeen fid bufs) s = .next t →
      t = { s with links := t.links, live := t.live, ports := t.ports, tel := t.tel }) ∧
    (∀ port t, exec (.initTimeout port) s = .next t →
      t = { s with links := t.links, live := t.live, ports := t.ports }) ∧
    (∀ link t, exec (.ackDue link) s = .next t →
      t = { s with links := t.links, live := t.live, wire := t.wire }) ∧
    (∀ tile g t, exec (.wireRepairDone tile g) s = .next t →
      t = { s with links := t.links, live := t.live, wire := t.wire }) ∧
    (∀ tile index t, exec (.windowViolationIntervalEnd tile index) s = .next t →
      t = { s with host := t.host, live := t.live, tel := t.tel, win := t.win }) ∧
    (∀ qpn t, exec (.qpDestroyDone qpn) s = .next t →
      t = { s with eng := t.eng, host := t.host, live := t.live }) ∧
    (∀ wr t, exec (.workRequestTimeout wr) s = .next t →
      t = { s with eng := t.eng, host := t.host, live := t.live }) ∧
    (∀ via seat v t, exec (.t2mAck via seat v) s = .next t →
      t = { s with host := t.host, live := t.live, seats := t.seats, tel := t.tel }) ∧
    (∀ via seat v t, exec (.m2tPost via seat v) s = .next t →
      t = { s with host := t.host, live := t.live, seats := t.seats, tel := t.tel }) ∧
    (∀ seat t, exec (.seatResetDone seat) s = .next t →
      t = { s with host := t.host, live := t.live, seats := t.seats, tel := t.tel }) ∧
    (∀ agent tile v t, exec (.puEdit agent tile v) s = .next t →
      t = { s with live := t.live, set0 := t.set0, set1 := t.set1 }) ∧
    (∀ tile seat t, exec (.puViolationIntervalEnd tile seat) s = .next t →
      t = { s with host := t.host, live := t.live, pu := t.pu, tel := t.tel }) ∧
    (∀ agent v t, exec (.counterRead agent v) s = .next t →
      t = { s with freeCtr := t.freeCtr, live := t.live, tel := t.tel }) ∧
    (∀ block index t, exec (.counterWrap block index) s = .next t →
      t = { s with host := t.host, live := t.live, tel := t.tel }) ∧
    (∀ tile t, exec (.minuteMarkLatch tile) s = .next t →
      t = { s with live := t.live, tel := t.tel, tm := t.tm }) ∧
    (∀ tile t, exec (.serviceLinkLoss tile) s = .next t →
      t = { s with live := t.live, pwr := t.pwr, tel := t.tel }) ∧
    (∀ ch t, exec (.vinLowTimeout ch) s = .next t →
      t = { s with host := t.host, live := t.live, tel := t.tel }) ∧
    (∀ ch t, exec (.powerGood ch) s = .next t →
      t = { s with host := t.host, live := t.live, sp := t.sp }) ∧
    (∀ ch t, exec (.retryStart ch) s = .next t →
      t = { s with live := t.live, sp := t.sp, tel := t.tel }) ∧
    (∀ via v t, exec (.fuseBlow via v) s = .next t →
      t = { s with boot := t.boot, live := t.live, tel := t.tel }) ∧
    (∀ t, exec .attDone s = .next t →
      t = { s with boot := t.boot, freeCtr := t.freeCtr, live := t.live, tel := t.tel }) ∧
    (∀ b t, exec (.vauxInputLost b) s = .next t →
      t = { s with live := t.live, pwr := t.pwr, tel := t.tel }) ∧
    (∀ tile sensors t, exec (.tempSample tile sensors) s = .next t →
      t = { s with host := t.host, live := t.live, pwr := t.pwr, tel := t.tel })

/-- Whatever command stands at the front of the queue, the step of that state is the command's own outcome on the state
with the queue's rest; the queue's order and the commands behind it are untouched by taking it. That commands wait in
one queue is the interface of this model, not a rule of the manual. (R48) -/
def Obligations.StepRunsTheFrontCommand : Prop :=
  ∀ (c : Instr) (cs : List Instr) (s : State),
    step { s with pending := c :: cs } = exec c { s with pending := cs }

/-- With an empty queue a step answers a next state in which the master clock has advanced by one nanosecond and only the
time state, what the links and ports have sent, the count of free values and the log of what was sent, at its end, may
differ: running VFL links send their flits and markers and headless slaves drift. With no link or port in use and no
running tile headless only the time state differs. While nothing is slewed, fabric time advances by one nanosecond
modulo its range and nothing is left to slew. That an idle step is a nanosecond is the model's choice (log entry 3).
(R23, R27) -/
def Obligations.IdleStepPassesANanosecond : Prop :=
  ∀ s : State, s.pending = [] → ∃ t, step s = .next t ∧
    t = { s with tm := t.tm, links := t.links, ports := t.ports, wire := t.wire, freeCtr := t.freeCtr } ∧
    s.wire <+: t.wire ∧ t.tm.now = s.tm.now + 1 ∧
    (s.links = [] → s.ports = [] → s.running.filter (fun x => s.headless x) = [] → t = { s with tm := t.tm }) ∧
    (s.tm.slew = 0 → s.tm.ft + 1 < nsPerSec * 2 ^ 48 → t.tm.ft = s.tm.ft + 1 ∧ t.tm.slew = 0)

/-- The opcode table gives no row any bits: its rows are register accesses and events, not encoded words. So the table
decoder answers none on every word, and placing a word leaves the state as it is. (R48) -/
def Obligations.NoWordSpellsACommand : Prop :=
  ∀ (s : State) (nbits w : Nat), decodeTableWord nbits w = none ∧ s.withFetchWord nbits w = s

/-- Whatever the command, its operands and the state, the command answers a next state: errors, refusals and ignored
writes of the manual are effects on the state, not stops of the model. (R332, R335) -/
def Obligations.EveryCommandAnswersANextState : Prop :=
  ∀ (c : Instr) (s : State), ∃ t, exec c s = .next t

/-- For every state whose live registers, both set copies and flash are in canonical form (offsets strictly rising,
nothing listed that equals its reset value), if a step, of any command or of the idle clock, answers a next state,
that state is in canonical form too. So equal contents are equal data after any run. (R445, R372) -/
def Obligations.StepKeepsWf : Prop :=
  ∀ s t : State, s.Wf → step s = .next t → t.Wf

/-- Right after reset the live registers, both set copies and the flash list nothing, which is their canonical form.
(R444) -/
def Obligations.ResetIsWf : Prop :=
  State.reset.Wf

/-- Whatever command runs, in whatever state, every fuse bit that is blown in a copy of the fuse array before a step is
blown in that copy after it: no reset, no boot, no failed blow and no loss of supply returns a blown bit to 0. "A
blown bit never returns to 0" (R372). (R372, R382) -/
def Obligations.BlownFusesStayBlown : Prop :=
  ∀ s t : State, step s = .next t → s.fusesKept t

/-- Whatever command runs, in whatever state, and answers a next state: the part is the same, the commands that wait are
the same in the same order, the numbers that identify packets, work and stops and the count of free values used never
fall, and the log of what the part has sent only grows at its end. (R1, R404) -/
def Obligations.EveryCommandKeepsPartQueueAndLog : Prop :=
  ∀ (c : Instr) (s t : State), exec c s = .next t → t.part = s.part ∧ t.pending = s.pending ∧ s.idCtr ≤ t.idCtr ∧
    s.freeCtr ≤ t.freeCtr ∧ s.wire <+: t.wire

/-- Right after reset every live word and every word of both set copies is its register's Reset value, no packet, request,
work request, window, message or command is held, no fuse is blown and the boot is due. HK_ID then reads the value of
the RH-1024. The part, the blank fuses and the erased flash are the model's choices (log entries 1, 7 and 8). (R444,
R445, R447, R372, R398) -/
def Obligations.ResetRegisters : Prop :=
  (∀ o, State.reset.lv o = regReset .rh1024 o) ∧ (∀ e o, State.reset.conf e o = regReset .rh1024 o) ∧
    State.reset.pkts = [] ∧ State.reset.outs = [] ∧ State.reset.eng.wrs = [] ∧ State.reset.win.tbl = [] ∧
    State.reset.arrivals = [] ∧ State.reset.pending = [] ∧ State.reset.boot.fuseA = 0 ∧ State.reset.boot.fuseB = 0 ∧
    State.reset.pwr.due = some .boot ∧ State.reset.regRead .bridge 0 = 0x00011024#32

/-- A stop written to TL_STOP whose target is seat 0, the partition to which seat 0 is bound, that partition's upstream
port, or a port, partition or seat number that does not exist on the part issues nothing: it is counted in
TL_STOP_IGNORED and TL_STOP reads VALID = 1 with STATE = 0; the command unit then goes on. A host's DPC trigger on a
local downstream port of a present tile that is not in DPC takes effect, whatever partition the port is in. (R335) -/
def Obligations.IgnoredStopsHaveNoEffect : Prop :=
  ∀ s : State,
    (∀ (agent n : Nat) (v : Word) (clear : Bool), s.agentOpen agent n = true →
      let k := field v 13 12
      let x := field v 11 0
      let p0 := s.seatPart s.leadEpoch 0
      k ≠ 3 →
      ((k = 2 ∧ x = 0) ∨ (k = 1 ∧ s.bound s.leadEpoch 0 = true ∧ x = p0) ∨
        (k = 0 ∧ s.bound s.leadEpoch 0 = true ∧ x = s.upPort s.leadEpoch p0) ∨
        (k = 0 ∧ ¬(x < 1024 ∧ s.part.hasTile (tileOf x) = true)) ∨ (k = 1 ∧ 256 ≤ x)) →
      ∃ u : State, exec (if clear then .tlStopRelease agent n v else .tlStopApply agent n v) s = .next u.pump ∧
        u.host.stops = s.host.stops ∧ u.cont = s.cont ∧ u.pkts = s.pkts ∧ u.hv = s.hv ∧
        u.tel = (s.count (if agent < 8 then agent else s.present.headD 0) .stopIgnored).tel ∧
        bit (u.stopView agent n) 31 = true ∧ bit (u.stopView agent n) 30 = false) ∧
    ∀ p d, s.partEn s.leadEpoch p = true → s.vdpEn s.leadEpoch p d = true → s.vdpDpc s.leadEpoch p d = true →
      s.vdpLocal s.leadEpoch p d = true → s.slotOwner s.leadEpoch (s.vdpPort s.leadEpoch p d) = p →
      s.operates (tileOf (s.vdpPort s.leadEpoch p d)) = true → tget false s.cont.dpc (s.vdpPort s.leadEpoch p d) = false →
      let port := s.vdpPort s.leadEpoch p d
      let m := s.setDpc p d 3 1
      let u : State := { m with cont := { m.cont with dpc := tset false m.cont.dpc port true } }
      let w := u.portEnter port 3 1
      exec (.dpcTrigger p d .software) s = .next (if s.portBlack port then u
        else (w.each w.present fun x n => x.portDark n port).darkRecords 0 port true 1 (tileOf port) (tileOf port))

/-- A write of HK_RESET_CTRL without 0xA5C3 in its upper half only sets KEY_ERR. With the key, a cold or warm reset while
a blow is in progress only notes that it waits, and the end of the last blow then resets; without a blow it resets at
once. A tile reset that entered on a port of the tile sets REFUSED and loses nothing; any other of a tile of the part
declares it lost, to rejoin under R348. (R400) -/
def Obligations.ResetControlNeedsItsKey : Prop :=
  ∀ s : State, s.ilulysReset = false → ∀ (via : Via) (v : Word),
    (field v 31 16 ≠ 0xA5C3 → exec (.coldReset via v) s = .next (s.sticky resetCtrl 8) ∧
      exec (.warmReset via v) s = .next (s.sticky resetCtrl 8) ∧ exec (.tileReset via v) s = .next (s.sticky resetCtrl 8) ∧
      exec (.keyErr via v) s = .next (s.sticky resetCtrl 8)) ∧
    (field v 31 16 = 0xA5C3 → bit v 3 = false →
      let c := s.plainWrite resetCtrl (v ||| 2)
      let w := s.plainWrite resetCtrl (v ||| 1)
      (s.boot.blows ≠ [] →
        exec (.coldReset via v) s = .next (c.modBoot fun b => { b with blowReset := some true }) ∧
        (bit v 1 = false → exec (.warmReset via v) s =
          .next (w.modBoot fun b => { b with blowReset := some (b.blowReset == some true) }))) ∧
      (s.boot.blows = [] →
        exec (.coldReset via v) s = .next (c.deviceReset true 2) ∧
        (bit v 1 = false → exec (.warmReset via v) s = .next (w.deviceReset false 3)))) ∧
    (∀ n cold ok, s.boot.blows = [n] → s.boot.blowReset = some cold →
      ∃ u : State, exec (.fuseBlowDone ok) s = .next (u.deviceReset cold (if cold then 2 else 3)) ∧ u.boot.blows = []) ∧
    (field v 31 16 = 0xA5C3 → bit v 0 = false → bit v 1 = false → bit v 2 = false →
      s.part.hasTile (field v 6 4) = true →
      (Via.onTile via (field v 6 4) = true →
        exec (.tileReset via v) s = .next ((s.plainWrite resetCtrl (v ||| 8)).sticky resetCtrl 7)) ∧
      (Via.onTile via (field v 6 4) = false →
        exec (.tileReset via v) s = .next ((s.plainWrite resetCtrl (v ||| 8)).loseTile (field v 6 4))))
end

