-- ==== Sys2Proof/Laws/Tables.lean ====
section
/-! SUPPORT. What the tables of Machine/Map.lean do: a read after a write, and that a write keeps the canonical form. -/

namespace Sys2Proof.Machine

variable {α : Type}

theorem tget_terase_self (d : α) (m : NMap α) (k : Nat) : tget d (terase m k) k = d := by
  induction m with
  | nil => rfl
  | cons e m ih =>
    obtain ⟨j, v⟩ := e
    by_cases h : j = k
    · simpa [terase, h] using ih
    · simpa [terase, tget, h] using ih

theorem tget_terase_ne (d : α) (m : NMap α) {k i : Nat} (h : i ≠ k) : tget d (terase m k) i = tget d m i := by
  induction m with
  | nil => rfl
  | cons e m ih =>
    obtain ⟨j, v⟩ := e
    by_cases hj : j = k
    · subst hj
      simpa [terase, tget, h.symm] using ih
    · by_cases hi : j = i
      · simp [terase, tget, hi, h]
      · simpa [terase, tget, hj, hi] using ih

theorem tget_tinsert_self (d v : α) (m : NMap α) (k : Nat) (h : ∀ e ∈ m, e.1 ≠ k) :
    tget d (tinsert m k v) k = v := by
  induction m with
  | nil => simp [tinsert, tget]
  | cons e m ih =>
    obtain ⟨j, w⟩ := e
    have hj : j ≠ k := h (j, w) (by simp)
    have ih' := ih fun e he => h e (by simp [he])
    by_cases hk : k < j
    · simp [tinsert, tget, hk]
    · simp [tinsert, tget, hk, hj, ih']

theorem tget_tinsert_ne (d v : α) (m : NMap α) {k i : Nat} (h : i ≠ k) :
    tget d (tinsert m k v) i = tget d m i := by
  induction m with
  | nil => simp [tinsert, tget, h.symm]
  | cons e m ih =>
    obtain ⟨j, w⟩ := e
    by_cases hk : k < j
    · simp [tinsert, tget, hk, h.symm]
    · by_cases hj : j = i
      · subst hj
        simp [tinsert, tget, hk]
      · simp [tinsert, tget, hk, hj, ih]

theorem mem_terase_ne {m : NMap α} {k : Nat} : ∀ e ∈ terase m k, e.1 ≠ k := by
  intro e he
  simpa [terase] using (List.mem_filter.mp he).2

/-- A read after a write to the same key gives the value written. -/
@[simp] theorem tget_tset_self [DecidableEq α] (d : α) (m : NMap α) (k : Nat) (v : α) :
    tget d (tset d m k v) k = v := by
  unfold tset
  split
  · rename_i h
    rw [h, tget_terase_self]
  · exact tget_tinsert_self d v _ k mem_terase_ne

/-- A write leaves every other key alone, whatever an unlisted key reads as there. -/
theorem tget_tset_ne [DecidableEq α] (d d' : α) (m : NMap α) {k i : Nat} (v : α) (h : i ≠ k) :
    tget d' (tset d m k v) i = tget d' m i := by
  unfold tset
  split
  · exact tget_terase_ne d' m h
  · rw [tget_tinsert_ne d' v _ h, tget_terase_ne d' m h]

/-- Both cases of a read after a write. -/
theorem tget_tset [DecidableEq α] (d : α) (m : NMap α) (k i : Nat) (v : α) :
    tget d (tset d m k v) i = if i = k then v else tget d m i := by
  split
  · subst i
    exact tget_tset_self d m k v
  · exact tget_tset_ne d d m v ‹_›

@[simp] theorem tget_nil (d : α) (k : Nat) : tget d [] k = d := rfl

@[simp] theorem tget_tmod_self [DecidableEq α] (d : α) (m : NMap α) (k : Nat) (f : α → α) :
    tget d (tmod d m k f) k = f (tget d m k) := tget_tset_self ..

theorem tget_tmod_ne [DecidableEq α] (d : α) (m : NMap α) {k i : Nat} (f : α → α) (h : i ≠ k) :
    tget d (tmod d m k f) i = tget d m i := tget_tset_ne d d m _ h

theorem tget_tmod [DecidableEq α] (d : α) (m : NMap α) (k i : Nat) (f : α → α) :
    tget d (tmod d m k f) i = if i = k then f (tget d m k) else tget d m i := tget_tset ..

theorem twf_iff [DecidableEq α] (d : Nat → α) (m : NMap α) :
    twf d m = true ↔ (m.Pairwise fun a b => a.1 < b.1) ∧ ∀ e ∈ m, e.2 ≠ d e.1 := by
  simp [twf]

theorem twf_nil [DecidableEq α] (d : Nat → α) : twf d [] = true := rfl

/-- Leaving entries out keeps the canonical form. -/
theorem twf_filter [DecidableEq α] {d : Nat → α} {m : NMap α} (p : Nat × α → Bool) (h : twf d m = true) :
    twf d (m.filter p) = true := by
  rw [twf_iff] at *
  exact ⟨h.1.sublist List.filter_sublist, fun e he => h.2 e (List.mem_filter.mp he).1⟩

theorem mem_tinsert {m : NMap α} {k : Nat} {v : α} {e : Nat × α} (h : e ∈ tinsert m k v) : e = (k, v) ∨ e ∈ m := by
  induction m with
  | nil => simpa [tinsert] using h
  | cons f m ih =>
    obtain ⟨i, x⟩ := f
    by_cases hki : k < i
    · simpa [tinsert, hki] using h
    · simp only [tinsert, hki, if_false, List.mem_cons] at h
      rcases h with rfl | h
      · simp
      · rcases ih h with h | h <;> simp [h]

theorem pairwise_tinsert {m : NMap α} {k : Nat} {v : α} (h : m.Pairwise fun a b => a.1 < b.1)
    (hk : ∀ e ∈ m, e.1 ≠ k) : (tinsert m k v).Pairwise fun a b => a.1 < b.1 := by
  induction m with
  | nil => simp [tinsert]
  | cons e m ih =>
    obtain ⟨j, w⟩ := e
    have hj : j ≠ k := hk (j, w) (by simp)
    obtain ⟨h1, h2⟩ := List.pairwise_cons.mp h
    by_cases hlt : k < j
    · simp only [tinsert, hlt, if_true]
      refine List.pairwise_cons.mpr ⟨fun e he => ?_, h⟩
      rcases List.mem_cons.mp he with rfl | he
      · exact hlt
      · exact lt_trans hlt (h1 e he)
    · simp only [tinsert, hlt, if_false]
      refine List.pairwise_cons.mpr ⟨fun e he => ?_, ih h2 fun e he => hk e (by simp [he])⟩
      rcases mem_tinsert he with rfl | he
      · simp only; omega
      · exact h1 e he

/-- A write keeps the canonical form. -/
theorem twf_tset [DecidableEq α] {d : Nat → α} {m : NMap α} (k : Nat) (v : α) (h : twf d m = true) :
    twf d (tset (d k) m k v) = true := by
  have he : twf d (terase m k) = true := twf_filter _ h
  unfold tset
  split
  · exact he
  · rw [twf_iff] at *
    refine ⟨pairwise_tinsert he.1 mem_terase_ne, fun e hm => ?_⟩
    rcases mem_tinsert hm with rfl | hm
    · assumption
    · exact he.2 e hm

/-- A change at a key keeps the canonical form. -/
theorem twf_tmod [DecidableEq α] {d : Nat → α} {m : NMap α} (k : Nat) (f : α → α) (h : twf d m = true) :
    twf d (tmod (d k) m k f) = true := twf_tset k _ h

/-- In canonical form the reads determine the table. -/
theorem twf_ext [DecidableEq α] {d : Nat → α} {m n : NMap α} (hm : twf d m = true) (hn : twf d n = true)
    (h : ∀ k, tget (d k) m k = tget (d k) n k) : m = n := by
  rw [twf_iff] at hm hn
  have low : ∀ (l : NMap α) (k : Nat), (∀ e ∈ l, k < e.1) → tget (d k) l k = d k := by
    intro l
    induction l with
    | nil => intro _ _; rfl
    | cons e l ih =>
      intro k hk
      obtain ⟨j, v⟩ := e
      have h1 : k < j := hk (j, v) (by simp)
      simp only [tget, (show j ≠ k by omega), if_false]
      exact ih k fun e he => hk e (by simp [he])
  induction m generalizing n with
  | nil =>
    cases n with
    | nil => rfl
    | cons e n =>
      obtain ⟨j, v⟩ := e
      have := h j
      simp only [tget, if_true] at this
      exact absurd this.symm (hn.2 (j, v) (by simp))
  | cons e m ih =>
    obtain ⟨j, v⟩ := e
    obtain ⟨hm1, hm2⟩ := hm
    obtain ⟨hj, hmp⟩ := List.pairwise_cons.mp hm1
    cases n with
    | nil =>
      have := h j
      simp only [tget, if_true] at this
      exact absurd this (hm2 (j, v) (by simp))
    | cons f n =>
      obtain ⟨i, w⟩ := f
      obtain ⟨hn1, hn2⟩ := hn
      obtain ⟨hi, hnp⟩ := List.pairwise_cons.mp hn1
      have hij : i = j := by
        rcases lt_trichotomy i j with hlt | heq | hgt
        · have := h i
          rw [low ((j, v) :: m) i (by
            intro e he
            rcases List.mem_cons.mp he with rfl | he
            · exact hlt
            · exact lt_trans hlt (hj e he))] at this
          simp only [tget, if_true] at this
          exact absurd this.symm (hn2 (i, w) (by simp))
        · exact heq
        · have := h j
          rw [low ((i, w) :: n) j (by
            intro e he
            rcases List.mem_cons.mp he with rfl | he
            · exact hgt
            · exact lt_trans hgt (hi e he))] at this
          simp only [tget, if_true] at this
          exact absurd this (hm2 (j, v) (by simp))
      subst hij
      have hv : v = w := by simpa [tget] using h i
      subst hv
      rw [ih ⟨hmp, fun e he => hm2 e (by simp [he])⟩ ⟨hnp, fun e he => hn2 e (by simp [he])⟩ fun k => ?_]
      have hk := h k
      simp only [tget] at hk
      by_cases hik : i = k
      · subst hik
        rw [low m i hj, low n i hi]
      · simpa [hik] using hk

end Sys2Proof.Machine
end

