-- ==== Sys2Proof/Laws/Keeps.lean ====
section
/-! SUPPORT. `Keeps z s`: what every operation of the machine preserves on the way from `z` to `s`. The lemmas
`<operation>_keeps` of the Laws/Keeps files say it of each of them, so that a claim about every command needs none of them
unfolded. -/

namespace Sys2Proof.Machine

/-- What no operation changes or takes back: the part and the command queue stay, numbers and free values are taken in
order, the log only grows, a blown fuse bit stays blown, and the register file and the flash stay in canonical form. -/
structure Keeps (z s : State) : Prop where
  part : s.part = z.part
  pending : s.pending = z.pending
  idCtr : z.idCtr ≤ s.idCtr
  freeCtr : z.freeCtr ≤ s.freeCtr
  wire : z.wire <+: s.wire
  fuses : z.fusesKept s
  wf : z.Wf → s.Wf

theorem State.fusesKept.refl (s : State) : s.fusesKept s := ⟨fun _ h => h, fun _ h => h⟩

theorem Keeps.refl (z : State) : Keeps z z :=
  ⟨rfl, rfl, le_refl _, le_refl _, List.prefix_refl _, State.fusesKept.refl z, id⟩

theorem Keeps.trans {x y z : State} (h : Keeps x y) (k : Keeps y z) : Keeps x z :=
  ⟨k.part.trans h.part, k.pending.trans h.pending, h.idCtr.trans k.idCtr, h.freeCtr.trans k.freeCtr,
    h.wire.trans k.wire, ⟨fun i q => k.fuses.1 i (h.fuses.1 i q), fun i q => k.fuses.2 i (h.fuses.2 i q)⟩, k.wf ∘ h.wf⟩

theorem Keeps.ite {z : State} {c : Prop} [Decidable c] {a b : State} (ha : Keeps z a) (hb : Keeps z b) :
    Keeps z (if c then a else b) := by split <;> assumption

theorem Keeps.ite_fst {α : Type} {z : State} {c : Prop} [Decidable c] {a b : State × α} (ha : Keeps z a.1)
    (hb : Keeps z b.1) : Keeps z (if c then a else b).1 := by split <;> assumption

/-- A record update of fields that `Keeps` does not speak of. -/
theorem Keeps.upd {z s : State} {tm cur core sch arrivals pkts outs ir hv host tel cont wc win eng pu
    seats ports lanes sp seqLate slots links pwr} :
    Keeps z { part := s.part, live := s.live, set0 := s.set0, set1 := s.set1, tm := tm, cur := cur, core := core, sch := sch,
              arrivals := arrivals, pkts := pkts, outs := outs, idCtr := s.idCtr, ilulysReset := ir, hv := hv, host := host,
              tel := tel, cont := cont, wc := wc, win := win, eng := eng, pu := pu, seats := seats, ports := ports,
              lanes := lanes, sp := sp, seqLate := seqLate, slots := slots, links := links, boot := s.boot, pwr := pwr,
              wire := s.wire, freeCtr := s.freeCtr, pending := s.pending } ↔
      Keeps z s :=
  ⟨fun ⟨a, b, c, d, e, f, g⟩ => ⟨a, b, c, d, e, f, g⟩, fun ⟨a, b, c, d, e, f, g⟩ => ⟨a, b, c, d, e, f, g⟩⟩

/-- A record update that takes the next number. -/
theorem Keeps.updId {z s : State} (h : Keeps z s) {tm cur core sch arrivals pkts outs ir hv host tel cont wc win eng pu
    seats ports lanes sp seqLate slots links pwr} :
    Keeps z { part := s.part, live := s.live, set0 := s.set0, set1 := s.set1, tm := tm, cur := cur, core := core, sch := sch,
              arrivals := arrivals, pkts := pkts, outs := outs, idCtr := s.idCtr + 1, ilulysReset := ir, hv := hv, host := host,
              tel := tel, cont := cont, wc := wc, win := win, eng := eng, pu := pu, seats := seats, ports := ports,
              lanes := lanes, sp := sp, seqLate := seqLate, slots := slots, links := links, boot := s.boot, pwr := pwr,
              wire := s.wire, freeCtr := s.freeCtr, pending := s.pending } :=
  h.trans ⟨rfl, rfl, Nat.le_succ _, le_refl _, List.prefix_refl _, State.fusesKept.refl s, fun q => q⟩

/-- Register words left out. -/
theorem Keeps.filt {z s : State} (h : Keeps z s) {pl p0 p1 : Nat × Word → Bool} {tm cur core sch arrivals pkts outs ir hv
    host tel cont wc win eng pu seats ports lanes sp seqLate slots links pwr} :
    Keeps z { part := s.part, live := s.live.filter pl, set0 := s.set0.filter p0, set1 := s.set1.filter p1, tm := tm,
              cur := cur, core := core, sch := sch,
              arrivals := arrivals, pkts := pkts, outs := outs, idCtr := s.idCtr, ilulysReset := ir, hv := hv, host := host,
              tel := tel, cont := cont, wc := wc, win := win, eng := eng, pu := pu, seats := seats, ports := ports,
              lanes := lanes, sp := sp, seqLate := seqLate, slots := slots, links := links, boot := s.boot, pwr := pwr,
              wire := s.wire, freeCtr := s.freeCtr, pending := s.pending } :=
  h.trans ⟨rfl, rfl, le_refl _, le_refl _, List.prefix_refl _, State.fusesKept.refl s,
    fun q => ⟨twf_filter _ q.1, twf_filter _ q.2.1, twf_filter _ q.2.2.1, q.2.2.2⟩⟩

/-- A record update that leaves registers out, or copies one set copy over the other. -/
theorem Keeps.regs {z s : State} (h : Keeps z s) {t : State} (hp : t.part = s.part) (hq : t.pending = s.pending)
    (hi : t.idCtr = s.idCtr) (hf : t.freeCtr = s.freeCtr) (hw : t.wire = s.wire) (ha : t.boot.fuseA = s.boot.fuseA)
    (hb : t.boot.fuseB = s.boot.fuseB) (hwf : s.Wf → t.Wf) : Keeps z t :=
  h.trans ⟨hp, hq, hi ▸ le_refl _, hf ▸ le_refl _, hw ▸ List.prefix_refl _,
    ⟨fun _ q => ha ▸ q, fun _ q => hb ▸ q⟩, hwf⟩

theorem State.each_keeps {α : Type} {z : State} (s : State) (l : List α) (f : State → α → State) (h : Keeps z s)
    (hf : ∀ t a, Keeps z t → Keeps z (f t a)) : Keeps z (s.each l f) := by
  induction l generalizing s with
  | nil => exact h
  | cons a l ih => exact ih (f s a) (hf s a h)

theorem State.setLv_keeps {z : State} (s : State) (o : Nat) (v : Word) (h : Keeps z s) : Keeps z (s.setLv o v) :=
  h.regs rfl rfl rfl rfl rfl rfl rfl fun q => ⟨twf_tset (d := regReset s.part) o v q.1, q.2⟩

theorem State.setConf_keeps {z : State} (s : State) (e : Bool) (o : Nat) (v : Word) (h : Keeps z s) :
    Keeps z (s.setConf e o v) := by
  unfold State.setConf
  refine .ite (h.regs rfl rfl rfl rfl rfl rfl rfl fun q => ⟨q.1, q.2.1, ?_, q.2.2.2⟩)
    (h.regs rfl rfl rfl rfl rfl rfl rfl fun q => ⟨q.1, ?_, q.2.2⟩)
  · exact twf_tset (d := regReset s.part) o v q.2.2.1
  · exact twf_tset (d := regReset s.part) o v q.2.1

theorem State.modBoot_keeps {z : State} (s : State) (f : BootSt → BootSt) (h : Keeps z s)
    (ha : ∀ i, s.boot.fuseA.getLsbD i = true → (f s.boot).fuseA.getLsbD i = true)
    (hb : ∀ i, s.boot.fuseB.getLsbD i = true → (f s.boot).fuseB.getLsbD i = true)
    (hm : s.boot.flash.wf = true → (f s.boot).flash.wf = true) : Keeps z (s.modBoot f) :=
  h.trans ⟨rfl, rfl, le_refl _, le_refl _, List.prefix_refl _, ⟨ha, hb⟩, fun q => ⟨q.1, q.2.1, q.2.2.1, hm q.2.2.2⟩⟩

theorem bit_or_keeps {w : Nat} (x y : BitVec w) {c : Prop} [Decidable c] (i : Nat) (h : x.getLsbD i = true) :
    (if c then x ||| y else x).getLsbD i = true := by
  split <;> simp [h]

theorem State.used_keeps {z : State} (s : State) (h : Keeps z s) : Keeps z s.used :=
  h.trans ⟨rfl, rfl, le_refl _, Nat.le_succ _, List.prefix_refl _, State.fusesKept.refl s, fun q => q⟩

theorem State.emit_keeps {z : State} (s : State) (e : Emission) (h : Keeps z s) : Keeps z (s.emit e) :=
  h.trans ⟨rfl, rfl, le_refl _, le_refl _, List.prefix_append _ _, State.fusesKept.refl s, fun q => q⟩

/-- A run of writes keeps the canonical form of a table of its own. -/
theorem twf_foldl {α β : Type} [DecidableEq α] {d : α} (l : List β) (k : β → Nat) (v : β → α) {m : NMap α}
    (h : twf (fun _ => d) m = true) : twf (fun _ => d) (l.foldl (fun m x => tset d m (k x) (v x)) m) = true := by
  induction l generalizing m with
  | nil => exact h
  | cons x l ih => exact ih (twf_tset (d := fun _ => d) _ _ h)

end Sys2Proof.Machine
end

