-- ==== Sys2Proof/Laws/KeepsOps.lean ====
section
/-! SUPPORT. Every operation of Machine/Ops.lean keeps what `Keeps` says. -/

set_option linter.unusedTactic false
set_option linter.unreachableTactic false

namespace Sys2Proof.Machine

theorem State.setFld_keeps {z : State} (s : State) (o hi lo n : Nat) (hk : Keeps z s) :
    Keeps z (State.setFld s o hi lo n) := by
  unfold State.setFld
  try dsimp only
  repeat' with_reducible first | assumption | apply State.setLv_keeps | refine Keeps.ite ?_ ?_ | split

theorem State.setFlag_keeps {z : State} (s : State) (o n : Nat) (b : Bool) (hk : Keeps z s) :
    Keeps z (State.setFlag s o n b) := by
  unfold State.setFlag
  try dsimp only
  repeat' with_reducible first | assumption | apply State.setLv_keeps | refine Keeps.ite ?_ ?_ | split

theorem State.sticky_keeps {z : State} (s : State) (o n : Nat) (hk : Keeps z s) :
    Keeps z (State.sticky s o n) := by
  unfold State.sticky
  try dsimp only
  repeat' with_reducible first | assumption | apply State.setFlag_keeps | refine Keeps.ite ?_ ?_ | split

theorem State.plainWrite_keeps {z : State} (s : State) (o : Nat) (v : Word) (hk : Keeps z s) :
    Keeps z (State.plainWrite s o v) := by
  unfold State.plainWrite
  try dsimp only
  repeat' with_reducible first | assumption | apply State.setLv_keeps | refine Keeps.ite ?_ ?_ | split

theorem State.hold_keeps {z : State} (s : State) (i : Instr) (hk : Keeps z s) :
    Keeps z (State.hold s i) := by
  unfold State.hold
  try dsimp only
  repeat' with_reducible first | assumption | refine Keeps.ite ?_ ?_ | simp only [Keeps.upd] | split

theorem State.addPkt_keeps {z : State} (s : State) (p : Packet) (h : Keeps z s) : Keeps z (s.addPkt p) := h.updId

theorem State.modPkt_keeps {z : State} (s : State) (n : Nat) (f : Packet → Packet) (hk : Keeps z s) :
    Keeps z (State.modPkt s n f) := by
  unfold State.modPkt
  try dsimp only
  repeat' with_reducible first | assumption | refine Keeps.ite ?_ ?_ | simp only [Keeps.upd] | simp only [id] | split

theorem State.dropPkt_keeps {z : State} (s : State) (n : Nat) (hk : Keeps z s) :
    Keeps z (State.dropPkt s n) := by
  unfold State.dropPkt
  try dsimp only
  repeat' with_reducible first | assumption | refine Keeps.ite ?_ ?_ | simp only [Keeps.upd] | simp only [id] | split

theorem State.modCore_keeps {z : State} (s : State) (f : CoreSt → CoreSt) (hk : Keeps z s) :
    Keeps z (State.modCore s f) := by
  unfold State.modCore
  try dsimp only
  repeat' with_reducible first | assumption | refine Keeps.ite ?_ ?_ | simp only [Keeps.upd] | split

theorem State.lowSeen_keeps {z : State} (s : State) (t n : Nat) (hk : Keeps z s) :
    Keeps z (State.lowSeen s t n) := by
  unfold State.lowSeen
  try dsimp only
  repeat' with_reducible first | assumption | apply State.sticky_keeps | refine Keeps.ite ?_ ?_ | split

theorem State.takeCells_keeps {z : State} (s : State) (p : Packet) (hk : Keeps z s) :
    Keeps z (State.takeCells s p) := by
  unfold State.takeCells
  try dsimp only
  repeat' with_reducible first | assumption | apply State.modCore_keeps | apply State.setFld_keeps | refine Keeps.ite ?_ ?_ | split

theorem State.enter_keeps {z : State} (s : State) (p : Packet) (hk : Keeps z s) :
    Keeps z (State.enter s p) := by
  unfold State.enter
  try dsimp only
  repeat' with_reducible first | assumption | apply State.addPkt_keeps | apply State.lowSeen_keeps | apply State.takeCells_keeps | refine Keeps.ite ?_ ?_ | simp only [Keeps.upd] | split

theorem State.freeCells_keeps {z : State} (s : State) (p : Packet) (hk : Keeps z s) :
    Keeps z (State.freeCells s p) := by
  unfold State.freeCells
  try dsimp only
  repeat' with_reducible first | assumption | apply State.modCore_keeps | apply State.setFld_keeps | refine Keeps.ite ?_ ?_ | split

theorem State.retire_keeps {z : State} (s : State) (p : Packet) (hk : Keeps z s) :
    Keeps z (State.retire s p) := by
  unfold State.retire
  try dsimp only
  repeat' with_reducible first | assumption | apply State.modCore_keeps | apply State.dropPkt_keeps | apply State.freeCells_keeps | refine Keeps.ite ?_ ?_ | simp only [id] | split

end Sys2Proof.Machine
end

