-- ==== Sys2Proof/Laws/KeepsOperands.lean ====
section
/-! SUPPORT. Every operation of Machine/Operands.lean keeps what `Keeps` says. -/

set_option linter.unusedTactic false
set_option linter.unreachableTactic false

namespace Sys2Proof.Machine

theorem State.modVport_keeps {z : State} (s : State) (p d : Nat) (f : VPort → VPort) (hk : Keeps z s) :
    Keeps z (State.modVport s p d f) := by
  unfold State.modVport
  try dsimp only
  repeat' with_reducible first | assumption | refine Keeps.ite ?_ ?_ | simp only [Keeps.upd] | split

theorem State.modFab_keeps {z : State} (s : State) (p : Nat) (f : FabFn → FabFn) (hk : Keeps z s) :
    Keeps z (State.modFab s p f) := by
  unfold State.modFab
  try dsimp only
  repeat' with_reducible first | assumption | refine Keeps.ite ?_ ?_ | simp only [Keeps.upd] | split

theorem State.logAer_keeps {z : State} (s : State) (p d : Nat) (k : AerKind) (hk : Keeps z s) :
    Keeps z (State.logAer s p d k) := by
  unfold State.logAer
  try dsimp only
  repeat' with_reducible first | assumption | apply State.used_keeps | apply State.modVport_keeps | refine Keeps.ite ?_ ?_ | split

theorem State.logFabAer_keeps {z : State} (s : State) (p : Nat) (k : AerKind) (hk : Keeps z s) :
    Keeps z (State.logFabAer s p k) := by
  unfold State.logFabAer
  try dsimp only
  repeat' with_reducible first | assumption | apply State.used_keeps | apply State.modFab_keeps | refine Keeps.ite ?_ ?_ | split

theorem State.modSeat_keeps {z : State} (s : State) (seat : Nat) (f : SeatSt → SeatSt) (hk : Keeps z s) :
    Keeps z (State.modSeat s seat f) := by
  unfold State.modSeat
  try dsimp only
  repeat' with_reducible first | assumption | refine Keeps.ite ?_ ?_ | simp only [Keeps.upd] | split

theorem State.modRing_keeps {z : State} (s : State) (r : Nat) (f : RingSt → RingSt) (hk : Keeps z s) :
    Keeps z (State.modRing s r f) := by
  unfold State.modRing
  try dsimp only
  repeat' with_reducible first | assumption | refine Keeps.ite ?_ ?_ | simp only [Keeps.upd] | split

end Sys2Proof.Machine
end

