-- ==== Sys2Proof/Laws/KeepsFlags.lean ====
section
/-! SUPPORT. Every operation of Machine/Flags.lean keeps what `Keeps` says. -/

set_option linter.unusedTactic false
set_option linter.unreachableTactic false

namespace Sys2Proof.Machine

theorem State.bump_keeps {z : State} (s : State) (space num k : Nat) (hk : Keeps z s) :
    Keeps z (State.bump s space num k) := by
  unfold State.bump
  try dsimp only
  repeat' with_reducible first | assumption | refine Keeps.ite ?_ ?_ | simp only [Keeps.upd] | split

theorem State.countN_keeps {z : State} (s : State) (t : Nat) (ev : TEv) (port seat : Option Nat) (k : Nat) (hk : Keeps z s) :
    Keeps z (State.countN s t ev port seat k) := by
  unfold State.countN
  try dsimp only
  repeat' with_reducible first | assumption | apply State.sticky_keeps | (refine State.each_keeps _ _ _ ?_ fun t a ht => ?_) | apply State.bump_keeps | refine Keeps.ite ?_ ?_ | split

theorem State.count_keeps {z : State} (s : State) (t : Nat) (ev : TEv) (port : Option Nat := none) (seat : Option Nat := none) (hk : Keeps z s) :
    Keeps z (State.count s t ev port seat) := by
  unfold State.count
  try dsimp only
  repeat' with_reducible first | assumption | apply State.countN_keeps | refine Keeps.ite ?_ ?_ | split

theorem State.countHk_keeps {z : State} (s : State) (idx : Nat) (hk : Keeps z s) :
    Keeps z (State.countHk s idx) := by
  unfold State.countHk
  try dsimp only
  repeat' with_reducible first | assumption | apply State.bump_keeps | refine Keeps.ite ?_ ?_ | split

theorem State.modBo_keeps {z : State} (s : State) (t : Nat) (seat : Option Nat) (f : Bo → Bo) (hk : Keeps z s) :
    Keeps z (State.modBo s t seat f) := by
  unfold State.modBo
  try dsimp only
  repeat' with_reducible first | assumption | refine Keeps.ite ?_ ?_ | simp only [Keeps.upd] | split

theorem State.pushRec_keeps {z : State} (s : State) (r seat : Nat) (b : List Byte) (hk : Keeps z s) :
    Keeps z (State.pushRec s r seat b) := by
  unfold State.pushRec
  try dsimp only
  repeat' with_reducible first | assumption | apply State.modRing_keeps | apply State.sticky_keeps | refine Keeps.ite ?_ ?_ | split

theorem State.pushEv_keeps {z : State} (s : State) (r : Nat) (b : List Byte) (hk : Keeps z s) :
    Keeps z (State.pushEv s r b) := by
  unfold State.pushEv
  try dsimp only
  repeat' with_reducible first | assumption | apply State.modRing_keeps | refine Keeps.ite ?_ ?_ | split

theorem State.flushLost_keeps {z : State} (s : State) (r owner tile : Nat) (hk : Keeps z s) :
    Keeps z (State.flushLost s r owner tile) := by
  unfold State.flushLost
  try dsimp only
  repeat' with_reducible first | assumption | apply State.setFld_keeps | apply State.pushEv_keeps | refine Keeps.ite ?_ ?_ | split

theorem State.sendRecord_keeps {z : State} (s : State) (dst tile : Nat) (b : List Byte) (hk : Keeps z s) :
    Keeps z (State.sendRecord s dst tile b) := by
  unfold State.sendRecord
  try dsimp only
  repeat' with_reducible first | assumption | apply State.count_keeps | apply State.flushLost_keeps | apply State.pushEv_keeps | apply State.setFld_keeps | refine Keeps.ite ?_ ?_ | split

theorem State.event_keeps {z : State} (s : State) (dst type concerned tile : Nat) (body : List Byte) (hk : Keeps z s) :
    Keeps z (State.event s dst type concerned tile body) := by
  unfold State.event
  try dsimp only
  repeat' with_reducible first | assumption | apply State.sendRecord_keeps | refine Keeps.ite ?_ ?_ | split

theorem State.eventMgr_keeps {z : State} (s : State) (type tile : Nat) (body : List Byte) (hk : Keeps z s) :
    Keeps z (State.eventMgr s type tile body) := by
  unfold State.eventMgr
  try dsimp only
  repeat' with_reducible first | assumption | apply State.event_keeps | refine Keeps.ite ?_ ?_ | simp only [Keeps.upd] | split

theorem State.dieEventsOut_keeps {z : State} (s : State) (hk : Keeps z s) :
    Keeps z (State.dieEventsOut s) := by
  unfold State.dieEventsOut
  try dsimp only
  repeat' with_reducible first | assumption | (refine State.each_keeps _ _ _ ?_ fun t a ht => ?_) | apply State.sendRecord_keeps | refine Keeps.ite ?_ ?_ | simp only [Keeps.upd] | split

end Sys2Proof.Machine
end

