-- ==== Sys2Proof/Laws/KeepsFlitOps.lean ====
section
/-! SUPPORT. Every operation of Machine/FlitOps.lean keeps what `Keeps` says. -/

set_option linter.unusedTactic false
set_option linter.unreachableTactic false

namespace Sys2Proof.Machine

theorem State.modPort_keeps {z : State} (s : State) (port : Nat) (f : PortSt → PortSt) (hk : Keeps z s) :
    Keeps z (State.modPort s port f) := by
  unfold State.modPort
  try dsimp only
  repeat' with_reducible first | assumption | refine Keeps.ite ?_ ?_ | simp only [Keeps.upd] | split

theorem State.modLink_keeps {z : State} (s : State) (l : Link) (f : LinkSt → LinkSt) (hk : Keeps z s) :
    Keeps z (State.modLink s l f) := by
  unfold State.modLink
  try dsimp only
  repeat' with_reducible first | assumption | refine Keeps.ite ?_ ?_ | simp only [Keeps.upd] | split

theorem State.sendData_keeps {z : State} (s : State) (l : Link) (seq first : Nat) (replay : Bool) (cs : List (BitVec 64)) (hk : Keeps z s) :
    Keeps z (State.sendData s l seq first replay cs) := by
  unfold State.sendData
  try dsimp only
  repeat' with_reducible first | assumption | apply State.modLink_keeps | apply State.emit_keeps | refine Keeps.ite ?_ ?_ | split

theorem State.syncFull_keeps {z : State} (s : State) (l : Link) (hk : Keeps z s) :
    Keeps z (State.syncFull s l) := by
  unfold State.syncFull
  try dsimp only
  repeat' with_reducible first | assumption | apply State.setFlag_keeps | refine Keeps.ite ?_ ?_ | split

theorem State.nextData_keeps {z : State} (s : State) (l : Link) (hk : Keeps z s) :
    Keeps z (State.nextData s l) := by
  unfold State.nextData
  try dsimp only
  repeat' with_reducible first | assumption | apply State.syncFull_keeps | apply State.modLink_keeps | apply State.sendData_keeps | refine Keeps.ite ?_ ?_ | split

theorem State.sendFlits_keeps {z : State} (s : State) (l : Link) (least : Nat) (x' : Nat) (hk : Keeps z s) :
    Keeps z (State.sendFlits s l least x') := by
  induction x' generalizing s l least with
  | zero => exact hk
  | succ x' ih =>
    unfold State.sendFlits
    try dsimp only
    repeat' with_reducible first | assumption | apply ih | apply State.nextData_keeps | refine Keeps.ite ?_ ?_ | split

theorem State.sendFull_keeps {z : State} (s : State) (l : Link) (hk : Keeps z s) :
    Keeps z (State.sendFull s l) := by
  unfold State.sendFull
  try dsimp only
  repeat' with_reducible first | assumption | apply State.sendFlits_keeps | refine Keeps.ite ?_ ?_ | split

theorem State.sendAll_keeps {z : State} (s : State) (l : Link) (hk : Keeps z s) :
    Keeps z (State.sendAll s l) := by
  unfold State.sendAll
  try dsimp only
  repeat' with_reducible first | assumption | apply State.sendFlits_keeps | refine Keeps.ite ?_ ?_ | split

theorem State.resend_keeps {z : State} (s : State) (l : Link) (hk : Keeps z s) :
    Keeps z (State.resend s l) := by
  unfold State.resend
  try dsimp only
  repeat' with_reducible first | assumption | apply State.modLink_keeps | apply State.setFlag_keeps | (refine State.each_keeps _ _ _ ?_ fun t a ht => ?_) | apply State.sendData_keeps | refine Keeps.ite ?_ ?_ | split

theorem State.resendTrim_keeps {z : State} (s : State) (l : Link) (hk : Keeps z s) :
    Keeps z (State.resendTrim s l) := by
  unfold State.resendTrim
  try dsimp only
  repeat' with_reducible first | assumption | apply State.modLink_keeps | apply State.setFlag_keeps | refine Keeps.ite ?_ ?_ | split

theorem State.flitSlot_keeps {z : State} (s : State) (port : Nat) (hk : Keeps z s) :
    Keeps z (State.flitSlot s port) := by
  unfold State.flitSlot
  try dsimp only
  repeat' with_reducible first | assumption | apply State.sendData_keeps | apply State.resendTrim_keeps | apply State.modLink_keeps | apply State.sendFlits_keeps | refine Keeps.ite ?_ ?_ | split

theorem State.idleFlits_keeps {z : State} (s : State) (port n : Nat) (hk : Keeps z s) :
    Keeps z (State.idleFlits s port n) := by
  unfold State.idleFlits
  try dsimp only
  repeat' with_reducible first | assumption | apply State.modLink_keeps | apply State.emit_keeps | refine Keeps.ite ?_ ?_ | split

theorem State.flitSlots_keeps {z : State} (s : State) (port : Nat) (x' : Nat) (hk : Keeps z s) :
    Keeps z (State.flitSlots s port x') := by
  induction x' generalizing s port with
  | zero => exact hk
  | succ x' ih =>
    unfold State.flitSlots
    try dsimp only
    repeat' with_reducible first | assumption | apply ih | apply State.flitSlot_keeps | apply State.idleFlits_keeps | refine Keeps.ite ?_ ?_ | split

theorem State.flitsOut_keeps {z : State} (s : State) (n : Nat) (hk : Keeps z s) :
    Keeps z (State.flitsOut s n) := by
  unfold State.flitsOut
  try dsimp only
  repeat' with_reducible first | assumption | (refine State.each_keeps _ _ _ ?_ fun t a ht => ?_) | apply State.flitSlots_keeps | refine Keeps.ite ?_ ?_ | split

end Sys2Proof.Machine
end

