-- ==== Sys2Proof/Laws/KeepsTime.lean ====
section
/-! SUPPORT. Every operation of Machine/Time.lean keeps what `Keeps` says. -/

set_option linter.unusedTactic false
set_option linter.unreachableTactic false

namespace Sys2Proof.Machine

theorem State.modTm_keeps {z : State} (s : State) (f : TimeSt → TimeSt) (hk : Keeps z s) :
    Keeps z (State.modTm s f) := by
  unfold State.modTm
  try dsimp only
  repeat' with_reducible first | assumption | refine Keeps.ite ?_ ?_ | simp only [Keeps.upd] | split

theorem State.shiftSlaves_keeps {z : State} (s : State) (d : Int) (hk : Keeps z s) :
    Keeps z (State.shiftSlaves s d) := by
  unfold State.shiftSlaves
  try dsimp only
  repeat' with_reducible first | assumption | apply State.modTm_keeps | refine Keeps.ite ?_ ?_ | split

theorem State.moveFt_keeps {z : State} (s : State) (v : Nat) (hk : Keeps z s) :
    Keeps z (State.moveFt s v) := by
  unfold State.moveFt
  try dsimp only
  repeat' with_reducible first | assumption | apply State.shiftSlaves_keeps | apply State.sticky_keeps | apply State.modTm_keeps | refine Keeps.ite ?_ ?_ | split

theorem State.lockIfDue_keeps {z : State} (s : State) (hk : Keeps z s) :
    Keeps z (State.lockIfDue s) := by
  unfold State.lockIfDue
  try dsimp only
  repeat' with_reducible first | assumption | apply State.setFlag_keeps | refine Keeps.ite ?_ ?_ | split

theorem State.applyTod_keeps {z : State} (s : State) (v : Nat) (hk : Keeps z s) :
    Keeps z (State.applyTod s v) := by
  unfold State.applyTod
  try dsimp only
  repeat' with_reducible first | assumption | apply State.lockIfDue_keeps | apply State.setFlag_keeps | apply State.modTm_keeps | apply State.moveFt_keeps | refine Keeps.ite ?_ ?_ | split

theorem State.correct_keeps {z : State} (s : State) (err : Int) (hk : Keeps z s) :
    Keeps z (State.correct s err) := by
  unfold State.correct
  try dsimp only
  repeat' with_reducible first | assumption | apply State.modTm_keeps | apply State.moveFt_keeps | refine Keeps.ite ?_ ?_ | split

theorem State.validEdge_keeps {z : State} (s : State) (hk : Keeps z s) :
    Keeps z (State.validEdge s) := by
  unfold State.validEdge
  try dsimp only
  repeat' with_reducible first | assumption | apply State.modTm_keeps | apply State.used_keeps | apply State.setFlag_keeps | apply State.setLv_keeps | apply State.lockIfDue_keeps | apply State.applyTod_keeps | apply State.correct_keeps | refine Keeps.ite ?_ ?_ | split

theorem ppsEdge_keeps {z : State} (s : State) (hk : Keeps z s) :
    Keeps z (ppsEdge s) := by
  unfold ppsEdge
  try dsimp only
  repeat' with_reducible first | assumption | apply State.validEdge_keeps | apply State.countHk_keeps | refine Keeps.ite ?_ ?_ | split

theorem ppsEdgeMissing_keeps {z : State} (s : State) (hk : Keeps z s) :
    Keeps z (ppsEdgeMissing s) := by
  unfold ppsEdgeMissing
  try dsimp only
  repeat' with_reducible first | assumption | apply State.setFlag_keeps | apply State.modTm_keeps | refine Keeps.ite ?_ ?_ | split

theorem trefClkAbsent_keeps {z : State} (s : State) (hk : Keeps z s) :
    Keeps z (trefClkAbsent s) := by
  unfold trefClkAbsent
  try dsimp only
  repeat' with_reducible first | assumption | apply State.setFlag_keeps | refine Keeps.ite ?_ ?_ | split

theorem trefClkPresent_keeps {z : State} (s : State) (hk : Keeps z s) :
    Keeps z (trefClkPresent s) := by
  unfold trefClkPresent
  try dsimp only
  repeat' with_reducible first | assumption | apply State.setFlag_keeps | refine Keeps.ite ?_ ?_ | split

theorem State.todLoadAct_keeps {z : State} (s : State) (hk : Keeps z s) :
    Keeps z (State.todLoadAct s) := by
  unfold State.todLoadAct
  try dsimp only
  repeat' with_reducible first | assumption | apply State.applyTod_keeps | apply State.modTm_keeps | refine Keeps.ite ?_ ?_ | split

theorem State.tmFields_keeps {z : State} (s : State) (v : Word) (hk : Keeps z s) :
    Keeps z (State.tmFields s v) := by
  unfold State.tmFields
  try dsimp only
  repeat' with_reducible first | assumption | apply State.plainWrite_keeps | refine Keeps.ite ?_ ?_ | split

theorem todLoad_keeps {z : State} (v : Word) (s : State) (hk : Keeps z s) :
    Keeps z (todLoad v s) := by
  unfold todLoad
  try dsimp only
  repeat' with_reducible first | assumption | apply State.tmFields_keeps | apply State.todLoadAct_keeps | refine Keeps.ite ?_ ?_ | split

theorem deferredTodApply_keeps {z : State} (s : State) (hk : Keeps z s) :
    Keeps z (deferredTodApply s) := by
  unfold deferredTodApply
  try dsimp only
  repeat' with_reducible first | assumption | apply State.applyTod_keeps | refine Keeps.ite ?_ ?_ | split

theorem syncFrame_keeps {z : State} (t : Nat) (s : State) (hk : Keeps z s) :
    Keeps z (syncFrame t s) := by
  unfold syncFrame
  try dsimp only
  repeat' with_reducible first | assumption | apply State.modTm_keeps | apply State.used_keeps | apply State.setFld_keeps | apply State.setFlag_keeps | refine Keeps.ite ?_ ?_ | split

theorem ftSnap_keeps {z : State} (s : State) (hk : Keeps z s) :
    Keeps z (ftSnap s) := by
  unfold ftSnap
  try dsimp only
  repeat' with_reducible first | assumption | apply State.modTm_keeps | apply State.setFlag_keeps | refine Keeps.ite ?_ ?_ | split

theorem ftSnapDone_keeps {z : State} (s : State) (hk : Keeps z s) :
    Keeps z (ftSnapDone s) := by
  unfold ftSnapDone
  try dsimp only
  repeat' with_reducible first | assumption | apply State.setLv_keeps | apply State.setFlag_keeps | apply State.modTm_keeps | refine Keeps.ite ?_ ?_ | split

theorem State.holdOver_keeps {z : State} (s : State) (n : Nat) (hk : Keeps z s) :
    Keeps z (State.holdOver s n) := by
  unfold State.holdOver
  try dsimp only
  repeat' with_reducible first | assumption | (refine State.each_keeps _ _ _ ?_ fun t a ht => ?_) | apply State.modTm_keeps | apply State.used_keeps | refine Keeps.ite ?_ ?_ | split

theorem State.markersOut_keeps {z : State} (s : State) (n : Nat) (hk : Keeps z s) :
    Keeps z (State.markersOut s n) := by
  unfold State.markersOut
  try dsimp only
  repeat' with_reducible first | assumption | (refine State.each_keeps _ _ _ ?_ fun t a ht => ?_) | apply State.emit_keeps | refine Keeps.ite ?_ ?_ | simp only [Keeps.upd] | split

theorem State.pass_keeps {z : State} (s : State) (n : Nat) (hk : Keeps z s) :
    Keeps z (State.pass s n) := by
  unfold State.pass
  try dsimp only
  repeat' with_reducible first | assumption | apply State.modTm_keeps | apply State.holdOver_keeps | apply State.flitsOut_keeps | apply State.markersOut_keeps | refine Keeps.ite ?_ ?_ | split

theorem State.reach_keeps {z : State} (s : State) (see : State → Nat) (at_ : Nat) (hk : Keeps z s) :
    Keeps z (State.reach s see at_) := by
  unfold State.reach
  try dsimp only
  repeat' with_reducible first | assumption | (refine State.each_keeps _ _ _ ?_ fun t a ht => ?_) | apply State.pass_keeps | refine Keeps.ite ?_ ?_ | split

theorem tick_keeps {z : State} (s : State) (hk : Keeps z s) :
    Keeps z (tick s) := by
  unfold tick
  try dsimp only
  repeat' with_reducible first | assumption | apply State.pass_keeps | refine Keeps.ite ?_ ?_ | split

end Sys2Proof.Machine
end

