-- ==== Sys2Proof/Laws/KeepsCurtain.lean ====
section
/-! SUPPORT. Every operation of Machine/Curtain.lean keeps what `Keeps` says. -/

set_option linter.unusedTactic false
set_option linter.unreachableTactic false

namespace Sys2Proof.Machine

theorem State.modCur_keeps {z : State} (s : State) (f : CurtainSt → CurtainSt) (hk : Keeps z s) :
    Keeps z (State.modCur s f) := by
  unfold State.modCur
  try dsimp only
  repeat' with_reducible first | assumption | refine Keeps.ite ?_ ?_ | simp only [Keeps.upd] | split

theorem State.setCurtain_keeps {z : State} (s : State) (n : Nat) (hk : Keeps z s) :
    Keeps z (State.setCurtain s n) := by
  unfold State.setCurtain
  try dsimp only
  repeat' with_reducible first | assumption | apply State.setFld_keeps | refine Keeps.ite ?_ ?_ | split

theorem State.lkClean_keeps {z : State} (s : State) (h : Keeps z s) : Keeps z s.lkClean :=
  h.regs rfl rfl rfl rfl rfl rfl rfl fun q => ⟨twf_filter _ q.1, q.2⟩

theorem State.setWrite_keeps {z : State} (s : State) (o : Nat) (v : Word) (hk : Keeps z s) :
    Keeps z (State.setWrite s o v) := by
  unfold State.setWrite
  try dsimp only
  repeat' with_reducible first | assumption | apply State.sticky_keeps | apply State.setFld_keeps | apply State.lkClean_keeps | apply State.setConf_keeps | refine Keeps.ite ?_ ?_ | split

theorem setFieldWrite_keeps {z : State} (via : Via) (o : Nat) (v : Word) (s : State) (hk : Keeps z s) :
    Keeps z (setFieldWrite via o v s) := by
  unfold setFieldWrite
  try dsimp only
  repeat' with_reducible first | assumption | apply State.setWrite_keeps | refine Keeps.ite ?_ ?_ | split

theorem understudyRead_keeps {z : State} (v : Word) (s : State) (hk : Keeps z s) :
    Keeps z (understudyRead v s) := by
  unfold understudyRead
  try dsimp only
  repeat' with_reducible first | assumption | apply State.modCur_keeps | apply State.setLv_keeps | refine Keeps.ite ?_ ?_ | split

theorem understudyReadDone_keeps {z : State} (s : State) (hk : Keeps z s) :
    Keeps z (understudyReadDone s) := by
  unfold understudyReadDone
  try dsimp only
  repeat' with_reducible first | assumption | apply State.setLv_keeps | apply State.modCur_keeps | refine Keeps.ite ?_ ?_ | split

theorem State.checkAct_keeps {z : State} (s : State) (hk : Keeps z s) :
    Keeps z (State.checkAct s) := by
  unfold State.checkAct
  try dsimp only
  repeat' with_reducible first | assumption | apply State.setFld_keeps | refine Keeps.ite ?_ ?_ | split

theorem consistencyCheck_keeps {z : State} (v : Word) (s : State) (hk : Keeps z s) :
    Keeps z (consistencyCheck v s) := by
  unfold consistencyCheck
  try dsimp only
  repeat' with_reducible first | assumption | apply State.tmFields_keeps | apply State.checkAct_keeps | refine Keeps.ite ?_ ?_ | split

theorem State.armAct_keeps {z : State} (s : State) (hk : Keeps z s) :
    Keeps z (State.armAct s) := by
  unfold State.armAct
  try dsimp only
  repeat' with_reducible first | assumption | apply State.modCur_keeps | apply State.setCurtain_keeps | apply State.sticky_keeps | apply State.setFld_keeps | refine Keeps.ite ?_ ?_ | split

theorem curtainArm_keeps {z : State} (v : Word) (s : State) (hk : Keeps z s) :
    Keeps z (curtainArm v s) := by
  unfold curtainArm
  try dsimp only
  repeat' with_reducible first | assumption | apply State.tmFields_keeps | apply State.armAct_keeps | refine Keeps.ite ?_ ?_ | split

theorem curtainPrepare_keeps {z : State} (t : Nat) (s : State) (hk : Keeps z s) :
    Keeps z (curtainPrepare t s) := by
  unfold curtainPrepare
  try dsimp only
  repeat' with_reducible first | assumption | apply State.modCur_keeps | apply State.setFlag_keeps | refine Keeps.ite ?_ ?_ | split

theorem State.commitIfReady_keeps {z : State} (s : State) (hk : Keeps z s) :
    Keeps z (State.commitIfReady s) := by
  unfold State.commitIfReady
  try dsimp only
  repeat' with_reducible first | assumption | apply State.modCur_keeps | refine Keeps.ite ?_ ?_ | split

theorem curtainPrepareAck_keeps {z : State} (t : Nat) (s : State) (hk : Keeps z s) :
    Keeps z (curtainPrepareAck t s) := by
  unfold curtainPrepareAck
  try dsimp only
  repeat' with_reducible first | assumption | apply State.commitIfReady_keeps | apply State.modCur_keeps | refine Keeps.ite ?_ ?_ | split

theorem curtainCommit_keeps {z : State} (t : Nat) (s : State) (hk : Keeps z s) :
    Keeps z (curtainCommit t s) := by
  unfold curtainCommit
  try dsimp only
  repeat' with_reducible first | assumption | apply State.modCur_keeps | apply State.setFlag_keeps | refine Keeps.ite ?_ ?_ | split

theorem State.armedIfReady_keeps {z : State} (s : State) (hk : Keeps z s) :
    Keeps z (State.armedIfReady s) := by
  unfold State.armedIfReady
  try dsimp only
  repeat' with_reducible first | assumption | apply State.setCurtain_keeps | refine Keeps.ite ?_ ?_ | split

theorem curtainCommitAck_keeps {z : State} (t : Nat) (s : State) (hk : Keeps z s) :
    Keeps z (curtainCommitAck t s) := by
  unfold curtainCommitAck
  try dsimp only
  repeat' with_reducible first | assumption | apply State.armedIfReady_keeps | apply State.modCur_keeps | refine Keeps.ite ?_ ?_ | split

theorem State.dropCurtain_keeps {z : State} (s : State) (hk : Keeps z s) :
    Keeps z (State.dropCurtain s) := by
  unfold State.dropCurtain
  try dsimp only
  repeat' with_reducible first | assumption | (refine State.each_keeps _ _ _ ?_ fun t a ht => ?_) | apply State.setFlag_keeps | refine Keeps.ite ?_ ?_ | split

theorem State.abortCurtain_keeps {z : State} (s : State) (hk : Keeps z s) :
    Keeps z (State.abortCurtain s) := by
  unfold State.abortCurtain
  try dsimp only
  repeat' with_reducible first | assumption | apply State.sticky_keeps | apply State.setCurtain_keeps | apply State.dropCurtain_keeps | apply State.modCur_keeps | refine Keeps.ite ?_ ?_ | split

theorem lastCall_keeps {z : State} (s : State) (hk : Keeps z s) :
    Keeps z (lastCall s) := by
  unfold lastCall
  try dsimp only
  repeat' with_reducible first | assumption | apply State.reach_keeps | apply State.modCur_keeps | apply State.setFld_keeps | apply State.abortCurtain_keeps | refine Keeps.ite ?_ ?_ | split

theorem State.abortAct_keeps {z : State} (s : State) (hk : Keeps z s) :
    Keeps z (State.abortAct s) := by
  unfold State.abortAct
  try dsimp only
  repeat' with_reducible first | assumption | apply State.sticky_keeps | apply State.abortCurtain_keeps | refine Keeps.ite ?_ ?_ | split

theorem curtainAbort_keeps {z : State} (v : Word) (s : State) (hk : Keeps z s) :
    Keeps z (curtainAbort v s) := by
  unfold curtainAbort
  try dsimp only
  repeat' with_reducible first | assumption | apply State.tmFields_keeps | apply State.abortAct_keeps | refine Keeps.ite ?_ ?_ | split

theorem curtainQuery_keeps {z : State} (t : Nat) (s : State) (hk : Keeps z s) :
    Keeps z (curtainQuery t s) := by
  unfold curtainQuery
  try dsimp only
  repeat' with_reducible first | assumption | apply State.setFlag_keeps | refine Keeps.ite ?_ ?_ | split

theorem curtainFall_keeps {z : State} (t : Nat) (s : State) (hk : Keeps z s) :
    Keeps z (curtainFall t s) := by
  unfold curtainFall
  try dsimp only
  repeat' with_reducible first | assumption | apply State.modCur_keeps | apply State.setFlag_keeps | apply State.setCurtain_keeps | apply State.reach_keeps | refine Keeps.ite ?_ ?_ | split

theorem State.retireIfDrained_keeps {z : State} (s : State) (hk : Keeps z s) :
    Keeps z (State.retireIfDrained s) := by
  unfold State.retireIfDrained
  try dsimp only
  repeat' with_reducible first | assumption | apply State.modCur_keeps | apply State.setLv_keeps | refine Keeps.ite ?_ ?_ | split

theorem oldDrainedReport_keeps {z : State} (t : Nat) (s : State) (hk : Keeps z s) :
    Keeps z (oldDrainedReport t s) := by
  unfold oldDrainedReport
  try dsimp only
  repeat' with_reducible first | assumption | apply State.retireIfDrained_keeps | apply State.modCur_keeps | apply State.setFlag_keeps | refine Keeps.ite ?_ ?_ | split

theorem copyForwardDone_keeps {z : State} (s : State) (h : Keeps z s) : Keeps z (copyForwardDone s) := by
  unfold copyForwardDone
  have k0 : Keeps z { s with set0 := s.set1 } :=
    h.regs rfl rfl rfl rfl rfl rfl rfl fun q => ⟨q.1, q.2.2.1, q.2.2⟩
  have k1 : Keeps z { s with set1 := s.set0 } :=
    h.regs rfl rfl rfl rfl rfl rfl rfl fun q => ⟨q.1, q.2.1, q.2.1, q.2.2.2⟩
  refine .ite h (State.modCur_keeps _ _ ?_)
  exact State.setCurtain_keeps _ _ (State.setFlag_keeps _ _ _ _ (State.lkClean_keeps _ (.ite k0 k1)))

end Sys2Proof.Machine
end

