-- ==== Sys2Proof/Laws/KeepsTelOps.lean ====
section
/-! SUPPORT. Every operation of Machine/TelOps.lean keeps what `Keeps` says. -/

set_option linter.unusedTactic false
set_option linter.unreachableTactic false

namespace Sys2Proof.Machine

theorem State.modCap_keeps {z : State} (s : State) (t c : Nat) (f : CapSt → CapSt) (hk : Keeps z s) :
    Keeps z (State.modCap s t c f) := by
  unfold State.modCap
  try dsimp only
  repeat' with_reducible first | assumption | refine Keeps.ite ?_ ?_ | simp only [Keeps.upd] | split

theorem State.capOne_keeps {z : State} (s : State) (t c point : Nat) (p : Packet) (port : Option Nat) (hk : Keeps z s) :
    Keeps z (State.capOne s t c point p port) := by
  unfold State.capOne
  try dsimp only
  repeat' with_reducible first | assumption | apply State.modCap_keeps | apply State.count_keeps | apply State.used_keeps | refine Keeps.ite ?_ ?_ | split

theorem State.capture_keeps {z : State} (s : State) (t point : Nat) (p : Packet) (port : Option Nat) (hk : Keeps z s) :
    Keeps z (State.capture s t point p port) := by
  unfold State.capture
  try dsimp only
  repeat' with_reducible first | assumption | (refine State.each_keeps _ _ _ ?_ fun t a ht => ?_) | apply State.capOne_keeps | refine Keeps.ite ?_ ?_ | split

theorem State.collectorLost_keeps {z : State} (s : State) (hk : Keeps z s) :
    Keeps z (State.collectorLost s) := by
  unfold State.collectorLost
  try dsimp only
  repeat' with_reducible first | assumption | refine Keeps.ite ?_ ?_ | simp only [Keeps.upd] | split

theorem State.measure_keeps {z : State} (s : State) (port : Nat) (p : Packet) (lat : Nat) (hk : Keeps z s) :
    Keeps z (State.measure s port p lat) := by
  unfold State.measure
  try dsimp only
  repeat' with_reducible first | assumption | (refine State.each_keeps _ _ _ ?_ fun t a ht => ?_) | apply State.bump_keeps | refine Keeps.ite ?_ ?_ | split

end Sys2Proof.Machine
end

