-- ==== Sys2Proof/Laws/KeepsMeter.lean ====
section
/-! SUPPORT. Every operation of Machine/Meter.lean keeps what `Keeps` says. -/

set_option linter.unusedTactic false
set_option linter.unreachableTactic false

namespace Sys2Proof.Machine

theorem State.modSch_keeps {z : State} (s : State) (f : SchedSt → SchedSt) (hk : Keeps z s) :
    Keeps z (State.modSch s f) := by
  unfold State.modSch
  try dsimp only
  repeat' with_reducible first | assumption | refine Keeps.ite ?_ ?_ | simp only [Keeps.upd] | split

theorem State.debit_keeps {z : State} (s : State) (k n : Nat) (hk : Keeps z s) :
    Keeps z (State.debit s k n) := by
  unfold State.debit
  try dsimp only
  repeat' with_reducible first | assumption | apply State.modSch_keeps | refine Keeps.ite ?_ ?_ | split

theorem State.credit_keeps {z : State} (s : State) (k n : Nat) (hk : Keeps z s) :
    Keeps z (State.credit s k n) := by
  unfold State.credit
  try dsimp only
  repeat' with_reducible first | assumption | apply State.modSch_keeps | refine Keeps.ite ?_ ?_ | split

theorem State.colour_keeps' {z : State} (s : State) (e : Bool) (t m len : Nat) (hk : Keeps z s) :
    Keeps z (State.colour s e t m len).1 := by
  unfold State.colour
  try dsimp only
  repeat' with_reducible first | assumption | apply State.debit_keeps | refine Keeps.ite ?_ ?_ | refine Keeps.ite_fst ?_ ?_ | split | dsimp only

theorem State.colour_keeps {z s' : State} (s : State) (e : Bool) (t m len : Nat) {x' : ℕ} (hk : Keeps z s)
    (he' : State.colour s e t m len = (s', x')) : Keeps z s' := by
  have q := State.colour_keeps' s e t m len hk
  rwa [he'] at q

theorem State.refillMeter_keeps {z : State} (s : State) (e : Bool) (t m : Nat) (hk : Keeps z s) :
    Keeps z (State.refillMeter s e t m) := by
  unfold State.refillMeter
  try dsimp only
  repeat' with_reducible first | assumption | apply State.credit_keeps | refine Keeps.ite ?_ ?_ | split

theorem State.setWithheld_keeps {z : State} (s : State) (t seat : Nat) (hk : Keeps z s) :
    Keeps z (State.setWithheld s t seat) := by
  unfold State.setWithheld
  try dsimp only
  repeat' with_reducible first | assumption | apply State.modSch_keeps | apply State.sticky_keeps | apply State.count_keeps | refine Keeps.ite ?_ ?_ | split

theorem State.countColour_keeps {z : State} (s : State) (t : Nat) (seat : Option Nat) (c len : Nat) (hk : Keeps z s) :
    Keeps z (State.countColour s t seat c len) := by
  unfold State.countColour
  try dsimp only
  repeat' with_reducible first | assumption | apply State.modBo_keeps | refine Keeps.ite ?_ ?_ | split

theorem State.ingress_keeps {z : State} (s : State) (p : Packet) (hk : Keeps z s) :
    Keeps z (State.ingress s p) := by
  unfold State.ingress
  try dsimp only
  repeat' with_reducible first | assumption | apply State.capture_keeps | apply State.enter_keeps | apply State.countColour_keeps | refine State.colour_keeps (hk := ?_) (he' := by assumption) | apply State.colour_keeps' | apply State.setWithheld_keeps | refine Keeps.ite ?_ ?_ | split

end Sys2Proof.Machine
end

