-- ==== Sys2Proof/Laws/KeepsRingOps.lean ====
section
/-! SUPPORT. Every operation of Machine/RingOps.lean keeps what `Keeps` says. -/

set_option linter.unusedTactic false
set_option linter.unreachableTactic false

namespace Sys2Proof.Machine

theorem State.ringFail_keeps {z : State} (s : State) (r cause : Nat) (hk : Keeps z s) :
    Keeps z (State.ringFail s r cause) := by
  unfold State.ringFail
  try dsimp only
  repeat' with_reducible first | assumption | apply State.sticky_keeps | apply State.modRing_keeps | apply State.event_keeps | refine Keeps.ite ?_ ?_ | split

theorem State.form_keeps {z : State} (s : State) (f : Forming) (cls : PClass) (b : Body) (hk : Keeps z s) :
    Keeps z (State.form s f cls b) := by
  unfold State.form
  try dsimp only
  repeat' with_reducible first | assumption | apply State.ingress_keeps | refine Keeps.ite ?_ ?_ | simp only [id] | split

theorem State.dropOwn_keeps {z : State} (s : State) (t : Nat) (port seat : Option Nat) (n : Nat) (hk : Keeps z s) :
    Keeps z (State.dropOwn s t port seat n) := by
  unfold State.dropOwn
  try dsimp only
  repeat' with_reducible first | assumption | apply State.modBo_keeps | apply State.count_keeps | refine Keeps.ite ?_ ?_ | split

theorem State.hostWriteAs_keeps {z : State} (s : State) (svc : Nat) (e : Bool) (t p : Nat) (seat : Option Nat) (mgmt : Bool) (pasid : Option Nat) (pu : Purpose) (addr : Nat) (data : List Byte) (hk : Keeps z s) :
    Keeps z (State.hostWriteAs s svc e t p seat mgmt pasid pu addr data) := by
  unfold State.hostWriteAs
  try dsimp only
  repeat' with_reducible first | assumption | apply State.dropOwn_keeps | (refine State.each_keeps _ _ _ ?_ fun t a ht => ?_) | apply State.form_keeps | refine Keeps.ite ?_ ?_ | split

theorem State.hostWrite_keeps {z : State} (s : State) (e : Bool) (t p : Nat) (seat : Option Nat) (mgmt : Bool) (pasid : Option Nat) (pu : Purpose) (addr : Nat) (data : List Byte) (hk : Keeps z s) :
    Keeps z (State.hostWrite s e t p seat mgmt pasid pu addr data) := by
  unfold State.hostWrite
  try dsimp only
  repeat' with_reducible first | assumption | apply State.hostWriteAs_keeps | refine Keeps.ite ?_ ?_ | split

theorem State.hostRead_keeps {z : State} (s : State) (e : Bool) (t p : Nat) (seat : Option Nat) (mgmt : Bool) (pasid : Option Nat) (pu : Purpose) (addr len : Nat) (hk : Keeps z s) :
    Keeps z (State.hostRead s e t p seat mgmt pasid pu addr len) := by
  unfold State.hostRead
  try dsimp only
  repeat' with_reducible first | assumption | (refine State.each_keeps _ _ _ ?_ fun t a ht => ?_) | apply State.form_keeps | refine Keeps.ite ?_ ?_ | split

theorem State.replyBy_keeps {z : State} (s : State) (t : Nat) (e mgmt : Bool) (o : Origin) (cid rid tag tc : Nat) (st : CplStatus) (data : List Byte) (addr : Addr := 0) (last : Bool := true) (attr : Bool × Bool := (false, false)) (hk : Keeps z s) :
    Keeps z (State.replyBy s t e mgmt o cid rid tag tc st data addr last attr) := by
  unfold State.replyBy
  try dsimp only
  repeat' with_reducible first | assumption | apply State.count_keeps | apply State.form_keeps | refine Keeps.ite ?_ ?_ | split

theorem State.reply_keeps {z : State} (s : State) (t : Nat) (e mgmt : Bool) (o : Origin) (rid tag tc : Nat) (st : CplStatus) (data : List Byte) (hk : Keeps z s) :
    Keeps z (State.reply s t e mgmt o rid tag tc st data) := by
  unfold State.reply
  try dsimp only
  repeat' with_reducible first | assumption | apply State.replyBy_keeps | refine Keeps.ite ?_ ?_ | split

theorem State.replyUr_keeps {z : State} (s : State) (t : Nat) (e mgmt : Bool) (o : Origin) (rid tag tc : Nat) (port : Option Nat) (attr : Bool × Bool) (hk : Keeps z s) :
    Keeps z (State.replyUr s t e mgmt o rid tag tc port attr) := by
  unfold State.replyUr
  try dsimp only
  repeat' with_reducible first | assumption | apply State.replyBy_keeps | refine Keeps.ite ?_ ?_ | split

theorem State.synthUr_keeps {z : State} (s : State) (t : Nat) (e mgmt : Bool) (o : Origin) (rid tag tc : Nat) (port : Option Nat := none) (attr : Bool × Bool := (false, false)) (hk : Keeps z s) :
    Keeps z (State.synthUr s t e mgmt o rid tag tc port attr) := by
  unfold State.synthUr
  try dsimp only
  repeat' with_reducible first | assumption | apply State.replyUr_keeps | apply State.count_keeps | refine Keeps.ite ?_ ?_ | split

end Sys2Proof.Machine
end

