-- ==== Sys2Proof/Laws/KeepsWcOps.lean ====
section
/-! SUPPORT. Every operation of Machine/WcOps.lean keeps what `Keeps` says. -/

set_option linter.unusedTactic false
set_option linter.unreachableTactic false

namespace Sys2Proof.Machine

theorem State.modWc_keeps {z : State} (s : State) (f : WcSt → WcSt) (hk : Keeps z s) :
    Keeps z (State.modWc s f) := by
  unfold State.modWc
  try dsimp only
  repeat' with_reducible first | assumption | refine Keeps.ite ?_ ?_ | simp only [Keeps.upd] | split

theorem State.syncLines_keeps {z : State} (s : State) (t : Nat) (hk : Keeps z s) :
    Keeps z (State.syncLines s t) := by
  unfold State.syncLines
  try dsimp only
  repeat' with_reducible first | assumption | apply State.setFld_keeps | refine Keeps.ite ?_ ?_ | split

theorem State.tallyDrop_keeps {z : State} (s : State) (t seat code len : Nat) (hk : Keeps z s) :
    Keeps z (State.tallyDrop s t seat code len) := by
  unfold State.tallyDrop
  try dsimp only
  repeat' with_reducible first | assumption | apply State.modBo_keeps | apply State.modWc_keeps | refine Keeps.ite ?_ ?_ | split

theorem State.tallyIds_keeps {z : State} (s : State) (t seat code : Nat) (xs ids : List Nat) (hk : Keeps z s) :
    Keeps z (State.tallyIds s t seat code xs ids) := by
  unfold State.tallyIds
  try dsimp only
  repeat' with_reducible first | assumption | apply State.modWc_keeps | refine Keeps.ite ?_ ?_ | split

theorem State.tallyStores_keeps {z : State} (s : State) (t seat code : Nat) (xs ids : List Nat) (len : Nat) (hk : Keeps z s) :
    Keeps z (State.tallyStores s t seat code xs ids len) := by
  unfold State.tallyStores
  try dsimp only
  repeat' with_reducible first | assumption | apply State.modBo_keeps | apply State.tallyIds_keeps | refine Keeps.ite ?_ ?_ | split

theorem State.noteStream_keeps {z : State} (s : State) (t seat dest x a : Nat) (hk : Keeps z s) :
    Keeps z (State.noteStream s t seat dest x a) := by
  unfold State.noteStream
  try dsimp only
  repeat' with_reducible first | assumption | apply State.modWc_keeps | refine Keeps.ite ?_ ?_ | split

theorem State.forgetStreams_keeps {z : State} (s : State) (t seat n : Nat) (hk : Keeps z s) :
    Keeps z (State.forgetStreams s t seat n) := by
  unfold State.forgetStreams
  try dsimp only
  repeat' with_reducible first | assumption | apply State.modWc_keeps | refine Keeps.ite ?_ ?_ | split

theorem State.apWrite_keeps {z : State} (s : State) (e : Bool) (t x seat a : Nat) (data : List Byte) (be : List Bool) (ids : List Nat) (hk : Keeps z s) :
    Keeps z (State.apWrite s e t x seat a data be ids) := by
  unfold State.apWrite
  try dsimp only
  repeat' with_reducible first | assumption | apply State.count_keeps | apply State.tallyStores_keeps | apply State.sticky_keeps | apply State.noteStream_keeps | apply State.form_keeps | refine Keeps.ite ?_ ?_ | split

theorem State.lineDone_keeps {z : State} (s : State) (n : Nat) (ids : List Nat) (hk : Keeps z s) :
    Keeps z (State.lineDone s n ids) := by
  unfold State.lineDone
  try dsimp only
  repeat' with_reducible first | assumption | apply State.modWc_keeps | refine Keeps.ite ?_ ?_ | simp only [id] | split

theorem State.formLine_keeps {z : State} (s : State) (l : WcLine) (hk : Keeps z s) :
    Keeps z (State.formLine s l) := by
  unfold State.formLine
  try dsimp only
  repeat' with_reducible first | assumption | (refine State.each_keeps _ _ _ ?_ fun t a ht => ?_) | apply State.apWrite_keeps | apply State.syncLines_keeps | apply State.lineDone_keeps | refine Keeps.ite ?_ ?_ | simp only [Keeps.upd] | simp only [id] | split

theorem State.formDue_keeps {z : State} (s : State) (t seat : Nat) (hk : Keeps z s) :
    Keeps z (State.formDue s t seat) := by
  unfold State.formDue
  try dsimp only
  repeat' with_reducible first | assumption | (refine State.each_keeps _ _ _ ?_ fun t a ht => ?_) | apply State.formLine_keeps | refine Keeps.ite ?_ ?_ | split

theorem State.sendLine_keeps {z : State} (s : State) (l : WcLine) (hk : Keeps z s) :
    Keeps z (State.sendLine s l) := by
  unfold State.sendLine
  try dsimp only
  repeat' with_reducible first | assumption | apply State.modWc_keeps | apply State.formDue_keeps | refine Keeps.ite ?_ ?_ | simp only [Keeps.upd] | refine Keeps.updId ?_ | simp only [id] | split

theorem State.lineAdmit_keeps {z : State} (s : State) (t n : Nat) (hk : Keeps z s) :
    Keeps z (State.lineAdmit s t n) := by
  unfold State.lineAdmit
  try dsimp only
  repeat' with_reducible first | assumption | apply State.syncLines_keeps | apply State.modWc_keeps | refine Keeps.ite ?_ ?_ | split

theorem State.flushLines_keeps {z : State} (s : State) (t : Nat) (pick : WcLine → Bool) (hk : Keeps z s) :
    Keeps z (State.flushLines s t pick) := by
  unfold State.flushLines
  try dsimp only
  repeat' with_reducible first | assumption | (refine State.each_keeps _ _ _ ?_ fun t a ht => ?_) | apply State.sendLine_keeps | refine Keeps.ite ?_ ?_ | split

theorem State.discardLines_keeps {z : State} (s : State) (t : Nat) (pick : Nat → Bool → Bool) (code : Nat) (hk : Keeps z s) :
    Keeps z (State.discardLines s t pick code) := by
  unfold State.discardLines
  try dsimp only
  repeat' with_reducible first | assumption | (refine State.each_keeps _ _ _ ?_ fun t a ht => ?_) | apply State.tallyStores_keeps | apply State.count_keeps | apply State.syncLines_keeps | apply State.modWc_keeps | refine Keeps.ite ?_ ?_ | split

theorem State.contain_keeps {z : State} (s : State) (t x : Nat) (hk : Keeps z s) :
    Keeps z (State.contain s t x) := by
  unfold State.contain
  try dsimp only
  repeat' with_reducible first | assumption | apply State.flushLines_keeps | apply State.count_keeps | apply State.modWc_keeps | refine Keeps.ite ?_ ?_ | split

theorem State.completeFence_keeps {z : State} (s : State) (f : Fence) (hk : Keeps z s) :
    Keeps z (State.completeFence s f) := by
  unfold State.completeFence
  try dsimp only
  repeat' with_reducible first | assumption | apply State.modWc_keeps | (refine State.each_keeps _ _ _ ?_ fun t a ht => ?_) | apply State.forgetStreams_keeps | apply State.contain_keeps | apply State.sticky_keeps | apply State.reply_keeps | refine Keeps.ite ?_ ?_ | simp only [id] | split

theorem State.completeFences_keeps {z : State} (s : State) (t seat : Nat) (hk : Keeps z s) :
    Keeps z (State.completeFences s t seat) := by
  unfold State.completeFences
  try dsimp only
  repeat' with_reducible first | assumption | (refine State.each_keeps _ _ _ ?_ fun t a ht => ?_) | apply State.completeFence_keeps | refine Keeps.ite ?_ ?_ | split

theorem State.takeTally_keeps' {z : State} (s : State) (t seat : Nat) (hk : Keeps z s) :
    Keeps z (State.takeTally s t seat).1 := by
  unfold State.takeTally
  try dsimp only
  repeat' with_reducible first | assumption | apply State.modWc_keeps | refine Keeps.ite ?_ ?_ | refine Keeps.ite_fst ?_ ?_ | split | dsimp only

theorem State.takeTally_keeps {z s' : State} (s : State) (t seat : Nat) {x' : Tally} (hk : Keeps z s)
    (he' : State.takeTally s t seat = (s', x')) : Keeps z s' := by
  have q := State.takeTally_keeps' s t seat hk
  rwa [he'] at q

theorem State.flushRead_keeps {z : State} (s : State) (e : Bool) (t seat fence : Nat) (q : ApStream) (hk : Keeps z s) :
    Keeps z (State.flushRead s e t seat fence q) := by
  unfold State.flushRead
  try dsimp only
  repeat' with_reducible first | assumption | apply State.form_keeps | refine Keeps.ite ?_ ?_ | split

theorem State.flushDone_keeps {z : State} (s : State) (t fence stream : Nat) (ok : Bool) (code : Option Nat) (atTarget : Bool := true) (hk : Keeps z s) :
    Keeps z (State.flushDone s t fence stream ok code atTarget) := by
  unfold State.flushDone
  try dsimp only
  repeat' with_reducible first | assumption | apply State.completeFences_keeps | apply State.modWc_keeps | refine Keeps.ite ?_ ?_ | simp only [id] | split

end Sys2Proof.Machine
end

