-- ==== Sys2Proof/Laws/KeepsEngOps.lean ====
section
/-! SUPPORT. Every operation of Machine/EngOps.lean keeps what `Keeps` says. -/

set_option linter.unusedTactic false
set_option linter.unreachableTactic false

namespace Sys2Proof.Machine

theorem State.modWin_keeps {z : State} (s : State) (f : WinSt → WinSt) (hk : Keeps z s) :
    Keeps z (State.modWin s f) := by
  unfold State.modWin
  try dsimp only
  repeat' with_reducible first | assumption | refine Keeps.ite ?_ ?_ | simp only [Keeps.upd] | split

theorem State.modEng_keeps {z : State} (s : State) (f : EngSt → EngSt) (hk : Keeps z s) :
    Keeps z (State.modEng s f) := by
  unfold State.modEng
  try dsimp only
  repeat' with_reducible first | assumption | refine Keeps.ite ?_ ?_ | simp only [Keeps.upd] | split

theorem State.modWindow_keeps {z : State} (s : State) (i : Nat) (f : WinEnt → WinEnt) (hk : Keeps z s) :
    Keeps z (State.modWindow s i f) := by
  unfold State.modWindow
  try dsimp only
  repeat' with_reducible first | assumption | apply State.modWin_keeps | refine Keeps.ite ?_ ?_ | split

theorem State.modQp_keeps {z : State} (s : State) (n : Nat) (f : Qp → Qp) (hk : Keeps z s) :
    Keeps z (State.modQp s n f) := by
  unfold State.modQp
  try dsimp only
  repeat' with_reducible first | assumption | apply State.modEng_keeps | refine Keeps.ite ?_ ?_ | split

theorem State.modWr_keeps {z : State} (s : State) (id : Nat) (f : Wr → Wr) (hk : Keeps z s) :
    Keeps z (State.modWr s id f) := by
  unfold State.modWr
  try dsimp only
  repeat' with_reducible first | assumption | apply State.modEng_keeps | refine Keeps.ite ?_ ?_ | simp only [id] | split

theorem State.syncEng_keeps {z : State} (s : State) (t : Nat) (hk : Keeps z s) :
    Keeps z (State.syncEng s t) := by
  unfold State.syncEng
  try dsimp only
  repeat' with_reducible first | assumption | apply State.setFld_keeps | refine Keeps.ite ?_ ?_ | split

theorem State.advTrig_keeps {z : State} (s : State) (n k : Nat) (hk : Keeps z s) :
    Keeps z (State.advTrig s n k) := by
  unfold State.advTrig
  try dsimp only
  repeat' with_reducible first | assumption | apply State.modQp_keeps | refine Keeps.ite ?_ ?_ | split

theorem State.reapOne_keeps {z : State} (s : State) (w : Wr) (hk : Keeps z s) :
    Keeps z (State.reapOne s w) := by
  unfold State.reapOne
  try dsimp only
  repeat' with_reducible first | assumption | apply State.modEng_keeps | apply State.pushRec_keeps | apply State.advTrig_keeps | refine Keeps.ite ?_ ?_ | simp only [id] | split

theorem State.reap_keeps {z : State} (s : State) (hk : Keeps z s) :
    Keeps z (State.reap s) := by
  unfold State.reap
  try dsimp only
  repeat' with_reducible first | assumption | (refine State.each_keeps _ _ _ ?_ fun t a ht => ?_) | apply State.reapOne_keeps | refine Keeps.ite ?_ ?_ | simp only [id] | split

theorem State.finishWr_keeps {z : State} (s : State) (id code : Nat) (hk : Keeps z s) :
    Keeps z (State.finishWr s id code) := by
  unfold State.finishWr
  try dsimp only
  repeat' with_reducible first | assumption | apply State.modWr_keeps | apply State.reap_keeps | apply State.modEng_keeps | refine Keeps.ite ?_ ?_ | simp only [id] | split

theorem State.sendEng_keeps' {z : State} (s : State) (t sw home seat : Nat) (ordered : Bool) (h : EngHdr) (data : List Byte) (hk : Keeps z s) :
    Keeps z (State.sendEng s t sw home seat ordered h data).1 := by
  unfold State.sendEng
  try dsimp only
  repeat' with_reducible first | assumption | apply State.count_keeps | apply State.form_keeps | refine Keeps.ite ?_ ?_ | refine Keeps.ite_fst ?_ ?_ | split | dsimp only

theorem State.sendEng_keeps {z s' : State} (s : State) (t sw home seat : Nat) (ordered : Bool) (h : EngHdr) (data : List Byte) {x' : Bool} (hk : Keeps z s)
    (he' : State.sendEng s t sw home seat ordered h data = (s', x')) : Keeps z s' := by
  have q := State.sendEng_keeps' s t sw home seat ordered h data hk
  rwa [he'] at q

theorem State.sendWr_keeps {z : State} (s : State) (w : Wr) (sw home : Nat) (h : EngHdr) (data : List Byte) (hk : Keeps z s) :
    Keeps z (State.sendWr s w sw home h data) := by
  unfold State.sendWr
  try dsimp only
  repeat' with_reducible first | assumption | refine State.sendEng_keeps ?_ (by assumption) | apply State.sendEng_keeps' | apply State.modBo_keeps | apply State.modWr_keeps | refine Keeps.ite ?_ ?_ | simp only [id] | split

theorem State.answer_keeps {z : State} (s : State) (t : Nat) (h : EngHdr) (mtype code : Nat) (data : List Byte) (hk : Keeps z s) :
    Keeps z (State.answer s t h mtype code data) := by
  unfold State.answer
  try dsimp only
  repeat' with_reducible first | assumption | refine State.sendEng_keeps ?_ (by assumption) | apply State.sendEng_keeps' | refine Keeps.ite ?_ ?_ | split

theorem State.sendReady_keeps {z : State} (s : State) (id : Nat) (x' : Nat) (hk : Keeps z s) :
    Keeps z (State.sendReady s id x') := by
  induction x' generalizing s id with
  | zero => exact hk
  | succ x' ih =>
    unfold State.sendReady
    try dsimp only
    repeat' with_reducible first | assumption | apply ih | apply State.sendWr_keeps | apply State.modWr_keeps | refine Keeps.ite ?_ ?_ | simp only [id] | split

theorem State.settleWr_keeps {z : State} (s : State) (id : Nat) (hk : Keeps z s) :
    Keeps z (State.settleWr s id) := by
  unfold State.settleWr
  try dsimp only
  repeat' with_reducible first | assumption | apply State.sendWr_keeps | apply State.modWr_keeps | apply State.finishWr_keeps | refine Keeps.ite ?_ ?_ | simp only [id] | split

theorem State.wrAnswer_keeps {z : State} (s : State) (id code : Nat) (hk : Keeps z s) :
    Keeps z (State.wrAnswer s id code) := by
  unfold State.wrAnswer
  try dsimp only
  repeat' with_reducible first | assumption | apply State.settleWr_keeps | apply State.modWr_keeps | refine Keeps.ite ?_ ?_ | simp only [id] | split

theorem State.answered_keeps {z : State} (s : State) (t : Nat) (h : EngHdr) (code : Nat) (hk : Keeps z s) :
    Keeps z (State.answered s t h code) := by
  unfold State.answered
  try dsimp only
  repeat' with_reducible first | assumption | apply State.wrAnswer_keeps | apply State.count_keeps | refine Keeps.ite ?_ ?_ | simp only [id] | split

theorem State.endEng_keeps {z : State} (s : State) (t : Nat) (h : EngHdr) (toHere : Bool) (code : Nat) (hk : Keeps z s) :
    Keeps z (State.endEng s t h toHere code) := by
  unfold State.endEng
  try dsimp only
  repeat' with_reducible first | assumption | apply State.answered_keeps | apply State.answer_keeps | refine Keeps.ite ?_ ?_ | split

theorem State.setCached_keeps {z : State} (s : State) (isWin : Bool) (t : Nat) (l : List Nat) (hk : Keeps z s) :
    Keeps z (State.setCached s isWin t l) := by
  unfold State.setCached
  try dsimp only
  repeat' with_reducible first | assumption | apply State.modWin_keeps | apply State.modEng_keeps | refine Keeps.ite ?_ ?_ | split

theorem State.tableWrite_keeps {z : State} (s : State) (isWin : Bool) (t k : Nat) (hk : Keeps z s) :
    Keeps z (State.tableWrite s isWin t k) := by
  unfold State.tableWrite
  try dsimp only
  repeat' with_reducible first | assumption | apply State.hostWrite_keeps | apply State.used_keeps | refine Keeps.ite ?_ ?_ | split

theorem State.tableRead_keeps {z : State} (s : State) (isWin : Bool) (t k : Nat) (hk : Keeps z s) :
    Keeps z (State.tableRead s isWin t k) := by
  unfold State.tableRead
  try dsimp only
  repeat' with_reducible first | assumption | apply State.hostRead_keeps | refine Keeps.ite ?_ ?_ | split

theorem State.park_keeps {z : State} (s : State) (t : Nat) (isWin : Bool) (k : Nat) (i : ParkItem) (hk : Keeps z s) :
    Keeps z (State.park s t isWin k i) := by
  unfold State.park
  try dsimp only
  repeat' with_reducible first | assumption | apply State.modEng_keeps | apply State.tableRead_keeps | refine Keeps.ite ?_ ?_ | split

theorem State.cacheIn_keeps {z s' : State} {s : State} {isWin : Bool} {t k : Nat} (hk : Keeps z s)
    (he' : s.cacheIn isWin t k = some s') : Keeps z s' := by
  have q : ∀ l, Keeps z (s.setCached isWin t l) := fun l => State.setCached_keeps _ _ _ _ hk
  unfold State.cacheIn at he'
  dsimp only at he'
  generalize (if isWin = true then 16384 else 6144) = lim at he'
  split at he'
  · injection he' with he'; exact he' ▸ q _
  · split at he'
    · injection he' with he'; exact he' ▸ q _
    · obtain ⟨v, -, rfl⟩ := Option.map_eq_some_iff.mp he'
      exact State.setCached_keeps _ _ _ _ (.ite hk (State.tableWrite_keeps _ _ _ _ hk))

theorem State.cacheInD_keeps {z : State} (s : State) (isWin : Bool) (t k : Nat) (d : State) (hk : Keeps z s)
    (hd : Keeps z d) : Keeps z ((s.cacheIn isWin t k).getD d) := by
  cases h : s.cacheIn isWin t k with
  | none => exact hd
  | some s' => exact State.cacheIn_keeps hk h

theorem State.touch_keeps {z : State} (s : State) (isWin : Bool) (t k : Nat) (hk : Keeps z s) :
    Keeps z (State.touch s isWin t k) := by
  unfold State.touch
  try dsimp only
  repeat' with_reducible first | assumption | apply State.setCached_keeps | refine Keeps.ite ?_ ?_ | split

theorem State.winDec_keeps {z : State} (s : State) (i : Nat) (hk : Keeps z s) :
    Keeps z (State.winDec s i) := by
  unfold State.winDec
  try dsimp only
  repeat' with_reducible first | assumption | apply State.modWindow_keeps | refine Keeps.ite ?_ ?_ | split

theorem State.recvReap_keeps {z : State} (s : State) (t n : Nat) (x' : Nat) (hk : Keeps z s) :
    Keeps z (State.recvReap s t n x') := by
  induction x' generalizing s t n with
  | zero => exact hk
  | succ x' ih =>
    unfold State.recvReap
    try dsimp only
    repeat' with_reducible first | assumption | apply ih | apply State.pushRec_keeps | apply State.modQp_keeps | refine Keeps.ite ?_ ?_ | split

theorem State.recvEnd_keeps {z : State} (s : State) (t n ssn code : Nat) (hk : Keeps z s) :
    Keeps z (State.recvEnd s t n ssn code) := by
  unfold State.recvEnd
  try dsimp only
  repeat' with_reducible first | assumption | apply State.recvReap_keeps | apply State.modQp_keeps | refine Keeps.ite ?_ ?_ | split

theorem State.recvPlaced_keeps {z : State} (s : State) (t : Nat) (h : EngHdr) (n code : Nat) (hk : Keeps z s) :
    Keeps z (State.recvPlaced s t h n code) := by
  unfold State.recvPlaced
  try dsimp only
  repeat' with_reducible first | assumption | apply State.recvEnd_keeps | apply State.modQp_keeps | refine Keeps.ite ?_ ?_ | split

theorem State.noteWrite_keeps {z : State} (s : State) (k : Issue) (hk : Keeps z s) :
    Keeps z (State.noteWrite s k) := by
  unfold State.noteWrite
  try dsimp only
  repeat' with_reducible first | assumption | apply State.modEng_keeps | refine Keeps.ite ?_ ?_ | split

theorem State.shown_keeps {z : State} (s : State) (key : Nat) (hk : Keeps z s) :
    Keeps z (State.shown s key) := by
  unfold State.shown
  try dsimp only
  repeat' with_reducible first | assumption | apply State.modEng_keeps | refine Keeps.ite ?_ ?_ | split

theorem State.issued_keeps {z : State} (s : State) (id code : Nat) (hk : Keeps z s) :
    Keeps z (State.issued s id code) := by
  unfold State.issued
  try dsimp only
  repeat' with_reducible first | assumption | apply State.modEng_keeps | apply State.noteWrite_keeps | apply State.winDec_keeps | apply State.recvPlaced_keeps | apply State.answer_keeps | refine Keeps.ite ?_ ?_ | simp only [id] | split

theorem State.dmaEnd_keeps {z : State} (s : State) (id code : Nat) (hk : Keeps z s) :
    Keeps z (State.dmaEnd s id code) := by
  unfold State.dmaEnd
  try dsimp only
  repeat' with_reducible first | assumption | apply State.settleWr_keeps | apply State.modWr_keeps | apply State.issued_keeps | refine Keeps.ite ?_ ?_ | simp only [Keeps.upd] | simp only [id] | split

end Sys2Proof.Machine
end

