-- ==== Sys2Proof/Laws/KeepsEnding.lean ====
section
/-! SUPPORT. Every operation of Machine/Ending.lean keeps what `Keeps` says. -/

set_option linter.unusedTactic false
set_option linter.unreachableTactic false

namespace Sys2Proof.Machine

theorem State.countDrop_keeps {z : State} (s : State) (t : Nat) (port seat : Option Nat) (len : Nat) (c : EndCause) (hk : Keeps z s) :
    Keeps z (State.countDrop s t port seat len c) := by
  unfold State.countDrop
  try dsimp only
  repeat' with_reducible first | assumption | apply State.count_keeps | apply State.modBo_keeps | refine Keeps.ite ?_ ?_ | split

theorem State.countLost_keeps {z : State} (s : State) (t : Nat) (port : Option Nat) (c : EndCause) (hk : Keeps z s) :
    Keeps z (State.countLost s t port c) := by
  unfold State.countLost
  try dsimp only
  repeat' with_reducible first | assumption | apply State.count_keeps | refine Keeps.ite ?_ ?_ | split

theorem State.endRequest_keeps {z : State} (s : State) (t : Nat) (epoch mgmt : Bool) (o : Origin) (pu : Purpose) (rid tag tc len : Nat) (code : Nat) (port : Option Nat) (attr : Bool × Bool) (hk : Keeps z s) :
    Keeps z (State.endRequest s t epoch mgmt o pu rid tag tc len code port attr) := by
  unfold State.endRequest
  try dsimp only
  repeat' with_reducible first | assumption | apply State.synthUr_keeps | apply State.reply_keeps | apply State.count_keeps | apply State.flushDone_keeps | apply State.dmaEnd_keeps | apply State.issued_keeps | apply State.ringFail_keeps | apply State.shown_keeps | refine Keeps.ite ?_ ?_ | simp only [id] | split

theorem State.settle_keeps {z : State} (s : State) (p : Packet) (cls : Nat) (hk : Keeps z s) :
    Keeps z (State.settle s p cls) := by
  unfold State.settle
  try dsimp only
  repeat' with_reducible first | assumption | (refine State.each_keeps _ _ _ ?_ fun t a ht => ?_) | apply State.bump_keeps | refine Keeps.ite ?_ ?_ | split

theorem State.apEnded_keeps {z : State} (s : State) (p : Packet) (x : Nat) (ids : List Nat) (c : EndCause) (hk : Keeps z s) :
    Keeps z (State.apEnded s p x ids c) := by
  unfold State.apEnded
  try dsimp only
  repeat' with_reducible first | assumption | apply State.lineAdmit_keeps | apply State.tallyIds_keeps | refine Keeps.ite ?_ ?_ | simp only [id] | split

theorem State.endPacket_keeps {z : State} (s : State) (p : Packet) (c : EndCause) (hk : Keeps z s) :
    Keeps z (State.endPacket s p c) := by
  unfold State.endPacket
  try dsimp only
  repeat' with_reducible first | assumption | apply State.retire_keeps | apply State.settle_keeps | apply State.countDrop_keeps | apply State.issued_keeps | apply State.apEnded_keeps | apply State.countLost_keeps | apply State.flushDone_keeps | apply State.count_keeps | apply State.endRequest_keeps | apply State.endEng_keeps | refine Keeps.ite ?_ ?_ | simp only [id] | split

theorem State.dropPointer_keeps {z : State} (s : State) (p : Packet) (port : Nat) (c : EndCause) (hk : Keeps z s) :
    Keeps z (State.dropPointer s p port c) := by
  unfold State.dropPointer
  try dsimp only
  repeat' with_reducible first | assumption | apply State.endPacket_keeps | apply State.countDrop_keeps | apply State.modPkt_keeps | refine Keeps.ite ?_ ?_ | simp only [id] | split

theorem State.endToPort_keeps {z : State} (s : State) (port : Nat) (c : EndCause) (hk : Keeps z s) :
    Keeps z (State.endToPort s port c) := by
  unfold State.endToPort
  try dsimp only
  repeat' with_reducible first | assumption | (refine State.each_keeps _ _ _ ?_ fun t a ht => ?_) | apply State.dropPointer_keeps | refine Keeps.ite ?_ ?_ | simp only [id] | split

theorem State.releaseOut_keeps {z : State} (s : State) (o : OutEntry) (code : Nat) (hk : Keeps z s) :
    Keeps z (State.releaseOut s o code) := by
  unfold State.releaseOut
  try dsimp only
  repeat' with_reducible first | assumption | apply State.endRequest_keeps | refine Keeps.ite ?_ ?_ | simp only [Keeps.upd] | simp only [id] | split

theorem State.releasePort_keeps {z : State} (s : State) (port code : Nat) (hk : Keeps z s) :
    Keeps z (State.releasePort s port code) := by
  unfold State.releasePort
  try dsimp only
  repeat' with_reducible first | assumption | (refine State.each_keeps _ _ _ ?_ fun t a ht => ?_) | apply State.releaseOut_keeps | refine Keeps.ite ?_ ?_ | split

end Sys2Proof.Machine
end

