-- ==== Sys2Proof/Laws/KeepsPuOps.lean ====
section
/-! SUPPORT. Every operation of Machine/PuOps.lean keeps what `Keeps` says. -/

set_option linter.unusedTactic false
set_option linter.unreachableTactic false

namespace Sys2Proof.Machine

theorem State.puReport_keeps {z : State} (s : State) (t seat : Nat) (v : PuViol) (hk : Keeps z s) :
    Keeps z (State.puReport s t seat v) := by
  unfold State.puReport
  try dsimp only
  repeat' with_reducible first | assumption | apply State.event_keeps | refine Keeps.ite ?_ ?_ | split

theorem State.setViol_keeps {z : State} (s : State) (key : Nat) (v : Option PuViol) (hk : Keeps z s) :
    Keeps z (State.setViol s key v) := by
  unfold State.setViol
  try dsimp only
  repeat' with_reducible first | assumption | refine Keeps.ite ?_ ?_ | simp only [Keeps.upd] | split

theorem State.puFault_keeps {z : State} (s : State) (t seat space : Nat) (k : PuKind) (cause rule a len : Nat) (hk : Keeps z s) :
    Keeps z (State.puFault s t seat space k cause rule a len) := by
  unfold State.puFault
  try dsimp only
  repeat' with_reducible first | assumption | apply State.sticky_keeps | apply State.count_keeps | apply State.setViol_keeps | apply State.puReport_keeps | refine Keeps.ite ?_ ?_ | split

theorem State.puCheck_keeps {z s' : State} {s : State} {t seat space a len : Nat} {kinds : List PuKind} (hk : Keeps z s)
    (he' : s.puCheck t seat space a len kinds = some s') : Keeps z s' := by
  obtain ⟨k, -, h⟩ := List.exists_of_findSome?_eq_some he'
  obtain ⟨c, -, rfl⟩ := Option.map_eq_some_iff.mp h
  exact State.puFault_keeps _ _ _ _ _ _ _ _ _ hk

theorem State.puCheckB_keeps {z s' : State} {s : State} {t seat space a : Nat} {o : Option (Nat × List PuKind)}
    (hk : Keeps z s) (he' : (o.bind fun r => s.puCheck t seat space a r.1 r.2) = some s') : Keeps z s' := by
  obtain ⟨r, -, h⟩ := Option.bind_eq_some_iff.mp he'
  exact State.puCheck_keeps hk h

theorem State.puCheckI_keeps {z s' : State} {s : State} {t seat space a len : Nat} {kinds : List PuKind} {b : Prop}
    [Decidable b] (hk : Keeps z s) (he' : (if b then s.puCheck t seat space a len kinds else none) = some s') :
    Keeps z s' := by
  split at he'
  · exact State.puCheck_keeps hk he'
  · simp at he'

end Sys2Proof.Machine
end

