-- ==== Sys2Proof/Laws/KeepsWindow.lean ====
section
/-! SUPPORT. Every operation of Machine/Window.lean keeps what `Keeps` says. -/

set_option linter.unusedTactic false
set_option linter.unreachableTactic false

namespace Sys2Proof.Machine

theorem State.winInitAct_keeps {z : State} (s : State) (hk : Keeps z s) :
    Keeps z (State.winInitAct s) := by
  unfold State.winInitAct
  try dsimp only
  repeat' with_reducible first | assumption | apply State.sticky_keeps | apply State.setFlag_keeps | refine Keeps.ite ?_ ?_ | split

theorem windowTableInit_keeps {z : State} (v : Word) (s : State) (hk : Keeps z s) :
    Keeps z (windowTableInit v s) := by
  unfold windowTableInit
  try dsimp only
  repeat' with_reducible first | assumption | apply State.sticky_keeps | apply State.plainWrite_keeps | apply State.winInitAct_keeps | refine Keeps.ite ?_ ?_ | split

theorem windowTableInitDone_keeps {z : State} (s : State) (hk : Keeps z s) :
    Keeps z (windowTableInitDone s) := by
  unfold windowTableInitDone
  try dsimp only
  repeat' with_reducible first | assumption | apply State.modWin_keeps | apply State.setFlag_keeps | refine Keeps.ite ?_ ?_ | split

theorem State.winTake_keeps {z : State} (s : State) (t : Nat) (hk : Keeps z s) :
    Keeps z (State.winTake s t) := by
  unfold State.winTake
  try dsimp only
  repeat' with_reducible first | assumption | apply State.modWin_keeps | refine Keeps.ite ?_ ?_ | split

theorem State.winOpen_keeps' {z : State} (s : State) (t seat : Nat) (d : Desc) (hk : Keeps z s) :
    Keeps z (State.winOpen s t seat d).1 := by
  unfold State.winOpen
  try dsimp only
  repeat' with_reducible first | assumption | refine State.puCheckB_keeps ?_ (by assumption) | refine State.puCheckI_keeps ?_ (by assumption) | refine State.puCheck_keeps ?_ (by assumption) | apply State.modWindow_keeps | apply State.winTake_keeps | apply State.tableWrite_keeps | apply State.cacheInD_keeps | refine State.cacheIn_keeps ?_ (by assumption) | refine Keeps.ite ?_ ?_ | refine Keeps.ite_fst ?_ ?_ | split | dsimp only

theorem State.winOpen_keeps {z s' : State} (s : State) (t seat : Nat) (d : Desc) {x' : ℕ × ℕ} (hk : Keeps z s)
    (he' : State.winOpen s t seat d = (s', x')) : Keeps z s' := by
  have q := State.winOpen_keeps' s t seat d hk
  rwa [he'] at q

theorem State.revokeWin_keeps {z : State} (s : State) (i : Nat) (wr seat : Option Nat) (hk : Keeps z s) :
    Keeps z (State.revokeWin s i wr seat) := by
  unfold State.revokeWin
  try dsimp only
  repeat' with_reducible first | assumption | apply State.modWin_keeps | apply State.tableWrite_keeps | apply State.modWindow_keeps | refine Keeps.ite ?_ ?_ | split

theorem revokeDrained_keeps {z : State} (t i : Nat) (s : State) (hk : Keeps z s) :
    Keeps z (revokeDrained t i s) := by
  unfold revokeDrained
  try dsimp only
  repeat' with_reducible first | assumption | apply State.modWin_keeps | apply State.form_keeps | refine Keeps.ite ?_ ?_ | split

theorem State.revokeEnd_keeps {z : State} (s : State) (t : Nat) (r : Revoke) (hk : Keeps z s) :
    Keeps z (State.revokeEnd s t r) := by
  unfold State.revokeEnd
  try dsimp only
  repeat' with_reducible first | assumption | apply State.modWin_keeps | apply State.count_keeps | apply State.modWindow_keeps | apply State.tableWrite_keeps | apply State.finishWr_keeps | refine Keeps.ite ?_ ?_ | split

theorem revokeFlushDone_keeps {z : State} (t i : Nat) (s : State) (hk : Keeps z s) :
    Keeps z (revokeFlushDone t i s) := by
  unfold revokeFlushDone
  try dsimp only
  repeat' with_reducible first | assumption | apply State.revokeEnd_keeps | refine Keeps.ite ?_ ?_ | split

theorem State.setWinViol_keeps {z : State} (s : State) (i : Nat) (v : Option WinViol) (hk : Keeps z s) :
    Keeps z (State.setWinViol s i v) := by
  unfold State.setWinViol
  try dsimp only
  repeat' with_reducible first | assumption | apply State.modWin_keeps | refine Keeps.ite ?_ ?_ | split

theorem State.winReport_keeps {z : State} (s : State) (t : Nat) (h : EngHdr) (code : Nat) (hk : Keeps z s) :
    Keeps z (State.winReport s t h code) := by
  unfold State.winReport
  try dsimp only
  repeat' with_reducible first | assumption | apply State.count_keeps | apply State.setWinViol_keeps | apply State.event_keeps | refine Keeps.ite ?_ ?_ | split

theorem State.winReject_keeps {z : State} (s : State) (t : Nat) (h : EngHdr) (code : Nat) (hk : Keeps z s) :
    Keeps z (State.winReject s t h code) := by
  unfold State.winReject
  try dsimp only
  repeat' with_reducible first | assumption | apply State.winReport_keeps | apply State.answer_keeps | refine Keeps.ite ?_ ?_ | split

theorem windowViolationIntervalEnd_keeps {z : State} (t i : Nat) (s : State) (hk : Keeps z s) :
    Keeps z (windowViolationIntervalEnd t i s) := by
  unfold windowViolationIntervalEnd
  try dsimp only
  repeat' with_reducible first | assumption | apply State.setWinViol_keeps | apply State.event_keeps | refine Keeps.ite ?_ ?_ | split

end Sys2Proof.Machine
end

