-- ==== Sys2Proof/Laws/KeepsEngine.lean ====
section
/-! SUPPORT. Every operation of Machine/Engine.lean keeps what `Keeps` says. -/

set_option linter.unusedTactic false
set_option linter.unreachableTactic false

namespace Sys2Proof.Machine

theorem State.dmaStart_keeps {z : State} (s : State) (t part seat : Nat) (pasid : Option Nat) (wr issue : Option Nat) (addr len : Nat) (hk : Keeps z s) :
    Keeps z (State.dmaStart s t part seat pasid wr issue addr len) := by
  unfold State.dmaStart
  try dsimp only
  repeat' with_reducible first | assumption | apply State.hostRead_keeps | apply State.dmaEnd_keeps | refine Keeps.ite ?_ ?_ | simp only [Keeps.upd] | refine Keeps.updId ?_ | simp only [id] | split

theorem State.dmaForget_keeps {z : State} (s : State) (id : Nat) (hk : Keeps z s) :
    Keeps z (State.dmaForget s id) := by
  unfold State.dmaForget
  try dsimp only
  repeat' with_reducible first | assumption | refine Keeps.ite ?_ ?_ | simp only [Keeps.upd] | simp only [id] | split

theorem State.wrData_keeps {z : State} (s : State) (id : Nat) (buf : List Byte) (hk : Keeps z s) :
    Keeps z (State.wrData s id buf) := by
  unfold State.wrData
  try dsimp only
  repeat' with_reducible first | assumption | apply State.modWr_keeps | apply State.sendWr_keeps | apply State.sendReady_keeps | refine Keeps.ite ?_ ?_ | simp only [id] | split

theorem State.readDone_keeps {z : State} (s : State) (id mtype : Nat) (data : List Byte) (hk : Keeps z s) :
    Keeps z (State.readDone s id mtype data) := by
  unfold State.readDone
  try dsimp only
  repeat' with_reducible first | assumption | apply State.modEng_keeps | apply State.winDec_keeps | apply State.answer_keeps | refine Keeps.ite ?_ ?_ | simp only [id] | split

theorem State.dmaPiece_keeps {z : State} (s : State) (id : Nat) (c : Cpl) (hk : Keeps z s) :
    Keeps z (State.dmaPiece s id c) := by
  unfold State.dmaPiece
  try dsimp only
  repeat' with_reducible first | assumption | apply State.dmaForget_keeps | apply State.dmaEnd_keeps | apply State.count_keeps | apply State.wrData_keeps | apply State.readDone_keeps | refine Keeps.ite ?_ ?_ | simp only [Keeps.upd] | simp only [id] | split

theorem State.askOne_keeps {z : State} (s : State) (k : QpWrite) (hk : Keeps z s) :
    Keeps z (State.askOne s k) := by
  unfold State.askOne
  try dsimp only
  repeat' with_reducible first | assumption | apply State.form_keeps | apply State.shown_keeps | refine Keeps.ite ?_ ?_ | simp only [Keeps.upd] | refine Keeps.updId ?_ | split

theorem State.askShown_keeps {z : State} (s : State) (w : Wr) (hk : Keeps z s) :
    Keeps z (State.askShown s w) := by
  unfold State.askShown
  try dsimp only
  repeat' with_reducible first | assumption | (refine State.each_keeps _ _ _ ?_ fun t a ht => ?_) | apply State.askOne_keeps | refine Keeps.ite ?_ ?_ | split

theorem State.gatherWr_keeps {z : State} (s : State) (w : Wr) (len : Nat) (hk : Keeps z s) :
    Keeps z (State.gatherWr s w len) := by
  unfold State.gatherWr
  try dsimp only
  repeat' with_reducible first | assumption | apply State.dmaStart_keeps | apply State.modWr_keeps | refine Keeps.ite ?_ ?_ | simp only [id] | split

theorem State.startNop_keeps {z : State} (s : State) (w : Wr) (hk : Keeps z s) :
    Keeps z (State.startNop s w) := by
  unfold State.startNop
  try dsimp only
  repeat' with_reducible first | assumption | apply State.finishWr_keeps | refine Keeps.ite ?_ ?_ | simp only [id] | split

theorem State.startWrite_keeps {z : State} (s : State) (w : Wr) (hk : Keeps z s) :
    Keeps z (State.startWrite s w) := by
  unfold State.startWrite
  try dsimp only
  repeat' with_reducible first | assumption | apply State.settleWr_keeps | apply State.gatherWr_keeps | refine Keeps.ite ?_ ?_ | simp only [id] | split

theorem State.startRead_keeps {z : State} (s : State) (w : Wr) (hk : Keeps z s) :
    Keeps z (State.startRead s w) := by
  unfold State.startRead
  try dsimp only
  repeat' with_reducible first | assumption | (refine State.each_keeps _ _ _ ?_ fun t a ht => ?_) | apply State.sendWr_keeps | apply State.settleWr_keeps | refine Keeps.ite ?_ ?_ | simp only [id] | split

theorem State.startSend_keeps {z : State} (s : State) (w : Wr) (hk : Keeps z s) :
    Keeps z (State.startSend s w) := by
  unfold State.startSend
  try dsimp only
  repeat' with_reducible first | assumption | apply State.modWr_keeps | apply State.modQp_keeps | apply State.settleWr_keeps | apply State.sendWr_keeps | apply State.gatherWr_keeps | refine Keeps.ite ?_ ?_ | simp only [id] | split

theorem State.startRecvPost_keeps {z : State} (s : State) (w : Wr) (hk : Keeps z s) :
    Keeps z (State.startRecvPost s w) := by
  unfold State.startRecvPost
  try dsimp only
  repeat' with_reducible first | assumption | apply State.finishWr_keeps | apply State.modQp_keeps | refine Keeps.ite ?_ ?_ | simp only [id] | split

theorem State.startAtomic_keeps {z : State} (s : State) (w : Wr) (hk : Keeps z s) :
    Keeps z (State.startAtomic s w) := by
  unfold State.startAtomic
  try dsimp only
  repeat' with_reducible first | assumption | apply State.gatherWr_keeps | refine Keeps.ite ?_ ?_ | split

theorem State.startFence_keeps {z : State} (s : State) (w : Wr) (hk : Keeps z s) :
    Keeps z (State.startFence s w) := by
  unfold State.startFence
  try dsimp only
  repeat' with_reducible first | assumption | apply State.finishWr_keeps | refine Keeps.ite ?_ ?_ | simp only [id] | split

theorem State.startCountAdd_keeps {z : State} (s : State) (w : Wr) (hk : Keeps z s) :
    Keeps z (State.startCountAdd s w) := by
  unfold State.startCountAdd
  try dsimp only
  repeat' with_reducible first | assumption | apply State.finishWr_keeps | apply State.advTrig_keeps | refine Keeps.ite ?_ ?_ | simp only [id] | split

theorem State.startWinOpen_keeps {z : State} (s : State) (w : Wr) (hk : Keeps z s) :
    Keeps z (State.startWinOpen s w) := by
  unfold State.startWinOpen
  try dsimp only
  repeat' with_reducible first | assumption | refine State.winOpen_keeps ?_ (by assumption) | apply State.winOpen_keeps' | apply State.finishWr_keeps | apply State.modWr_keeps | refine Keeps.ite ?_ ?_ | simp only [id] | split

theorem State.startWinRevoke_keeps {z : State} (s : State) (w : Wr) (hk : Keeps z s) :
    Keeps z (State.startWinRevoke s w) := by
  unfold State.startWinRevoke
  try dsimp only
  repeat' with_reducible first | assumption | apply State.finishWr_keeps | apply State.revokeWin_keeps | refine Keeps.ite ?_ ?_ | simp only [id] | split

theorem State.startQpCreate_keeps {z : State} (s : State) (w : Wr) (hk : Keeps z s) :
    Keeps z (State.startQpCreate s w) := by
  unfold State.startQpCreate
  try dsimp only
  repeat' with_reducible first | assumption | apply State.finishWr_keeps | apply State.modQp_keeps | refine Keeps.ite ?_ ?_ | simp only [id] | split

theorem State.squashHeld_keeps {z : State} (s : State) (n code : Nat) (hk : Keeps z s) :
    Keeps z (State.squashHeld s n code) := by
  unfold State.squashHeld
  try dsimp only
  repeat' with_reducible first | assumption | (refine State.each_keeps _ _ _ ?_ fun t a ht => ?_) | apply State.finishWr_keeps | refine Keeps.ite ?_ ?_ | simp only [id] | split

theorem State.startQpDestroy_keeps {z : State} (s : State) (w : Wr) (hk : Keeps z s) :
    Keeps z (State.startQpDestroy s w) := by
  unfold State.startQpDestroy
  try dsimp only
  repeat' with_reducible first | assumption | apply State.squashHeld_keeps | apply State.modQp_keeps | refine Keeps.ite ?_ ?_ | simp only [id] | split

theorem State.startWr_keeps {z : State} (s : State) (w : Wr) (hk : Keeps z s) :
    Keeps z (State.startWr s w) := by
  unfold State.startWr
  try dsimp only
  repeat' with_reducible first | assumption | apply State.used_keeps | apply State.modWr_keeps | apply State.startNop_keeps | apply State.startWrite_keeps | apply State.startRead_keeps | apply State.startSend_keeps | apply State.startRecvPost_keeps | apply State.startAtomic_keeps | apply State.startFence_keeps | apply State.startCountAdd_keeps | apply State.startWinOpen_keeps | apply State.startWinRevoke_keeps | apply State.startQpCreate_keeps | apply State.startQpDestroy_keeps | refine Keeps.ite ?_ ?_ | simp only [id] | split

theorem workRequestStart_keeps {z : State} (id : Nat) (s : State) (hk : Keeps z s) :
    Keeps z (workRequestStart id s) := by
  unfold workRequestStart
  try dsimp only
  repeat' with_reducible first | assumption | apply State.askShown_keeps | apply State.startWr_keeps | refine Keeps.ite ?_ ?_ | simp only [id] | split

theorem State.addWr_keeps {z : State} (s : State) (w : Wr) (hk : Keeps z s) :
    Keeps z (State.addWr s w) := by
  unfold State.addWr
  try dsimp only
  repeat' with_reducible first | assumption | refine Keeps.ite ?_ ?_ | simp only [Keeps.upd] | refine Keeps.updId ?_ | split

theorem State.failDesc_keeps {z : State} (s : State) (t seat ring : Nat) (d : Desc) (c : Option CtxInit) (code : Nat) (hk : Keeps z s) :
    Keeps z (State.failDesc s t seat ring d c code) := by
  unfold State.failDesc
  try dsimp only
  repeat' with_reducible first | assumption | apply State.reap_keeps | apply State.addWr_keeps | refine Keeps.ite ?_ ?_ | split

theorem State.pauseRing_keeps {z : State} (s : State) (ring : Nat) (hk : Keeps z s) :
    Keeps z (State.pauseRing s ring) := by
  unfold State.pauseRing
  try dsimp only
  repeat' with_reducible first | assumption | apply State.modRing_keeps | refine Keeps.ite ?_ ?_ | split

theorem State.puHold_keeps {z : State} (s : State) (t seat : Nat) (it : HeldItem) (hk : Keeps z s) :
    Keeps z (State.puHold s t seat it) := by
  unfold State.puHold
  try dsimp only
  repeat' with_reducible first | assumption | refine Keeps.ite ?_ ?_ | simp only [Keeps.upd] | refine Keeps.updId ?_ | simp only [id] | split

theorem State.enginePass_keeps' {z : State} (s : State) (t seat ring : Nat) (d : Desc) (c : Option CtxInit) (hk : Keeps z s) :
    Keeps z (State.enginePass s t seat ring d c).1 := by
  unfold State.enginePass
  try dsimp only
  repeat' with_reducible first | assumption | refine State.puCheckB_keeps ?_ (by assumption) | refine State.puCheckI_keeps ?_ (by assumption) | refine State.puCheck_keeps ?_ (by assumption) | apply State.failDesc_keeps | apply State.addWr_keeps | apply State.startWr_keeps | apply State.pauseRing_keeps | apply State.sticky_keeps | apply State.askShown_keeps | refine Keeps.ite ?_ ?_ | refine Keeps.ite_fst ?_ ?_ | split | dsimp only

theorem State.enginePass_keeps {z s' : State} (s : State) (t seat ring : Nat) (d : Desc) (c : Option CtxInit) {x' : Bool} (hk : Keeps z s)
    (he' : State.enginePass s t seat ring d c = (s', x')) : Keeps z s' := by
  have q := State.enginePass_keeps' s t seat ring d c hk
  rwa [he'] at q

theorem State.engineAccept_keeps' {z : State} (s : State) (t seat ring : Nat) (d : Desc) (c : Option CtxInit) (hk : Keeps z s) :
    Keeps z (State.engineAccept s t seat ring d c).1 := by
  unfold State.engineAccept
  try dsimp only
  repeat' with_reducible first | assumption | apply State.failDesc_keeps | apply State.puHold_keeps | apply State.pauseRing_keeps | refine State.enginePass_keeps ?_ (by assumption) | apply State.enginePass_keeps' | refine Keeps.ite ?_ ?_ | refine Keeps.ite_fst ?_ ?_ | split | dsimp only

theorem State.engineAccept_keeps {z s' : State} (s : State) (t seat ring : Nat) (d : Desc) (c : Option CtxInit) {x' : Bool} (hk : Keeps z s)
    (he' : State.engineAccept s t seat ring d c = (s', x')) : Keeps z s' := by
  have q := State.engineAccept_keeps' s t seat ring d c hk
  rwa [he'] at q

theorem State.engineTake_keeps' {z : State} (s : State) (ring : Nat) (d : Desc) (c : Option CtxInit) (hk : Keeps z s) :
    Keeps z (State.engineTake s ring d c).1 := by
  unfold State.engineTake
  try dsimp only
  repeat' with_reducible first | assumption | apply State.count_keeps | refine State.engineAccept_keeps (hk := ?_) (he' := by assumption) | apply State.engineAccept_keeps' | apply State.touch_keeps | apply State.park_keeps | apply State.pauseRing_keeps | apply State.sticky_keeps | refine Keeps.ite ?_ ?_ | refine Keeps.ite_fst ?_ ?_ | split | dsimp only

theorem State.engineTake_keeps {z s' : State} (s : State) (ring : Nat) (d : Desc) (c : Option CtxInit) {x' : Bool} (hk : Keeps z s)
    (he' : State.engineTake s ring d c = (s', x')) : Keeps z s' := by
  have q := State.engineTake_keeps' s ring d c hk
  rwa [he'] at q

theorem State.notReadySend_keeps {z : State} (s : State) (t : Nat) (h : EngHdr) (hk : Keeps z s) :
    Keeps z (State.notReadySend s t h) := by
  unfold State.notReadySend
  try dsimp only
  repeat' with_reducible first | assumption | apply State.answer_keeps | apply State.sticky_keeps | apply State.count_keeps | refine Keeps.ite ?_ ?_ | split

theorem State.addIssue_keeps {z : State} (s : State) (t : Nat) (index : Option Nat) (h : EngHdr) (data : List Byte) (hk : Keeps z s) :
    Keeps z (State.addIssue s t index h data) := by
  unfold State.addIssue
  try dsimp only
  repeat' with_reducible first | assumption | refine Keeps.ite ?_ ?_ | simp only [Keeps.upd] | refine Keeps.updId ?_ | simp only [id] | split

theorem State.issueWrite_keeps {z : State} (s : State) (t part seat : Nat) (pasid : Option Nat) (id addr : Nat) (data : List Byte) (hk : Keeps z s) :
    Keeps z (State.issueWrite s t part seat pasid id addr data) := by
  unfold State.issueWrite
  try dsimp only
  repeat' with_reducible first | assumption | apply State.hostWrite_keeps | apply State.issued_keeps | refine Keeps.ite ?_ ?_ | simp only [id] | split

theorem State.winPkt_keeps {z : State} (s : State) (t : Nat) (h : EngHdr) (data : List Byte) (hk : Keeps z s) :
    Keeps z (State.winPkt s t h data) := by
  unfold State.winPkt
  try dsimp only
  repeat' with_reducible first | assumption | apply State.winReject_keeps | apply State.addIssue_keeps | apply State.modWindow_keeps | apply State.issueWrite_keeps | apply State.readDone_keeps | apply State.dmaStart_keeps | apply State.issued_keeps | apply State.form_keeps | refine Keeps.ite ?_ ?_ | simp only [id] | split

theorem State.sendPkt_keeps {z : State} (s : State) (t : Nat) (h : EngHdr) (ea : Nat) (el : Nat) (ew : BitVec 64) (data : List Byte) (hk : Keeps z s) :
    Keeps z (State.sendPkt s t h ea el ew data) := by
  unfold State.sendPkt
  try dsimp only
  repeat' with_reducible first | assumption | apply State.answer_keeps | apply State.notReadySend_keeps | apply State.modQp_keeps | apply State.recvEnd_keeps | refine State.puCheckB_keeps ?_ (by assumption) | refine State.puCheckI_keeps ?_ (by assumption) | refine State.puCheck_keeps ?_ (by assumption) | apply State.issueWrite_keeps | apply State.addIssue_keeps | refine Keeps.ite ?_ ?_ | simp only [id] | split

theorem State.notifyPkt_keeps {z : State} (s : State) (t : Nat) (h : EngHdr) (hk : Keeps z s) :
    Keeps z (State.notifyPkt s t h) := by
  unfold State.notifyPkt
  try dsimp only
  repeat' with_reducible first | assumption | apply State.answer_keeps | apply State.advTrig_keeps | refine Keeps.ite ?_ ?_ | split

theorem State.servePkt_keeps {z : State} (s : State) (t : Nat) (h : EngHdr) (data : List Byte) (ea el : Nat) (ew : BitVec 64) (hk : Keeps z s) :
    Keeps z (State.servePkt s t h data ea el ew) := by
  unfold State.servePkt
  try dsimp only
  repeat' with_reducible first | assumption | apply State.sendPkt_keeps | apply State.notifyPkt_keeps | apply State.winPkt_keeps | refine Keeps.ite ?_ ?_ | split

theorem State.arrivePkt_keeps {z : State} (s : State) (h : EngHdr) (data : List Byte) (ea el : Nat) (ew : BitVec 64) (hk : Keeps z s) :
    Keeps z (State.arrivePkt s h data ea el ew) := by
  unfold State.arrivePkt
  try dsimp only
  repeat' with_reducible first | assumption | apply State.servePkt_keeps | apply State.answer_keeps | apply State.touch_keeps | apply State.park_keeps | apply State.notReadySend_keeps | apply State.sticky_keeps | refine Keeps.ite ?_ ?_ | split

theorem State.fetchDone_keeps {z : State} (s : State) (isWin : Bool) (t k : Nat) (hk : Keeps z s) :
    Keeps z (State.fetchDone s isWin t k) := by
  unfold State.fetchDone
  try dsimp only
  repeat' with_reducible first | assumption | apply State.cacheInD_keeps | refine State.cacheIn_keeps ?_ (by assumption) | apply State.modEng_keeps | (refine State.each_keeps _ _ _ ?_ fun t a ht => ?_) | refine State.engineAccept_keeps (hk := ?_) (he' := by assumption) | apply State.engineAccept_keeps' | apply State.servePkt_keeps | refine Keeps.ite ?_ ?_ | split

theorem windowFetchDone_keeps {z : State} (t i : Nat) (s : State) (hk : Keeps z s) :
    Keeps z (windowFetchDone t i s) := by
  unfold windowFetchDone
  try dsimp only
  repeat' with_reducible first | assumption | apply State.modWin_keeps | apply State.fetchDone_keeps | refine Keeps.ite ?_ ?_ | split

theorem contextFetchDone_keeps {z : State} (t n : Nat) (s : State) (hk : Keeps z s) :
    Keeps z (contextFetchDone t n s) := by
  unfold contextFetchDone
  try dsimp only
  repeat' with_reducible first | assumption | apply State.fetchDone_keeps | refine Keeps.ite ?_ ?_ | split

theorem qpTableInit_keeps {z : State} (v : Word) (s : State) (hk : Keeps z s) :
    Keeps z (qpTableInit v s) := by
  unfold qpTableInit
  try dsimp only
  repeat' with_reducible first | assumption | apply State.sticky_keeps | apply State.plainWrite_keeps | apply State.setFlag_keeps | refine Keeps.ite ?_ ?_ | split

theorem qpTableInitDone_keeps {z : State} (s : State) (hk : Keeps z s) :
    Keeps z (qpTableInitDone s) := by
  unfold qpTableInitDone
  try dsimp only
  repeat' with_reducible first | assumption | apply State.modEng_keeps | apply State.setFlag_keeps | refine Keeps.ite ?_ ?_ | split

theorem qpDestroyDone_keeps {z : State} (n : Nat) (s : State) (hk : Keeps z s) :
    Keeps z (qpDestroyDone n s) := by
  unfold qpDestroyDone
  try dsimp only
  repeat' with_reducible first | assumption | apply State.modQp_keeps | apply State.finishWr_keeps | refine Keeps.ite ?_ ?_ | split

theorem readResp_keeps {z : State} (h : EngHdr) (data : List Byte) (s : State) (hk : Keeps z s) :
    Keeps z (readResp h data s) := by
  unfold readResp
  try dsimp only
  repeat' with_reducible first | assumption | apply State.count_keeps | apply State.hostWrite_keeps | apply State.wrAnswer_keeps | apply State.modWr_keeps | refine Keeps.ite ?_ ?_ | simp only [id] | split

theorem atomicResp_keeps {z : State} (h : EngHdr) (data : List Byte) (s : State) (hk : Keeps z s) :
    Keeps z (atomicResp h data s) := by
  unfold atomicResp
  try dsimp only
  repeat' with_reducible first | assumption | apply State.count_keeps | apply State.hostWrite_keeps | apply State.wrAnswer_keeps | apply State.modWr_keeps | refine Keeps.ite ?_ ?_ | simp only [id] | split

theorem engineAck_keeps {z : State} (h : EngHdr) (s : State) (hk : Keeps z s) :
    Keeps z (engineAck h s) := by
  unfold engineAck
  try dsimp only
  repeat' with_reducible first | assumption | apply State.answered_keeps | refine Keeps.ite ?_ ?_ | split

theorem notReady_keeps {z : State} (h : EngHdr) (s : State) (hk : Keeps z s) :
    Keeps z (notReady h s) := by
  unfold notReady
  try dsimp only
  repeat' with_reducible first | assumption | apply State.count_keeps | apply State.wrAnswer_keeps | apply State.modWr_keeps | refine Keeps.ite ?_ ?_ | simp only [id] | split

theorem notReadyBackoff_keeps {z : State} (id o : Nat) (s : State) (hk : Keeps z s) :
    Keeps z (notReadyBackoff id o s) := by
  unfold notReadyBackoff
  try dsimp only
  repeat' with_reducible first | assumption | apply State.modWr_keeps | apply State.count_keeps | refine State.sendEng_keeps ?_ (by assumption) | apply State.sendEng_keeps' | apply State.wrAnswer_keeps | refine Keeps.ite ?_ ?_ | simp only [id] | split

theorem workRequestTimeout_keeps {z : State} (id : Nat) (s : State) (hk : Keeps z s) :
    Keeps z (workRequestTimeout id s) := by
  unfold workRequestTimeout
  try dsimp only
  repeat' with_reducible first | assumption | apply State.finishWr_keeps | refine Keeps.ite ?_ ?_ | simp only [id] | split

theorem dmaReadCompletion_keeps {z : State} (id : Nat) (c : Cpl) (s : State) (hk : Keeps z s) :
    Keeps z (dmaReadCompletion id c s) := by
  unfold dmaReadCompletion
  try dsimp only
  repeat' with_reducible first | assumption | apply State.dmaPiece_keeps | refine Keeps.ite ?_ ?_ | simp only [id] | split

end Sys2Proof.Machine
end

