-- ==== Sys2Proof/Laws/KeepsAperture.lean ====
section
/-! SUPPORT. Every operation of Machine/Aperture.lean keeps what `Keeps` says. -/

set_option linter.unusedTactic false
set_option linter.unreachableTactic false

namespace Sys2Proof.Machine

theorem State.bar4Data_keeps {z : State} (s : State) (e : Bool) (p : Nat) (who : Requester) (r : Req) (data : List Byte) (hk : Keeps z s) :
    Keeps z (State.bar4Data s e p who r data) := by
  unfold State.bar4Data
  try dsimp only
  repeat' with_reducible first | assumption | apply State.reply_keeps | refine Keeps.ite ?_ ?_ | split

theorem State.barReply_keeps {z : State} (s : State) (e : Bool) (p : Nat) (who : Requester) (r : Req) (st : CplStatus) (data : List Byte) (hk : Keeps z s) :
    Keeps z (State.barReply s e p who r st data) := by
  unfold State.barReply
  try dsimp only
  repeat' with_reducible first | assumption | apply State.reply_keeps | refine Keeps.ite ?_ ?_ | split

theorem State.bar4Ur_keeps {z : State} (s : State) (e : Bool) (p : Nat) (who : Requester) (r : Req) (hk : Keeps z s) :
    Keeps z (State.bar4Ur s e p who r) := by
  unfold State.bar4Ur
  try dsimp only
  repeat' with_reducible first | assumption | apply State.reply_keeps | refine Keeps.ite ?_ ?_ | split

theorem State.apUnmapped_keeps {z : State} (s : State) (e : Bool) (p : Nat) (who : Requester) (seat : Option Nat) (r : Req) (hk : Keeps z s) :
    Keeps z (State.apUnmapped s e p who seat r) := by
  unfold State.apUnmapped
  try dsimp only
  repeat' with_reducible first | assumption | apply State.logAer_keeps | apply State.count_keeps | apply State.bar4Ur_keeps | apply State.modBo_keeps | refine Keeps.ite ?_ ?_ | split

theorem State.makeRoom_keeps {z : State} (s : State) (t : Nat) (hk : Keeps z s) :
    Keeps z (State.makeRoom s t) := by
  unfold State.makeRoom
  try dsimp only
  repeat' with_reducible first | assumption | apply State.sticky_keeps | apply State.sendLine_keeps | refine Keeps.ite ?_ ?_ | split

theorem State.putPiece_keeps {z : State} (s : State) (k : WcPiece) (l : WcLine) (new : Bool) (hk : Keeps z s) :
    Keeps z (State.putPiece s k l new) := by
  unfold State.putPiece
  try dsimp only
  repeat' with_reducible first | assumption | apply State.modWc_keeps | apply State.syncLines_keeps | apply State.sendLine_keeps | refine Keeps.ite ?_ ?_ | simp only [Keeps.upd] | refine Keeps.updId ?_ | simp only [id] | split

theorem State.mergePiece_keeps {z : State} (s : State) (k : WcPiece) (hk : Keeps z s) :
    Keeps z (State.mergePiece s k) := by
  unfold State.mergePiece
  try dsimp only
  repeat' with_reducible first | assumption | apply State.modWc_keeps | apply State.flushLines_keeps | apply State.putPiece_keeps | apply State.makeRoom_keeps | refine Keeps.ite ?_ ?_ | simp only [id] | split

theorem State.resumePieces_keeps {z : State} (s : State) (t : Nat) (hk : Keeps z s) :
    Keeps z (State.resumePieces s t) := by
  unfold State.resumePieces
  try dsimp only
  repeat' with_reducible first | assumption | (refine State.each_keeps _ _ _ ?_ fun t a ht => ?_) | apply State.modWc_keeps | apply State.mergePiece_keeps | refine Keeps.ite ?_ ?_ | split

theorem State.wcStore_keeps {z : State} (s : State) (e : Bool) (t seat x a : Nat) (r : Req) (hk : Keeps z s) :
    Keeps z (State.wcStore s e t seat x a r) := by
  unfold State.wcStore
  try dsimp only
  repeat' with_reducible first | assumption | (refine State.each_keeps _ _ _ ?_ fun t a ht => ?_) | apply State.mergePiece_keeps | refine Keeps.ite ?_ ?_ | simp only [Keeps.upd] | refine Keeps.updId ?_ | split

theorem State.apRead_keeps {z : State} (s : State) (e : Bool) (p : Nat) (who : Requester) (seat x a : Nat) (r : Req) (hk : Keeps z s) :
    Keeps z (State.apRead s e p who seat x a r) := by
  unfold State.apRead
  try dsimp only
  repeat' with_reducible first | assumption | apply State.count_keeps | apply State.bar4Data_keeps | apply State.form_keeps | refine Keeps.ite ?_ ?_ | split

theorem State.apAccess_keeps {z : State} (s : State) (e : Bool) (p : Nat) (who : Requester) (seat x o : Nat) (r : Req) (hk : Keeps z s) :
    Keeps z (State.apAccess s e p who seat x o r) := by
  unfold State.apAccess
  try dsimp only
  repeat' with_reducible first | assumption | apply State.modBo_keeps | apply State.flushLines_keeps | apply State.count_keeps | apply State.bar4Data_keeps | apply State.tallyDrop_keeps | apply State.sticky_keeps | apply State.apRead_keeps | apply State.apWrite_keeps | apply State.wcStore_keeps | refine Keeps.ite ?_ ?_ | simp only [Keeps.upd] | refine Keeps.updId ?_ | split

theorem State.apStopped_keeps {z : State} (s : State) (e : Bool) (p : Nat) (who : Requester) (seat code : Nat) (r : Req) (hk : Keeps z s) :
    Keeps z (State.apStopped s e p who seat code r) := by
  unfold State.apStopped
  try dsimp only
  repeat' with_reducible first | assumption | apply State.bar4Data_keeps | apply State.tallyDrop_keeps | apply State.count_keeps | refine Keeps.ite ?_ ?_ | split

theorem State.bar4Fault_keeps {z : State} (s : State) (e : Bool) (p : Nat) (who : Requester) (seat k cause rule o : Nat) (r : Req) (hk : Keeps z s) :
    Keeps z (State.bar4Fault s e p who seat k cause rule o r) := by
  unfold State.bar4Fault
  try dsimp only
  repeat' with_reducible first | assumption | apply State.puFault_keeps | apply State.bar4Data_keeps | apply State.modBo_keeps | refine Keeps.ite ?_ ?_ | split

theorem State.bar4Checked_keeps {z : State} (s : State) (e : Bool) (p : Nat) (who : Requester) (seat : Nat) (r : Req) (hk : Keeps z s) :
    Keeps z (State.bar4Checked s e p who seat r) := by
  unfold State.bar4Checked
  try dsimp only
  repeat' with_reducible first | assumption | apply State.apUnmapped_keeps | apply State.apStopped_keeps | apply State.bar4Fault_keeps | apply State.apAccess_keeps | refine Keeps.ite ?_ ?_ | split

theorem State.bar4_keeps {z : State} (s : State) (e : Bool) (p : Nat) (who : Requester) (r : Req) (hk : Keeps z s) :
    Keeps z (State.bar4 s e p who r) := by
  unfold State.bar4
  try dsimp only
  repeat' with_reducible first | assumption | apply State.bar4Ur_keeps | apply State.count_keeps | apply State.logFabAer_keeps | apply State.apUnmapped_keeps | apply State.bar4Fault_keeps | apply State.puHold_keeps | apply State.bar4Checked_keeps | refine Keeps.ite ?_ ?_ | split

theorem bar4Write_keeps {z : State} (p : Nat) (who : Requester) (r : Req) (s : State) (hk : Keeps z s) :
    Keeps z (bar4Write p who r s) := by
  unfold bar4Write
  try dsimp only
  repeat' with_reducible first | assumption | apply State.hold_keeps | apply State.bar4_keeps | refine Keeps.ite ?_ ?_ | split

theorem bar4Read_keeps {z : State} (p : Nat) (who : Requester) (r : Req) (s : State) (hk : Keeps z s) :
    Keeps z (bar4Read p who r s) := by
  unfold bar4Read
  try dsimp only
  repeat' with_reducible first | assumption | apply State.hold_keeps | apply State.bar4_keeps | refine Keeps.ite ?_ ?_ | split

theorem wcLineTimeout_keeps {z : State} (t l : Nat) (s : State) (hk : Keeps z s) :
    Keeps z (wcLineTimeout t l s) := by
  unfold wcLineTimeout
  try dsimp only
  repeat' with_reducible first | assumption | apply State.sendLine_keeps | refine Keeps.ite ?_ ?_ | simp only [id] | split

theorem State.addFence_keeps {z : State} (s : State) (e : Bool) (p : Nat) (who : Requester) (seat : Nat) (r : Req) (reads : List ApStream) (y : Tally) (hk : Keeps z s) :
    Keeps z (State.addFence s e p who seat r reads y) := by
  unfold State.addFence
  try dsimp only
  repeat' with_reducible first | assumption | refine Keeps.ite ?_ ?_ | simp only [Keeps.upd] | refine Keeps.updId ?_ | simp only [id] | split

theorem State.fenceAccept_keeps {z : State} (s : State) (e : Bool) (p : Nat) (who : Requester) (seat : Nat) (r : Req) (hk : Keeps z s) :
    Keeps z (State.fenceAccept s e p who seat r) := by
  unfold State.fenceAccept
  try dsimp only
  repeat' with_reducible first | assumption | apply State.flushLines_keeps | refine State.takeTally_keeps (hk := ?_) (he' := by assumption) | apply State.takeTally_keeps' | apply State.completeFences_keeps | (refine State.each_keeps _ _ _ ?_ fun t a ht => ?_) | apply State.addFence_keeps | apply State.flushRead_keeps | refine Keeps.ite ?_ ?_ | split

theorem State.fenceForced_keeps {z : State} (s : State) (e : Bool) (p : Nat) (who : Requester) (seat : Nat) (r : Req) (hk : Keeps z s) :
    Keeps z (State.fenceForced s e p who seat r) := by
  unfold State.fenceForced
  try dsimp only
  repeat' with_reducible first | assumption | refine State.takeTally_keeps (hk := ?_) (he' := by assumption) | apply State.takeTally_keeps' | apply State.completeFences_keeps | apply State.addFence_keeps | refine Keeps.ite ?_ ?_ | split

theorem State.fenceAt_keeps {z : State} (s : State) (e : Bool) (p : Nat) (who : Requester) (seat : Nat) (r : Req) (hk : Keeps z s) :
    Keeps z (State.fenceAt s e p who seat r) := by
  unfold State.fenceAt
  try dsimp only
  repeat' with_reducible first | assumption | apply State.barReply_keeps | apply State.count_keeps | apply State.puHold_keeps | apply State.fenceAccept_keeps | refine Keeps.ite ?_ ?_ | split

theorem fenceRead_keeps {z : State} (p : Nat) (who : Requester) (seat : Nat) (r : Req) (s : State) (hk : Keeps z s) :
    Keeps z (fenceRead p who seat r s) := by
  unfold fenceRead
  try dsimp only
  repeat' with_reducible first | assumption | apply State.hold_keeps | apply State.fenceAt_keeps | refine Keeps.ite ?_ ?_ | split

theorem flushReadComplete_keeps {z : State} (t fence stream : Nat) (st : CplStatus) (poisoned synthetic : Bool) (code : Nat) (s : State) (hk : Keeps z s) :
    Keeps z (flushReadComplete t fence stream st poisoned synthetic code s) := by
  unfold flushReadComplete
  try dsimp only
  repeat' with_reducible first | assumption | apply State.flushDone_keeps | refine Keeps.ite ?_ ?_ | split

theorem fenceTimeout_keeps {z : State} (t fence : Nat) (s : State) (hk : Keeps z s) :
    Keeps z (fenceTimeout t fence s) := by
  unfold fenceTimeout
  try dsimp only
  repeat' with_reducible first | assumption | apply State.completeFences_keeps | apply State.modWc_keeps | refine Keeps.ite ?_ ?_ | simp only [id] | split

theorem State.heldGo_keeps {z : State} (s : State) (h : HeldAcc) (hk : Keeps z s) :
    Keeps z (State.heldGo s h) := by
  unfold State.heldGo
  try dsimp only
  repeat' with_reducible first | assumption | apply State.bar4Checked_keeps | apply State.fenceAccept_keeps | refine State.engineAccept_keeps (hk := ?_) (he' := by assumption) | apply State.engineAccept_keeps' | apply State.puHold_keeps | refine Keeps.ite ?_ ?_ | split

theorem State.heldFault_keeps {z : State} (s : State) (h : HeldAcc) (hk : Keeps z s) :
    Keeps z (State.heldFault s h) := by
  unfold State.heldFault
  try dsimp only
  repeat' with_reducible first | assumption | apply State.bar4Fault_keeps | apply State.fenceAccept_keeps | apply State.failDesc_keeps | apply State.puFault_keeps | refine Keeps.ite ?_ ?_ | split

theorem State.releaseHeld_keeps {z : State} (s : State) (t seat : Nat) (hk : Keeps z s) :
    Keeps z (State.releaseHeld s t seat) := by
  unfold State.releaseHeld
  try dsimp only
  repeat' with_reducible first | assumption | (refine State.each_keeps _ _ _ ?_ fun t a ht => ?_) | apply State.heldGo_keeps | refine Keeps.ite ?_ ?_ | simp only [Keeps.upd] | split

theorem State.freeFences_keeps {z : State} (s : State) (t seat : Nat) (hk : Keeps z s) :
    Keeps z (State.freeFences s t seat) := by
  unfold State.freeFences
  try dsimp only
  repeat' with_reducible first | assumption | (refine State.each_keeps _ _ _ ?_ fun t a ht => ?_) | apply State.heldGo_keeps | refine Keeps.ite ?_ ?_ | simp only [Keeps.upd] | simp only [id] | split

theorem State.apContAct_keeps {z : State} (s : State) (agent t : Nat) (v : Word) (hk : Keeps z s) :
    Keeps z (State.apContAct s agent t v) := by
  unfold State.apContAct
  try dsimp only
  repeat' with_reducible first | assumption | apply State.setLv_keeps | apply State.modWc_keeps | apply State.contain_keeps | refine Keeps.ite ?_ ?_ | split

theorem apContReadState_keeps {z : State} (agent t : Nat) (v : Word) (s : State) (hk : Keeps z s) :
    Keeps z (apContReadState agent t v s) := by
  unfold apContReadState
  try dsimp only
  repeat' with_reducible first | assumption | apply State.apContAct_keeps | refine Keeps.ite ?_ ?_ | split

theorem apContClear_keeps {z : State} (agent t : Nat) (v : Word) (s : State) (hk : Keeps z s) :
    Keeps z (apContClear agent t v s) := by
  unfold apContClear
  try dsimp only
  repeat' with_reducible first | assumption | apply State.apContAct_keeps | refine Keeps.ite ?_ ?_ | split

theorem apContContain_keeps {z : State} (agent t : Nat) (v : Word) (s : State) (hk : Keeps z s) :
    Keeps z (apContContain agent t v s) := by
  unfold apContContain
  try dsimp only
  repeat' with_reducible first | assumption | apply State.apContAct_keeps | refine Keeps.ite ?_ ?_ | split

theorem apContDone_keeps {z : State} (agent t : Nat) (s : State) (hk : Keeps z s) :
    Keeps z (apContDone agent t s) := by
  unfold apContDone
  try dsimp only
  repeat' with_reducible first | assumption | apply State.setFlag_keeps | refine Keeps.ite ?_ ?_ | split

end Sys2Proof.Machine
end

