-- ==== Sys2Proof/Laws/KeepsProtection.lean ====
section
/-! SUPPORT. Every operation of Machine/Protection.lean keeps what `Keeps` says. -/

set_option linter.unusedTactic false
set_option linter.unreachableTactic false

namespace Sys2Proof.Machine

theorem State.puCtrlWrite_keeps {z : State} (s : State) (t seat : Nat) (v : Word) (hk : Keeps z s) :
    Keeps z (State.puCtrlWrite s t seat v) := by
  unfold State.puCtrlWrite
  try dsimp only
  repeat' with_reducible first | assumption | apply State.plainWrite_keeps | apply State.releaseHeld_keeps | apply State.setFlag_keeps | refine Keeps.ite ?_ ?_ | split

theorem puDisable_keeps {z : State} (t seat : Nat) (v : Word) (s : State) (hk : Keeps z s) :
    Keeps z (puDisable t seat v s) := by
  unfold puDisable
  try dsimp only
  repeat' with_reducible first | assumption | apply State.puCtrlWrite_keeps | refine Keeps.ite ?_ ?_ | split

theorem puEnable_keeps {z : State} (t seat : Nat) (v : Word) (s : State) (hk : Keeps z s) :
    Keeps z (puEnable t seat v s) := by
  unfold puEnable
  try dsimp only
  repeat' with_reducible first | assumption | apply State.puCtrlWrite_keeps | refine Keeps.ite ?_ ?_ | split

theorem puDisabled_keeps {z : State} (t seat : Nat) (s : State) (hk : Keeps z s) :
    Keeps z (puDisabled t seat s) := by
  unfold puDisabled
  try dsimp only
  repeat' with_reducible first | assumption | apply State.setFlag_keeps | refine Keeps.ite ?_ ?_ | split

theorem puHoldTimeout_keeps {z : State} (t id : Nat) (s : State) (hk : Keeps z s) :
    Keeps z (puHoldTimeout t id s) := by
  unfold puHoldTimeout
  try dsimp only
  repeat' with_reducible first | assumption | apply State.freeFences_keeps | apply State.heldFault_keeps | refine Keeps.ite ?_ ?_ | simp only [Keeps.upd] | simp only [id] | split

theorem State.puEditAct_keeps {z : State} (s : State) (agent t : Nat) (v : Word) (hk : Keeps z s) :
    Keeps z (State.puEditAct s agent t v) := by
  unfold State.puEditAct
  try dsimp only
  repeat' with_reducible first | assumption | apply State.setLv_keeps | (refine State.each_keeps _ _ _ ?_ fun t a ht => ?_) | apply State.setConf_keeps | apply State.setFld_keeps | refine Keeps.ite ?_ ?_ | split

theorem puEdit_keeps {z : State} (agent t : Nat) (v : Word) (s : State) (hk : Keeps z s) :
    Keeps z (puEdit agent t v s) := by
  unfold puEdit
  try dsimp only
  repeat' with_reducible first | assumption | apply State.puEditAct_keeps | refine Keeps.ite ?_ ?_ | split

theorem puEditDone_keeps {z : State} (agent t : Nat) (s : State) (hk : Keeps z s) :
    Keeps z (puEditDone agent t s) := by
  unfold puEditDone
  try dsimp only
  repeat' with_reducible first | assumption | apply State.setFlag_keeps | refine Keeps.ite ?_ ?_ | split

theorem puViolationIntervalEnd_keeps {z : State} (t seat : Nat) (s : State) (hk : Keeps z s) :
    Keeps z (puViolationIntervalEnd t seat s) := by
  unfold puViolationIntervalEnd
  try dsimp only
  repeat' with_reducible first | assumption | apply State.setViol_keeps | apply State.puReport_keeps | refine Keeps.ite ?_ ?_ | split

end Sys2Proof.Machine
end

