-- ==== Sys2Proof/Laws/KeepsPortOps.lean ====
section
/-! SUPPORT. Every operation of Machine/PortOps.lean keeps what `Keeps` says. -/

set_option linter.unusedTactic false
set_option linter.unreachableTactic false

namespace Sys2Proof.Machine

theorem State.modSlot_keeps {z : State} (s : State) (port : Nat) (f : SlotSt → SlotSt) (hk : Keeps z s) :
    Keeps z (State.modSlot s port f) := by
  unfold State.modSlot
  try dsimp only
  repeat' with_reducible first | assumption | refine Keeps.ite ?_ ?_ | simp only [Keeps.upd] | split

theorem State.setHops_keeps {z : State} (s : State) (t port : Nat) (live : Bool) (hk : Keeps z s) :
    Keeps z (State.setHops s t port live) := by
  unfold State.setHops
  try dsimp only
  repeat' with_reducible first | assumption | (refine State.each_keeps _ _ _ ?_ fun t a ht => ?_) | apply State.sticky_keeps | apply State.setFlag_keeps | refine Keeps.ite ?_ ?_ | split

theorem routeHopRestore_keeps {z : State} (t port : Nat) (s : State) (hk : Keeps z s) :
    Keeps z (routeHopRestore t port s) := by
  unfold routeHopRestore
  try dsimp only
  repeat' with_reducible first | assumption | apply State.setHops_keeps | refine Keeps.ite ?_ ?_ | split

theorem State.dllsc_keeps {z : State} (s : State) (port : Nat) (hk : Keeps z s) :
    Keeps z (State.dllsc s port) := by
  unfold State.dllsc
  try dsimp only
  repeat' with_reducible first | assumption | (refine State.each_keeps _ _ _ ?_ fun t a ht => ?_) | apply State.modVport_keeps | refine Keeps.ite ?_ ?_ | split

theorem State.ownerAer_keeps {z : State} (s : State) (port : Nat) (k : AerKind) (hk : Keeps z s) :
    Keeps z (State.ownerAer s port k) := by
  unfold State.ownerAer
  try dsimp only
  repeat' with_reducible first | assumption | apply State.logAer_keeps | refine Keeps.ite ?_ ?_ | split

theorem State.endSent_keeps {z : State} (s : State) (p : Packet) (port : Nat) (c : EndCause) (hk : Keeps z s) :
    Keeps z (State.endSent s p port c) := by
  unfold State.endSent
  try dsimp only
  repeat' with_reducible first | assumption | apply State.countDrop_keeps | apply State.countLost_keeps | apply State.endEng_keeps | refine Keeps.ite ?_ ?_ | split

theorem State.modLane_keeps {z : State} (s : State) (l : Nat) (f : LaneSt → LaneSt) (hk : Keeps z s) :
    Keeps z (State.modLane s l f) := by
  unfold State.modLane
  try dsimp only
  repeat' with_reducible first | assumption | refine Keeps.ite ?_ ?_ | simp only [Keeps.upd] | split

theorem State.setEi_keeps {z : State} (s : State) (ls : List Nat) (hk : Keeps z s) :
    Keeps z (State.setEi s ls) := by
  unfold State.setEi
  try dsimp only
  repeat' with_reducible first | assumption | (refine State.each_keeps _ _ _ ?_ fun t a ht => ?_) | apply State.setFlag_keeps | refine Keeps.ite ?_ ?_ | split

theorem State.relink_keeps {z : State} (s : State) (port w : Nat) (good : Nat → Bool) (hk : Keeps z s) :
    Keeps z (State.relink s port w good) := by
  unfold State.relink
  try dsimp only
  repeat' with_reducible first | assumption | (refine State.each_keeps _ _ _ ?_ fun t a ht => ?_) | apply State.modLane_keeps | apply State.setFlag_keeps | apply State.setFld_keeps | refine Keeps.ite ?_ ?_ | split

theorem State.lanesDown_keeps {z : State} (s : State) (port : Nat) (hk : Keeps z s) :
    Keeps z (State.lanesDown s port) := by
  unfold State.lanesDown
  try dsimp only
  repeat' with_reducible first | assumption | (refine State.each_keeps _ _ _ ?_ fun t a ht => ?_) | apply State.setFlag_keeps | apply State.setFld_keeps | refine Keeps.ite ?_ ?_ | split

theorem State.setPins_keeps' {z : State} (s : State) (p pin : Nat) (l : List Nat) (hk : Keeps z s) :
    Keeps z (State.setPins s p pin l).1 := by
  unfold State.setPins
  try dsimp only
  repeat' with_reducible first | assumption | refine Keeps.ite ?_ ?_ | refine Keeps.ite_fst ?_ ?_ | simp only [Keeps.upd] | split | dsimp only

theorem State.setPins_keeps {z s' : State} (s : State) (p pin : Nat) (l : List Nat) {x' : Bool} (hk : Keeps z s)
    (he' : State.setPins s p pin l = (s', x')) : Keeps z s' := by
  have q := State.setPins_keeps' s p pin l hk
  rwa [he'] at q

theorem State.pinsDown_keeps {z : State} (s : State) (port : Nat) (hk : Keeps z s) :
    Keeps z (State.pinsDown s port) := by
  unfold State.pinsDown
  try dsimp only
  repeat' with_reducible first | assumption | (refine State.each_keeps _ _ _ ?_ fun t a ht => ?_) | refine State.setPins_keeps ?_ (by assumption) | apply State.setPins_keeps' | apply State.form_keeps | refine Keeps.ite ?_ ?_ | split

theorem State.clearStatus_keeps {z : State} (s : State) (port : Nat) (hk : Keeps z s) :
    Keeps z (State.clearStatus s port) := by
  unfold State.clearStatus
  try dsimp only
  repeat' with_reducible first | assumption | apply State.sticky_keeps | apply State.setFld_keeps | refine Keeps.ite ?_ ?_ | split

theorem State.pcieDown_keeps {z : State} (s : State) (port : Nat) (c : EndCause) (hk : Keeps z s) :
    Keeps z (State.pcieDown s port c) := by
  unfold State.pcieDown
  try dsimp only
  repeat' with_reducible first | assumption | apply State.count_keeps | apply State.clearStatus_keeps | apply State.releasePort_keeps | apply State.endToPort_keeps | apply State.pinsDown_keeps | apply State.lanesDown_keeps | apply State.modPort_keeps | apply State.modSlot_keeps | apply State.dllsc_keeps | apply State.ownerAer_keeps | refine Keeps.ite ?_ ?_ | split

theorem State.vflDown_keeps {z : State} (s : State) (port : Nat) (c : EndCause) (hk : Keeps z s) :
    Keeps z (State.vflDown s port c) := by
  unfold State.vflDown
  try dsimp only
  repeat' with_reducible first | assumption | apply State.count_keeps | apply State.clearStatus_keeps | apply State.endToPort_keeps | (refine State.each_keeps _ _ _ ?_ fun t a ht => ?_) | apply State.endSent_keeps | apply State.releasePort_keeps | apply State.lanesDown_keeps | apply State.modPort_keeps | apply State.modLink_keeps | apply State.setFld_keeps | apply State.sticky_keeps | apply State.setFlag_keeps | apply State.setHops_keeps | refine Keeps.ite ?_ ?_ | simp only [id] | split

theorem State.linkDown_keeps {z : State} (s : State) (port : Nat) (c : EndCause) (hk : Keeps z s) :
    Keeps z (State.linkDown s port c) := by
  unfold State.linkDown
  try dsimp only
  repeat' with_reducible first | assumption | apply State.vflDown_keeps | apply State.pcieDown_keeps | refine Keeps.ite ?_ ?_ | split

end Sys2Proof.Machine
end

