-- ==== Sys2Proof/Laws/KeepsBlackout.lean ====
section
/-! SUPPORT. Every operation of Machine/Blackout.lean keeps what `Keeps` says. -/

set_option linter.unusedTactic false
set_option linter.unreachableTactic false

namespace Sys2Proof.Machine

theorem State.endResident_keeps {z : State} (s : State) (t : Nat) (pick : Packet → Bool) (c : EndCause) (hk : Keeps z s) :
    Keeps z (State.endResident s t pick c) := by
  unfold State.endResident
  try dsimp only
  repeat' with_reducible first | assumption | (refine State.each_keeps _ _ _ ?_ fun t a ht => ?_) | apply State.endPacket_keeps | refine Keeps.ite ?_ ?_ | simp only [id] | split

theorem State.endWork_keeps {z : State} (s : State) (t seat code : Nat) (started : Bool) (hk : Keeps z s) :
    Keeps z (State.endWork s t seat code started) := by
  unfold State.endWork
  try dsimp only
  repeat' with_reducible first | assumption | (refine State.each_keeps _ _ _ ?_ fun t a ht => ?_) | apply State.finishWr_keeps | refine Keeps.ite ?_ ?_ | simp only [id] | split

theorem State.seatDark_keeps {z : State} (s : State) (t seat : Nat) (hk : Keeps z s) :
    Keeps z (State.seatDark s t seat) := by
  unfold State.seatDark
  try dsimp only
  repeat' with_reducible first | assumption | apply State.endResident_keeps | apply State.discardLines_keeps | apply State.releaseHeld_keeps | apply State.endWork_keeps | refine Keeps.ite ?_ ?_ | split

theorem State.partDark_keeps {z : State} (s : State) (t p : Nat) (hk : Keeps z s) :
    Keeps z (State.partDark s t p) := by
  unfold State.partDark
  try dsimp only
  repeat' with_reducible first | assumption | (refine State.each_keeps _ _ _ ?_ fun t a ht => ?_) | apply State.dropPointer_keeps | apply State.endResident_keeps | apply State.seatDark_keeps | refine Keeps.ite ?_ ?_ | simp only [id] | split

theorem State.portDark_keeps {z : State} (s : State) (t port : Nat) (hk : Keeps z s) :
    Keeps z (State.portDark s t port) := by
  unfold State.portDark
  try dsimp only
  repeat' with_reducible first | assumption | (refine State.each_keeps _ _ _ ?_ fun t a ht => ?_) | apply State.dropPointer_keeps | refine Keeps.ite ?_ ?_ | simp only [id] | split

theorem State.darkRecords_keeps {z : State} (s : State) (kind num : Nat) (enter : Bool) (cause acc tile : Nat) (hk : Keeps z s) :
    Keeps z (State.darkRecords s kind num enter cause acc tile) := by
  unfold State.darkRecords
  try dsimp only
  repeat' with_reducible first | assumption | (refine State.each_keeps _ _ _ ?_ fun t a ht => ?_) | apply State.event_keeps | refine Keeps.ite ?_ ?_ | split

theorem State.upstreamHold_keeps {z : State} (s : State) (port : Nat) (hk : Keeps z s) :
    Keeps z (State.upstreamHold s port) := by
  unfold State.upstreamHold
  try dsimp only
  repeat' with_reducible first | assumption | (refine State.each_keeps _ _ _ ?_ fun t a ht => ?_) | apply State.partDark_keeps | apply State.count_keeps | apply State.darkRecords_keeps | refine Keeps.ite ?_ ?_ | simp only [Keeps.upd] | split

theorem State.upstreamFree_keeps {z : State} (s : State) (port : Nat) (hk : Keeps z s) :
    Keeps z (State.upstreamFree s port) := by
  unfold State.upstreamFree
  try dsimp only
  repeat' with_reducible first | assumption | apply State.darkRecords_keeps | refine Keeps.ite ?_ ?_ | simp only [Keeps.upd] | split

theorem State.portDown_keeps {z : State} (s : State) (port : Nat) (c : EndCause) (hk : Keeps z s) :
    Keeps z (State.portDown s port c) := by
  unfold State.portDown
  try dsimp only
  repeat' with_reducible first | assumption | apply State.upstreamHold_keeps | apply State.linkDown_keeps | refine Keeps.ite ?_ ?_ | split

theorem State.showDpc_keeps {z : State} (s : State) (port reason ext : Nat) (hk : Keeps z s) :
    Keeps z (State.showDpc s port reason ext) := by
  unfold State.showDpc
  try dsimp only
  repeat' with_reducible first | assumption | apply State.modVport_keeps | refine Keeps.ite ?_ ?_ | simp only [Keeps.upd] | split

theorem State.portEnter_keeps {z : State} (s : State) (port reason ext : Nat) (hk : Keeps z s) :
    Keeps z (State.portEnter s port reason ext) := by
  unfold State.portEnter
  try dsimp only
  repeat' with_reducible first | assumption | apply State.portDown_keeps | apply State.count_keeps | apply State.showDpc_keeps | refine Keeps.ite ?_ ?_ | split

theorem State.setDpc_keeps {z : State} (s : State) (p d reason ext : Nat) (hk : Keeps z s) :
    Keeps z (State.setDpc s p d reason ext) := by
  unfold State.setDpc
  try dsimp only
  repeat' with_reducible first | assumption | apply State.modVport_keeps | refine Keeps.ite ?_ ?_ | split

theorem State.dpcPair_keeps {z : State} (s : State) (e : Bool) (p d : Nat) (hk : Keeps z s) :
    Keeps z (State.dpcPair s e p d) := by
  unfold State.dpcPair
  try dsimp only
  repeat' with_reducible first | assumption | (refine State.each_keeps _ _ _ ?_ fun t a ht => ?_) | apply State.dropPointer_keeps | apply State.releaseOut_keeps | refine Keeps.ite ?_ ?_ | simp only [id] | split

theorem dpcTrigger_keeps {z : State} (p d : Nat) (cause : DpcCause) (s : State) (hk : Keeps z s) :
    Keeps z (dpcTrigger p d cause s) := by
  unfold dpcTrigger
  try dsimp only
  repeat' with_reducible first | assumption | apply State.setDpc_keeps | apply State.portEnter_keeps | (refine State.each_keeps _ _ _ ?_ fun t a ht => ?_) | apply State.portDark_keeps | apply State.darkRecords_keeps | apply State.dpcPair_keeps | refine Keeps.ite ?_ ?_ | simp only [Keeps.upd] | split

theorem dpcTriggerStatusClear_keeps {z : State} (p d : Nat) (s : State) (hk : Keeps z s) :
    Keeps z (dpcTriggerStatusClear p d s) := by
  unfold dpcTriggerStatusClear
  try dsimp only
  repeat' with_reducible first | assumption | apply State.modVport_keeps | apply State.darkRecords_keeps | refine Keeps.ite ?_ ?_ | simp only [Keeps.upd] | split

theorem State.goDark_keeps {z : State} (s : State) (t kind num : Nat) (hk : Keeps z s) :
    Keeps z (State.goDark s t kind num) := by
  unfold State.goDark
  try dsimp only
  repeat' with_reducible first | assumption | apply State.portDark_keeps | apply State.portEnter_keeps | apply State.partDark_keeps | apply State.count_keeps | apply State.seatDark_keeps | refine Keeps.ite ?_ ?_ | split

theorem State.applyStop_keeps {z : State} (s : State) (t : Nat) (m : StopMsg) (hk : Keeps z s) :
    Keeps z (State.applyStop s t m) := by
  unfold State.applyStop
  try dsimp only
  repeat' with_reducible first | assumption | apply State.goDark_keeps | apply State.upstreamFree_keeps | refine Keeps.ite ?_ ?_ | simp only [Keeps.upd] | split

theorem State.stopHolds_keeps {z : State} (s : State) (m : StopMsg) (hk : Keeps z s) :
    Keeps z (State.stopHolds s m) := by
  unfold State.stopHolds
  try dsimp only
  repeat' with_reducible first | assumption | apply State.darkRecords_keeps | refine Keeps.ite ?_ ?_ | simp only [Keeps.upd] | simp only [id] | split

theorem State.stopAt_keeps {z : State} (s : State) (t : Nat) (m : StopMsg) (hk : Keeps z s) :
    Keeps z (State.stopAt s t m) := by
  unfold State.stopAt
  try dsimp only
  repeat' with_reducible first | assumption | apply State.applyStop_keeps | apply State.stopHolds_keeps | refine Keeps.ite ?_ ?_ | simp only [Keeps.upd] | simp only [id] | split

theorem State.issueStop_keeps' {z : State} (s : State) (acc kind num : Nat) (on : Bool) (hk : Keeps z s) :
    Keeps z (State.issueStop s acc kind num on).1 := by
  unfold State.issueStop
  try dsimp only
  repeat' with_reducible first | assumption | apply State.count_keeps | apply State.stopAt_keeps | refine Keeps.ite ?_ ?_ | refine Keeps.ite_fst ?_ ?_ | simp only [Keeps.upd] | simp only [id] | split | dsimp only

theorem State.issueStop_keeps {z s' : State} (s : State) (acc kind num : Nat) (on : Bool) {x' : Option ℕ} (hk : Keeps z s)
    (he' : State.issueStop s acc kind num on = (s', x')) : Keeps z s' := by
  have q := State.issueStop_keeps' s acc kind num on hk
  rwa [he'] at q

theorem stopPropagate_keeps {z : State} (t id : Nat) (s : State) (hk : Keeps z s) :
    Keeps z (stopPropagate t id s) := by
  unfold stopPropagate
  try dsimp only
  repeat' with_reducible first | assumption | apply State.stopAt_keeps | refine Keeps.ite ?_ ?_ | simp only [id] | split

end Sys2Proof.Machine
end

