-- ==== Sys2Proof/Laws/KeepsSeats.lean ====
section
/-! SUPPORT. Every operation of Machine/Seats.lean keeps what `Keeps` says. -/

set_option linter.unusedTactic false
set_option linter.unreachableTactic false

namespace Sys2Proof.Machine

theorem State.pageRefused_keeps {z : State} (s : State) (e : Bool) (p : Nat) (seat : Option Nat) (unseated : Bool) (hk : Keeps z s) :
    Keeps z (State.pageRefused s e p seat unseated) := by
  unfold State.pageRefused
  try dsimp only
  repeat' with_reducible first | assumption | apply State.count_keeps | refine Keeps.ite ?_ ?_ | split

theorem State.poisonedWrite_keeps {z : State} (s : State) (p : Nat) (hk : Keeps z s) :
    Keeps z (State.poisonedWrite s p) := by
  unfold State.poisonedWrite
  try dsimp only
  repeat' with_reducible first | assumption | apply State.logFabAer_keeps | apply State.count_keeps | refine Keeps.ite ?_ ?_ | split

theorem State.sendIntx_keeps {z : State} (s : State) (p : Nat) (assert : Bool) (hk : Keeps z s) :
    Keeps z (State.sendIntx s p assert) := by
  unfold State.sendIntx
  try dsimp only
  repeat' with_reducible first | assumption | apply State.form_keeps | apply State.modFab_keeps | refine Keeps.ite ?_ ?_ | split

theorem State.syncIntx_keeps {z : State} (s : State) (p : Nat) (hk : Keeps z s) :
    Keeps z (State.syncIntx s p) := by
  unfold State.syncIntx
  try dsimp only
  repeat' with_reducible first | assumption | apply State.sendIntx_keeps | refine Keeps.ite ?_ ?_ | split

theorem State.ringBell_keeps {z : State} (s : State) (t seat r idx : Nat) (hk : Keeps z s) :
    Keeps z (State.ringBell s t seat r idx) := by
  unfold State.ringBell
  try dsimp only
  repeat' with_reducible first | assumption | apply State.sticky_keeps | apply State.count_keeps | apply State.setFld_keeps | apply State.syncIntx_keeps | apply State.modRing_keeps | refine Keeps.ite ?_ ?_ | split

theorem State.doorbell_keeps {z : State} (s : State) (p : Nat) (who : Requester) (seat : Nat) (req : Req) (ring : Option Nat) (hk : Keeps z s) :
    Keeps z (State.doorbell s p who seat req ring) := by
  unfold State.doorbell
  try dsimp only
  repeat' with_reducible first | assumption | apply State.sticky_keeps | apply State.pageRefused_keeps | apply State.poisonedWrite_keeps | apply State.modRing_keeps | apply State.ringBell_keeps | refine Keeps.ite ?_ ?_ | split

theorem ringDoorbell_keeps {z : State} (p : Nat) (who : Requester) (seat k : Nat) (r : Req) (s : State) (hk : Keeps z s) :
    Keeps z (ringDoorbell p who seat k r s) := by
  unfold ringDoorbell
  try dsimp only
  repeat' with_reducible first | assumption | apply State.doorbell_keeps | refine Keeps.ite ?_ ?_ | split

theorem poolDoorbell_keeps {z : State} (p : Nat) (who : Requester) (seat : Nat) (r : Req) (s : State) (hk : Keeps z s) :
    Keeps z (poolDoorbell p who seat r s) := by
  unfold poolDoorbell
  try dsimp only
  repeat' with_reducible first | assumption | apply State.doorbell_keeps | refine Keeps.ite ?_ ?_ | split

theorem bar2Atomic_keeps {z : State} (p : Nat) (who : Requester) (seat : Nat) (r : Req) (s : State) (hk : Keeps z s) :
    Keeps z (bar2Atomic p who seat r s) := by
  unfold bar2Atomic
  try dsimp only
  repeat' with_reducible first | assumption | apply State.barReply_keeps | apply State.count_keeps | refine Keeps.ite ?_ ?_ | split

theorem State.mailbox_keeps {z : State} (s : State) (p : Nat) (who : Requester) (seat : Nat) (r : Req)
    (act : State → State) (hk : Keeps z s) (ha : ∀ t, Keeps z t → Keeps z (act t)) :
    Keeps z (s.mailbox p who seat r act) := by
  unfold State.mailbox
  try dsimp only
  repeat' with_reducible first | assumption | apply State.poisonedWrite_keeps | apply State.pageRefused_keeps | apply ha | refine Keeps.ite ?_ ?_

theorem mbxT2mWrite_keeps {z : State} (p : Nat) (who : Requester) (seat off : Nat) (r : Req) (s : State) (hk : Keeps z s) :
    Keeps z (mbxT2mWrite p who seat off r s) := by
  unfold mbxT2mWrite
  try dsimp only
  repeat' with_reducible first | assumption | refine State.mailbox_keeps _ _ _ _ _ _ ?_ fun t ht => ?_ | apply State.modSeat_keeps | refine Keeps.ite ?_ ?_ | split

theorem State.t2mPostAct_keeps {z : State} (s : State) (seat : Nat) (hk : Keeps z s) :
    Keeps z (State.t2mPostAct s seat) := by
  unfold State.t2mPostAct
  try dsimp only
  repeat' with_reducible first | assumption | apply State.modSeat_keeps | (refine State.each_keeps _ _ _ ?_ fun t a ht => ?_) | apply State.setLv_keeps | apply State.event_keeps | apply State.setFlag_keeps | refine Keeps.ite ?_ ?_ | split

theorem State.m2tAckAct_keeps {z : State} (s : State) (seat : Nat) (hk : Keeps z s) :
    Keeps z (State.m2tAckAct s seat) := by
  unfold State.m2tAckAct
  try dsimp only
  repeat' with_reducible first | assumption | apply State.event_keeps | apply State.setFlag_keeps | refine Keeps.ite ?_ ?_ | split

theorem State.mbxFlagsWrite_keeps {z : State} (s : State) (seat : Nat) (v : Word) (hk : Keeps z s) :
    Keeps z (State.mbxFlagsWrite s seat v) := by
  unfold State.mbxFlagsWrite
  try dsimp only
  repeat' with_reducible first | assumption | apply State.modSeat_keeps | apply State.t2mPostAct_keeps | apply State.m2tAckAct_keeps | refine Keeps.ite ?_ ?_ | split

theorem t2mPost_keeps {z : State} (p : Nat) (who : Requester) (seat : Nat) (r : Req) (s : State) (hk : Keeps z s) :
    Keeps z (t2mPost p who seat r s) := by
  unfold t2mPost
  try dsimp only
  repeat' with_reducible first | assumption | refine State.mailbox_keeps _ _ _ _ _ _ ?_ fun t ht => ?_ | apply State.t2mPostAct_keeps | refine Keeps.ite ?_ ?_ | split

theorem m2tAck_keeps {z : State} (p : Nat) (who : Requester) (seat : Nat) (r : Req) (s : State) (hk : Keeps z s) :
    Keeps z (m2tAck p who seat r s) := by
  unfold m2tAck
  try dsimp only
  repeat' with_reducible first | assumption | refine State.mailbox_keeps _ _ _ _ _ _ ?_ fun t ht => ?_ | apply State.m2tAckAct_keeps | refine Keeps.ite ?_ ?_ | split

theorem State.mbxCtrlWrite_keeps {z : State} (s : State) (seat : Nat) (v : Word) (hk : Keeps z s) :
    Keeps z (State.mbxCtrlWrite s seat v) := by
  unfold State.mbxCtrlWrite
  try dsimp only
  repeat' with_reducible first | assumption | apply State.plainWrite_keeps | apply State.event_keeps | apply State.setFlag_keeps | apply State.sticky_keeps | apply State.modSeat_keeps | refine Keeps.ite ?_ ?_ | split

theorem State.mbxWrite_keeps {z : State} (s : State) (seat w : Nat) (v : Word) (hk : Keeps z s) :
    Keeps z (State.mbxWrite s seat w v) := by
  unfold State.mbxWrite
  try dsimp only
  repeat' with_reducible first | assumption | apply State.sticky_keeps | apply State.setLv_keeps | refine Keeps.ite ?_ ?_ | split

theorem t2mAck_keeps {z : State} (via : Via) (seat : Nat) (v : Word) (s : State) (hk : Keeps z s) :
    Keeps z (t2mAck via seat v s) := by
  unfold t2mAck
  try dsimp only
  repeat' with_reducible first | assumption | apply State.mbxCtrlWrite_keeps | refine Keeps.ite ?_ ?_ | split

theorem m2tPost_keeps {z : State} (via : Via) (seat : Nat) (v : Word) (s : State) (hk : Keeps z s) :
    Keeps z (m2tPost via seat v s) := by
  unfold m2tPost
  try dsimp only
  repeat' with_reducible first | assumption | apply State.mbxCtrlWrite_keeps | refine Keeps.ite ?_ ?_ | split

theorem mbxM2tWrite_keeps {z : State} (via : Via) (seat off : Nat) (v : Word) (s : State) (hk : Keeps z s) :
    Keeps z (mbxM2tWrite via seat off v s) := by
  unfold mbxM2tWrite
  try dsimp only
  repeat' with_reducible first | assumption | apply State.mbxWrite_keeps | refine Keeps.ite ?_ ?_ | split

theorem State.clearMbx_keeps {z : State} (s : State) (seat : Nat) (hk : Keeps z s) :
    Keeps z (State.clearMbx s seat) := by
  unfold State.clearMbx
  try dsimp only
  repeat' with_reducible first | assumption | (refine State.each_keeps _ _ _ ?_ fun t a ht => ?_) | apply State.setLv_keeps | apply State.modSeat_keeps | apply State.setFld_keeps | refine Keeps.ite ?_ ?_ | split

theorem State.endQps_keeps {z : State} (s : State) (seat : Nat) (hk : Keeps z s) :
    Keeps z (State.endQps s seat) := by
  unfold State.endQps
  try dsimp only
  repeat' with_reducible first | assumption | (refine State.each_keeps _ _ _ ?_ fun t a ht => ?_) | apply State.modQp_keeps | apply State.squashHeld_keeps | refine Keeps.ite ?_ ?_ | split

theorem State.scanWindows_keeps {z : State} (s : State) (t seat : Nat) (hk : Keeps z s) :
    Keeps z (State.scanWindows s t seat) := by
  unfold State.scanWindows
  try dsimp only
  repeat' with_reducible first | assumption | (refine State.each_keeps _ _ _ ?_ fun t a ht => ?_) | apply State.revokeWin_keeps | refine Keeps.ite ?_ ?_ | split

theorem State.squashStarted_keeps {z : State} (s : State) (seat : Nat) (hk : Keeps z s) :
    Keeps z (State.squashStarted s seat) := by
  unfold State.squashStarted
  try dsimp only
  repeat' with_reducible first | assumption | (refine State.each_keeps _ _ _ ?_ fun t a ht => ?_) | apply State.endWork_keeps | refine Keeps.ite ?_ ?_ | split

theorem State.seatStart_keeps {z : State} (s : State) (e : Bool) (seat : Nat) (closing squash : Bool) (hk : Keeps z s) :
    Keeps z (State.seatStart s e seat closing squash) := by
  unfold State.seatStart
  try dsimp only
  repeat' with_reducible first | assumption | apply State.modSeat_keeps | (refine State.each_keeps _ _ _ ?_ fun t a ht => ?_) | apply State.discardLines_keeps | apply State.flushLines_keeps | apply State.endWork_keeps | apply State.releaseHeld_keeps | apply State.endQps_keeps | apply State.squashStarted_keeps | apply State.scanWindows_keeps | refine Keeps.ite ?_ ?_ | split

theorem State.seatSquash_keeps {z : State} (s : State) (seat : Nat) (hk : Keeps z s) :
    Keeps z (State.seatSquash s seat) := by
  unfold State.seatSquash
  try dsimp only
  repeat' with_reducible first | assumption | apply State.modSeat_keeps | (refine State.each_keeps _ _ _ ?_ fun t a ht => ?_) | apply State.discardLines_keeps | apply State.squashStarted_keeps | refine Keeps.ite ?_ ?_ | split

theorem State.seatCommand_keeps {z : State} (s : State) (seat : Nat) (remove squash : Bool) (hk : Keeps z s) :
    Keeps z (State.seatCommand s seat remove squash) := by
  unfold State.seatCommand
  try dsimp only
  repeat' with_reducible first | assumption | apply State.seatStart_keeps | apply State.modSeat_keeps | apply State.seatSquash_keeps | refine Keeps.ite ?_ ?_ | split

theorem State.stCtrlWrite_keeps {z : State} (s : State) (via : Via) (t seat : Nat) (v : Word) (hk : Keeps z s) :
    Keeps z (State.stCtrlWrite s via t seat v) := by
  unfold State.stCtrlWrite
  try dsimp only
  repeat' with_reducible first | assumption | apply State.plainWrite_keeps | refine State.issueStop_keeps ?_ (by assumption) | apply State.issueStop_keeps' | apply State.seatCommand_keeps | apply State.seatSquash_keeps | refine Keeps.ite ?_ ?_ | split

theorem seatReset_keeps {z : State} (via : Via) (t seat : Nat) (v : Word) (s : State) (hk : Keeps z s) :
    Keeps z (seatReset via t seat v s) := by
  unfold seatReset
  try dsimp only
  repeat' with_reducible first | assumption | apply State.stCtrlWrite_keeps | refine Keeps.ite ?_ ?_ | split

theorem seatRemove_keeps {z : State} (via : Via) (t seat : Nat) (v : Word) (s : State) (hk : Keeps z s) :
    Keeps z (seatRemove via t seat v s) := by
  unfold seatRemove
  try dsimp only
  repeat' with_reducible first | assumption | apply State.stCtrlWrite_keeps | refine Keeps.ite ?_ ?_ | split

theorem seatEscalate_keeps {z : State} (via : Via) (t seat : Nat) (v : Word) (s : State) (hk : Keeps z s) :
    Keeps z (seatEscalate via t seat v s) := by
  unfold seatEscalate
  try dsimp only
  repeat' with_reducible first | assumption | apply State.stCtrlWrite_keeps | refine Keeps.ite ?_ ?_ | split

theorem seatStop_keeps {z : State} (via : Via) (t seat : Nat) (v : Word) (s : State) (hk : Keeps z s) :
    Keeps z (seatStop via t seat v s) := by
  unfold seatStop
  try dsimp only
  repeat' with_reducible first | assumption | apply State.stCtrlWrite_keeps | refine Keeps.ite ?_ ?_ | split

theorem drainTimeout_keeps {z : State} (seat : Nat) (s : State) (hk : Keeps z s) :
    Keeps z (drainTimeout seat s) := by
  unfold drainTimeout
  try dsimp only
  repeat' with_reducible first | assumption | apply State.seatSquash_keeps | (refine State.each_keeps _ _ _ ?_ fun t a ht => ?_) | apply State.sticky_keeps | refine Keeps.ite ?_ ?_ | split

theorem State.resetRing_keeps {z : State} (s : State) (r : Nat) (hk : Keeps z s) :
    Keeps z (State.resetRing s r) := by
  unfold State.resetRing
  try dsimp only
  repeat' with_reducible first | assumption | apply State.modRing_keeps | apply State.setLv_keeps | refine Keeps.ite ?_ ?_ | split

theorem seatResetDone_keeps {z : State} (seat : Nat) (s : State) (hk : Keeps z s) :
    Keeps z (seatResetDone seat s) := by
  unfold seatResetDone
  try dsimp only
  repeat' with_reducible first | assumption | (refine State.each_keeps _ _ _ ?_ fun t a ht => ?_) | apply State.resetRing_keeps | apply State.clearMbx_keeps | apply State.modSeat_keeps | apply State.sticky_keeps | apply State.event_keeps | refine Keeps.ite ?_ ?_ | split

theorem poolRingHandover_keeps {z : State} (r : Nat) (s : State) (hk : Keeps z s) :
    Keeps z (poolRingHandover r s) := by
  unfold poolRingHandover
  try dsimp only
  repeat' with_reducible first | assumption | apply State.modRing_keeps | apply State.setLv_keeps | apply State.ringBell_keeps | refine Keeps.ite ?_ ?_ | split

end Sys2Proof.Machine
end

