-- ==== Sys2Proof/Laws/KeepsContainment.lean ====
section
/-! SUPPORT. Every operation of Machine/Containment.lean keeps what `Keeps` says. -/

set_option linter.unusedTactic false
set_option linter.unreachableTactic false

namespace Sys2Proof.Machine

theorem State.expireOut_keeps {z : State} (s : State) (o : OutEntry) (hk : Keeps z s) :
    Keeps z (State.expireOut s o) := by
  unfold State.expireOut
  try dsimp only
  repeat' with_reducible first | assumption | apply State.count_keeps | apply State.shown_keeps | apply State.reply_keeps | apply State.dmaEnd_keeps | apply State.issued_keeps | apply State.ringFail_keeps | refine Keeps.ite ?_ ?_ | simp only [Keeps.upd] | simp only [id] | split

theorem completionTimeout_keeps {z : State} (t id : Nat) (s : State) (hk : Keeps z s) :
    Keeps z (completionTimeout t id s) := by
  unfold completionTimeout
  try dsimp only
  repeat' with_reducible first | assumption | apply State.expireOut_keeps | refine Keeps.ite ?_ ?_ | simp only [id] | split

theorem State.seeXg_keeps {z : State} (s : State) (t x st : Nat) (hk : Keeps z s) :
    Keeps z (State.seeXg s t x st) := by
  unfold State.seeXg
  try dsimp only
  repeat' with_reducible first | assumption | apply State.setFlag_keeps | refine Keeps.ite ?_ ?_ | split

theorem State.xgRecord_keeps {z : State} (s : State) (x st : Nat) (hk : Keeps z s) :
    Keeps z (State.xgRecord s x st) := by
  unfold State.xgRecord
  try dsimp only
  repeat' with_reducible first | assumption | apply State.count_keeps | apply State.eventMgr_keeps | refine Keeps.ite ?_ ?_ | split

theorem State.crossingDown_keeps {z : State} (s : State) (x : Nat) (hk : Keeps z s) :
    Keeps z (State.crossingDown s x) := by
  unfold State.crossingDown
  try dsimp only
  repeat' with_reducible first | assumption | (refine State.each_keeps _ _ _ ?_ fun t a ht => ?_) | apply State.sticky_keeps | apply State.setFld_keeps | apply State.setFlag_keeps | apply State.seeXg_keeps | apply State.modLink_keeps | apply State.endPacket_keeps | apply State.xgRecord_keeps | apply State.modCore_keeps | refine Keeps.ite ?_ ?_ | split

theorem crossingBulkLoss_keeps {z : State} (x : Nat) (s : State) (hk : Keeps z s) :
    Keeps z (crossingBulkLoss x s) := by
  unfold crossingBulkLoss
  try dsimp only
  repeat' with_reducible first | assumption | apply State.crossingDown_keeps | refine Keeps.ite ?_ ?_ | split

theorem State.tileRecords_keeps {z : State} (s : State) (t : Nat) (lost : Bool) (hk : Keeps z s) :
    Keeps z (State.tileRecords s t lost) := by
  unfold State.tileRecords
  try dsimp only
  repeat' with_reducible first | assumption | (refine State.each_keeps _ _ _ ?_ fun t a ht => ?_) | apply State.event_keeps | refine Keeps.ite ?_ ?_ | split

theorem State.forgetUnits_keeps {z : State} (s : State) (t : Nat) (hk : Keeps z s) :
    Keeps z (State.forgetUnits s t) := by
  unfold State.forgetUnits
  try dsimp only
  repeat' with_reducible first | assumption | refine Keeps.ite ?_ ?_ | simp only [Keeps.upd] | split

theorem State.stopTile_keeps {z : State} (s : State) (t : Nat) (hk : Keeps z s) :
    Keeps z (State.stopTile s t) := by
  unfold State.stopTile
  try dsimp only
  repeat' with_reducible first | assumption | refine Keeps.ite ?_ ?_ | simp only [Keeps.upd] | simp only [id] | split

theorem State.endLost_keeps {z : State} (s : State) (t : Nat) (o : OutEntry) (hk : Keeps z s) :
    Keeps z (State.endLost s t o) := by
  unfold State.endLost
  try dsimp only
  repeat' with_reducible first | assumption | apply State.endRequest_keeps | refine Keeps.ite ?_ ?_ | simp only [Keeps.upd] | simp only [id] | split

theorem State.portsGone_keeps {z : State} (s : State) (ports : List Nat) (seen : Nat → Bool) (hk : Keeps z s) :
    Keeps z (State.portsGone s ports seen) := by
  unfold State.portsGone
  try dsimp only
  repeat' with_reducible first | assumption | (refine State.each_keeps _ _ _ ?_ fun t a ht => ?_) | apply State.modVport_keeps | apply State.ownerAer_keeps | refine Keeps.ite ?_ ?_ | simp only [id] | split

theorem State.hopsGone_keeps {z : State} (s : State) (u : Nat) (ports : List Nat) (hk : Keeps z s) :
    Keeps z (State.hopsGone s u ports) := by
  unfold State.hopsGone
  try dsimp only
  repeat' with_reducible first | assumption | (refine State.each_keeps _ _ _ ?_ fun t a ht => ?_) | apply State.setHops_keeps | refine Keeps.ite ?_ ?_ | simp only [id] | split

theorem State.endTileLost_keeps {z : State} (s : State) (ok : Packet → Bool) (hk : Keeps z s) :
    Keeps z (State.endTileLost s ok) := by
  unfold State.endTileLost
  try dsimp only
  repeat' with_reducible first | assumption | (refine State.each_keeps _ _ _ ?_ fun t a ht => ?_) | apply State.endPacket_keeps | refine Keeps.ite ?_ ?_ | simp only [id] | split

theorem State.loseOthers_keeps {z : State} (s : State) (t : Nat) (hk : Keeps z s) :
    Keeps z (State.loseOthers s t) := by
  unfold State.loseOthers
  try dsimp only
  repeat' with_reducible first | assumption | apply State.hopsGone_keeps | apply State.portsGone_keeps | (refine State.each_keeps _ _ _ ?_ fun t a ht => ?_) | apply State.partDark_keeps | apply State.count_keeps | apply State.endTileLost_keeps | apply State.setFlag_keeps | refine Keeps.ite ?_ ?_ | simp only [id] | split

theorem State.curtainWithout_keeps {z : State} (s : State) (hk : Keeps z s) :
    Keeps z (State.curtainWithout s) := by
  unfold State.curtainWithout
  try dsimp only
  repeat' with_reducible first | assumption | apply State.retireIfDrained_keeps | apply State.armedIfReady_keeps | apply State.commitIfReady_keeps | refine Keeps.ite ?_ ?_ | simp only [id] | split

theorem State.loseTileAs_keeps {z : State} (s : State) (t : Nat) (cut : Bool) (hk : Keeps z s) :
    Keeps z (State.loseTileAs s t cut) := by
  unfold State.loseTileAs
  try dsimp only
  repeat' with_reducible first | assumption | apply State.curtainWithout_keeps | apply State.tileRecords_keeps | (refine State.each_keeps _ _ _ ?_ fun t a ht => ?_) | apply State.collectorLost_keeps | apply State.crossingDown_keeps | apply State.setFlag_keeps | apply State.count_keeps | apply State.forgetUnits_keeps | apply State.loseOthers_keeps | apply State.stopTile_keeps | apply State.endTileLost_keeps | apply State.endLost_keeps | apply State.upstreamHold_keeps | apply State.portsGone_keeps | apply State.hopsGone_keeps | apply State.stopHolds_keeps | refine Keeps.ite ?_ ?_ | simp only [Keeps.upd] | simp only [id] | split

theorem State.loseTile_keeps {z : State} (s : State) (t : Nat) (hk : Keeps z s) :
    Keeps z (State.loseTile s t) := by
  unfold State.loseTile
  try dsimp only
  repeat' with_reducible first | assumption | apply State.loseTileAs_keeps | apply State.stopTile_keeps | refine Keeps.ite ?_ ?_ | simp only [id] | split

theorem tileLoss_keeps {z : State} (t : Nat) (s : State) (hk : Keeps z s) :
    Keeps z (tileLoss t s) := by
  unfold tileLoss
  try dsimp only
  repeat' with_reducible first | assumption | apply State.loseTile_keeps | refine Keeps.ite ?_ ?_ | simp only [id] | split

theorem crossingStateNotice_keeps {z : State} (t x st : Nat) (s : State) (hk : Keeps z s) :
    Keeps z (crossingStateNotice t x st s) := by
  unfold crossingStateNotice
  try dsimp only
  repeat' with_reducible first | assumption | apply State.seeXg_keeps | (refine State.each_keeps _ _ _ ?_ fun t a ht => ?_) | apply State.loseTileAs_keeps | refine Keeps.ite ?_ ?_ | simp only [id] | split

theorem tileRejoin_keeps {z : State} (t : Nat) (s : State) (hk : Keeps z s) :
    Keeps z (tileRejoin t s) := by
  unfold tileRejoin
  try dsimp only
  repeat' with_reducible first | assumption | apply State.setFld_keeps | apply State.stopTile_keeps | (refine State.each_keeps _ _ _ ?_ fun t a ht => ?_) | apply State.revokeEnd_keeps | apply State.modWin_keeps | apply State.modCore_keeps | apply State.modLink_keeps | apply State.seeXg_keeps | apply State.count_keeps | apply State.setFlag_keeps | apply State.tileRecords_keeps | apply State.sticky_keeps | refine Keeps.ite ?_ ?_ | simp only [Keeps.upd] | refine Keeps.filt ?_ | split

theorem State.svcLost_keeps {z : State} (s : State) (t : Nat) (hk : Keeps z s) :
    Keeps z (State.svcLost s t) := by
  unfold State.svcLost
  try dsimp only
  repeat' with_reducible first | assumption | apply State.setFlag_keeps | apply State.countHk_keeps | apply State.sticky_keeps | refine Keeps.ite ?_ ?_ | simp only [Keeps.upd] | split

theorem State.modPwr_keeps {z : State} (s : State) (f : PwrSt → PwrSt) (hk : Keeps z s) :
    Keeps z (State.modPwr s f) := by
  unfold State.modPwr
  try dsimp only
  repeat' with_reducible first | assumption | refine Keeps.ite ?_ ?_ | simp only [Keeps.upd] | split

theorem State.blowsLost_keeps {z : State} (s : State) (hk : Keeps z s) : Keeps z s.blowsLost := by
  unfold State.blowsLost
  refine State.modBoot_keeps _ _ (State.each_keeps _ _ _ hk fun t a ht => ?_) (fun _ q => q) (fun _ q => q) fun q => q
  exact State.modBoot_keeps _ _ (State.used_keeps _ ht) (fun i q => bit_or_keeps _ _ i q)
    (fun i q => bit_or_keeps _ _ i q) fun q => q

theorem State.stopsLost_keeps {z : State} (s : State) (hk : Keeps z s) :
    Keeps z (State.stopsLost s) := by
  unfold State.stopsLost
  try dsimp only
  repeat' with_reducible first | assumption | refine Keeps.ite ?_ ?_ | simp only [Keeps.upd] | split

theorem State.ilulysRestart_keeps {z : State} (s : State) (cause : Nat) (hk : Keeps z s) :
    Keeps z (State.ilulysRestart s cause) := by
  unfold State.ilulysRestart
  try dsimp only
  repeat' with_reducible first | assumption | apply State.stopsLost_keeps | apply State.blowsLost_keeps | (refine State.each_keeps _ _ _ ?_ fun t a ht => ?_) | apply State.svcLost_keeps | apply State.setFld_keeps | apply State.modPwr_keeps | refine Keeps.ite ?_ ?_ | simp only [Keeps.upd] | split

theorem serviceLinkLoss_keeps {z : State} (t : Nat) (s : State) (hk : Keeps z s) :
    Keeps z (serviceLinkLoss t s) := by
  unfold serviceLinkLoss
  try dsimp only
  repeat' with_reducible first | assumption | apply State.svcLost_keeps | refine Keeps.ite ?_ ?_ | split

theorem eccCorrectable_keeps {z : State} (t : Nat) (s : State) (hk : Keeps z s) :
    Keeps z (eccCorrectable t s) := by
  unfold eccCorrectable
  try dsimp only
  repeat' with_reducible first | assumption | apply State.count_keeps | refine Keeps.ite ?_ ?_ | split

theorem eccScrub_keeps {z : State} (_t : Nat) (s : State) (hk : Keeps z s) :
    Keeps z (eccScrub _t s) := by
  unfold eccScrub
  try dsimp only
  repeat' with_reducible first | assumption | refine Keeps.ite ?_ ?_ | split

theorem State.eccEffect_keeps {z : State} (s : State) (t : Nat) (x' : EccStore) (hk : Keeps z s) :
    Keeps z (State.eccEffect s t x') := by
  cases x' <;> (unfold State.eccEffect; try dsimp only) <;> repeat' with_reducible first | assumption | apply State.endPacket_keeps | apply State.modPkt_keeps | apply State.modWc_keeps | (refine State.each_keeps _ _ _ ?_ fun t a ht => ?_) | apply State.finishWr_keeps | apply State.expireOut_keeps | apply State.modQp_keeps | apply State.setCached_keeps | apply State.setConf_keeps | apply State.count_keeps | apply State.setFld_keeps | apply State.ilulysRestart_keeps | apply State.countHk_keeps | refine Keeps.ite ?_ ?_ | simp only [id] | split

theorem eccUncorrectable_keeps {z : State} (t : Nat) (st : EccStore) (s : State) (hk : Keeps z s) :
    Keeps z (eccUncorrectable t st s) := by
  unfold eccUncorrectable
  try dsimp only
  repeat' with_reducible first | assumption | apply State.count_keeps | apply State.eventMgr_keeps | apply State.used_keeps | apply State.eccEffect_keeps | refine Keeps.ite ?_ ?_ | split

theorem injCell_keeps {z : State} (t : Nat) (s : State) (hk : Keeps z s) :
    Keeps z (injCell t s) := by
  unfold injCell
  try dsimp only
  repeat' with_reducible first | assumption | refine Keeps.ite ?_ ?_ | simp only [Keeps.upd] | split

theorem injTable_keeps {z : State} (t : Nat) (s : State) (hk : Keeps z s) :
    Keeps z (injTable t s) := by
  unfold injTable
  try dsimp only
  repeat' with_reducible first | assumption | refine Keeps.ite ?_ ?_ | simp only [Keeps.upd] | split

theorem State.eccCtrlWrite_keeps {z : State} (s : State) (t : Nat) (v : Word) (hk : Keeps z s) :
    Keeps z (State.eccCtrlWrite s t v) := by
  unfold State.eccCtrlWrite
  try dsimp only
  repeat' with_reducible first | assumption | apply State.plainWrite_keeps | apply injCell_keeps | apply injTable_keeps | refine Keeps.ite ?_ ?_ | split

end Sys2Proof.Machine
end

