-- ==== Sys2Proof/Laws/KeepsVfl.lean ====
section
/-! SUPPORT. Every operation of Machine/Vfl.lean keeps what `Keeps` says. -/

set_option linter.unusedTactic false
set_option linter.unreachableTactic false

namespace Sys2Proof.Machine

theorem State.countLink_keeps {z : State} (s : State) (l : Link) (ev : TEv) (k : Nat := 1) (hk : Keeps z s) :
    Keeps z (State.countLink s l ev k) := by
  unfold State.countLink
  try dsimp only
  repeat' with_reducible first | assumption | apply State.countN_keeps | refine Keeps.ite ?_ ?_ | split

theorem State.setEsc_keeps {z : State} (s : State) (l : Link) (n r : Nat) (hk : Keeps z s) :
    Keeps z (State.setEsc s l n r) := by
  unfold State.setEsc
  try dsimp only
  repeat' with_reducible first | assumption | apply State.setFld_keeps | refine Keeps.ite ?_ ?_ | split

theorem State.sendItem_keeps {z : State} (s : State) (l : Link) (v : Nat) (p : Packet) (keep : Bool) (hk : Keeps z s) :
    Keeps z (State.sendItem s l v p keep) := by
  unfold State.sendItem
  try dsimp only
  repeat' with_reducible first | assumption | apply State.sendFull_keeps | apply State.modLink_keeps | refine Keeps.ite ?_ ?_ | split

theorem State.vflSend_keeps {z : State} (s : State) (port : Nat) (p : Packet) (hk : Keeps z s) :
    Keeps z (State.vflSend s port p) := by
  unfold State.vflSend
  try dsimp only
  repeat' with_reducible first | assumption | apply State.countLink_keeps | apply State.modLink_keeps | apply State.sendItem_keeps | refine Keeps.ite ?_ ?_ | split

theorem State.ackIn_keeps {z : State} (s : State) (l : Link) (a : Nat) (hk : Keeps z s) :
    Keeps z (State.ackIn s l a) := by
  unfold State.ackIn
  try dsimp only
  repeat' with_reducible first | assumption | apply State.sendFull_keeps | apply State.syncFull_keeps | apply State.resendTrim_keeps | apply State.setEsc_keeps | apply State.modLink_keeps | apply State.countLink_keeps | refine Keeps.ite ?_ ?_ | split

theorem State.creditIn_keeps {z : State} (s : State) (l : Link) (v c : Nat) (hk : Keeps z s) :
    Keeps z (State.creditIn s l v c) := by
  unfold State.creditIn
  try dsimp only
  repeat' with_reducible first | assumption | apply State.modLink_keeps | apply State.countLink_keeps | refine Keeps.ite ?_ ?_ | split

theorem State.itemDone_keeps {z : State} (s : State) (l : Link) (q : RxPart) (hk : Keeps z s) :
    Keeps z (State.itemDone s l q) := by
  unfold State.itemDone
  try dsimp only
  repeat' with_reducible first | assumption | apply State.modLink_keeps | apply State.countLink_keeps | refine Keeps.ite ?_ ?_ | split

theorem State.partStep_keeps {z : State} (s : State) (l : Link) (q : RxPart) (hk : Keeps z s) :
    Keeps z (State.partStep s l q) := by
  unfold State.partStep
  try dsimp only
  repeat' with_reducible first | assumption | apply State.itemDone_keeps | apply State.modLink_keeps | refine Keeps.ite ?_ ?_ | split

theorem State.chunkIn_keeps' {z : State} (s : State) (l : Link) (c : BitVec 64) (hk : Keeps z s) :
    Keeps z (State.chunkIn s l c).1 := by
  unfold State.chunkIn
  try dsimp only
  repeat' with_reducible first | assumption | apply State.partStep_keeps | refine Keeps.ite ?_ ?_ | refine Keeps.ite_fst ?_ ?_ | split | dsimp only

theorem State.chunkIn_keeps {z s' : State} (s : State) (l : Link) (c : BitVec 64) {x' : Bool} (hk : Keeps z s)
    (he' : State.chunkIn s l c = (s', x')) : Keeps z s' := by
  have q := State.chunkIn_keeps' s l c hk
  rwa [he'] at q

theorem State.chunksIn_keeps {z : State} (s : State) (l : Link) (x' : List (BitVec 64)) (hk : Keeps z s) :
    Keeps z (State.chunksIn s l x') := by
  induction x' generalizing s l with
  | nil => exact hk
  | cons y x' ih =>
    unfold State.chunksIn
    try dsimp only
    repeat' with_reducible first | assumption | apply ih | refine State.chunkIn_keeps ?_ (by assumption) | apply State.chunkIn_keeps' | refine Keeps.ite ?_ ?_ | split

theorem initSend_keeps {z : State} (port : Nat) (s : State) (hk : Keeps z s) :
    Keeps z (initSend port s) := by
  unfold initSend
  try dsimp only
  repeat' with_reducible first | assumption | apply State.modLink_keeps | apply State.setFld_keeps | apply State.emit_keeps | refine Keeps.ite ?_ ?_ | split

theorem State.toDetect_keeps {z : State} (s : State) (port : Nat) (hold : Bool) (hk : Keeps z s) :
    Keeps z (State.toDetect s port hold) := by
  unfold State.toDetect
  try dsimp only
  repeat' with_reducible first | assumption | apply State.lanesDown_keeps | apply State.modPort_keeps | apply State.modLink_keeps | apply State.setFld_keeps | refine Keeps.ite ?_ ?_ | split

theorem initReceive_keeps {z : State} (port proto vcCount : Nat) (rxSeen : Bool) (fid : Nat) (bufs : List Nat) (s : State) (hk : Keeps z s) :
    Keeps z (initReceive port proto vcCount rxSeen fid bufs s) := by
  unfold initReceive
  try dsimp only
  repeat' with_reducible first | assumption | apply State.toDetect_keeps | apply State.countLink_keeps | apply State.sticky_keeps | apply State.modLink_keeps | apply State.setFlag_keeps | apply State.setFld_keeps | apply State.setLv_keeps | refine Keeps.ite ?_ ?_ | split

theorem initTimeout_keeps {z : State} (port : Nat) (s : State) (hk : Keeps z s) :
    Keeps z (initTimeout port s) := by
  unfold initTimeout
  try dsimp only
  repeat' with_reducible first | assumption | apply State.toDetect_keeps | refine Keeps.ite ?_ ?_ | split

theorem initMismatchRetry_keeps {z : State} (port : Nat) (s : State) (hk : Keeps z s) :
    Keeps z (initMismatchRetry port s) := by
  unfold initMismatchRetry
  try dsimp only
  repeat' with_reducible first | assumption | apply State.modLink_keeps | refine Keeps.ite ?_ ?_ | split

theorem State.linkFail_keeps {z : State} (s : State) (x' : Link) (hk : Keeps z s) :
    Keeps z (State.linkFail s x') := by
  cases x' <;> (unfold State.linkFail; try dsimp only) <;> repeat' with_reducible first | assumption | apply State.portDown_keeps | apply State.crossingDown_keeps | refine Keeps.ite ?_ ?_ | split

theorem State.setStopped_keeps {z : State} (s : State) (l : Link) (b : Bool) (hk : Keeps z s) :
    Keeps z (State.setStopped s l b) := by
  unfold State.setStopped
  try dsimp only
  repeat' with_reducible first | assumption | apply State.modLink_keeps | apply State.setEi_keeps | apply State.setFlag_keeps | refine Keeps.ite ?_ ?_ | split

theorem State.otherRetrain_keeps {z : State} (s : State) (l : Link) (hk : Keeps z s) :
    Keeps z (State.otherRetrain s l) := by
  unfold State.otherRetrain
  try dsimp only
  repeat' with_reducible first | assumption | apply State.setEsc_keeps | apply State.modLink_keeps | apply State.setStopped_keeps | refine Keeps.ite ?_ ?_ | split

theorem State.mapWire_keeps {z : State} (s : State) (t g u wire : Nat) (hk : Keeps z s) :
    Keeps z (State.mapWire s t g u wire) := by
  unfold State.mapWire
  try dsimp only
  repeat' with_reducible first | assumption | apply State.setFld_keeps | apply State.modLink_keeps | refine Keeps.ite ?_ ?_ | split

theorem State.wireFails_keeps {z : State} (s : State) (t g wire : Nat) (hk : Keeps z s) :
    Keeps z (State.wireFails s t g wire) := by
  unfold State.wireFails
  try dsimp only
  repeat' with_reducible first | assumption | apply State.mapWire_keeps | apply State.otherRetrain_keeps | apply State.countLink_keeps | apply State.crossingDown_keeps | apply State.setFlag_keeps | apply State.xgRecord_keeps | apply State.seeXg_keeps | refine Keeps.ite ?_ ?_ | split

theorem wireFailure_keeps {z : State} (t g wire : Nat) (s : State) (hk : Keeps z s) :
    Keeps z (wireFailure t g wire s) := by
  unfold wireFailure
  try dsimp only
  repeat' with_reducible first | assumption | apply State.wireFails_keeps | refine Keeps.ite ?_ ?_ | split

theorem State.wireError_keeps {z : State} (s : State) (t g wire : Nat) (hk : Keeps z s) :
    Keeps z (State.wireError s t g wire) := by
  unfold State.wireError
  try dsimp only
  repeat' with_reducible first | assumption | apply State.modLink_keeps | apply State.wireFails_keeps | refine Keeps.ite ?_ ?_ | split

theorem State.wireTested_keeps {z : State} (s : State) (t g wire : Nat) (hk : Keeps z s) :
    Keeps z (State.wireTested s t g wire) := by
  unfold State.wireTested
  try dsimp only
  repeat' with_reducible first | assumption | apply State.mapWire_keeps | apply State.setFlag_keeps | refine Keeps.ite ?_ ?_ | split

theorem wireRepairDone_keeps {z : State} (t g : Nat) (s : State) (hk : Keeps z s) :
    Keeps z (wireRepairDone t g s) := by
  unfold wireRepairDone
  try dsimp only
  repeat' with_reducible first | assumption | (refine State.each_keeps _ _ _ ?_ fun t a ht => ?_) | apply State.resend_keeps | apply State.setStopped_keeps | refine Keeps.ite ?_ ?_ | split

theorem State.dataIn_keeps {z : State} (s : State) (l : Link) (seq : Nat) (cs : List (BitVec 64)) (hk : Keeps z s) :
    Keeps z (State.dataIn s l seq cs) := by
  unfold State.dataIn
  try dsimp only
  repeat' with_reducible first | assumption | apply State.modLink_keeps | apply State.chunksIn_keeps | apply State.countLink_keeps | refine Keeps.ite ?_ ?_ | split

theorem State.flitIn_keeps {z : State} (s : State) (l : Link) (f : Flit) (hk : Keeps z s) :
    Keeps z (State.flitIn s l f) := by
  unfold State.flitIn
  try dsimp only
  repeat' with_reducible first | assumption | apply State.ackIn_keeps | apply State.creditIn_keeps | (refine State.each_keeps _ _ _ ?_ fun t a ht => ?_) | apply State.dataIn_keeps | refine Keeps.ite ?_ ?_ | split

theorem State.initIn_keeps {z : State} (s : State) (port : Nat) (f : Flit) (hk : Keeps z s) :
    Keeps z (State.initIn s port f) := by
  unfold State.initIn
  try dsimp only
  repeat' with_reducible first | assumption | apply initReceive_keeps | refine Keeps.ite ?_ ?_ | split

theorem flitReceive_keeps {z : State} (l : Link) (f : Flit) (s : State) (hk : Keeps z s) :
    Keeps z (flitReceive l f s) := by
  unfold flitReceive
  try dsimp only
  repeat' with_reducible first | assumption | apply State.countLink_keeps | (refine State.each_keeps _ _ _ ?_ fun t a ht => ?_) | apply State.wireError_keeps | apply State.flitIn_keeps | apply State.initIn_keeps | refine Keeps.ite ?_ ?_ | split

theorem packetItemAccept_keeps {z : State} (l : Link) (s : State) (hk : Keeps z s) :
    Keeps z (packetItemAccept l s) := by
  unfold packetItemAccept
  try dsimp only
  repeat' with_reducible first | assumption | apply State.modLink_keeps | refine Keeps.ite ?_ ?_ | split

theorem State.sendAck_keeps {z : State} (s : State) (l : Link) (hk : Keeps z s) :
    Keeps z (State.sendAck s l) := by
  unfold State.sendAck
  try dsimp only
  repeat' with_reducible first | assumption | apply State.modLink_keeps | apply State.emit_keeps | refine Keeps.ite ?_ ?_ | split

theorem ackDue_keeps {z : State} (l : Link) (s : State) (hk : Keeps z s) :
    Keeps z (ackDue l s) := by
  unfold ackDue
  try dsimp only
  repeat' with_reducible first | assumption | apply State.sendFlits_keeps | apply State.sendAck_keeps | refine Keeps.ite ?_ ?_ | split

theorem replayTimeout_keeps {z : State} (l : Link) (s : State) (hk : Keeps z s) :
    Keeps z (replayTimeout l s) := by
  unfold replayTimeout
  try dsimp only
  repeat' with_reducible first | assumption | apply State.countLink_keeps | apply State.resend_keeps | apply State.setEsc_keeps | apply State.modLink_keeps | apply State.setStopped_keeps | apply State.linkFail_keeps | refine Keeps.ite ?_ ?_ | split

theorem State.portRetrained_keeps {z : State} (s : State) (p width : Nat) (hk : Keeps z s) :
    Keeps z (State.portRetrained s p width) := by
  unfold State.portRetrained
  try dsimp only
  repeat' with_reducible first | assumption | apply State.linkFail_keeps | apply State.resend_keeps | apply State.setStopped_keeps | apply State.relink_keeps | refine Keeps.ite ?_ ?_ | split

theorem linkRetrainDone_keeps {z : State} (l : Link) (ok : Bool) (width : Nat) (s : State) (hk : Keeps z s) :
    Keeps z (linkRetrainDone l ok width s) := by
  unfold linkRetrainDone
  try dsimp only
  repeat' with_reducible first | assumption | apply State.linkFail_keeps | apply State.portRetrained_keeps | apply State.resend_keeps | apply State.setStopped_keeps | refine Keeps.ite ?_ ?_ | split

theorem vflLinkDown_keeps {z : State} (port : Nat) (s : State) (hk : Keeps z s) :
    Keeps z (vflLinkDown port s) := by
  unfold vflLinkDown
  try dsimp only
  repeat' with_reducible first | assumption | apply State.portDown_keeps | refine Keeps.ite ?_ ?_ | split

theorem State.lkInject_keeps {z : State} (s : State) (port : Nat) (v : Word) (hk : Keeps z s) :
    Keeps z (State.lkInject s port v) := by
  unfold State.lkInject
  try dsimp only
  repeat' with_reducible first | assumption | apply State.modLink_keeps | refine Keeps.ite ?_ ?_ | split

theorem State.xgCtrlAct_keeps {z : State} (s : State) (t g : Nat) (v : Word) (hk : Keeps z s) :
    Keeps z (State.xgCtrlAct s t g v) := by
  unfold State.xgCtrlAct
  try dsimp only
  repeat' with_reducible first | assumption | apply State.plainWrite_keeps | apply State.wireFails_keeps | refine Keeps.ite ?_ ?_ | split

theorem State.xingSend_keeps {z : State} (s : State) (t g u : Nat) (p : Packet) (hk : Keeps z s) :
    Keeps z (State.xingSend s t g u p) := by
  unfold State.xingSend
  try dsimp only
  repeat' with_reducible first | assumption | apply State.sendAll_keeps | apply State.sendItem_keeps | apply State.modLink_keeps | refine Keeps.ite ?_ ?_ | split

end Sys2Proof.Machine
end

