-- ==== Sys2Proof/Laws/KeepsSwitch.lean ====
section
/-! SUPPORT. Every operation of Machine/Switch.lean keeps what `Keeps` says. -/

set_option linter.unusedTactic false
set_option linter.unreachableTactic false

namespace Sys2Proof.Machine

theorem State.choosePath_keeps' {z : State} (s : State) (t d : Nat) (hk : Keeps z s) :
    Keeps z (State.choosePath s t d).1 := by
  unfold State.choosePath
  try dsimp only
  repeat' with_reducible first | assumption | apply State.modCore_keeps | refine Keeps.ite ?_ ?_ | refine Keeps.ite_fst ?_ ?_ | split | dsimp only

theorem State.choosePath_keeps {z s' : State} (s : State) (t d : Nat) {x' : ℕ} (hk : Keeps z s)
    (he' : State.choosePath s t d = (s', x')) : Keeps z s' := by
  have q := State.choosePath_keeps' s t d hk
  rwa [he'] at q

theorem State.givePaths_keeps {z : State} (s : State) (t : Nat) (hk : Keeps z s) :
    Keeps z (State.givePaths s t) := by
  unfold State.givePaths
  try dsimp only
  repeat' with_reducible first | assumption | (refine State.each_keeps _ _ _ ?_ fun t a ht => ?_) | refine State.choosePath_keeps (hk := ?_) (he' := by assumption) | apply State.choosePath_keeps' | apply State.modPkt_keeps | refine Keeps.ite ?_ ?_ | simp only [id] | split

theorem State.matchSlot_keeps {z : State} (s : State) (t m k : Nat) (hk : Keeps z s) :
    Keeps z (State.matchSlot s t m k) := by
  unfold State.matchSlot
  try dsimp only
  repeat' with_reducible first | assumption | apply State.modCore_keeps | refine Keeps.ite ?_ ?_ | split

theorem State.toEnd_keeps {z : State} (s : State) (n : Nat) (hk : Keeps z s) :
    Keeps z (State.toEnd s n) := by
  unfold State.toEnd
  try dsimp only
  repeat' with_reducible first | assumption | refine Keeps.ite ?_ ?_ | simp only [Keeps.upd] | simp only [id] | split

theorem State.deliver_keeps {z : State} (s : State) (p : Packet) (hk : Keeps z s) :
    Keeps z (State.deliver s p) := by
  unfold State.deliver
  try dsimp only
  repeat' with_reducible first | assumption | apply State.retire_keeps | apply State.settle_keeps | apply eccUncorrectable_keeps | apply State.emit_keeps | apply State.count_keeps | refine Keeps.ite ?_ ?_ | simp only [id] | split

theorem State.dropDead_keeps {z : State} (s : State) (n d : Nat) (hk : Keeps z s) :
    Keeps z (State.dropDead s n d) := by
  unfold State.dropDead
  try dsimp only
  repeat' with_reducible first | assumption | (refine State.each_keeps _ _ _ ?_ fun t a ht => ?_) | apply State.dropPointer_keeps | refine Keeps.ite ?_ ?_ | split

theorem State.release_keeps {z : State} (s : State) (n d : Nat) (hk : Keeps z s) :
    Keeps z (State.release s n d) := by
  unfold State.release
  try dsimp only
  repeat' with_reducible first | assumption | apply State.deliver_keeps | apply State.endPacket_keeps | apply State.modCore_keeps | apply State.modPkt_keeps | apply State.dropDead_keeps | refine Keeps.ite ?_ ?_ | split

theorem State.passExpected_keeps {z : State} (s : State) (src d : Nat) (x' : Nat) (hk : Keeps z s) :
    Keeps z (State.passExpected s src d x') := by
  induction x' generalizing s src d with
  | zero => exact hk
  | succ x' ih =>
    unfold State.passExpected
    try dsimp only
    repeat' with_reducible first | assumption | apply ih | apply State.modCore_keeps | apply State.release_keeps | refine Keeps.ite ?_ ?_ | simp only [id] | split

theorem State.numberHere_keeps {z : State} (s : State) (src d n : Nat) (hk : Keeps z s) :
    Keeps z (State.numberHere s src d n) := by
  unfold State.numberHere
  try dsimp only
  repeat' with_reducible first | assumption | apply State.modCore_keeps | apply State.passExpected_keeps | refine Keeps.ite ?_ ?_ | split

theorem State.endFlight_keeps {z : State} (s : State) (src d n : Nat) (restore : Bool) (hk : Keeps z s) :
    Keeps z (State.endFlight s src d n restore) := by
  unfold State.endFlight
  try dsimp only
  repeat' with_reducible first | assumption | (refine State.each_keeps _ _ _ ?_ fun t a ht => ?_) | apply State.modCore_keeps | refine Keeps.ite ?_ ?_ | split

theorem State.arriveOne_keeps {z : State} (s : State) (p : Packet) (d n : Nat) (hk : Keeps z s) :
    Keeps z (State.arriveOne s p d n) := by
  unfold State.arriveOne
  try dsimp only
  repeat' with_reducible first | assumption | apply State.endFlight_keeps | apply State.release_keeps | apply State.numberHere_keeps | refine Keeps.ite ?_ ?_ | simp only [id] | split

theorem egressArrival_keeps {z : State} (t n : Nat) (s : State) (hk : Keeps z s) :
    Keeps z (egressArrival t n s) := by
  unfold egressArrival
  try dsimp only
  repeat' with_reducible first | assumption | apply State.toEnd_keeps | apply State.modPkt_keeps | (refine State.each_keeps _ _ _ ?_ fun t a ht => ?_) | apply State.arriveOne_keeps | refine Keeps.ite ?_ ?_ | split

theorem voidNotice_keeps {z : State} (t src d n : Nat) (s : State) (hk : Keeps z s) :
    Keeps z (voidNotice t src d n s) := by
  unfold voidNotice
  try dsimp only
  repeat' with_reducible first | assumption | apply State.numberHere_keeps | apply State.sticky_keeps | apply State.endFlight_keeps | refine Keeps.ite ?_ ?_ | split

theorem reorderGapTimeout_keeps {z : State} (t src d : Nat) (s : State) (hk : Keeps z s) :
    Keeps z (reorderGapTimeout t src d s) := by
  unfold reorderGapTimeout
  try dsimp only
  repeat' with_reducible first | assumption | apply State.count_keeps | apply State.sticky_keeps | apply State.endFlight_keeps | apply State.numberHere_keeps | refine Keeps.ite ?_ ?_ | split

theorem State.launch_keeps {z : State} (s : State) (p : Packet) (hk : Keeps z s) :
    Keeps z (State.launch s p) := by
  unfold State.launch
  try dsimp only
  repeat' with_reducible first | assumption | apply State.modCore_keeps | (refine State.each_keeps _ _ _ ?_ fun t a ht => ?_) | apply State.modPkt_keeps | refine Keeps.ite ?_ ?_ | simp only [id] | split

theorem State.startCross_keeps {z : State} (s : State) (p : Packet) (hk : Keeps z s) :
    Keeps z (State.startCross s p) := by
  unfold State.startCross
  try dsimp only
  repeat' with_reducible first | assumption | apply State.xingSend_keeps | refine Keeps.ite ?_ ?_ | split

theorem State.leavePool_keeps {z : State} (s : State) (p : Packet) (hk : Keeps z s) :
    Keeps z (State.leavePool s p) := by
  unfold State.leavePool
  try dsimp only
  repeat' with_reducible first | assumption | apply State.modCore_keeps | apply State.setFld_keeps | refine Keeps.ite ?_ ?_ | split

theorem State.undrain_keeps {z : State} (s : State) (u : Nat) (e : Bool) (hk : Keeps z s) :
    Keeps z (State.undrain s u e) := by
  unfold State.undrain
  try dsimp only
  repeat' with_reducible first | assumption | apply State.modCur_keeps | apply State.setFlag_keeps | refine Keeps.ite ?_ ?_ | split

theorem State.moveTo_keeps {z : State} (s : State) (p : Packet) (o u path : Nat) (hk : Keeps z s) :
    Keeps z (State.moveTo s p o u path) := by
  unfold State.moveTo
  try dsimp only
  repeat' with_reducible first | assumption | apply State.leavePool_keeps | apply State.modCore_keeps | apply State.undrain_keeps | apply State.toEnd_keeps | apply State.modPkt_keeps | refine Keeps.ite ?_ ?_ | simp only [id] | split

theorem State.crossedAll_keeps {z : State} (s : State) (n o : Nat) (hk : Keeps z s) :
    Keeps z (State.crossedAll s n o) := by
  unfold State.crossedAll
  try dsimp only
  repeat' with_reducible first | assumption | apply State.deliver_keeps | apply State.modPkt_keeps | (refine State.each_keeps _ _ _ ?_ fun t a ht => ?_) | apply State.release_keeps | apply State.moveTo_keeps | refine Keeps.ite ?_ ?_ | split

theorem State.cross_keeps {z : State} (s : State) (t o n : Nat) (last : Bool) (hk : Keeps z s) :
    Keeps z (State.cross s t o n last) := by
  unfold State.cross
  try dsimp only
  repeat' with_reducible first | assumption | apply State.modPkt_keeps | apply State.crossedAll_keeps | refine Keeps.ite ?_ ?_ | split

theorem State.slotOut_keeps {z : State} (s : State) (t : Nat) (locks : List CoreLock) (q : CoreSched) (o : Nat) (hk : Keeps z s) :
    Keeps z (State.slotOut s t locks q o) := by
  unfold State.slotOut
  try dsimp only
  repeat' with_reducible first | assumption | apply State.modCore_keeps | apply State.cross_keeps | apply State.bump_keeps | apply State.startCross_keeps | apply State.launch_keeps | refine Keeps.ite ?_ ?_ | simp only [id] | split

theorem State.endUnseen_keeps {z : State} (s : State) (t : Nat) (hk : Keeps z s) :
    Keeps z (State.endUnseen s t) := by
  unfold State.endUnseen
  try dsimp only
  repeat' with_reducible first | assumption | (refine State.each_keeps _ _ _ ?_ fun t a ht => ?_) | apply State.endPacket_keeps | refine Keeps.ite ?_ ?_ | simp only [id] | split

theorem cellSlot_keeps {z : State} (t : Nat) (s : State) (hk : Keeps z s) :
    Keeps z (cellSlot t s) := by
  unfold cellSlot
  try dsimp only
  repeat' with_reducible first | assumption | apply State.givePaths_keeps | apply State.endUnseen_keeps | apply State.matchSlot_keeps | apply State.modCore_keeps | (refine State.each_keeps _ _ _ ?_ fun t a ht => ?_) | apply State.slotOut_keeps | refine Keeps.ite ?_ ?_ | split

theorem State.admitPkt_keeps {z : State} (s : State) (p : Packet) (hk : Keeps z s) :
    Keeps z (State.admitPkt s p) := by
  unfold State.admitPkt
  try dsimp only
  repeat' with_reducible first | assumption | apply State.toEnd_keeps | apply State.modPkt_keeps | apply State.takeCells_keeps | apply State.lineAdmit_keeps | refine Keeps.ite ?_ ?_ | simp only [id] | split

theorem State.admitLines_keeps {z : State} (s : State) (t : Nat) (hk : Keeps z s) :
    Keeps z (State.admitLines s t) := by
  unfold State.admitLines
  try dsimp only
  repeat' with_reducible first | assumption | (refine State.each_keeps _ _ _ ?_ fun t a ht => ?_) | apply State.admitPkt_keeps | refine Keeps.ite ?_ ?_ | split

theorem admissionRetry_keeps {z : State} (t n : Nat) (s : State) (hk : Keeps z s) :
    Keeps z (admissionRetry t n s) := by
  unfold admissionRetry
  try dsimp only
  repeat' with_reducible first | assumption | apply State.resumePieces_keeps | apply State.admitPkt_keeps | refine Keeps.ite ?_ ?_ | split

theorem wcFlushAdmit_keeps {z : State} (t l : Nat) (s : State) (hk : Keeps z s) :
    Keeps z (wcFlushAdmit t l s) := by
  unfold wcFlushAdmit
  try dsimp only
  repeat' with_reducible first | assumption | apply State.resumePieces_keeps | apply State.admitLines_keeps | apply State.formDue_keeps | refine Keeps.ite ?_ ?_ | simp only [id] | split

theorem ticketReturn_keeps {z : State} (t u d n : Nat) (s : State) (hk : Keeps z s) :
    Keeps z (ticketReturn t u d n s) := by
  unfold ticketReturn
  try dsimp only
  repeat' with_reducible first | assumption | apply State.modCore_keeps | refine Keeps.ite ?_ ?_ | split

theorem sprayRecompute_keeps {z : State} (t : Nat) (s : State) (hk : Keeps z s) :
    Keeps z (sprayRecompute t s) := by
  unfold sprayRecompute
  try dsimp only
  repeat' with_reducible first | assumption | (refine State.each_keeps _ _ _ ?_ fun t a ht => ?_) | apply State.modCore_keeps | refine Keeps.ite ?_ ?_ | split

theorem State.coreCtrlAct_keeps {z : State} (s : State) (t : Nat) (v : Word) (hk : Keeps z s) :
    Keeps z (State.coreCtrlAct s t v) := by
  unfold State.coreCtrlAct
  try dsimp only
  repeat' with_reducible first | assumption | apply State.plainWrite_keeps | apply State.modCore_keeps | refine Keeps.ite ?_ ?_ | split

theorem State.ticketAct_keeps {z : State} (s : State) (agent t : Nat) (v : Word) (hk : Keeps z s) :
    Keeps z (State.ticketAct s agent t v) := by
  unfold State.ticketAct
  try dsimp only
  repeat' with_reducible first | assumption | apply State.setLv_keeps | refine Keeps.ite ?_ ?_ | split

theorem ticketQuery_keeps {z : State} (agent t : Nat) (v : Word) (s : State) (hk : Keeps z s) :
    Keeps z (ticketQuery agent t v s) := by
  unfold ticketQuery
  try dsimp only
  repeat' with_reducible first | assumption | apply State.ticketAct_keeps | refine Keeps.ite ?_ ?_ | split

theorem ticketQueryDone_keeps {z : State} (agent t : Nat) (s : State) (hk : Keeps z s) :
    Keeps z (ticketQueryDone agent t s) := by
  unfold ticketQueryDone
  try dsimp only
  repeat' with_reducible first | assumption | apply State.setFlag_keeps | apply State.setLv_keeps | refine Keeps.ite ?_ ?_ | split

end Sys2Proof.Machine
end

