-- ==== Sys2Proof/Laws/KeepsSched.lean ====
section
/-! SUPPORT. Every operation of Machine/Sched.lean keeps what `Keeps` says. -/

set_option linter.unusedTactic false
set_option linter.unreachableTactic false

namespace Sys2Proof.Machine

theorem State.addOut_keeps {z : State} (s : State) (port : Nat) (p : Packet) (rid tag : Nat) (hk : Keeps z s) :
    Keeps z (State.addOut s port p rid tag) := by
  unfold State.addOut
  try dsimp only
  repeat' with_reducible first | assumption | refine Keeps.ite ?_ ?_ | simp only [Keeps.upd] | refine Keeps.updId ?_ | simp only [id] | split

theorem State.toLink_keeps {z : State} (s : State) (port : Nat) (p : Packet) (hk : Keeps z s) :
    Keeps z (State.toLink s port p) := by
  unfold State.toLink
  try dsimp only
  repeat' with_reducible first | assumption | apply State.emit_keeps | apply State.vflSend_keeps | apply State.modPort_keeps | refine Keeps.ite ?_ ?_ | split

theorem State.transmit_keeps {z : State} (s : State) (port : Nat) (p : Packet) (hk : Keeps z s) :
    Keeps z (State.transmit s port p) := by
  unfold State.transmit
  try dsimp only
  repeat' with_reducible first | assumption | apply State.addOut_keeps | apply State.used_keeps | apply State.toLink_keeps | apply State.capture_keeps | apply State.modBo_keeps | apply State.modPkt_keeps | refine Keeps.ite ?_ ?_ | simp only [id] | split

theorem State.depart_keeps {z : State} (s : State) (port : Nat) (p : Packet) (hk : Keeps z s) :
    Keeps z (State.depart s port p) := by
  unfold State.depart
  try dsimp only
  repeat' with_reducible first | assumption | apply eccUncorrectable_keeps | apply State.modPkt_keeps | apply State.dropPointer_keeps | apply State.transmit_keeps | refine Keeps.ite ?_ ?_ | simp only [id] | split

theorem State.debitIf_keeps {z : State} (s : State) (w : Word) (k n : Nat) (hk : Keeps z s) :
    Keeps z (State.debitIf s w k n) := by
  unfold State.debitIf
  try dsimp only
  repeat' with_reducible first | assumption | apply State.debit_keeps | refine Keeps.ite ?_ ?_ | split

theorem State.chargeStart_keeps {z : State} (s : State) (port : Nat) (p : Packet) (hk : Keeps z s) :
    Keeps z (State.chargeStart s port p) := by
  unfold State.chargeStart
  try dsimp only
  repeat' with_reducible first | assumption | apply State.debitIf_keeps | refine Keeps.ite ?_ ?_ | split

theorem State.startPkt_keeps {z : State} (s : State) (port : Nat) (p : Packet) (hk : Keeps z s) :
    Keeps z (State.startPkt s port p) := by
  unfold State.startPkt
  try dsimp only
  repeat' with_reducible first | assumption | apply State.modPkt_keeps | apply State.depart_keeps | apply State.chargeStart_keeps | refine Keeps.ite ?_ ?_ | simp only [id] | split

theorem State.carry_keeps {z : State} (s : State) (port : Nat) (x : Choice) (hk : Keeps z s) :
    Keeps z (State.carry s port x) := by
  unfold State.carry
  try dsimp only
  repeat' with_reducible first | assumption | apply State.debit_keeps | apply State.count_keeps | apply State.startPkt_keeps | refine Keeps.ite ?_ ?_ | simp only [Keeps.upd] | simp only [id] | split

theorem schedulePacketStart_keeps {z : State} (port : Nat) (s : State) (hk : Keeps z s) :
    Keeps z (schedulePacketStart port s) := by
  unfold schedulePacketStart
  try dsimp only
  repeat' with_reducible first | assumption | apply State.startPkt_keeps | apply State.carry_keeps | refine Keeps.ite ?_ ?_ | split

theorem outstandingEntryAlloc_keeps {z : State} (port : Nat) (s : State) (hk : Keeps z s) :
    Keeps z (outstandingEntryAlloc port s) := by
  unfold outstandingEntryAlloc
  try dsimp only
  repeat' with_reducible first | assumption | apply State.depart_keeps | apply State.chargeStart_keeps | refine Keeps.ite ?_ ?_ | split

theorem egressPacketSent_keeps {z : State} (port n : Nat) (s : State) (hk : Keeps z s) :
    Keeps z (egressPacketSent port n s) := by
  unfold egressPacketSent
  try dsimp only
  repeat' with_reducible first | assumption | apply State.sendAll_keeps | apply State.measure_keeps | apply State.modPkt_keeps | apply State.retire_keeps | apply State.settle_keeps | apply State.issued_keeps | refine Keeps.ite ?_ ?_ | simp only [id] | split

theorem State.takeoverAct_keeps {z : State} (s : State) (pb : Nat) (v : Word) (hk : Keeps z s) :
    Keeps z (State.takeoverAct s pb v) := by
  unfold State.takeoverAct
  try dsimp only
  repeat' with_reducible first | assumption | apply State.plainWrite_keeps | apply State.modSch_keeps | apply State.setFlag_keeps | refine Keeps.ite ?_ ?_ | split

theorem State.takesOver_keeps {z : State} (s : State) (pb : Nat) (hk : Keeps z s) :
    Keeps z (State.takesOver s pb) := by
  unfold State.takesOver
  try dsimp only
  repeat' with_reducible first | assumption | apply State.setFlag_keeps | apply State.modSch_keeps | apply State.sticky_keeps | refine Keeps.ite ?_ ?_ | split

theorem takeover_keeps {z : State} (pb : Nat) (s : State) (hk : Keeps z s) :
    Keeps z (takeover pb s) := by
  unfold takeover
  try dsimp only
  repeat' with_reducible first | assumption | apply State.takesOver_keeps | apply State.reach_keeps | refine Keeps.ite ?_ ?_ | split

theorem State.backlogAct_keeps {z : State} (s : State) (agent t : Nat) (v : Word) (hk : Keeps z s) :
    Keeps z (State.backlogAct s agent t v) := by
  unfold State.backlogAct
  try dsimp only
  repeat' with_reducible first | assumption | apply State.setLv_keeps | refine Keeps.ite ?_ ?_ | split

theorem backlogReadDone_keeps {z : State} (agent t : Nat) (s : State) (hk : Keeps z s) :
    Keeps z (backlogReadDone agent t s) := by
  unfold backlogReadDone
  try dsimp only
  repeat' with_reducible first | assumption | apply State.setFlag_keeps | apply State.setLv_keeps | refine Keeps.ite ?_ ?_ | split

end Sys2Proof.Machine
end

