-- ==== Sys2Proof/Laws/KeepsSlotPower.lean ====
section
/-! SUPPORT. Every operation of Machine/SlotPower.lean keeps what `Keeps` says. -/

set_option linter.unusedTactic false
set_option linter.unreachableTactic false

namespace Sys2Proof.Machine

theorem State.setSpState_keeps {z : State} (s : State) (ch n : Nat) (hk : Keeps z s) :
    Keeps z (State.setSpState s ch n) := by
  unfold State.setSpState
  try dsimp only
  repeat' with_reducible first | assumption | apply State.setFld_keeps | refine Keeps.ite ?_ ?_ | split

theorem State.modSp_keeps {z : State} (s : State) (ch : Nat) (f : SpSt → SpSt) (hk : Keeps z s) :
    Keeps z (State.modSp s ch f) := by
  unfold State.modSp
  try dsimp only
  repeat' with_reducible first | assumption | refine Keeps.ite ?_ ?_ | simp only [Keeps.upd] | split

theorem State.sendSide_keeps {z : State} (s : State) (port code : Nat) (hk : Keeps z s) :
    Keeps z (State.sendSide s port code) := by
  unfold State.sendSide
  try dsimp only
  repeat' with_reducible first | assumption | refine Keeps.ite ?_ ?_ | simp only [Keeps.upd] | split

theorem State.spMessage_keeps {z : State} (s : State) (ch code : Nat) (hk : Keeps z s) :
    Keeps z (State.spMessage s ch code) := by
  unfold State.spMessage
  try dsimp only
  repeat' with_reducible first | assumption | apply State.sendSide_keeps | refine Keeps.ite ?_ ?_ | split

theorem State.spRecord_keeps {z : State} (s : State) (ch cause : Nat) (hk : Keeps z s) :
    Keeps z (State.spRecord s ch cause) := by
  unfold State.spRecord
  try dsimp only
  repeat' with_reducible first | assumption | apply State.eventMgr_keeps | refine Keeps.ite ?_ ?_ | split

theorem State.perstAssert_keeps {z : State} (s : State) (ch : Nat) (hk : Keeps z s) :
    Keeps z (State.perstAssert s ch) := by
  unfold State.perstAssert
  try dsimp only
  repeat' with_reducible first | assumption | apply State.setFlag_keeps | apply State.portDown_keeps | refine Keeps.ite ?_ ?_ | split

theorem State.pgClear_keeps {z : State} (s : State) (ch : Nat) (hk : Keeps z s) :
    Keeps z (State.pgClear s ch) := by
  unfold State.pgClear
  try dsimp only
  repeat' with_reducible first | assumption | apply State.modSp_keeps | apply State.spMessage_keeps | apply State.setFlag_keeps | refine Keeps.ite ?_ ?_ | split

theorem State.gateOff_keeps {z : State} (s : State) (ch st : Nat) (hk : Keeps z s) :
    Keeps z (State.gateOff s ch st) := by
  unfold State.gateOff
  try dsimp only
  repeat' with_reducible first | assumption | apply State.perstAssert_keeps | apply State.modSp_keeps | apply State.pgClear_keeps | apply State.setSpState_keeps | refine Keeps.ite ?_ ?_ | split

theorem State.ramp_keeps {z : State} (s : State) (ch : Nat) (hk : Keeps z s) :
    Keeps z (State.ramp s ch) := by
  unfold State.ramp
  try dsimp only
  repeat' with_reducible first | assumption | apply State.modSp_keeps | apply State.setFlag_keeps | apply State.setSpState_keeps | refine Keeps.ite ?_ ?_ | split

theorem State.startFail_keeps {z : State} (s : State) (ch cause idx : Nat) (hk : Keeps z s) :
    Keeps z (State.startFail s ch cause idx) := by
  unfold State.startFail
  try dsimp only
  repeat' with_reducible first | assumption | apply State.setFlag_keeps | apply State.sticky_keeps | apply State.setFld_keeps | apply State.spRecord_keeps | apply State.spMessage_keeps | apply State.countHk_keeps | refine Keeps.ite ?_ ?_ | split

theorem State.startCheck_keeps {z : State} (s : State) (ch : Nat) (hk : Keeps z s) :
    Keeps z (State.startCheck s ch) := by
  unfold State.startCheck
  try dsimp only
  repeat' with_reducible first | assumption | apply State.setFld_keeps | apply State.startFail_keeps | apply State.setFlag_keeps | apply State.ramp_keeps | refine Keeps.ite ?_ ?_ | split

theorem State.spEnable_keeps {z : State} (s : State) (ch : Nat) (hk : Keeps z s) :
    Keeps z (State.spEnable s ch) := by
  unfold State.spEnable
  try dsimp only
  repeat' with_reducible first | assumption | apply State.startCheck_keeps | apply State.setFld_keeps | apply State.setSpState_keeps | apply State.modSp_keeps | refine Keeps.ite ?_ ?_ | split

theorem State.spDisable_keeps {z : State} (s : State) (ch : Nat) (hk : Keeps z s) :
    Keeps z (State.spDisable s ch) := by
  unfold State.spDisable
  try dsimp only
  repeat' with_reducible first | assumption | apply State.setFlag_keeps | apply State.perstAssert_keeps | apply State.setSpState_keeps | apply State.modSp_keeps | refine Keeps.ite ?_ ?_ | split

theorem State.heldStart_keeps {z : State} (s : State) (ch : Nat) (hk : Keeps z s) :
    Keeps z (State.heldStart s ch) := by
  unfold State.heldStart
  try dsimp only
  repeat' with_reducible first | assumption | apply State.spEnable_keeps | apply State.modSp_keeps | refine Keeps.ite ?_ ?_ | split

theorem State.mgrFree_keeps {z : State} (s : State) (ch : Nat) (hk : Keeps z s) :
    Keeps z (State.mgrFree s ch) := by
  unfold State.mgrFree
  try dsimp only
  repeat' with_reducible first | assumption | apply State.spEnable_keeps | refine Keeps.ite ?_ ?_ | split

theorem State.spRefuse_keeps {z : State} (s : State) (ch : Nat) (hk : Keeps z s) :
    Keeps z (State.spRefuse s ch) := by
  unfold State.spRefuse
  try dsimp only
  repeat' with_reducible first | assumption | apply State.countHk_keeps | apply State.sticky_keeps | refine Keeps.ite ?_ ?_ | split

theorem State.spApply_keeps {z : State} (s : State) (ch op : Nat) (fromSlot : Bool) (hk : Keeps z s) :
    Keeps z (State.spApply s ch op fromSlot) := by
  unfold State.spApply
  try dsimp only
  repeat' with_reducible first | assumption | apply State.spRefuse_keeps | apply State.spEnable_keeps | apply State.spDisable_keeps | apply State.modSp_keeps | apply State.mgrFree_keeps | refine Keeps.ite ?_ ?_ | split

theorem State.spAccept_keeps {z : State} (s : State) (ch op : Nat) (fromSlot : Bool) (hk : Keeps z s) :
    Keeps z (State.spAccept s ch op fromSlot) := by
  unfold State.spAccept
  try dsimp only
  repeat' with_reducible first | assumption | apply State.modSp_keeps | refine Keeps.ite ?_ ?_ | split

theorem State.spCommand_keeps {z : State} (s : State) (ch op : Nat) (fromSlot : Bool) (hk : Keeps z s) :
    Keeps z (State.spCommand s ch op fromSlot) := by
  unfold State.spCommand
  try dsimp only
  repeat' with_reducible first | assumption | apply State.spApply_keeps | apply State.modSp_keeps | refine Keeps.ite ?_ ?_ | split

theorem State.spCtrlAct_keeps {z : State} (s : State) (ch : Nat) (v : Word) (hk : Keeps z s) :
    Keeps z (State.spCtrlAct s ch v) := by
  unfold State.spCtrlAct
  try dsimp only
  repeat' with_reducible first | assumption | apply State.plainWrite_keeps | apply State.spAccept_keeps | refine Keeps.ite ?_ ?_ | split

theorem State.spCfgAct_keeps {z : State} (s : State) (ch o : Nat) (v : Word) (hk : Keeps z s) :
    Keeps z (State.spCfgAct s ch o v) := by
  unfold State.spCfgAct
  try dsimp only
  repeat' with_reducible first | assumption | apply State.plainWrite_keeps | apply State.modSp_keeps | refine Keeps.ite ?_ ?_ | split

theorem State.spChanged_keeps {z : State} (s : State) (ch : Nat) (hk : Keeps z s) :
    Keeps z (State.spChanged s ch) := by
  unfold State.spChanged
  try dsimp only
  repeat' with_reducible first | assumption | apply State.modSp_keeps | apply State.spRecord_keeps | apply State.countHk_keeps | apply State.setSpState_keeps | apply State.setFld_keeps | refine Keeps.ite ?_ ?_ | split

theorem State.trip_keeps {z : State} (s : State) (ch cause : Nat) (hk : Keeps z s) :
    Keeps z (State.trip s ch cause) := by
  unfold State.trip
  try dsimp only
  repeat' with_reducible first | assumption | apply State.countHk_keeps | apply State.sticky_keeps | apply State.setFld_keeps | apply State.gateOff_keeps | apply State.spMessage_keeps | apply State.spRecord_keeps | apply State.heldStart_keeps | refine Keeps.ite ?_ ?_ | split

theorem fastTripLatch_keeps {z : State} (ch : Nat) (s : State) (hk : Keeps z s) :
    Keeps z (fastTripLatch ch s) := by
  unfold fastTripLatch
  try dsimp only
  repeat' with_reducible first | assumption | apply State.modSp_keeps | refine Keeps.ite ?_ ?_ | split

theorem fastTrip_keeps {z : State} (ch : Nat) (s : State) (hk : Keeps z s) :
    Keeps z (fastTrip ch s) := by
  unfold fastTrip
  try dsimp only
  repeat' with_reducible first | assumption | apply State.trip_keeps | refine Keeps.ite ?_ ?_ | split

theorem thermalTrip_keeps {z : State} (ch : Nat) (s : State) (hk : Keeps z s) :
    Keeps z (thermalTrip ch s) := by
  unfold thermalTrip
  try dsimp only
  repeat' with_reducible first | assumption | apply State.trip_keeps | apply State.modSp_keeps | refine Keeps.ite ?_ ?_ | split

theorem faultTimerTrip_keeps {z : State} (ch : Nat) (s : State) (hk : Keeps z s) :
    Keeps z (faultTimerTrip ch s) := by
  unfold faultTimerTrip
  try dsimp only
  repeat' with_reducible first | assumption | apply State.trip_keeps | refine Keeps.ite ?_ ?_ | split

theorem State.stepModel_keeps {z : State} (s : State) (ch vsense drop : Nat) (hk : Keeps z s) :
    Keeps z (State.stepModel s ch vsense drop) := by
  unfold State.stepModel
  try dsimp only
  repeat' with_reducible first | assumption | apply State.modSp_keeps | apply State.used_keeps | refine Keeps.ite ?_ ?_ | split

theorem State.pgGive_keeps {z : State} (s : State) (ch : Nat) (hk : Keeps z s) :
    Keeps z (State.pgGive s ch) := by
  unfold State.pgGive
  try dsimp only
  repeat' with_reducible first | assumption | apply State.spMessage_keeps | apply State.setFlag_keeps | apply State.setSpState_keeps | refine Keeps.ite ?_ ?_ | split

theorem State.pgLose_keeps {z : State} (s : State) (ch : Nat) (hk : Keeps z s) :
    Keeps z (State.pgLose s ch) := by
  unfold State.pgLose
  try dsimp only
  repeat' with_reducible first | assumption | apply State.modSp_keeps | apply State.pgClear_keeps | apply State.spRecord_keeps | apply State.countHk_keeps | apply State.sticky_keeps | apply State.perstAssert_keeps | refine Keeps.ite ?_ ?_ | split

theorem State.spTake_keeps {z : State} (s : State) (ch : Nat) (hk : Keeps z s) :
    Keeps z (State.spTake s ch) := by
  unfold State.spTake
  try dsimp only
  repeat' with_reducible first | assumption | apply State.spChanged_keeps | apply State.heldStart_keeps | apply State.modSp_keeps | (refine State.each_keeps _ _ _ ?_ fun t a ht => ?_) | apply State.spApply_keeps | refine Keeps.ite ?_ ?_ | split

theorem slotPowerTick_keeps {z : State} (ch vsense vout vin : Nat) (inLimit : Bool) (s : State) (hk : Keeps z s) :
    Keeps z (slotPowerTick ch vsense vout vin inLimit s) := by
  unfold slotPowerTick
  try dsimp only
  repeat' with_reducible first | assumption | apply State.setLv_keeps | apply State.spTake_keeps | apply State.stepModel_keeps | apply State.setFlag_keeps | apply State.trip_keeps | apply State.modSp_keeps | apply State.pgLose_keeps | apply State.pgGive_keeps | refine Keeps.ite ?_ ?_ | split

theorem powerGood_keeps {z : State} (ch : Nat) (s : State) (hk : Keeps z s) :
    Keeps z (powerGood ch s) := by
  unfold powerGood
  try dsimp only
  repeat' with_reducible first | assumption | apply State.pgGive_keeps | apply State.modSp_keeps | refine Keeps.ite ?_ ?_ | split

theorem stoppingGateOff_keeps {z : State} (ch : Nat) (s : State) (hk : Keeps z s) :
    Keeps z (stoppingGateOff ch s) := by
  unfold stoppingGateOff
  try dsimp only
  repeat' with_reducible first | assumption | apply State.heldStart_keeps | apply State.gateOff_keeps | refine Keeps.ite ?_ ?_ | split

theorem vinStart_keeps {z : State} (ch : Nat) (s : State) (hk : Keeps z s) :
    Keeps z (vinStart ch s) := by
  unfold vinStart
  try dsimp only
  repeat' with_reducible first | assumption | apply State.ramp_keeps | refine Keeps.ite ?_ ?_ | split

theorem vinLowTimeout_keeps {z : State} (ch : Nat) (s : State) (hk : Keeps z s) :
    Keeps z (vinLowTimeout ch s) := by
  unfold vinLowTimeout
  try dsimp only
  repeat' with_reducible first | assumption | apply State.startFail_keeps | refine Keeps.ite ?_ ?_ | split

theorem perstDeassert_keeps {z : State} (ch : Nat) (s : State) (hk : Keeps z s) :
    Keeps z (perstDeassert ch s) := by
  unfold perstDeassert
  try dsimp only
  repeat' with_reducible first | assumption | apply State.setFlag_keeps | refine Keeps.ite ?_ ?_ | split

theorem retryStart_keeps {z : State} (ch : Nat) (s : State) (hk : Keeps z s) :
    Keeps z (retryStart ch s) := by
  unfold retryStart
  try dsimp only
  repeat' with_reducible first | assumption | apply State.countHk_keeps | apply State.ramp_keeps | refine Keeps.ite ?_ ?_ | split

theorem attemptsReset_keeps {z : State} (ch : Nat) (s : State) (hk : Keeps z s) :
    Keeps z (attemptsReset ch s) := by
  unfold attemptsReset
  try dsimp only
  repeat' with_reducible first | assumption | apply State.setFld_keeps | refine Keeps.ite ?_ ?_ | split

theorem State.seqAct_keeps {z : State} (s : State) (e : Nat) (v : Word) (hk : Keeps z s) :
    Keeps z (State.seqAct s e v) := by
  unfold State.seqAct
  try dsimp only
  repeat' with_reducible first | assumption | apply State.plainWrite_keeps | refine Keeps.ite ?_ ?_ | simp only [Keeps.upd] | split

theorem State.seqFires_keeps {z : State} (s : State) (e : Nat) (hk : Keeps z s) :
    Keeps z (State.seqFires s e) := by
  unfold State.seqFires
  try dsimp only
  repeat' with_reducible first | assumption | apply State.setFlag_keeps | apply State.countHk_keeps | apply State.spApply_keeps | refine Keeps.ite ?_ ?_ | simp only [Keeps.upd] | split

theorem spSeqFire_keeps {z : State} (e : Nat) (s : State) (hk : Keeps z s) :
    Keeps z (spSeqFire e s) := by
  unfold spSeqFire
  try dsimp only
  repeat' with_reducible first | assumption | apply State.seqFires_keeps | apply State.reach_keeps | refine Keeps.ite ?_ ?_ | split

end Sys2Proof.Machine
end

