-- ==== Sys2Proof/Laws/KeepsLanes.lean ====
section
/-! SUPPORT. Every operation of Machine/Lanes.lean keeps what `Keeps` says. -/

set_option linter.unusedTactic false
set_option linter.unreachableTactic false

namespace Sys2Proof.Machine

theorem State.advanceCounts_keeps {z : State} (s : State) (lane : Nat) (hk : Keeps z s) :
    Keeps z (State.advanceCounts s lane) := by
  unfold State.advanceCounts
  try dsimp only
  repeat' with_reducible first | assumption | apply State.modLane_keeps | apply State.used_keeps | refine Keeps.ite ?_ ?_ | split

theorem State.unlock_keeps {z : State} (s : State) (lane : Nat) (hk : Keeps z s) :
    Keeps z (State.unlock s lane) := by
  unfold State.unlock
  try dsimp only
  repeat' with_reducible first | assumption | apply State.setFlag_keeps | apply State.advanceCounts_keeps | refine Keeps.ite ?_ ?_ | split

theorem State.startRetrain_keeps {z : State} (s : State) (port : Nat) (hk : Keeps z s) :
    Keeps z (State.startRetrain s port) := by
  unfold State.startRetrain
  try dsimp only
  repeat' with_reducible first | assumption | apply State.otherRetrain_keeps | apply State.modPort_keeps | refine Keeps.ite ?_ ?_ | split

theorem State.laneLost_keeps {z : State} (s : State) (lane : Nat) (hk : Keeps z s) :
    Keeps z (State.laneLost s lane) := by
  unfold State.laneLost
  try dsimp only
  repeat' with_reducible first | assumption | apply State.modLane_keeps | apply State.portDown_keeps | apply State.startRetrain_keeps | refine Keeps.ite ?_ ?_ | split

theorem State.skewIn_keeps {z : State} (s : State) (ls : List (Nat × Nat)) (hk : Keeps z s) :
    Keeps z (State.skewIn s ls) := by
  unfold State.skewIn
  try dsimp only
  repeat' with_reducible first | assumption | (refine State.each_keeps _ _ _ ?_ fun t a ht => ?_) | apply State.setFld_keeps | apply State.laneLost_keeps | apply State.sticky_keeps | refine Keeps.ite ?_ ?_ | split

theorem State.pllUp_keeps {z : State} (s : State) (port : Nat) (hk : Keeps z s) :
    Keeps z (State.pllUp s port) := by
  unfold State.pllUp
  try dsimp only
  repeat' with_reducible first | assumption | (refine State.each_keeps _ _ _ ?_ fun t a ht => ?_) | apply State.setFlag_keeps | refine Keeps.ite ?_ ?_ | split

theorem partnerDetected_keeps {z : State} (port : Nat) (s : State) (hk : Keeps z s) :
    Keeps z (partnerDetected port s) := by
  unfold partnerDetected
  try dsimp only
  repeat' with_reducible first | assumption | (refine State.each_keeps _ _ _ ?_ fun t a ht => ?_) | apply State.modPort_keeps | apply State.pllUp_keeps | apply State.modLane_keeps | apply State.setFld_keeps | apply State.setFlag_keeps | apply State.setEi_keeps | apply State.modSlot_keeps | refine Keeps.ite ?_ ?_ | split

theorem State.advertise_keeps {z : State} (s : State) (port : Nat) (hk : Keeps z s) :
    Keeps z (State.advertise s port) := by
  unfold State.advertise
  try dsimp only
  repeat' with_reducible first | assumption | apply State.modPort_keeps | (refine State.each_keeps _ _ _ ?_ fun t a ht => ?_) | apply State.emit_keeps | refine Keeps.ite ?_ ?_ | split

theorem State.linkActive_keeps {z : State} (s : State) (port : Nat) (hk : Keeps z s) :
    Keeps z (State.linkActive s port) := by
  unfold State.linkActive
  try dsimp only
  repeat' with_reducible first | assumption | apply State.setFlag_keeps | apply State.upstreamFree_keeps | apply State.dllsc_keeps | refine Keeps.ite ?_ ?_ | split

theorem State.lanesUp_keeps {z : State} (s : State) (port : Nat) (reversed : Bool) (polInv skews : List Nat) (hk : Keeps z s) :
    Keeps z (State.lanesUp s port reversed polInv skews) := by
  unfold State.lanesUp
  try dsimp only
  repeat' with_reducible first | assumption | (refine State.each_keeps _ _ _ ?_ fun t a ht => ?_) | apply State.setFlag_keeps | apply State.skewIn_keeps | refine Keeps.ite ?_ ?_ | split

theorem State.eqStart_keeps {z : State} (s : State) (lane last : Nat) (skip : Bool) (hk : Keeps z s) :
    Keeps z (State.eqStart s lane last skip) := by
  unfold State.eqStart
  try dsimp only
  repeat' with_reducible first | assumption | apply State.modLane_keeps | refine Keeps.ite ?_ ?_ | split

theorem State.lanesLink_keeps {z : State} (s : State) (ls : List Nat) (hk : Keeps z s) :
    Keeps z (State.lanesLink s ls) := by
  unfold State.lanesLink
  try dsimp only
  repeat' with_reducible first | assumption | (refine State.each_keeps _ _ _ ?_ fun t a ht => ?_) | apply State.eqStart_keeps | apply State.setFlag_keeps | apply State.setFld_keeps | refine Keeps.ite ?_ ?_ | split

theorem linkUp2g5_keeps {z : State} (port width : Nat) (reversed : Bool) (polInv skews : List Nat) (partnerVfl : Bool) (s : State) (hk : Keeps z s) :
    Keeps z (linkUp2g5 port width reversed polInv skews partnerVfl s) := by
  unfold linkUp2g5
  try dsimp only
  repeat' with_reducible first | assumption | apply State.lanesUp_keeps | (refine State.each_keeps _ _ _ ?_ fun t a ht => ?_) | apply State.setFlag_keeps | apply State.modPort_keeps | apply State.lanesLink_keeps | apply State.setEi_keeps | apply State.linkActive_keeps | apply State.advertise_keeps | apply State.setFld_keeps | refine Keeps.ite ?_ ?_ | split

theorem vflConfirmTimeout_keeps {z : State} (port : Nat) (s : State) (hk : Keeps z s) :
    Keeps z (vflConfirmTimeout port s) := by
  unfold vflConfirmTimeout
  try dsimp only
  repeat' with_reducible first | assumption | apply State.count_keeps | apply State.setEi_keeps | apply State.modPort_keeps | refine Keeps.ite ?_ ?_ | split

theorem speedChangeDone_keeps {z : State} (port partnerRate : Nat) (partnerFlit : Bool) (skews : List Nat) (s : State) (hk : Keeps z s) :
    Keeps z (speedChangeDone port partnerRate partnerFlit skews s) := by
  unfold speedChangeDone
  try dsimp only
  repeat' with_reducible first | assumption | (refine State.each_keeps _ _ _ ?_ fun t a ht => ?_) | apply State.setFlag_keeps | apply State.setFld_keeps | apply State.modPort_keeps | apply State.advertise_keeps | apply State.skewIn_keeps | apply State.setEi_keeps | refine Keeps.ite ?_ ?_ | split

theorem equalisationPhaseDone_keeps {z : State} (lane rate : Nat) (limitsOk reached : Bool) (conv : BitVec 64) (s : State) (hk : Keeps z s) :
    Keeps z (equalisationPhaseDone lane rate limitsOk reached conv s) := by
  unfold equalisationPhaseDone
  try dsimp only
  repeat' with_reducible first | assumption | apply State.setFlag_keeps | apply State.sticky_keeps | apply State.modLane_keeps | apply State.eqStart_keeps | refine Keeps.ite ?_ ?_ | split

theorem State.pllDown_keeps {z : State} (s : State) (port : Nat) (hk : Keeps z s) :
    Keeps z (State.pllDown s port) := by
  unfold State.pllDown
  try dsimp only
  repeat' with_reducible first | assumption | (refine State.each_keeps _ _ _ ?_ fun t a ht => ?_) | apply State.setFlag_keeps | refine Keeps.ite ?_ ?_ | split

theorem l0sEntry_keeps {z : State} (port : Nat) (s : State) (hk : Keeps z s) :
    Keeps z (l0sEntry port s) := by
  unfold l0sEntry
  try dsimp only
  repeat' with_reducible first | assumption | apply State.setEi_keeps | apply State.setFlag_keeps | refine Keeps.ite ?_ ?_ | split

theorem l1Entry_keeps {z : State} (port : Nat) (pciPm : Bool) (s : State) (hk : Keeps z s) :
    Keeps z (l1Entry port pciPm s) := by
  unfold l1Entry
  try dsimp only
  repeat' with_reducible first | assumption | apply State.setEi_keeps | apply State.pllDown_keeps | apply State.setFlag_keeps | refine Keeps.ite ?_ ?_ | split

theorem l0pEntry_keeps {z : State} (port width : Nat) (s : State) (hk : Keeps z s) :
    Keeps z (l0pEntry port width s) := by
  unfold l0pEntry
  try dsimp only
  repeat' with_reducible first | assumption | apply State.setEi_keeps | apply State.modPort_keeps | apply State.setFlag_keeps | refine Keeps.ite ?_ ?_ | split

theorem linkPowerExit_keeps {z : State} (port : Nat) (s : State) (hk : Keeps z s) :
    Keeps z (linkPowerExit port s) := by
  unfold linkPowerExit
  try dsimp only
  repeat' with_reducible first | assumption | apply State.setEi_keeps | apply State.modPort_keeps | apply State.setFld_keeps | apply State.pllUp_keeps | refine Keeps.ite ?_ ?_ | split

theorem eiExitDetect_keeps {z : State} (lane mv : Nat) (s : State) (hk : Keeps z s) :
    Keeps z (eiExitDetect lane mv s) := by
  unfold eiExitDetect
  try dsimp only
  repeat' with_reducible first | assumption | apply State.used_keeps | apply State.setFlag_keeps | apply linkPowerExit_keeps | refine Keeps.ite ?_ ?_ | split

theorem losDetect_keeps {z : State} (lane mv ns : Nat) (eios : Bool) (s : State) (hk : Keeps z s) :
    Keeps z (losDetect lane mv ns eios s) := by
  unfold losDetect
  try dsimp only
  repeat' with_reducible first | assumption | apply State.count_keeps | apply State.sticky_keeps | apply State.setFlag_keeps | apply State.unlock_keeps | apply State.laneLost_keeps | refine Keeps.ite ?_ ?_ | split

theorem laneLol_keeps {z : State} (lane : Nat) (s : State) (hk : Keeps z s) :
    Keeps z (laneLol lane s) := by
  unfold laneLol
  try dsimp only
  repeat' with_reducible first | assumption | apply State.count_keeps | apply State.sticky_keeps | apply State.setFlag_keeps | apply State.unlock_keeps | apply State.laneLost_keeps | refine Keeps.ite ?_ ?_ | split

theorem quadPllLol_keeps {z : State} (q : Nat) (s : State) (hk : Keeps z s) :
    Keeps z (quadPllLol q s) := by
  unfold quadPllLol
  try dsimp only
  repeat' with_reducible first | assumption | apply State.count_keeps | apply State.sticky_keeps | apply State.setFlag_keeps | apply State.setEi_keeps | apply State.modLane_keeps | (refine State.each_keeps _ _ _ ?_ fun t a ht => ?_) | apply State.startRetrain_keeps | refine Keeps.ite ?_ ?_ | split

theorem quadPllRelock_keeps {z : State} (q : Nat) (s : State) (hk : Keeps z s) :
    Keeps z (quadPllRelock q s) := by
  unfold quadPllRelock
  try dsimp only
  repeat' with_reducible first | assumption | apply State.modLane_keeps | apply State.setFld_keeps | apply State.setFlag_keeps | apply State.setEi_keeps | refine Keeps.ite ?_ ?_ | split

theorem pcieRecoveryDone_keeps {z : State} (port : Nat) (goodLanes skews : List Nat) (s : State) (hk : Keeps z s) :
    Keeps z (pcieRecoveryDone port goodLanes skews s) := by
  unfold pcieRecoveryDone
  try dsimp only
  repeat' with_reducible first | assumption | apply State.portDown_keeps | apply State.setEi_keeps | apply State.modPort_keeps | apply State.relink_keeps | (refine State.each_keeps _ _ _ ?_ fun t a ht => ?_) | apply State.emit_keeps | apply State.skewIn_keeps | refine Keeps.ite ?_ ?_ | split

theorem State.genChange_keeps {z : State} (s was : State) (lane : Nat) (hk : Keeps z s) :
    Keeps z (State.genChange s was lane) := by
  unfold State.genChange
  try dsimp only
  repeat' with_reducible first | assumption | apply State.emit_keeps | refine Keeps.ite ?_ ?_ | split

theorem State.laneCtrlAct_keeps {z : State} (s : State) (lane : Nat) (v : Word) (hk : Keeps z s) :
    Keeps z (State.laneCtrlAct s lane v) := by
  unfold State.laneCtrlAct
  try dsimp only
  repeat' with_reducible first | assumption | apply State.plainWrite_keeps | apply State.advanceCounts_keeps | apply State.setFlag_keeps | apply State.setEi_keeps | apply State.genChange_keeps | refine Keeps.ite ?_ ?_ | split

theorem State.marginAct_keeps {z : State} (s : State) (lane : Nat) (v : Word) (hk : Keeps z s) :
    Keeps z (State.marginAct s lane v) := by
  unfold State.marginAct
  try dsimp only
  repeat' with_reducible first | assumption | apply State.plainWrite_keeps | apply State.advanceCounts_keeps | refine Keeps.ite ?_ ?_ | split

theorem State.marginCmd_keeps {z : State} (s : State) (lane : Nat) (own : Bool) (v : Nat) (hk : Keeps z s) :
    Keeps z (State.marginCmd s lane own v) := by
  unfold State.marginCmd
  try dsimp only
  repeat' with_reducible first | assumption | apply State.modLane_keeps | apply State.advanceCounts_keeps | apply State.marginAct_keeps | refine Keeps.ite ?_ ?_ | split

theorem State.align_keeps {z : State} (s : State) (port : Nat) (hk : Keeps z s) :
    Keeps z (State.align s port) := by
  unfold State.align
  try dsimp only
  repeat' with_reducible first | assumption | apply State.skewIn_keeps | refine Keeps.ite ?_ ?_ | split

theorem vflMarker_keeps {z : State} (lane : Nat) (m : BitVec 128) (s : State) (hk : Keeps z s) :
    Keeps z (vflMarker lane m s) := by
  unfold vflMarker
  try dsimp only
  repeat' with_reducible first | assumption | apply State.align_keeps | apply State.setFlag_keeps | apply State.modLane_keeps | refine Keeps.ite ?_ ?_ | split

theorem markerLoss_keeps {z : State} (lane : Nat) (s : State) (hk : Keeps z s) :
    Keeps z (markerLoss lane s) := by
  unfold markerLoss
  try dsimp only
  repeat' with_reducible first | assumption | apply State.laneLost_keeps | apply State.modLane_keeps | refine Keeps.ite ?_ ?_ | split

theorem State.downForTest_keeps {z : State} (s : State) (port : Nat) (hk : Keeps z s) :
    Keeps z (State.downForTest s port) := by
  unfold State.downForTest
  try dsimp only
  repeat' with_reducible first | assumption | apply State.portDown_keeps | (refine State.each_keeps _ _ _ ?_ fun t a ht => ?_) | apply State.setFld_keeps | refine Keeps.ite ?_ ?_ | split

theorem State.testMode_keeps {z : State} (s : State) (lane : Nat) (was : Bool) (hk : Keeps z s) :
    Keeps z (State.testMode s lane was) := by
  unfold State.testMode
  try dsimp only
  repeat' with_reducible first | assumption | apply State.setFld_keeps | apply State.downForTest_keeps | (refine State.each_keeps _ _ _ ?_ fun t a ht => ?_) | apply State.setEi_keeps | refine Keeps.ite ?_ ?_ | split

theorem State.testAct_keeps {z : State} (s : State) (lane : Nat) (v : Word) (hk : Keeps z s) :
    Keeps z (State.testAct s lane v) := by
  unfold State.testAct
  try dsimp only
  repeat' with_reducible first | assumption | apply State.plainWrite_keeps | apply State.advanceCounts_keeps | apply State.modLane_keeps | apply State.emit_keeps | apply State.setFlag_keeps | apply State.testMode_keeps | apply State.setEi_keeps | apply State.genChange_keeps | refine Keeps.ite ?_ ?_ | split

theorem checkerLock_keeps {z : State} (lane : Nat) (s : State) (hk : Keeps z s) :
    Keeps z (checkerLock lane s) := by
  unfold checkerLock
  try dsimp only
  repeat' with_reducible first | assumption | apply State.setFlag_keeps | refine Keeps.ite ?_ ?_ | split

theorem checkerUnlock_keeps {z : State} (lane : Nat) (s : State) (hk : Keeps z s) :
    Keeps z (checkerUnlock lane s) := by
  unfold checkerUnlock
  try dsimp only
  repeat' with_reducible first | assumption | apply State.unlock_keeps | refine Keeps.ite ?_ ?_ | split

theorem State.laneMbxAct_keeps {z : State} (s : State) (agent pb : Nat) (v : Word) (hk : Keeps z s) :
    Keeps z (State.laneMbxAct s agent pb v) := by
  unfold State.laneMbxAct
  try dsimp only
  repeat' with_reducible first | assumption | apply State.setLv_keeps | refine Keeps.ite ?_ ?_ | split

theorem laneMbxDone_keeps {z : State} (agent pb : Nat) (s : State) (hk : Keeps z s) :
    Keeps z (laneMbxDone agent pb s) := by
  unfold laneMbxDone
  try dsimp only
  repeat' with_reducible first | assumption | apply State.genChange_keeps | apply State.modLane_keeps | apply State.advanceCounts_keeps | apply State.setLv_keeps | apply State.setFlag_keeps | refine Keeps.ite ?_ ?_ | split

end Sys2Proof.Machine
end

