-- ==== Sys2Proof/Laws/KeepsPorts.lean ====
section
/-! SUPPORT. Every operation of Machine/Ports.lean keeps what `Keeps` says. -/

set_option linter.unusedTactic false
set_option linter.unreachableTactic false

namespace Sys2Proof.Machine

theorem replayNumRollover_keeps {z : State} (port : Nat) (s : State) (hk : Keeps z s) :
    Keeps z (replayNumRollover port s) := by
  unfold replayNumRollover
  try dsimp only
  repeat' with_reducible first | assumption | apply State.modPort_keeps | apply State.ownerAer_keeps | apply State.count_keeps | apply State.sticky_keeps | apply State.portDown_keeps | refine Keeps.ite ?_ ?_ | split

theorem pcieLinkDown_keeps {z : State} (port : Nat) (s : State) (hk : Keeps z s) :
    Keeps z (pcieLinkDown port s) := by
  unfold pcieLinkDown
  try dsimp only
  repeat' with_reducible first | assumption | apply State.portDown_keeps | refine Keeps.ite ?_ ?_ | split

theorem dllpReceive_keeps {z : State} (port kind n hdr dat : Nat) (s : State) (hk : Keeps z s) :
    Keeps z (dllpReceive port kind n hdr dat s) := by
  unfold dllpReceive
  try dsimp only
  repeat' with_reducible first | assumption | apply State.modPort_keeps | (refine State.each_keeps _ _ _ ?_ fun t a ht => ?_) | apply State.emit_keeps | refine Keeps.ite ?_ ?_ | split

theorem ptmRequest_keeps {z : State} (port : Nat) (s : State) (hk : Keeps z s) :
    Keeps z (ptmRequest port s) := by
  unfold ptmRequest
  try dsimp only
  repeat' with_reducible first | assumption | apply State.emit_keeps | refine Keeps.ite ?_ ?_ | split

theorem State.slotDeliver_keeps {z : State} (s : State) (port op : Nat) (hk : Keeps z s) :
    Keeps z (State.slotDeliver s port op) := by
  unfold State.slotDeliver
  try dsimp only
  repeat' with_reducible first | assumption | apply State.modSlot_keeps | apply State.emit_keeps | apply State.spAccept_keeps | apply State.perstAssert_keeps | refine Keeps.ite ?_ ?_ | split

theorem State.slotCommand_keeps {z : State} (s : State) (port op : Nat) (hk : Keeps z s) :
    Keeps z (State.slotCommand s port op) := by
  unfold State.slotCommand
  try dsimp only
  repeat' with_reducible first | assumption | apply State.modSlot_keeps | apply State.slotDeliver_keeps | refine Keeps.ite ?_ ?_ | split

theorem slotPowerOn_keeps {z : State} (p d : Nat) (s : State) (hk : Keeps z s) :
    Keeps z (slotPowerOn p d s) := by
  unfold slotPowerOn
  try dsimp only
  repeat' with_reducible first | assumption | apply State.slotCommand_keeps | apply State.modSlot_keeps | refine Keeps.ite ?_ ?_ | split

theorem slotPowerOff_keeps {z : State} (p d : Nat) (s : State) (hk : Keeps z s) :
    Keeps z (slotPowerOff p d s) := by
  unfold slotPowerOff
  try dsimp only
  repeat' with_reducible first | assumption | apply State.slotCommand_keeps | apply State.modSlot_keeps | refine Keeps.ite ?_ ?_ | split

theorem slotIndicatorWrite_keeps {z : State} (p d attn pwr : Nat) (s : State) (hk : Keeps z s) :
    Keeps z (slotIndicatorWrite p d attn pwr s) := by
  unfold slotIndicatorWrite
  try dsimp only
  repeat' with_reducible first | assumption | apply State.slotCommand_keeps | apply State.modSlot_keeps | refine Keeps.ite ?_ ?_ | split

theorem commandCompleted_keeps {z : State} (port : Nat) (s : State) (hk : Keeps z s) :
    Keeps z (commandCompleted port s) := by
  unfold commandCompleted
  try dsimp only
  repeat' with_reducible first | assumption | apply State.modSlot_keeps | refine Keeps.ite ?_ ?_ | split

theorem presenceSample_keeps {z : State} (port : Nat) (present : Bool) (s : State) (hk : Keeps z s) :
    Keeps z (presenceSample port present s) := by
  unfold presenceSample
  try dsimp only
  repeat' with_reducible first | assumption | apply State.sendSide_keeps | apply State.modSlot_keeps | refine Keeps.ite ?_ ?_ | split

theorem attentionButton_keeps {z : State} (port : Nat) (s : State) (hk : Keeps z s) :
    Keeps z (attentionButton port s) := by
  unfold attentionButton
  try dsimp only
  repeat' with_reducible first | assumption | apply State.sendSide_keeps | refine Keeps.ite ?_ ?_ | split

theorem State.slotSignal_keeps {z : State} (s : State) (port code : Nat) (hk : Keeps z s) :
    Keeps z (State.slotSignal s port code) := by
  unfold State.slotSignal
  try dsimp only
  repeat' with_reducible first | assumption | apply State.modSlot_keeps | refine Keeps.ite ?_ ?_ | split

theorem slotSidebandMessage_keeps {z : State} (port : Nat) (s : State) (hk : Keeps z s) :
    Keeps z (slotSidebandMessage port s) := by
  unfold slotSidebandMessage
  try dsimp only
  repeat' with_reducible first | assumption | apply State.slotSignal_keeps | refine Keeps.ite ?_ ?_ | simp only [Keeps.upd] | split

theorem serviceLinkReturn_keeps {z : State} (t : Nat) (s : State) (hk : Keeps z s) :
    Keeps z (serviceLinkReturn t s) := by
  unfold serviceLinkReturn
  try dsimp only
  repeat' with_reducible first | assumption | apply State.modTm_keeps | apply State.setFlag_keeps | (refine State.each_keeps _ _ _ ?_ fun t a ht => ?_) | apply State.slotDeliver_keeps | apply State.modSlot_keeps | apply State.dieEventsOut_keeps | refine Keeps.ite ?_ ?_ | split

end Sys2Proof.Machine
end

