-- ==== Sys2Proof/Laws/KeepsTelemetry.lean ====
section
/-! SUPPORT. Every operation of Machine/Telemetry.lean keeps what `Keeps` says. -/

set_option linter.unusedTactic false
set_option linter.unreachableTactic false

namespace Sys2Proof.Machine

theorem State.modTel_keeps {z : State} (s : State) (f : TelSt → TelSt) (hk : Keeps z s) :
    Keeps z (State.modTel s f) := by
  unfold State.modTel
  try dsimp only
  repeat' with_reducible first | assumption | refine Keeps.ite ?_ ?_ | simp only [Keeps.upd] | split

theorem State.cntAct_keeps {z : State} (s : State) (agent : Nat) (v : Word) (hk : Keeps z s) :
    Keeps z (State.cntAct s agent v) := by
  unfold State.cntAct
  try dsimp only
  repeat' with_reducible first | assumption | apply State.modTel_keeps | apply State.setLv_keeps | apply State.used_keeps | refine Keeps.ite ?_ ?_ | split

theorem counterRead_keeps {z : State} (agent : Nat) (v : Word) (s : State) (hk : Keeps z s) :
    Keeps z (counterRead agent v s) := by
  unfold counterRead
  try dsimp only
  repeat' with_reducible first | assumption | apply State.cntAct_keeps | refine Keeps.ite ?_ ?_ | split

theorem counterReadDone_keeps {z : State} (agent : Nat) (s : State) (hk : Keeps z s) :
    Keeps z (counterReadDone agent s) := by
  unfold counterReadDone
  try dsimp only
  repeat' with_reducible first | assumption | apply State.setLv_keeps | apply State.modTel_keeps | apply State.setFlag_keeps | refine Keeps.ite ?_ ?_ | split

theorem counterWrap_keeps {z : State} (block i : Nat) (s : State) (hk : Keeps z s) :
    Keeps z (counterWrap block i s) := by
  unfold counterWrap
  try dsimp only
  repeat' with_reducible first | assumption | apply State.modTel_keeps | apply State.eventMgr_keeps | refine Keeps.ite ?_ ?_ | split

theorem State.progAct_keeps {z : State} (s : State) (t k : Nat) (v : Word) (hk : Keeps z s) :
    Keeps z (State.progAct s t k v) := by
  unfold State.progAct
  try dsimp only
  repeat' with_reducible first | assumption | apply State.plainWrite_keeps | apply State.modTel_keeps | refine Keeps.ite ?_ ?_ | split

theorem ctProgWrite_keeps {z : State} (t k : Nat) (v : Word) (s : State) (hk : Keeps z s) :
    Keeps z (ctProgWrite t k v s) := by
  unfold ctProgWrite
  try dsimp only
  repeat' with_reducible first | assumption | apply State.progAct_keeps | refine Keeps.ite ?_ ?_ | split

theorem State.snapAct_keeps {z : State} (s : State) (v : Word) (hk : Keeps z s) :
    Keeps z (State.snapAct s v) := by
  unfold State.snapAct
  try dsimp only
  repeat' with_reducible first | assumption | apply State.plainWrite_keeps | apply State.modTel_keeps | apply State.setFlag_keeps | refine Keeps.ite ?_ ?_ | split

theorem State.snapCopy_keeps {z : State} (s : State) (b : Nat) (h : Keeps z s) : Keeps z (s.snapCopy b) :=
  h.trans ⟨rfl, rfl, le_refl _, Nat.le_add_right _ _, List.prefix_refl _, State.fusesKept.refl s, fun q => q⟩

theorem State.snapReach_keeps {z : State} (s : State) (b : Nat) (hk : Keeps z s) :
    Keeps z (State.snapReach s b) := by
  unfold State.snapReach
  try dsimp only
  repeat' with_reducible first | assumption | apply State.reach_keeps | refine Keeps.ite ?_ ?_ | split

theorem snapshot_keeps {z : State} (b : Nat) (s : State) (hk : Keeps z s) :
    Keeps z (snapshot b s) := by
  unfold snapshot
  try dsimp only
  repeat' with_reducible first | assumption | apply State.snapCopy_keeps | apply State.snapReach_keeps | refine Keeps.ite ?_ ?_ | split

theorem snapshotDone_keeps {z : State} (s : State) (hk : Keeps z s) :
    Keeps z (snapshotDone s) := by
  unfold snapshotDone
  try dsimp only
  repeat' with_reducible first | assumption | apply State.setFlag_keeps | refine Keeps.ite ?_ ?_ | split

theorem State.histAct_keeps {z : State} (s : State) (t h : Nat) (v : Word) (hk : Keeps z s) :
    Keeps z (State.histAct s t h v) := by
  unfold State.histAct
  try dsimp only
  repeat' with_reducible first | assumption | apply State.plainWrite_keeps | apply State.modTel_keeps | refine Keeps.ite ?_ ?_ | split

theorem histogramClear_keeps {z : State} (t h : Nat) (v : Word) (s : State) (hk : Keeps z s) :
    Keeps z (histogramClear t h v s) := by
  unfold histogramClear
  try dsimp only
  repeat' with_reducible first | assumption | apply State.histAct_keeps | refine Keeps.ite ?_ ?_ | split

theorem State.capAct_keeps {z : State} (s : State) (t c : Nat) (v : Word) (hk : Keeps z s) :
    Keeps z (State.capAct s t c v) := by
  unfold State.capAct
  try dsimp only
  repeat' with_reducible first | assumption | apply State.plainWrite_keeps | apply State.modCap_keeps | apply State.setFld_keeps | refine Keeps.ite ?_ ?_ | split

theorem captureEnable_keeps {z : State} (t c : Nat) (v : Word) (s : State) (hk : Keeps z s) :
    Keeps z (captureEnable t c v s) := by
  unfold captureEnable
  try dsimp only
  repeat' with_reducible first | assumption | apply State.capAct_keeps | refine Keeps.ite ?_ ?_ | split

theorem captureRecordWrite_keeps {z : State} (t c : Nat) (s : State) (hk : Keeps z s) :
    Keeps z (captureRecordWrite t c s) := by
  unfold captureRecordWrite
  try dsimp only
  repeat' with_reducible first | assumption | apply State.modCap_keeps | apply State.hostWriteAs_keeps | apply State.setFld_keeps | refine Keeps.ite ?_ ?_ | split

theorem State.boWrite_keeps {z : State} (s : State) (r : List Byte) (hk : Keeps z s) :
    Keeps z (State.boWrite s r) := by
  unfold State.boWrite
  try dsimp only
  repeat' with_reducible first | assumption | apply State.hostWrite_keeps | apply State.setFld_keeps | refine Keeps.ite ?_ ?_ | split

theorem State.boPump_keeps {z : State} (s : State) (x' : Nat) (hk : Keeps z s) :
    Keeps z (State.boPump s x') := by
  induction x' generalizing s with
  | zero => exact hk
  | succ x' ih =>
    unfold State.boPump
    try dsimp only
    repeat' with_reducible first | assumption | apply ih | apply State.boWrite_keeps | apply State.modTel_keeps | refine Keeps.ite ?_ ?_ | split

theorem State.boDrain_keeps {z : State} (s : State) (hk : Keeps z s) :
    Keeps z (State.boDrain s) := by
  unfold State.boDrain
  try dsimp only
  repeat' with_reducible first | assumption | apply State.boPump_keeps | refine Keeps.ite ?_ ?_ | split

theorem State.boClose_keeps {z : State} (s : State) (hk : Keeps z s) :
    Keeps z (State.boClose s) := by
  unfold State.boClose
  try dsimp only
  repeat' with_reducible first | assumption | apply State.modTel_keeps | apply State.sticky_keeps | apply State.boDrain_keeps | refine Keeps.ite ?_ ?_ | split

theorem State.newMark_keeps {z : State} (s : State) (m : Nat) (hk : Keeps z s) :
    Keeps z (State.newMark s m) := by
  unfold State.newMark
  try dsimp only
  repeat' with_reducible first | assumption | apply State.modTel_keeps | apply State.sticky_keeps | apply State.setFld_keeps | apply State.modTm_keeps | refine Keeps.ite ?_ ?_ | split

theorem minuteMarkLatch_keeps {z : State} (t : Nat) (s : State) (hk : Keeps z s) :
    Keeps z (minuteMarkLatch t s) := by
  unfold minuteMarkLatch
  try dsimp only
  repeat' with_reducible first | assumption | apply State.newMark_keeps | apply State.modTel_keeps | refine Keeps.ite ?_ ?_ | split

theorem boContribution_keeps {z : State} (t : Nat) (s : State) (hk : Keeps z s) :
    Keeps z (boContribution t s) := by
  unfold boContribution
  try dsimp only
  repeat' with_reducible first | assumption | apply State.modTel_keeps | apply State.boClose_keeps | refine Keeps.ite ?_ ?_ | split

theorem boCollectDeadline_keeps {z : State} (s : State) (hk : Keeps z s) :
    Keeps z (boCollectDeadline s) := by
  unfold boCollectDeadline
  try dsimp only
  repeat' with_reducible first | assumption | apply State.boClose_keeps | refine Keeps.ite ?_ ?_ | split

theorem State.boIndexAct_keeps {z : State} (s : State) (v : Word) (hk : Keeps z s) :
    Keeps z (State.boIndexAct s v) := by
  unfold State.boIndexAct
  try dsimp only
  repeat' with_reducible first | assumption | apply State.boDrain_keeps | apply State.plainWrite_keeps | refine Keeps.ite ?_ ?_ | split

theorem State.boCfgAct_keeps {z : State} (s : State) (v : Word) (hk : Keeps z s) :
    Keeps z (State.boCfgAct s v) := by
  unfold State.boCfgAct
  try dsimp only
  repeat' with_reducible first | assumption | apply State.boDrain_keeps | apply State.plainWrite_keeps | refine Keeps.ite ?_ ?_ | split

end Sys2Proof.Machine
end

