-- ==== Sys2Proof/Laws/KeepsRings.lean ====
section
/-! SUPPORT. Every operation of Machine/Rings.lean keeps what `Keeps` says. -/

set_option linter.unusedTactic false
set_option linter.unreachableTactic false

namespace Sys2Proof.Machine

theorem State.ringOn_keeps {z : State} (s : State) (r : Nat) (hk : Keeps z s) :
    Keeps z (State.ringOn s r) := by
  unfold State.ringOn
  try dsimp only
  repeat' with_reducible first | assumption | apply State.setFlag_keeps | apply State.setLv_keeps | apply State.modRing_keeps | refine Keeps.ite ?_ ?_ | split

theorem State.ringOff_keeps {z : State} (s : State) (r : Nat) (hk : Keeps z s) :
    Keeps z (State.ringOff s r) := by
  unfold State.ringOff
  try dsimp only
  repeat' with_reducible first | assumption | apply State.setFlag_keeps | apply State.modRing_keeps | apply State.setFld_keeps | refine Keeps.ite ?_ ?_ | split

theorem State.ringWord0_keeps {z : State} (s : State) (r : Nat) (v : Word) (hk : Keeps z s) :
    Keeps z (State.ringWord0 s r v) := by
  unfold State.ringWord0
  try dsimp only
  repeat' with_reducible first | assumption | apply State.sticky_keeps | apply State.setLv_keeps | apply State.ringOn_keeps | apply State.ringOff_keeps | refine Keeps.ite ?_ ?_ | split

theorem State.ringWrite_keeps {z : State} (s : State) (r w : Nat) (v : Word) (hk : Keeps z s) :
    Keeps z (State.ringWrite s r w v) := by
  unfold State.ringWrite
  try dsimp only
  repeat' with_reducible first | assumption | apply State.ringWord0_keeps | apply State.sticky_keeps | apply State.plainWrite_keeps | refine Keeps.ite ?_ ?_ | split

theorem ringEnable_keeps {z : State} (r : Nat) (v : Word) (s : State) (hk : Keeps z s) :
    Keeps z (ringEnable r v s) := by
  unfold ringEnable
  try dsimp only
  repeat' with_reducible first | assumption | apply State.ringWrite_keeps | refine Keeps.ite ?_ ?_ | split

theorem ringDisable_keeps {z : State} (r : Nat) (v : Word) (s : State) (hk : Keeps z s) :
    Keeps z (ringDisable r v s) := by
  unfold ringDisable
  try dsimp only
  repeat' with_reducible first | assumption | apply State.ringWrite_keeps | refine Keeps.ite ?_ ?_ | split

theorem ringFetchResume_keeps {z : State} (r : Nat) (v : Word) (s : State) (hk : Keeps z s) :
    Keeps z (ringFetchResume r v s) := by
  unfold ringFetchResume
  try dsimp only
  repeat' with_reducible first | assumption | apply State.ringWrite_keeps | refine Keeps.ite ?_ ?_ | split

theorem State.fetchStart_keeps {z : State} (s : State) (r seat : Nat) (hk : Keeps z s) :
    Keeps z (State.fetchStart s r seat) := by
  unfold State.fetchStart
  try dsimp only
  repeat' with_reducible first | assumption | apply State.ringFail_keeps | apply State.modRing_keeps | apply State.hostRead_keeps | refine Keeps.ite ?_ ?_ | split

theorem State.setMsix_keeps {z : State} (s : State) (p o : Nat) (v : Word) (hk : Keeps z s) :
    Keeps z (State.setMsix s p o v) := by
  unfold State.setMsix
  try dsimp only
  repeat' with_reducible first | assumption | refine Keeps.ite ?_ ?_ | simp only [Keeps.upd] | split

theorem State.setPba_keeps {z : State} (s : State) (p v : Nat) (b : Bool) (hk : Keeps z s) :
    Keeps z (State.setPba s p v b) := by
  unfold State.setPba
  try dsimp only
  repeat' with_reducible first | assumption | refine Keeps.ite ?_ ?_ | simp only [Keeps.upd] | split

theorem State.msixSend_keeps {z : State} (s : State) (p vec : Nat) (seat : Option Nat) (hk : Keeps z s) :
    Keeps z (State.msixSend s p vec seat) := by
  unfold State.msixSend
  try dsimp only
  repeat' with_reducible first | assumption | apply State.hostWrite_keeps | refine Keeps.ite ?_ ?_ | split

theorem State.msixFlush_keeps {z : State} (s : State) (p : Nat) (hk : Keeps z s) :
    Keeps z (State.msixFlush s p) := by
  unfold State.msixFlush
  try dsimp only
  repeat' with_reducible first | assumption | (refine State.each_keeps _ _ _ ?_ fun t a ht => ?_) | apply State.msixSend_keeps | apply State.setPba_keeps | refine Keeps.ite ?_ ?_ | split

theorem State.shadowOut_keeps {z : State} (s : State) (r seat : Nat) (hk : Keeps z s) :
    Keeps z (State.shadowOut s r seat) := by
  unfold State.shadowOut
  try dsimp only
  repeat' with_reducible first | assumption | apply State.hostWrite_keeps | apply State.modRing_keeps | refine Keeps.ite ?_ ?_ | split

theorem State.signal_keeps {z : State} (s : State) (r seat : Nat) (hk : Keeps z s) :
    Keeps z (State.signal s r seat) := by
  unfold State.signal
  try dsimp only
  repeat' with_reducible first | assumption | apply State.shadowOut_keeps | apply State.modRing_keeps | apply State.count_keeps | apply State.msixSend_keeps | apply State.setPba_keeps | apply State.syncIntx_keeps | refine Keeps.ite ?_ ?_ | split

theorem State.recordOut_keeps {z : State} (s : State) (r seat : Nat) (b : List Byte) (hk : Keeps z s) :
    Keeps z (State.recordOut s r seat b) := by
  unfold State.recordOut
  try dsimp only
  repeat' with_reducible first | assumption | apply State.hostWrite_keeps | apply State.setFld_keeps | apply State.modRing_keeps | apply State.signal_keeps | refine Keeps.ite ?_ ?_ | split

theorem recordWrite_keeps {z : State} (r : Nat) (s : State) (hk : Keeps z s) :
    Keeps z (recordWrite r s) := by
  unfold recordWrite
  try dsimp only
  repeat' with_reducible first | assumption | apply State.sticky_keeps | apply State.recordOut_keeps | apply State.modRing_keeps | refine Keeps.ite ?_ ?_ | split

theorem shadowWrite_keeps {z : State} (r : Nat) (s : State) (hk : Keeps z s) :
    Keeps z (shadowWrite r s) := by
  unfold shadowWrite
  try dsimp only
  repeat' with_reducible first | assumption | apply State.shadowOut_keeps | refine Keeps.ite ?_ ?_ | split

theorem irqModTimeout_keeps {z : State} (r : Nat) (s : State) (hk : Keeps z s) :
    Keeps z (irqModTimeout r s) := by
  unfold irqModTimeout
  try dsimp only
  repeat' with_reducible first | assumption | apply State.signal_keeps | refine Keeps.ite ?_ ?_ | split

theorem fabricFunctionPowerState_keeps {z : State} (p : Nat) (d3 : Bool) (s : State) (hk : Keeps z s) :
    Keeps z (fabricFunctionPowerState p d3 s) := by
  unfold fabricFunctionPowerState
  try dsimp only
  repeat' with_reducible first | assumption | apply State.modFab_keeps | apply State.syncIntx_keeps | apply State.msixFlush_keeps | refine Keeps.ite ?_ ?_ | split

theorem intxControlChange_keeps {z : State} (p : Nat) (intDisable msixEnable : Bool) (s : State) (hk : Keeps z s) :
    Keeps z (intxControlChange p intDisable msixEnable s) := by
  unfold intxControlChange
  try dsimp only
  repeat' with_reducible first | assumption | apply State.msixFlush_keeps | apply State.syncIntx_keeps | apply State.modFab_keeps | refine Keeps.ite ?_ ?_ | split

theorem msixUnmask_keeps {z : State} (p : Nat) (vec : Option Nat) (s : State) (hk : Keeps z s) :
    Keeps z (msixUnmask p vec s) := by
  unfold msixUnmask
  try dsimp only
  repeat' with_reducible first | assumption | apply State.setMsix_keeps | apply State.modFab_keeps | apply State.msixFlush_keeps | refine Keeps.ite ?_ ?_ | split

end Sys2Proof.Machine
end

