-- ==== Sys2Proof/Laws/KeepsPower.lean ====
section
/-! SUPPORT. Every operation of Machine/Power.lean keeps what `Keeps` says. -/

set_option linter.unusedTactic false
set_option linter.unreachableTactic false

namespace Sys2Proof.Machine

theorem State.deviceReset_keeps {z : State} (s : State) (cold : Bool) (cause : Nat) (hk : Keeps z s) :
    Keeps z (s.deviceReset cold cause) := by
  unfold State.deviceReset
  dsimp only
  have k : ∀ t : State, t.part = s.blowsLost.part → t.pending = s.blowsLost.pending → t.idCtr = s.blowsLost.idCtr →
      t.freeCtr = s.blowsLost.freeCtr → t.wire = s.blowsLost.wire → t.boot.fuseA = s.blowsLost.boot.fuseA →
      t.boot.fuseB = s.blowsLost.boot.fuseB → t.boot.flash = s.blowsLost.boot.flash → t.live = [] → t.set0 = [] →
      t.set1 = [] → Keeps z t := fun t h1 h2 h3 h4 h5 h6 h7 h8 h9 h10 h11 =>
    (State.blowsLost_keeps s hk).regs h1 h2 h3 h4 h5 h6 h7 fun q =>
      ⟨h9 ▸ twf_nil _, h10 ▸ twf_nil _, h11 ▸ twf_nil _, h8 ▸ q.2.2.2⟩
  repeat' with_reducible first | (refine State.each_keeps _ _ _ ?_ fun t a ht => ?_) | apply State.setLv_keeps | apply State.sticky_keeps | apply State.setFld_keeps | apply State.setFlag_keeps | refine Keeps.ite ?_ ?_ | assumption | (exact k _ rfl rfl rfl rfl rfl rfl rfl rfl rfl rfl rfl)

theorem State.resetAsk_keeps {z : State} (s : State) (cold : Bool) (hk : Keeps z s) :
    Keeps z (State.resetAsk s cold) := by
  unfold State.resetAsk
  try dsimp only
  repeat' with_reducible first | assumption | apply State.deviceReset_keeps | (refine State.modBoot_keeps _ _ ?_ (fun _ q => q) (fun _ q => q) (fun q => q)) | refine Keeps.ite ?_ ?_ | split

theorem State.resetCtrlAct_keeps {z : State} (s : State) (via : Via) (v : Word) (hk : Keeps z s) :
    Keeps z (State.resetCtrlAct s via v) := by
  unfold State.resetCtrlAct
  try dsimp only
  repeat' with_reducible first | assumption | apply State.sticky_keeps | apply State.plainWrite_keeps | apply State.loseTile_keeps | apply State.resetAsk_keeps | apply State.ilulysRestart_keeps | refine Keeps.ite ?_ ?_ | split

theorem State.resetWrite_keeps {z : State} (s : State) (via : Via) (v : Word) (hk : Keeps z s) :
    Keeps z (State.resetWrite s via v) := by
  unfold State.resetWrite
  try dsimp only
  repeat' with_reducible first | assumption | apply State.resetCtrlAct_keeps | refine Keeps.ite ?_ ?_ | split

theorem warmReset_keeps {z : State} (via : Via) (v : Word) (s : State) (hk : Keeps z s) :
    Keeps z (warmReset via v s) := by
  unfold warmReset
  try dsimp only
  repeat' with_reducible first | assumption | apply State.resetWrite_keeps | refine Keeps.ite ?_ ?_ | split

theorem coldReset_keeps {z : State} (via : Via) (v : Word) (s : State) (hk : Keeps z s) :
    Keeps z (coldReset via v s) := by
  unfold coldReset
  try dsimp only
  repeat' with_reducible first | assumption | apply State.resetWrite_keeps | refine Keeps.ite ?_ ?_ | split

theorem tileReset_keeps {z : State} (via : Via) (v : Word) (s : State) (hk : Keeps z s) :
    Keeps z (tileReset via v s) := by
  unfold tileReset
  try dsimp only
  repeat' with_reducible first | assumption | apply State.resetWrite_keeps | refine Keeps.ite ?_ ?_ | split

theorem keyErr_keeps {z : State} (via : Via) (v : Word) (s : State) (hk : Keeps z s) :
    Keeps z (keyErr via v s) := by
  unfold keyErr
  try dsimp only
  repeat' with_reducible first | assumption | apply State.resetWrite_keeps | refine Keeps.ite ?_ ?_ | split

theorem sysReset_keeps {z : State} (s : State) (hk : Keeps z s) :
    Keeps z (sysReset s) := by
  unfold sysReset
  try dsimp only
  repeat' with_reducible first | assumption | apply State.deviceReset_keeps | refine Keeps.ite ?_ ?_ | split

theorem State.serdesDown_keeps {z : State} (s : State) (t : Nat) (hk : Keeps z s) :
    Keeps z (State.serdesDown s t) := by
  unfold State.serdesDown
  try dsimp only
  repeat' with_reducible first | assumption | (refine State.each_keeps _ _ _ ?_ fun t a ht => ?_) | apply State.setFlag_keeps | apply State.portDown_keeps | refine Keeps.ite ?_ ?_ | split

theorem State.serdesUp_keeps {z : State} (s : State) (t : Nat) (hk : Keeps z s) :
    Keeps z (State.serdesUp s t) := by
  unfold State.serdesUp
  try dsimp only
  repeat' with_reducible first | assumption | apply State.setFlag_keeps | refine Keeps.ite ?_ ?_ | split

theorem vauxInputLost_keeps {z : State} (b : Bool) (s : State) (hk : Keeps z s) :
    Keeps z (vauxInputLost b s) := by
  unfold vauxInputLost
  try dsimp only
  repeat' with_reducible first | assumption | apply State.modPwr_keeps | apply State.sticky_keeps | apply State.countHk_keeps | refine Keeps.ite ?_ ?_ | split

theorem vauxLoss_keeps {z : State} (s : State) (hk : Keeps z s) : Keeps z (vauxLoss s) := by
  unfold vauxLoss
  refine State.setLv_keeps _ _ _ ?_
  refine (State.blowsLost_keeps _ (State.each_keeps _ _ _ hk fun t a ht => State.svcLost_keeps _ _ ht)).regs
    rfl rfl rfl rfl rfl rfl rfl fun q => ⟨twf_filter _ q.1, q.2⟩

theorem railGood_keeps {z : State} (r : Rail) (s : State) (hk : Keeps z s) :
    Keeps z (railGood r s) := by
  unfold railGood
  try dsimp only
  repeat' with_reducible first | assumption | apply State.modPwr_keeps | apply State.serdesUp_keeps | refine Keeps.ite ?_ ?_ | split

theorem railLost_keeps {z : State} (r : Rail) (s : State) (hk : Keeps z s) :
    Keeps z (railLost r s) := by
  unfold railLost
  try dsimp only
  repeat' with_reducible first | assumption | apply State.loseTile_keeps | apply State.modPwr_keeps | apply State.serdesDown_keeps | apply State.sticky_keeps | apply vauxInputLost_keeps | apply vauxLoss_keeps | refine Keeps.ite ?_ ?_ | split

theorem State.refSwitch_keeps {z : State} (s : State) (within : Bool) (hk : Keeps z s) :
    Keeps z (State.refSwitch s within) := by
  unfold State.refSwitch
  try dsimp only
  repeat' with_reducible first | assumption | apply State.setFlag_keeps | apply State.sticky_keeps | apply State.setFld_keeps | apply State.modPwr_keeps | refine Keeps.ite ?_ ?_ | split

theorem State.refHold_keeps {z : State} (s : State) (hk : Keeps z s) :
    Keeps z (State.refHold s) := by
  unfold State.refHold
  try dsimp only
  repeat' with_reducible first | assumption | apply State.setFlag_keeps | (refine State.each_keeps _ _ _ ?_ fun t a ht => ?_) | apply quadPllLol_keeps | apply State.portDown_keeps | apply State.modPwr_keeps | refine Keeps.ite ?_ ?_ | split

theorem refclkBad_keeps {z : State} (b within : Bool) (s : State) (hk : Keeps z s) :
    Keeps z (refclkBad b within s) := by
  unfold refclkBad
  try dsimp only
  repeat' with_reducible first | assumption | apply State.setFlag_keeps | apply State.refHold_keeps | apply State.countHk_keeps | apply State.refSwitch_keeps | refine Keeps.ite ?_ ?_ | split

theorem refclkGood_keeps {z : State} (b spread : Bool) (s : State) (hk : Keeps z s) :
    Keeps z (refclkGood b spread s) := by
  unfold refclkGood
  try dsimp only
  repeat' with_reducible first | assumption | apply State.setFlag_keeps | apply State.refSwitch_keeps | refine Keeps.ite ?_ ?_ | split

theorem refclkRevert_keeps {z : State} (within : Bool) (s : State) (hk : Keeps z s) :
    Keeps z (refclkRevert within s) := by
  unfold refclkRevert
  try dsimp only
  repeat' with_reducible first | assumption | apply State.refSwitch_keeps | refine Keeps.ite ?_ ?_ | split

theorem State.clkCtrlAct_keeps {z : State} (s : State) (v : Word) (within : Bool) (hk : Keeps z s) :
    Keeps z (State.clkCtrlAct s v within) := by
  unfold State.clkCtrlAct
  try dsimp only
  repeat' with_reducible first | assumption | apply State.plainWrite_keeps | apply refclkBad_keeps | apply State.refSwitch_keeps | refine Keeps.ite ?_ ?_ | split

theorem refclkForce_keeps {z : State} (v : Word) (within : Bool) (s : State) (hk : Keeps z s) :
    Keeps z (refclkForce v within s) := by
  unfold refclkForce
  try dsimp only
  repeat' with_reducible first | assumption | apply State.clkCtrlAct_keeps | refine Keeps.ite ?_ ?_ | split

theorem corePllRelock_keeps {z : State} (t : Nat) (s : State) (hk : Keeps z s) :
    Keeps z (corePllRelock t s) := by
  unfold corePllRelock
  try dsimp only
  repeat' with_reducible first | assumption | apply State.modPwr_keeps | refine Keeps.ite ?_ ?_ | split

theorem strapSample_keeps {z : State} (vddIoGood a0 a1 : Bool) (s : State) (hk : Keeps z s) :
    Keeps z (strapSample vddIoGood a0 a1 s) := by
  unfold strapSample
  try dsimp only
  repeat' with_reducible first | assumption | apply State.modPwr_keeps | refine Keeps.ite ?_ ?_ | split

theorem tempSample_keeps {z : State} (t : Nat) (sensors : List Int) (s : State) (hk : Keeps z s) :
    Keeps z (tempSample t sensors s) := by
  unfold tempSample
  try dsimp only
  repeat' with_reducible first | assumption | apply State.modPwr_keeps | apply State.setFld_keeps | apply State.sticky_keeps | apply State.eventMgr_keeps | refine Keeps.ite ?_ ?_ | split

theorem tileOvertemp_keeps {z : State} (t : Nat) (s : State) (hk : Keeps z s) :
    Keeps z (tileOvertemp t s) := by
  unfold tileOvertemp
  try dsimp only
  repeat' with_reducible first | assumption | apply State.loseTile_keeps | apply State.modPwr_keeps | refine Keeps.ite ?_ ?_ | split

end Sys2Proof.Machine
end

