-- ==== Sys2Proof/Laws/KeepsTrust.lean ====
section
/-! SUPPORT. Every operation of Machine/Trust.lean keeps what `Keeps` says. -/

set_option linter.unusedTactic false
set_option linter.unreachableTactic false

namespace Sys2Proof.Machine

theorem State.fuseSelAct_keeps {z : State} (s : State) (v : Word) (hk : Keeps z s) :
    Keeps z (State.fuseSelAct s v) := by
  unfold State.fuseSelAct
  try dsimp only
  repeat' with_reducible first | assumption | (refine State.modBoot_keeps _ _ ?_ (fun _ q => q) (fun _ q => q) (fun q => q)) | apply State.setFlag_keeps | apply State.plainWrite_keeps | refine Keeps.ite ?_ ?_ | split

theorem fuseSelectDone_keeps {z : State} (s : State) (hk : Keeps z s) :
    Keeps z (fuseSelectDone s) := by
  unfold fuseSelectDone
  try dsimp only
  repeat' with_reducible first | assumption | (refine State.modBoot_keeps _ _ ?_ (fun _ q => q) (fun _ q => q) (fun q => q)) | apply State.setFlag_keeps | apply State.setLv_keeps | refine Keeps.ite ?_ ?_ | split

theorem State.fuseProgAct_keeps {z : State} (s : State) (v : Word) (hk : Keeps z s) :
    Keeps z (State.fuseProgAct s v) := by
  unfold State.fuseProgAct
  try dsimp only
  repeat' with_reducible first | assumption | apply State.setFlag_keeps | apply State.plainWrite_keeps | (refine State.modBoot_keeps _ _ ?_ (fun _ q => q) (fun _ q => q) (fun q => q)) | apply State.countHk_keeps | apply State.setFld_keeps | refine Keeps.ite ?_ ?_ | split

theorem fuseBlow_keeps {z : State} (via : Via) (v : Word) (s : State) (hk : Keeps z s) :
    Keeps z (fuseBlow via v s) := by
  unfold fuseBlow
  try dsimp only
  repeat' with_reducible first | assumption | apply State.fuseProgAct_keeps | refine Keeps.ite ?_ ?_ | split

theorem fuseBlowDone_keeps {z : State} (verified : Bool) (s : State) (hk : Keeps z s) :
    Keeps z (fuseBlowDone verified s) := by
  unfold fuseBlowDone
  split
  · exact hk
  · rename_i n ns _
    have k : Keeps z (s.used.modBoot fun b => { b with
        blows := ns
        fuseA := if verified || s.freeBelow 4 % 2 = 1 then b.fuseA ||| BitVec.ofNat 2048 (2 ^ n) else b.fuseA
        fuseB := if verified || s.freeBelow 4 / 2 = 1 then b.fuseB ||| BitVec.ofNat 2048 (2 ^ n) else b.fuseB }) :=
      State.modBoot_keeps _ _ (State.used_keeps _ hk) (fun i q => bit_or_keeps _ _ i q)
        (fun i q => bit_or_keeps _ _ i q) fun q => q
    dsimp only at k ⊢
    repeat' with_reducible first | assumption | apply State.setFlag_keeps | apply State.setFld_keeps | apply State.countHk_keeps | apply State.deviceReset_keeps | refine Keeps.ite ?_ ?_ | split

theorem State.attAct_keeps {z : State} (s : State) (v : Word) (hk : Keeps z s) :
    Keeps z (State.attAct s v) := by
  unfold State.attAct
  try dsimp only
  repeat' with_reducible first | assumption | (refine State.modBoot_keeps _ _ ?_ (fun _ q => q) (fun _ q => q) (fun q => q)) | apply State.setFlag_keeps | apply State.plainWrite_keeps | refine Keeps.ite ?_ ?_ | split

theorem State.attWrite_keeps {z : State} (s : State) (v : Word) (hk : Keeps z s) :
    Keeps z (State.attWrite s v) := by
  unfold State.attWrite
  try dsimp only
  repeat' with_reducible first | assumption | apply State.attAct_keeps | refine Keeps.ite ?_ ?_ | split

theorem State.bootRest_keeps {z : State} (s : State) (f : BootSt → BootSt) (ha : ∀ b, (f b).fuseA = b.fuseA)
    (hb : ∀ b, (f b).fuseB = b.fuseB) (hm : ∀ b, (f b).flash = b.flash) (hk : Keeps z s) : Keeps z (s.modBoot f) :=
  State.modBoot_keeps _ _ hk (fun _ q => by rw [ha]; exact q) (fun _ q => by rw [hb]; exact q) (fun q => by rw [hm]; exact q)

theorem attDone_keeps {z : State} (s : State) (hk : Keeps z s) : Keeps z (attDone s) := by
  have fin : ∀ u : State, Keeps z u →
      Keeps z ((u.setFlag attCtrl 31 true).modBoot fun b => { b with attOp := none }) := fun u h =>
    State.bootRest_keeps _ _ (fun _ => rfl) (fun _ => rfl) (fun _ => rfl) (State.setFlag_keeps u attCtrl 31 true h)
  have put : ∀ (u : State) (d : List Byte), Keeps z u →
      Keeps z (u.modBoot fun b => { b with att := d ++ b.att.drop d.length }) := fun u d h =>
    State.bootRest_keeps _ _ (fun _ => rfl) (fun _ => rfl) (fun _ => rfl) h
  have runs : ∀ u : State, Keeps z u → Keeps z (u.modBoot fun b => { b with attRuns := b.attRuns + 1 }) := fun u h =>
    State.bootRest_keeps _ _ (fun _ => rfl) (fun _ => rfl) (fun _ => rfl) h
  unfold attDone
  split
  · exact hk
  · split
    · exact hk
    · split
      · split
        · exact hk
        · exact State.countHk_keeps _ _ (runs _ (fin _ (put _ _ hk)))
      · split
        · split
          · exact hk
          · exact fin _ (put _ _ hk)
        · exact fin _ (State.setLv_keeps _ _ _ (State.used_keeps _ hk))

theorem devkeyReady_keeps {z : State} (s : State) (hk : Keeps z s) :
    Keeps z (devkeyReady s) := by
  unfold devkeyReady
  try dsimp only
  repeat' with_reducible first | assumption | apply State.setFlag_keeps | refine Keeps.ite ?_ ?_ | split

theorem State.setFlash_keeps {z : State} (s : State) (a : Nat) (b : Byte) (hk : Keeps z s) : Keeps z (s.setFlash a b) :=
  State.modBoot_keeps _ _ hk (fun _ q => q) (fun _ q => q) fun q => twf_tset (d := fun _ => 0xFF#8) _ _ q

theorem State.flashAct_keeps {z : State} (s : State) (v : Word) (hk : Keeps z s) :
    Keeps z (State.flashAct s v) := by
  unfold State.flashAct
  try dsimp only
  repeat' with_reducible first | assumption | apply State.setFlag_keeps | apply State.plainWrite_keeps | (refine State.modBoot_keeps _ _ ?_ (fun _ q => q) (fun _ q => q) (fun q => q)) | apply State.sticky_keeps | refine Keeps.ite ?_ ?_ | split

theorem State.flashWrite_keeps {z : State} (s : State) (v : Word) (hk : Keeps z s) :
    Keeps z (State.flashWrite s v) := by
  unfold State.flashWrite
  try dsimp only
  repeat' with_reducible first | assumption | apply State.flashAct_keeps | refine Keeps.ite ?_ ?_ | split

theorem State.flashRead_keeps {z : State} (s : State) (a : Nat) (hk : Keeps z s) :
    Keeps z (State.flashRead s a) := by
  unfold State.flashRead
  try dsimp only
  repeat' with_reducible first | assumption | (refine State.each_keeps _ _ _ ?_ fun t a ht => ?_) | apply State.setLv_keeps | refine Keeps.ite ?_ ?_ | split

theorem State.flashProgram_keeps {z : State} (s : State) (a : Nat) (hk : Keeps z s) :
    Keeps z (State.flashProgram s a) := by
  unfold State.flashProgram
  try dsimp only
  repeat' with_reducible first | assumption | (refine State.each_keeps _ _ _ ?_ fun t a ht => ?_) | apply State.setFlash_keeps | refine Keeps.ite ?_ ?_ | split

theorem State.flashErase_keeps {z : State} (s : State) (a : Nat) (hk : Keeps z s) :
    Keeps z (State.flashErase s a) := by
  unfold State.flashErase
  try dsimp only
  repeat' with_reducible first | assumption | (refine State.each_keeps _ _ _ ?_ fun t a ht => ?_) | apply State.setFlash_keeps | refine Keeps.ite ?_ ?_ | split

theorem flashDone_keeps {z : State} (s : State) (hk : Keeps z s) :
    Keeps z (flashDone s) := by
  unfold flashDone
  try dsimp only
  repeat' with_reducible first | assumption | apply State.flashProgram_keeps | apply State.flashErase_keeps | apply State.flashRead_keeps | (refine State.modBoot_keeps _ _ ?_ (fun _ q => q) (fun _ q => q) (fun q => q)) | apply State.setFlag_keeps | refine Keeps.ite ?_ ?_ | split

theorem jtagInstruction_keeps {z : State} (isPrivate : Bool) (code : Nat) (s : State) (hk : Keeps z s) :
    Keeps z (jtagInstruction isPrivate code s) := by
  unfold jtagInstruction
  try dsimp only
  repeat' with_reducible first | assumption | (refine State.modBoot_keeps _ _ ?_ (fun _ q => q) (fun _ q => q) (fun q => q)) | refine Keeps.ite ?_ ?_ | split

end Sys2Proof.Machine
end

