-- ==== Sys2Proof/Laws/KeepsRegBus.lean ====
section
/-! SUPPORT. Every operation of Machine/RegBus.lean keeps what `Keeps` says. -/

set_option linter.unusedTactic false
set_option linter.unreachableTactic false

namespace Sys2Proof.Machine

theorem State.instWrite_keeps {z : State} (s : State) (agent o : Nat) (v : Word) (hk : Keeps z s) :
    Keeps z (State.instWrite s agent o v) := by
  unfold State.instWrite
  try dsimp only
  repeat' with_reducible first | assumption | apply State.setLv_keeps | refine Keeps.ite ?_ ?_ | split

theorem State.stopAct_keeps {z : State} (s : State) (agent t : Nat) (v : Word) (hk : Keeps z s) :
    Keeps z (State.stopAct s agent t v) := by
  unfold State.stopAct
  try dsimp only
  repeat' with_reducible first | assumption | apply State.setLv_keeps | refine State.issueStop_keeps ?_ (by assumption) | apply State.issueStop_keeps' | apply State.setFlag_keeps | refine Keeps.ite ?_ ?_ | simp only [Keeps.upd] | simp only [id] | split

theorem State.ilulysWrite_keeps {z : State} (s : State) (via : Via) (o : Nat) (v : Word) (hk : Keeps z s) :
    Keeps z (State.ilulysWrite s via o v) := by
  unfold State.ilulysWrite
  try dsimp only
  repeat' with_reducible first | assumption | apply State.fuseSelAct_keeps | apply State.fuseProgAct_keeps | apply State.attAct_keeps | apply State.flashAct_keeps | apply State.clkCtrlAct_keeps | apply State.used_keeps | apply State.resetCtrlAct_keeps | apply State.tmFields_keeps | apply State.todLoadAct_keeps | apply State.checkAct_keeps | apply State.armAct_keeps | apply State.abortAct_keeps | apply ftSnap_keeps | apply understudyRead_keeps | apply State.spCtrlAct_keeps | apply State.spCfgAct_keeps | apply State.plainWrite_keeps | apply State.seqAct_keeps | refine Keeps.ite ?_ ?_ | split

theorem State.globalWrite_keeps {z : State} (s : State) (agent : Nat) (o : Nat) (v : Word) (hk : Keeps z s) :
    Keeps z (State.globalWrite s agent o v) := by
  unfold State.globalWrite
  try dsimp only
  repeat' with_reducible first | assumption | apply State.cntAct_keeps | apply State.snapAct_keeps | apply State.boCfgAct_keeps | apply State.boIndexAct_keeps | apply windowTableInit_keeps | apply State.sticky_keeps | apply State.plainWrite_keeps | apply qpTableInit_keeps | apply State.mbxCtrlWrite_keeps | apply State.mbxWrite_keeps | apply State.ringWrite_keeps | refine Keeps.ite ?_ ?_ | split

theorem State.tileWrite_keeps {z : State} (s : State) (via : Via) (agent t r : Nat) (v : Word) (hk : Keeps z s) :
    Keeps z (State.tileWrite s via agent t r v) := by
  unfold State.tileWrite
  try dsimp only
  repeat' with_reducible first | assumption | apply State.ticketAct_keeps | apply State.coreCtrlAct_keeps | apply State.xgCtrlAct_keeps | apply State.apContAct_keeps | apply State.backlogAct_keeps | apply State.stopAct_keeps | apply State.progAct_keeps | apply State.histAct_keeps | apply State.capAct_keeps | apply State.eccCtrlWrite_keeps | apply State.stCtrlWrite_keeps | apply State.puCtrlWrite_keeps | apply State.puEditAct_keeps | apply State.instWrite_keeps | apply State.plainWrite_keeps | refine Keeps.ite ?_ ?_ | split

theorem State.pbWrite_keeps {z : State} (s : State) (agent pb r : Nat) (v : Word) (hk : Keeps z s) :
    Keeps z (State.pbWrite s agent pb r v) := by
  unfold State.pbWrite
  try dsimp only
  repeat' with_reducible first | assumption | apply State.laneCtrlAct_keeps | apply State.testAct_keeps | apply State.marginAct_keeps | apply State.laneMbxAct_keeps | apply State.instWrite_keeps | apply State.lkInject_keeps | apply State.takeoverAct_keeps | apply State.plainWrite_keeps | refine Keeps.ite ?_ ?_ | split

theorem State.msixWrite_keeps {z : State} (s : State) (p o : Nat) (v : Word) (hk : Keeps z s) :
    Keeps z (State.msixWrite s p o v) := by
  unfold State.msixWrite
  try dsimp only
  repeat' with_reducible first | assumption | apply State.msixFlush_keeps | apply State.setMsix_keeps | refine Keeps.ite ?_ ?_ | split

theorem State.regWrite_keeps {z : State} (s : State) (via : Via) (o : Nat) (v : Word) (hk : Keeps z s) :
    Keeps z (State.regWrite s via o v) := by
  unfold State.regWrite
  try dsimp only
  repeat' with_reducible first | assumption | apply State.msixWrite_keeps | apply State.setWrite_keeps | apply State.ilulysWrite_keeps | apply State.globalWrite_keeps | apply State.tileWrite_keeps | apply State.pbWrite_keeps | refine Keeps.ite ?_ ?_ | split

end Sys2Proof.Machine
end

