-- ==== Sys2Proof/Laws/KeepsIngress.lean ====
section
/-! SUPPORT. Every operation of Machine/Ingress.lean keeps what `Keeps` says. -/

set_option linter.unusedTactic false
set_option linter.unreachableTactic false

namespace Sys2Proof.Machine

theorem State.rxTlp_keeps {z : State} (s : State) (port cls n : Nat) (hk : Keeps z s) :
    Keeps z (State.rxTlp s port cls n) := by
  unfold State.rxTlp
  try dsimp only
  repeat' with_reducible first | assumption | apply State.emit_keeps | apply State.modPort_keeps | refine Keeps.ite ?_ ?_ | split

theorem State.creditOut_keeps {z : State} (s : State) (port : Nat) (hk : Keeps z s) :
    Keeps z (State.creditOut s port) := by
  unfold State.creditOut
  try dsimp only
  repeat' with_reducible first | assumption | (refine State.each_keeps _ _ _ ?_ fun t a ht => ?_) | apply State.emit_keeps | apply State.modPort_keeps | refine Keeps.ite ?_ ?_ | split

theorem State.tlpIn_keeps {z : State} (s : State) (port cls n : Nat) (f : State → State) (hk : Keeps z s)
    (hf : ∀ t, Keeps z t → Keeps z (f t)) : Keeps z (s.tlpIn port cls n f) :=
  State.creditOut_keeps _ _ (hf _ (State.rxTlp_keeps _ _ _ _ hk))

theorem State.take_keeps {z : State} (s : State) (port : Nat) (p : Packet) (hk : Keeps z s) :
    Keeps z (State.take s port p) := by
  unfold State.take
  try dsimp only
  repeat' with_reducible first | assumption | apply State.ingress_keeps | refine Keeps.ite ?_ ?_ | split

theorem State.endHere_keeps {z : State} (s : State) (port : Nat) (p : Packet) (c : EndCause) (hk : Keeps z s) :
    Keeps z (State.endHere s port p c) := by
  unfold State.endHere
  try dsimp only
  repeat' with_reducible first | assumption | apply State.countDrop_keeps | apply State.synthUr_keeps | apply State.endEng_keeps | refine Keeps.ite ?_ ?_ | split

theorem State.unsupported_keeps {z : State} (s : State) (port : Nat) (p : Packet) (hk : Keeps z s) :
    Keeps z (State.unsupported s port p) := by
  unfold State.unsupported
  try dsimp only
  repeat' with_reducible first | assumption | apply State.replyUr_keeps | apply State.modBo_keeps | refine Keeps.ite ?_ ?_ | split

theorem State.sendTo_keeps {z : State} (s : State) (port : Nat) (p : Packet) (tgt : Nat) (hk : Keeps z s) :
    Keeps z (State.sendTo s port p tgt) := by
  unfold State.sendTo
  try dsimp only
  repeat' with_reducible first | assumption | apply State.take_keeps | apply State.endHere_keeps | refine Keeps.ite ?_ ?_ | split

theorem State.sendFar_keeps {z : State} (s : State) (port : Nat) (p : Packet) (fid : Nat) (hk : Keeps z s) :
    Keeps z (State.sendFar s port p fid) := by
  unfold State.sendFar
  try dsimp only
  repeat' with_reducible first | assumption | apply State.sendTo_keeps | apply State.count_keeps | apply State.endHere_keeps | apply State.modBo_keeps | refine Keeps.ite ?_ ?_ | split

theorem State.toFunction_keeps {z : State} (s : State) (port : Nat) (p : Packet) (f : Nat) (hk : Keeps z s) :
    Keeps z (State.toFunction s port p f) := by
  unfold State.toFunction
  try dsimp only
  repeat' with_reducible first | assumption | apply State.endHere_keeps | apply State.sendTo_keeps | apply State.sendFar_keeps | refine Keeps.ite ?_ ?_ | split

theorem State.copies_keeps {z : State} (s : State) (port : Nat) (p : Packet) (ports : List Nat) (hk : Keeps z s) :
    Keeps z (State.copies s port p ports) := by
  unfold State.copies
  try dsimp only
  repeat' with_reducible first | assumption | (refine State.each_keeps _ _ _ ?_ fun t a ht => ?_) | apply State.take_keeps | apply State.endHere_keeps | refine Keeps.ite ?_ ?_ | split

theorem State.badTlp_keeps {z s' : State} {s : State} {port p d : Nat} {r : Req} {mps : Nat} (hk : Keeps z s)
    (he' : s.badTlp port p d r mps = some s') : Keeps z s' := by
  unfold State.badTlp at he'
  split at he'
  · injection he' with he'
    exact he' ▸ State.logAer_keeps _ _ _ _ (State.count_keeps _ _ _ _ _ hk)
  · split at he'
    · injection he' with he'
      exact he' ▸ State.logAer_keeps _ _ _ _ (State.count_keeps _ _ _ _ _ hk)
    · simp at he'

theorem State.notePoison_keeps {z : State} (s : State) (port p d : Nat) (poisoned : Bool) (hk : Keeps z s) :
    Keeps z (State.notePoison s port p d poisoned) := by
  unfold State.notePoison
  try dsimp only
  repeat' with_reducible first | assumption | apply State.logAer_keeps | apply State.count_keeps | refine Keeps.ite ?_ ?_ | split

theorem State.bar0_keeps {z : State} (s : State) (e : Bool) (p : Nat) (who : Requester) (up : Bool) (r : Req) (hk : Keeps z s) :
    Keeps z (State.bar0 s e p who up r) := by
  unfold State.bar0
  try dsimp only
  repeat' with_reducible first | assumption | apply State.poisonedWrite_keeps | apply State.logFabAer_keeps | apply State.regWrite_keeps | apply State.count_keeps | apply State.barReply_keeps | refine Keeps.ite ?_ ?_ | simp only [id] | split

theorem State.bar2_keeps {z : State} (s : State) (e : Bool) (p : Nat) (who : Requester) (r : Req) (hk : Keeps z s) :
    Keeps z (State.bar2 s e p who r) := by
  unfold State.bar2
  try dsimp only
  repeat' with_reducible first | assumption | apply bar2Atomic_keeps | apply ringDoorbell_keeps | apply poolDoorbell_keeps | refine State.mailbox_keeps _ _ _ _ _ _ ?_ fun t ht => ?_ | apply State.mbxFlagsWrite_keeps | apply mbxT2mWrite_keeps | apply State.poisonedWrite_keeps | apply State.count_keeps | apply State.barReply_keeps | apply fenceRead_keeps | refine Keeps.ite ?_ ?_ | simp only [id] | split

theorem State.barAccess_keeps {z : State} (s : State) (e : Bool) (p : Nat) (who : Requester) (up : Bool) (r : Req) (bar : Nat) (hk : Keeps z s) :
    Keeps z (State.barAccess s e p who up r bar) := by
  unfold State.barAccess
  try dsimp only
  repeat' with_reducible first | assumption | apply State.bar0_keeps | apply State.bar2_keeps | apply State.bar4_keeps | refine Keeps.ite ?_ ?_ | split

theorem State.multicast_keeps {z : State} (s : State) (port p d g : Nat) (q : Packet) (hk : Keeps z s) :
    Keeps z (State.multicast s port p d g q) := by
  unfold State.multicast
  try dsimp only
  repeat' with_reducible first | assumption | apply State.modBo_keeps | apply State.count_keeps | apply State.logAer_keeps | (refine State.each_keeps _ _ _ ?_ fun t a ht => ?_) | apply State.countDrop_keeps | apply State.copies_keeps | apply State.sendFar_keeps | refine Keeps.ite ?_ ?_ | split

theorem State.hostRequest_keeps {z : State} (s : State) (port p : Nat) (r : Req) (hk : Keeps z s) :
    Keeps z (State.hostRequest s port p r) := by
  unfold State.hostRequest
  try dsimp only
  repeat' with_reducible first | assumption | refine State.badTlp_keeps ?_ (by assumption) | apply State.unsupported_keeps | apply State.barAccess_keeps | apply State.endHere_keeps | apply State.notePoison_keeps | apply State.multicast_keeps | apply State.toFunction_keeps | apply State.logAer_keeps | apply State.count_keeps | refine Keeps.ite ?_ ?_ | split

theorem hostMemoryRequest_keeps {z : State} (port : Nat) (r : Req) (s : State) (hk : Keeps z s) :
    Keeps z (hostMemoryRequest port r s) := by
  unfold hostMemoryRequest
  try dsimp only
  repeat' with_reducible first | assumption | apply State.hold_keeps | apply State.hostRequest_keeps | refine Keeps.ite ?_ ?_ | split

theorem State.srcInvalid_keeps {z : State} (s : State) (port : Nat) (q : Packet) (hk : Keeps z s) :
    Keeps z (State.srcInvalid s port q) := by
  unfold State.srcInvalid
  try dsimp only
  repeat' with_reducible first | assumption | apply State.unsupported_keeps | apply State.count_keeps | refine Keeps.ite ?_ ?_ | split

theorem State.functionRoute_keeps {z : State} (s : State) (port f : Nat) (r : Req) (q : Packet) (hk : Keeps z s) :
    Keeps z (State.functionRoute s port f r q) := by
  unfold State.functionRoute
  try dsimp only
  repeat' with_reducible first | assumption | apply State.sendTo_keeps | apply State.unsupported_keeps | apply State.logAer_keeps | apply State.endHere_keeps | apply State.multicast_keeps | apply State.notePoison_keeps | apply State.barAccess_keeps | apply State.toFunction_keeps | refine Keeps.ite ?_ ?_ | split

theorem State.functionRequest_keeps {z : State} (s : State) (port : Nat) (r : Req) (hk : Keeps z s) :
    Keeps z (State.functionRequest s port r) := by
  unfold State.functionRequest
  try dsimp only
  repeat' with_reducible first | assumption | refine State.badTlp_keeps ?_ (by assumption) | apply State.srcInvalid_keeps | apply State.logAer_keeps | apply State.unsupported_keeps | apply State.sendFar_keeps | apply State.notePoison_keeps | apply State.endHere_keeps | apply State.functionRoute_keeps | refine Keeps.ite ?_ ?_ | split

theorem functionMemoryRequest_keeps {z : State} (port : Nat) (r : Req) (s : State) (hk : Keeps z s) :
    Keeps z (functionMemoryRequest port r s) := by
  unfold functionMemoryRequest
  try dsimp only
  repeat' with_reducible first | assumption | apply State.hold_keeps | apply State.functionRequest_keeps | refine Keeps.ite ?_ ?_ | split

end Sys2Proof.Machine
end

