-- ==== Sys2Proof/Laws/KeepsCfgSpace.lean ====
section
/-! SUPPORT. Every operation of Machine/CfgSpace.lean keeps what `Keeps` says. -/

set_option linter.unusedTactic false
set_option linter.unreachableTactic false

namespace Sys2Proof.Machine

theorem State.slotWrite_keeps {z : State} (s : State) (p d : Nat) (v w : Word) (hk : Keeps z s) :
    Keeps z (State.slotWrite s p d v w) := by
  unfold State.slotWrite
  try dsimp only
  repeat' with_reducible first | assumption | apply State.modSlot_keeps | apply slotIndicatorWrite_keeps | apply slotPowerOff_keeps | apply slotPowerOn_keeps | refine Keeps.ite ?_ ?_ | split

theorem State.dpcCtrlWrite_keeps {z : State} (s : State) (p d : Nat) (v w : Word) (hk : Keeps z s) :
    Keeps z (State.dpcCtrlWrite s p d v w) := by
  unfold State.dpcCtrlWrite
  try dsimp only
  repeat' with_reducible first | assumption | apply State.modVport_keeps | apply dpcTrigger_keeps | refine Keeps.ite ?_ ?_ | split

theorem State.linkWrite_keeps {z : State} (s : State) (e : Bool) (p d : Nat) (v : Word) (hk : Keeps z s) :
    Keeps z (State.linkWrite s e p d v) := by
  unfold State.linkWrite
  try dsimp only
  repeat' with_reducible first | assumption | apply State.modVport_keeps | apply State.portDown_keeps | refine Keeps.ite ?_ ?_ | split

theorem State.dropCopies_keeps {z : State} (s : State) (e : Bool) (f : Nat) (hk : Keeps z s) :
    Keeps z (State.dropCopies s e f) := by
  unfold State.dropCopies
  try dsimp only
  repeat' with_reducible first | assumption | refine Keeps.ite ?_ ?_ | simp only [Keeps.upd] | split

theorem State.sendFlr_keeps {z : State} (s : State) (e : Bool) (p f : Nat) (hk : Keeps z s) :
    Keeps z (State.sendFlr s e p f) := by
  unfold State.sendFlr
  try dsimp only
  repeat' with_reducible first | assumption | apply State.count_keeps | apply State.form_keeps | refine Keeps.ite ?_ ?_ | split

theorem State.busResetDown_keeps {z : State} (s : State) (p d : Nat) (hk : Keeps z s) :
    Keeps z (State.busResetDown s p d) := by
  unfold State.busResetDown
  try dsimp only
  repeat' with_reducible first | assumption | apply State.portDown_keeps | (refine State.each_keeps _ _ _ ?_ fun t a ht => ?_) | apply State.sendFlr_keeps | apply State.dropCopies_keeps | refine Keeps.ite ?_ ?_ | split

theorem secondaryBusReset_keeps {z : State} (p d : Nat) (s : State) (hk : Keeps z s) :
    Keeps z (secondaryBusReset p d s) := by
  unfold secondaryBusReset
  try dsimp only
  repeat' with_reducible first | assumption | (refine State.each_keeps _ _ _ ?_ fun t a ht => ?_) | apply State.busResetDown_keeps | refine Keeps.ite ?_ ?_ | split

theorem partitionReset_keeps {z : State} (p : Nat) (s : State) (hk : Keeps z s) :
    Keeps z (partitionReset p s) := by
  unfold partitionReset
  try dsimp only
  repeat' with_reducible first | assumption | (refine State.each_keeps _ _ _ ?_ fun t a ht => ?_) | apply State.modVport_keeps | apply State.modFab_keeps | apply State.dropCopies_keeps | apply State.busResetDown_keeps | refine Keeps.ite ?_ ?_ | simp only [Keeps.upd] | split

theorem State.busResetWrite_keeps {z : State} (s : State) (p d : Nat) (v : Word) (hk : Keeps z s) :
    Keeps z (State.busResetWrite s p d v) := by
  unfold State.busResetWrite
  try dsimp only
  repeat' with_reducible first | assumption | apply State.modVport_keeps | apply secondaryBusReset_keeps | refine Keeps.ite ?_ ?_ | split

theorem State.cfgBridgeWrite_keeps {z : State} (s : State) (e : Bool) (p d reg : Nat) (v w : Word) (hk : Keeps z s) :
    Keeps z (State.cfgBridgeWrite s e p d reg v w) := by
  unfold State.cfgBridgeWrite
  try dsimp only
  repeat' with_reducible first | assumption | apply State.modVport_keeps | apply State.busResetWrite_keeps | apply State.linkWrite_keeps | apply State.slotWrite_keeps | apply State.dpcCtrlWrite_keeps | apply dpcTriggerStatusClear_keeps | apply State.marginCmd_keeps | refine Keeps.ite ?_ ?_ | split

theorem State.msixCtrlWrite_keeps {z : State} (s : State) (p : Nat) (v : Word) (hk : Keeps z s) :
    Keeps z (State.msixCtrlWrite s p v) := by
  unfold State.msixCtrlWrite
  try dsimp only
  repeat' with_reducible first | assumption | apply State.modFab_keeps | apply intxControlChange_keeps | refine Keeps.ite ?_ ?_ | split

theorem State.fabWrite_keeps {z : State} (s : State) (e : Bool) (p reg : Nat) (v w : Word) (hk : Keeps z s) :
    Keeps z (State.fabWrite s e p reg v w) := by
  unfold State.fabWrite
  try dsimp only
  repeat' with_reducible first | assumption | apply State.modFab_keeps | apply intxControlChange_keeps | apply fabricFunctionPowerState_keeps | apply State.msixCtrlWrite_keeps | refine Keeps.ite ?_ ?_ | split

theorem State.barWrite_keeps {z : State} (s : State) (e : Bool) (f b : Nat) (v : Word) (m : Word) (hk : Keeps z s) :
    Keeps z (State.barWrite s e f b v m) := by
  unfold State.barWrite
  try dsimp only
  repeat' with_reducible first | assumption | refine Keeps.ite ?_ ?_ | simp only [Keeps.upd] | split

theorem State.cfgDone_keeps {z : State} (s : State) (k : CfgAsk) (cid : Nat) (st : CplStatus) (data : List Byte) (hk : Keeps z s) :
    Keeps z (State.cfgDone s k cid st data) := by
  unfold State.cfgDone
  try dsimp only
  repeat' with_reducible first | assumption | apply State.replyBy_keeps | refine Keeps.ite ?_ ?_ | split

theorem State.cfgUr_keeps {z : State} (s : State) (k : CfgAsk) (hk : Keeps z s) :
    Keeps z (State.cfgUr s k) := by
  unfold State.cfgUr
  try dsimp only
  repeat' with_reducible first | assumption | apply State.cfgDone_keeps | refine Keeps.ite ?_ ?_ | split

theorem State.cfgForward_keeps {z : State} (s : State) (k : CfgAsk) (f : Nat) (be : Nat) (wr : Option Word) (note : Option CfgNote) (hk : Keeps z s) :
    Keeps z (State.cfgForward s k f be wr note) := by
  unfold State.cfgForward
  try dsimp only
  repeat' with_reducible first | assumption | apply State.toFunction_keeps | refine Keeps.ite ?_ ?_ | simp only [id] | split

theorem State.cfgBound_keeps {z : State} (s : State) (k : CfgAsk) (f : Nat) (hk : Keeps z s) :
    Keeps z (State.cfgBound s k f) := by
  unfold State.cfgBound
  try dsimp only
  repeat' with_reducible first | assumption | apply State.cfgDone_keeps | apply State.barWrite_keeps | apply State.cfgForward_keeps | refine Keeps.ite ?_ ?_ | split

theorem State.cfgBridge_keeps {z : State} (s : State) (k : CfgAsk) (d : Nat) (hk : Keeps z s) :
    Keeps z (State.cfgBridge s k d) := by
  unfold State.cfgBridge
  try dsimp only
  repeat' with_reducible first | assumption | apply State.cfgDone_keeps | apply State.used_keeps | apply State.cfgBridgeWrite_keeps | refine Keeps.ite ?_ ?_ | split

theorem State.cfgFab_keeps {z : State} (s : State) (k : CfgAsk) (hk : Keeps z s) :
    Keeps z (State.cfgFab s k) := by
  unfold State.cfgFab
  try dsimp only
  repeat' with_reducible first | assumption | apply State.cfgDone_keeps | apply State.used_keeps | apply State.fabWrite_keeps | refine Keeps.ite ?_ ?_ | split

theorem State.cfgRequest_keeps {z : State} (s : State) (k : CfgAsk) (hk : Keeps z s) :
    Keeps z (State.cfgRequest s k) := by
  unfold State.cfgRequest
  try dsimp only
  repeat' with_reducible first | assumption | apply State.cfgBridge_keeps | apply State.cfgFab_keeps | apply State.cfgUr_keeps | apply State.cfgBound_keeps | refine Keeps.ite ?_ ?_ | split

theorem hostConfigRequest_keeps {z : State} (port : Nat) (q : CfgReq) (s : State) (hk : Keeps z s) :
    Keeps z (hostConfigRequest port q s) := by
  unfold hostConfigRequest
  try dsimp only
  repeat' with_reducible first | assumption | apply State.hold_keeps | apply State.logAer_keeps | apply State.count_keeps | apply State.synthUr_keeps | apply State.cfgRequest_keeps | refine Keeps.ite ?_ ?_ | split

theorem functionLevelReset_keeps {z : State} (p f rid tag : Nat) (vfs : List Nat) (s : State) (hk : Keeps z s) :
    Keeps z (functionLevelReset p f rid tag vfs s) := by
  unfold functionLevelReset
  try dsimp only
  repeat' with_reducible first | assumption | apply State.hold_keeps | apply State.synthUr_keeps | apply State.cfgUr_keeps | apply State.cfgDone_keeps | apply State.count_keeps | apply State.toFunction_keeps | apply State.dropCopies_keeps | refine Keeps.ite ?_ ?_ | simp only [id] | split

end Sys2Proof.Machine
end

