-- ==== Sys2Proof/Laws/KeepsArrivals.lean ====
section
/-! SUPPORT. Every operation of Machine/Arrivals.lean keeps what `Keeps` says. -/

set_option linter.unusedTactic false
set_option linter.unreachableTactic false

namespace Sys2Proof.Machine

theorem State.closeOut_keeps {z : State} (s : State) (o : OutEntry) (c : Cpl) (hk : Keeps z s) :
    Keeps z (State.closeOut s o c) := by
  unfold State.closeOut
  try dsimp only
  repeat' with_reducible first | assumption | refine Keeps.ite ?_ ?_ | simp only [Keeps.upd] | simp only [id] | split

theorem State.forwardCpl_keeps {z : State} (s : State) (port : Nat) (owed : Option Bool) (o : OutEntry) (c : Cpl) (hk : Keeps z s) :
    Keeps z (State.forwardCpl s port owed o c) := by
  unfold State.forwardCpl
  try dsimp only
  repeat' with_reducible first | assumption | apply State.closeOut_keeps | apply State.take_keeps | apply State.endHere_keeps | apply State.count_keeps | refine Keeps.ite ?_ ?_ | simp only [Keeps.upd] | simp only [id] | split

theorem State.apReadCpl_keeps {z : State} (s : State) (o : OutEntry) (tc : Nat) (c : Cpl) (hk : Keeps z s) :
    Keeps z (State.apReadCpl s o tc c) := by
  unfold State.apReadCpl
  try dsimp only
  repeat' with_reducible first | assumption | apply State.replyBy_keeps | apply State.closeOut_keeps | apply State.reply_keeps | apply State.count_keeps | refine Keeps.ite ?_ ?_ | simp only [Keeps.upd] | simp only [id] | split

theorem State.ownCpl_keeps {z : State} (s : State) (o : OutEntry) (c : Cpl) (hk : Keeps z s) :
    Keeps z (State.ownCpl s o c) := by
  unfold State.ownCpl
  try dsimp only
  repeat' with_reducible first | assumption | apply State.dmaPiece_keeps | apply State.closeOut_keeps | apply State.issued_keeps | apply State.readDone_keeps | apply State.ringFail_keeps | apply flushReadComplete_keeps | apply revokeFlushDone_keeps | apply State.shown_keeps | apply State.apReadCpl_keeps | refine Keeps.ite ?_ ?_ | simp only [Keeps.upd] | simp only [id] | split

theorem State.unexpected_keeps {z : State} (s : State) (port : Nat) (hk : Keeps z s) :
    Keeps z (State.unexpected s port) := by
  unfold State.unexpected
  try dsimp only
  repeat' with_reducible first | assumption | apply State.count_keeps | apply State.logAer_keeps | refine Keeps.ite ?_ ?_ | split

theorem State.completionIn_keeps {z : State} (s : State) (port : Nat) (src : Option Nat) (owed : Option Bool) (c : Cpl) (hk : Keeps z s) :
    Keeps z (State.completionIn s port src owed c) := by
  unfold State.completionIn
  try dsimp only
  repeat' with_reducible first | assumption | apply State.logAer_keeps | apply State.count_keeps | apply State.unexpected_keeps | apply eccUncorrectable_keeps | apply State.notePoison_keeps | apply State.forwardCpl_keeps | apply State.ownCpl_keeps | refine Keeps.ite ?_ ?_ | simp only [Keeps.upd] | simp only [id] | split

theorem completionArrival_keeps {z : State} (port : Nat) (c : Cpl) (s : State) (hk : Keeps z s) :
    Keeps z (completionArrival port c s) := by
  unfold completionArrival
  try dsimp only
  repeat' with_reducible first | assumption | apply State.hold_keeps | apply State.completionIn_keeps | refine Keeps.ite ?_ ?_ | split

theorem State.fabricCast_keeps {z : State} (s : State) (port : Nat) (k : VflPkt) (p : Packet) (hk : Keeps z s) :
    Keeps z (State.fabricCast s port k p) := by
  unfold State.fabricCast
  try dsimp only
  repeat' with_reducible first | assumption | apply State.count_keeps | apply State.copies_keeps | refine Keeps.ite ?_ ?_ | split

theorem State.pinMessage_keeps {z : State} (s : State) (port : Nat) (e : Bool) (f pin : Nat) (assert : Bool) (hk : Keeps z s) :
    Keeps z (State.pinMessage s port e f pin assert) := by
  unfold State.pinMessage
  try dsimp only
  repeat' with_reducible first | assumption | refine State.setPins_keeps ?_ (by assumption) | apply State.setPins_keeps' | apply State.endHere_keeps | apply State.sendTo_keeps | refine Keeps.ite ?_ ?_ | simp only [id] | split

theorem State.upMessage_keeps {z : State} (s : State) (port : Nat) (e : Bool) (f : Nat) (m : MsgKind) (d : List Byte) (hk : Keeps z s) :
    Keeps z (State.upMessage s port e f m d) := by
  unfold State.upMessage
  try dsimp only
  repeat' with_reducible first | assumption | apply State.endHere_keeps | apply State.sendTo_keeps | refine Keeps.ite ?_ ?_ | simp only [id] | split

theorem State.fnUp_keeps {z : State} (s : State) (port : Nat) (e : Bool) (f : Nat) (m : MsgKind) (d : List Byte) (hk : Keeps z s) :
    Keeps z (State.fnUp s port e f m d) := by
  unfold State.fnUp
  try dsimp only
  repeat' with_reducible first | assumption | apply State.count_keeps | apply State.upMessage_keeps | refine Keeps.ite ?_ ?_ | split

theorem State.fnPin_keeps {z : State} (s : State) (port : Nat) (e : Bool) (f pin : Nat) (assert : Bool) (hk : Keeps z s) :
    Keeps z (State.fnPin s port e f pin assert) := by
  unfold State.fnPin
  try dsimp only
  repeat' with_reducible first | assumption | apply State.count_keeps | apply State.pinMessage_keeps | refine Keeps.ite ?_ ?_ | split

theorem State.vflLocal_keeps {z : State} (s : State) (port : Nat) (k : VflPkt) (p : Packet) (hk : Keeps z s) :
    Keeps z (State.vflLocal s port k p) := by
  unfold State.vflLocal
  try dsimp only
  repeat' with_reducible first | assumption | apply State.take_keeps | apply State.endHere_keeps | apply State.completionIn_keeps | apply State.fnPin_keeps | apply State.srcInvalid_keeps | apply State.sendTo_keeps | apply State.fnUp_keeps | apply State.unsupported_keeps | apply State.count_keeps | apply State.functionRoute_keeps | refine Keeps.ite ?_ ?_ | split

theorem vflArrive_keeps {z : State} (port : Nat) (k : VflPkt) (s : State) (hk : Keeps z s) :
    Keeps z (vflArrive port k s) := by
  unfold vflArrive
  try dsimp only
  repeat' with_reducible first | assumption | apply State.hold_keeps | apply State.count_keeps | apply State.fabricCast_keeps | apply State.vflLocal_keeps | apply State.completionIn_keeps | apply State.sendFar_keeps | refine Keeps.ite ?_ ?_ | split

theorem vflPacketArrival_keeps {z : State} (port : Nat) (k : VflPkt) (s : State) (hk : Keeps z s) :
    Keeps z (vflPacketArrival port k s) := by
  unfold vflPacketArrival
  try dsimp only
  repeat' with_reducible first | assumption | apply vflArrive_keeps | apply State.modLink_keeps | refine Keeps.ite ?_ ?_ | split

theorem State.badEcrc_keeps {z : State} (s : State) (port : Nat) (e : Bool) (hk : Keeps z s) :
    Keeps z (State.badEcrc s port e) := by
  unfold State.badEcrc
  try dsimp only
  repeat' with_reducible first | assumption | apply State.logAer_keeps | apply State.count_keeps | refine Keeps.ite ?_ ?_ | split

theorem intxMessage_keeps {z : State} (port rid pin : Nat) (assert ecrcBad : Bool) (s : State) (hk : Keeps z s) :
    Keeps z (intxMessage port rid pin assert ecrcBad s) := by
  unfold intxMessage
  try dsimp only
  repeat' with_reducible first | assumption | apply State.hold_keeps | apply State.badEcrc_keeps | apply State.srcInvalid_keeps | apply State.fnPin_keeps | apply State.sendFar_keeps | refine Keeps.ite ?_ ?_ | simp only [id] | split

theorem State.ackUp_keeps {z : State} (s : State) (port : Nat) (e : Bool) (p : Nat) (hk : Keeps z s) :
    Keeps z (State.ackUp s port e p) := by
  unfold State.ackUp
  try dsimp only
  repeat' with_reducible first | assumption | apply State.sendTo_keeps | refine Keeps.ite ?_ ?_ | simp only [id] | split

theorem State.msgDiscard_keeps {z : State} (s : State) (p d : Nat) (log : Bool) (hk : Keeps z s) :
    Keeps z (State.msgDiscard s p d log) := by
  unfold State.msgDiscard
  try dsimp only
  repeat' with_reducible first | assumption | apply State.modVport_keeps | apply State.logAer_keeps | refine Keeps.ite ?_ ?_ | split

theorem State.broadcast_keeps {z : State} (s : State) (port : Nat) (e : Bool) (p : Nat) (m : MsgKind) (d : List Byte) (hk : Keeps z s) :
    Keeps z (State.broadcast s port e p m d) := by
  unfold State.broadcast
  try dsimp only
  repeat' with_reducible first | assumption | apply State.ackUp_keeps | (refine State.each_keeps _ _ _ ?_ fun t a ht => ?_) | apply State.sendTo_keeps | apply State.endHere_keeps | apply State.sendFar_keeps | refine Keeps.ite ?_ ?_ | simp only [Keeps.upd] | simp only [id] | split

theorem State.hostMessage_keeps {z : State} (s : State) (port p : Nat) (m : MsgKind) (d : List Byte) (hk : Keeps z s) :
    Keeps z (State.hostMessage s port p m d) := by
  unfold State.hostMessage
  try dsimp only
  repeat' with_reducible first | assumption | apply State.broadcast_keeps | apply State.toFunction_keeps | apply State.msgDiscard_keeps | refine Keeps.ite ?_ ?_ | simp only [id] | split

theorem State.fnMessage_keeps {z : State} (s : State) (port rid : Nat) (m : MsgKind) (d : List Byte) (hk : Keeps z s) :
    Keeps z (State.fnMessage s port rid m d) := by
  unfold State.fnMessage
  try dsimp only
  repeat' with_reducible first | assumption | apply State.srcInvalid_keeps | apply State.sendFar_keeps | apply State.endHere_keeps | apply State.toFunction_keeps | apply State.fnUp_keeps | refine Keeps.ite ?_ ?_ | simp only [id] | split

theorem State.portMessage_keeps {z : State} (s : State) (port rid : Nat) (m : MsgKind) (d : List Byte) (hk : Keeps z s) :
    Keeps z (State.portMessage s port rid m d) := by
  unfold State.portMessage
  try dsimp only
  repeat' with_reducible first | assumption | apply State.ackUp_keeps | apply State.msgDiscard_keeps | apply State.fnMessage_keeps | refine Keeps.ite ?_ ?_ | simp only [Keeps.upd] | split

theorem messageReceived_keeps {z : State} (port rid : Nat) (m : MsgKind) (d : List Byte) (ecrcBad : Bool) (s : State) (hk : Keeps z s) :
    Keeps z (messageReceived port rid m d ecrcBad s) := by
  unfold messageReceived
  try dsimp only
  repeat' with_reducible first | assumption | apply State.hold_keeps | apply State.badEcrc_keeps | apply State.hostMessage_keeps | apply State.portMessage_keeps | refine Keeps.ite ?_ ?_ | split

theorem State.retryArrival_keeps {z : State} (s : State) (i : Instr) (hk : Keeps z s) :
    Keeps z (State.retryArrival s i) := by
  unfold State.retryArrival
  try dsimp only
  repeat' with_reducible first | assumption | apply hostMemoryRequest_keeps | apply functionMemoryRequest_keeps | apply hostConfigRequest_keeps | apply functionLevelReset_keeps | apply completionArrival_keeps | apply vflArrive_keeps | apply intxMessage_keeps | apply messageReceived_keeps | apply bar4Write_keeps | apply bar4Read_keeps | apply fenceRead_keeps | refine Keeps.ite ?_ ?_ | split

theorem State.formAllDue_keeps {z : State} (s : State) (hk : Keeps z s) :
    Keeps z (State.formAllDue s) := by
  unfold State.formAllDue
  try dsimp only
  repeat' with_reducible first | assumption | (refine State.each_keeps _ _ _ ?_ fun t a ht => ?_) | apply State.formDue_keeps | refine Keeps.ite ?_ ?_ | split

theorem State.releaseArrivals_keeps {z : State} (s : State) (hk : Keeps z s) :
    Keeps z (State.releaseArrivals s) := by
  unfold State.releaseArrivals
  try dsimp only
  repeat' with_reducible first | assumption | apply State.formAllDue_keeps | (refine State.each_keeps _ _ _ ?_ fun t a ht => ?_) | apply State.retryArrival_keeps | apply State.creditOut_keeps | refine Keeps.ite ?_ ?_ | simp only [Keeps.upd] | split

end Sys2Proof.Machine
end

