-- ==== Sys2Proof/Laws/KeepsCommands.lean ====
section
/-! SUPPORT. Every operation of Machine/Commands.lean keeps what `Keeps` says. -/

set_option linter.unusedTactic false
set_option linter.unreachableTactic false

namespace Sys2Proof.Machine

theorem State.modCmd_keeps {z : State} (s : State) (id : Nat) (f : CmdRun → CmdRun) (hk : Keeps z s) :
    Keeps z (State.modCmd s id f) := by
  unfold State.modCmd
  try dsimp only
  repeat' with_reducible first | assumption | refine Keeps.ite ?_ ?_ | simp only [Keeps.upd] | simp only [id] | split

theorem State.cmdEnds_keeps {z : State} (s : State) (id code : Nat) (data : Word) (hk : Keeps z s) :
    Keeps z (State.cmdEnds s id code data) := by
  unfold State.cmdEnds
  try dsimp only
  repeat' with_reducible first | assumption | apply State.modCmd_keeps | refine Keeps.ite ?_ ?_ | simp only [id] | split

theorem State.cmdStart_keeps {z : State} (s : State) (c : CmdRun) (hk : Keeps z s) :
    Keeps z (State.cmdStart s c) := by
  unfold State.cmdStart
  try dsimp only
  repeat' with_reducible first | assumption | apply State.modCmd_keeps | apply State.cmdEnds_keeps | apply State.regWrite_keeps | refine State.issueStop_keeps ?_ (by assumption) | apply State.issueStop_keeps' | refine Keeps.ite ?_ ?_ | simp only [id] | split

theorem State.cmdGo_keeps {z : State} (s : State) (id : Nat) (hk : Keeps z s) :
    Keeps z (State.cmdGo s id) := by
  unfold State.cmdGo
  try dsimp only
  repeat' with_reducible first | assumption | apply State.cmdStart_keeps | apply State.cmdEnds_keeps | refine Keeps.ite ?_ ?_ | simp only [id] | split

theorem State.cmdOut_keeps {z : State} (s : State) (id : Nat) (hk : Keeps z s) :
    Keeps z (State.cmdOut s id) := by
  unfold State.cmdOut
  try dsimp only
  repeat' with_reducible first | assumption | apply State.pushRec_keeps | refine Keeps.ite ?_ ?_ | simp only [Keeps.upd] | simp only [id] | split

theorem State.pump_keeps {z : State} (s : State) (hk : Keeps z s) :
    Keeps z (State.pump s) := by
  unfold State.pump
  try dsimp only
  repeat' with_reducible first | assumption | (refine State.each_keeps _ _ _ ?_ fun t a ht => ?_) | apply State.cmdGo_keeps | apply State.cmdOut_keeps | refine Keeps.ite ?_ ?_ | simp only [id] | split

theorem State.cmdTake_keeps {z : State} (s : State) (ring : Nat) (c : Cmd) (hk : Keeps z s) :
    Keeps z (State.cmdTake s ring c) := by
  unfold State.cmdTake
  try dsimp only
  repeat' with_reducible first | assumption | apply State.pump_keeps | refine Keeps.ite ?_ ?_ | simp only [Keeps.upd] | refine Keeps.updId ?_ | simp only [id] | split

theorem State.command_keeps {z : State} (s : State) (r : Nat) (c : Cmd) (op : Nat) (hk : Keeps z s) :
    Keeps z (State.command s r c op) := by
  unfold State.command
  try dsimp only
  repeat' with_reducible first | assumption | apply State.cmdTake_keeps | refine Keeps.ite ?_ ?_ | split

theorem waitFtReached_keeps {z : State} (r : Nat) (s : State) (hk : Keeps z s) :
    Keeps z (waitFtReached r s) := by
  unfold waitFtReached
  try dsimp only
  repeat' with_reducible first | assumption | apply State.pump_keeps | apply State.cmdEnds_keeps | apply State.reach_keeps | refine Keeps.ite ?_ ?_ | simp only [id] | split

theorem State.entryTaken_keeps {z : State} (s : State) (r : Nat) (hk : Keeps z s) :
    Keeps z (State.entryTaken s r) := by
  unfold State.entryTaken
  try dsimp only
  repeat' with_reducible first | assumption | apply State.modRing_keeps | apply State.setFld_keeps | refine Keeps.ite ?_ ?_ | split

theorem State.acceptGot_keeps {z : State} (s : State) (r : Nat) (x' : Nat) (hk : Keeps z s) :
    Keeps z (State.acceptGot s r x') := by
  induction x' generalizing s r with
  | zero => exact hk
  | succ x' ih =>
    unfold State.acceptGot
    try dsimp only
    repeat' with_reducible first | assumption | apply ih | refine State.engineTake_keeps ?_ (by assumption) | apply State.engineTake_keeps' | apply State.entryTaken_keeps | apply State.cmdTake_keeps | refine Keeps.ite ?_ ?_ | split

theorem ringFetch_keeps {z : State} (r : Nat) (s : State) (hk : Keeps z s) :
    Keeps z (ringFetch r s) := by
  unfold ringFetch
  try dsimp only
  repeat' with_reducible first | assumption | apply State.acceptGot_keeps | apply State.fetchStart_keeps | refine Keeps.ite ?_ ?_ | split

theorem ringFetchComplete_keeps {z : State} (r : Nat) (how : DmaEnd) (l : List RingEntry) (s : State) (hk : Keeps z s) :
    Keeps z (ringFetchComplete r how l s) := by
  unfold ringFetchComplete
  try dsimp only
  repeat' with_reducible first | assumption | apply State.modRing_keeps | apply State.acceptGot_keeps | apply State.ringFail_keeps | refine Keeps.ite ?_ ?_ | split

theorem State.tlStopWrite_keeps {z : State} (s : State) (agent t : Nat) (v : Word) (clear : Bool) (hk : Keeps z s) :
    Keeps z (State.tlStopWrite s agent t v clear) := by
  unfold State.tlStopWrite
  try dsimp only
  repeat' with_reducible first | assumption | apply State.pump_keeps | apply State.stopAct_keeps | refine Keeps.ite ?_ ?_ | split

theorem registerWrite_keeps {z : State} (via : Via) (o : Nat) (v : Word) (s : State) (hk : Keeps z s) :
    Keeps z (registerWrite via o v s) := by
  unfold registerWrite
  try dsimp only
  repeat' with_reducible first | assumption | apply State.pump_keeps | apply State.regWrite_keeps | refine Keeps.ite ?_ ?_ | split

theorem State.modBridge_keeps {z : State} (s : State) (f : BridgeSt → BridgeSt) (hk : Keeps z s) :
    Keeps z (State.modBridge s f) := by
  unfold State.modBridge
  try dsimp only
  repeat' with_reducible first | assumption | refine Keeps.ite ?_ ?_ | simp only [Keeps.upd] | split

theorem bridgeWrite_keeps {z : State} (o : Nat) (v : Word) (pecOk : Bool) (s : State) (hk : Keeps z s) :
    Keeps z (bridgeWrite o v pecOk s) := by
  unfold bridgeWrite
  try dsimp only
  repeat' with_reducible first | assumption | apply State.emit_keeps | apply State.modBridge_keeps | apply State.pump_keeps | apply State.regWrite_keeps | refine Keeps.ite ?_ ?_ | split

theorem bridgeRead_keeps {z : State} (o : Nat) (pecOk : Bool) (s : State) (hk : Keeps z s) :
    Keeps z (bridgeRead o pecOk s) := by
  unfold bridgeRead
  try dsimp only
  repeat' with_reducible first | assumption | apply State.emit_keeps | apply State.used_keeps | refine Keeps.ite ?_ ?_ | split

theorem bridgeStatus_keeps {z : State} (s : State) (hk : Keeps z s) :
    Keeps z (bridgeStatus s) := by
  unfold bridgeStatus
  try dsimp only
  repeat' with_reducible first | assumption | apply State.emit_keeps | refine Keeps.ite ?_ ?_ | split

theorem hkBridgeTimeout_keeps {z : State} (mgmt : Bool) (s : State) (hk : Keeps z s) :
    Keeps z (hkBridgeTimeout mgmt s) := by
  unfold hkBridgeTimeout
  try dsimp only
  repeat' with_reducible first | assumption | apply State.countHk_keeps | apply State.modBridge_keeps | apply State.emit_keeps | refine Keeps.ite ?_ ?_ | split

theorem i3cPrivateWrite_keeps {z : State} (bytes : List Byte) (s : State) (hk : Keeps z s) :
    Keeps z (i3cPrivateWrite bytes s) := by
  unfold i3cPrivateWrite
  try dsimp only
  repeat' with_reducible first | assumption | apply bridgeWrite_keeps | apply State.modBridge_keeps | refine Keeps.ite ?_ ?_ | split

theorem i3cPrivateRead_keeps {z : State} (ready : Bool) (s : State) (hk : Keeps z s) :
    Keeps z (i3cPrivateRead ready s) := by
  unfold i3cPrivateRead
  try dsimp only
  repeat' with_reducible first | assumption | apply State.modBridge_keeps | apply State.emit_keeps | apply State.used_keeps | refine Keeps.ite ?_ ?_ | split

theorem entdaa_keeps {z : State} (addr : Nat) (s : State) (hk : Keeps z s) :
    Keeps z (entdaa addr s) := by
  unfold entdaa
  try dsimp only
  repeat' with_reducible first | assumption | apply State.modBridge_keeps | refine Keeps.ite ?_ ?_ | split

theorem mgmtPortAccess_keeps {z : State} (o len : Nat) (wr : Option Word) (s : State) (hk : Keeps z s) :
    Keeps z (mgmtPortAccess o len wr s) := by
  unfold mgmtPortAccess
  try dsimp only
  repeat' with_reducible first | assumption | apply State.modBridge_keeps | apply State.pump_keeps | apply State.regWrite_keeps | apply hkBridgeTimeout_keeps | refine Keeps.ite ?_ ?_ | split

end Sys2Proof.Machine
end

