-- ==== Sys2Proof/Laws/KeepsSwap.lean ====
section
/-! SUPPORT. Every operation of Machine/Swap.lean keeps what `Keeps` says. -/

set_option linter.unusedTactic false
set_option linter.unreachableTactic false

namespace Sys2Proof.Machine

theorem State.refull_keeps {z : State} (s : State) (k : Nat) (hk : Keeps z s) :
    Keeps z (State.refull s k) := by
  unfold State.refull
  try dsimp only
  repeat' with_reducible first | assumption | apply State.modSch_keeps | refine Keeps.ite ?_ ?_ | split

theorem State.rebase_keeps {z : State} (s : State) (k old new : Nat) (hk : Keeps z s) :
    Keeps z (State.rebase s k old new) := by
  unfold State.rebase
  try dsimp only
  repeat' with_reducible first | assumption | apply State.modSch_keeps | refine Keeps.ite ?_ ?_ | split

theorem State.rebase2_keeps {z : State} (s : State) (e : Bool) (k : Bool → Nat) (w : Nat) (hk : Keeps z s) :
    Keeps z (State.rebase2 s e k w) := by
  unfold State.rebase2
  try dsimp only
  repeat' with_reducible first | assumption | apply State.rebase_keeps | refine Keeps.ite ?_ ?_ | split

theorem State.flipNode_keeps {z : State} (s : State) (e : Bool) (pb n : Nat) (hk : Keeps z s) :
    Keeps z (State.flipNode s e pb n) := by
  unfold State.flipNode
  try dsimp only
  repeat' with_reducible first | assumption | apply State.refull_keeps | (refine State.each_keeps _ _ _ ?_ fun t a ht => ?_) | apply State.rebase2_keeps | refine Keeps.ite ?_ ?_ | split

theorem State.flipMeter_keeps {z : State} (s : State) (e : Bool) (t m : Nat) (hk : Keeps z s) :
    Keeps z (State.flipMeter s e t m) := by
  unfold State.flipMeter
  try dsimp only
  repeat' with_reducible first | assumption | apply State.refull_keeps | apply State.rebase2_keeps | refine Keeps.ite ?_ ?_ | split

theorem State.flipBuckets_keeps {z : State} (s : State) (e : Bool) (t : Nat) (hk : Keeps z s) :
    Keeps z (State.flipBuckets s e t) := by
  unfold State.flipBuckets
  try dsimp only
  repeat' with_reducible first | assumption | (refine State.each_keeps _ _ _ ?_ fun t a ht => ?_) | apply State.flipNode_keeps | apply State.rebase2_keeps | apply State.flipMeter_keeps | refine Keeps.ite ?_ ?_ | split

theorem State.redOut_keeps {z : State} (s : State) (p : Packet) (c : Nat) (hk : Keeps z s) :
    Keeps z (State.redOut s p c) := by
  unfold State.redOut
  try dsimp only
  repeat' with_reducible first | assumption | apply State.modPkt_keeps | apply State.countColour_keeps | apply State.toEnd_keeps | refine Keeps.ite ?_ ?_ | simp only [id] | split

theorem State.releaseRed_keeps {z : State} (s : State) (e : Bool) (t : Nat) (hk : Keeps z s) :
    Keeps z (State.releaseRed s e t) := by
  unfold State.releaseRed
  try dsimp only
  repeat' with_reducible first | assumption | (refine State.each_keeps _ _ _ ?_ fun t a ht => ?_) | apply State.setWithheld_keeps | apply State.redOut_keeps | apply State.debit_keeps | refine Keeps.ite ?_ ?_ | split

theorem State.flipPorts_keeps {z : State} (s : State) (e : Bool) (t : Nat) (hk : Keeps z s) :
    Keeps z (State.flipPorts s e t) := by
  unfold State.flipPorts
  try dsimp only
  repeat' with_reducible first | assumption | (refine State.each_keeps _ _ _ ?_ fun t a ht => ?_) | apply State.portDown_keeps | refine Keeps.ite ?_ ?_ | split

theorem State.flipRates_keeps {z : State} (s : State) (e : Bool) (t : Nat) (hk : Keeps z s) :
    Keeps z (State.flipRates s e t) := by
  unfold State.flipRates
  try dsimp only
  repeat' with_reducible first | assumption | (refine State.each_keeps _ _ _ ?_ fun t a ht => ?_) | apply State.portDown_keeps | refine Keeps.ite ?_ ?_ | split

theorem State.flipContained_keeps {z : State} (s : State) (t : Nat) (hk : Keeps z s) :
    Keeps z (State.flipContained s t) := by
  unfold State.flipContained
  try dsimp only
  repeat' with_reducible first | assumption | apply State.modWc_keeps | apply State.flushLines_keeps | refine Keeps.ite ?_ ?_ | split

theorem State.flipSeat_keeps {z : State} (s : State) (e : Bool) (seat : Nat) (hk : Keeps z s) :
    Keeps z (State.flipSeat s e seat) := by
  unfold State.flipSeat
  try dsimp only
  repeat' with_reducible first | assumption | apply State.clearMbx_keeps | apply State.modSeat_keeps | apply State.seatStart_keeps | apply State.seatSquash_keeps | refine Keeps.ite ?_ ?_ | simp only [Keeps.upd] | split

theorem State.flipRing_keeps {z : State} (s : State) (e : Bool) (r : Nat) (hk : Keeps z s) :
    Keeps z (State.flipRing s e r) := by
  unfold State.flipRing
  try dsimp only
  repeat' with_reducible first | assumption | apply State.modRing_keeps | apply State.setFld_keeps | apply State.setLv_keeps | refine Keeps.ite ?_ ?_ | split

theorem State.showRebind_keeps {z : State} (s : State) (e : Bool) (f : Nat) (hk : Keeps z s) :
    Keeps z (State.showRebind s e f) := by
  unfold State.showRebind
  try dsimp only
  repeat' with_reducible first | assumption | apply State.modVport_keeps | refine Keeps.ite ?_ ?_ | split

theorem State.flipBinding_keeps {z : State} (s : State) (e : Bool) (f : Nat) (hk : Keeps z s) :
    Keeps z (State.flipBinding s e f) := by
  unfold State.flipBinding
  try dsimp only
  repeat' with_reducible first | assumption | apply State.showRebind_keeps | refine Keeps.ite ?_ ?_ | simp only [Keeps.upd] | split

theorem State.flipAmap_keeps {z : State} (s : State) (e : Bool) (x : Nat) (hk : Keeps z s) :
    Keeps z (State.flipAmap s e x) := by
  unfold State.flipAmap
  try dsimp only
  repeat' with_reducible first | assumption | refine Keeps.ite ?_ ?_ | simp only [Keeps.upd] | split

theorem State.flipLead_keeps {z : State} (s : State) (e : Bool) (hk : Keeps z s) :
    Keeps z (State.flipLead s e) := by
  unfold State.flipLead
  try dsimp only
  repeat' with_reducible first | assumption | apply State.setFlag_keeps | (refine State.each_keeps _ _ _ ?_ fun t a ht => ?_) | apply State.flipSeat_keeps | apply State.flipRing_keeps | apply State.flipBinding_keeps | apply State.flipAmap_keeps | apply State.upstreamHold_keeps | apply State.upstreamFree_keeps | refine Keeps.ite ?_ ?_ | split

theorem State.flipHops_keeps {z : State} (s : State) (e : Bool) (t : Nat) (hk : Keeps z s) :
    Keeps z (State.flipHops s e t) := by
  unfold State.flipHops
  try dsimp only
  repeat' with_reducible first | assumption | (refine State.each_keeps _ _ _ ?_ fun t a ht => ?_) | apply State.sticky_keeps | apply State.setFlag_keeps | refine Keeps.ite ?_ ?_ | split

theorem State.flipTile_keeps {z : State} (s : State) (e : Bool) (t : Nat) (hk : Keeps z s) :
    Keeps z (State.flipTile s e t) := by
  unfold State.flipTile
  try dsimp only
  repeat' with_reducible first | assumption | apply State.flipRates_keeps | apply State.flipPorts_keeps | apply State.releaseRed_keeps | apply State.flipHops_keeps | apply State.flipContained_keeps | apply State.flipBuckets_keeps | apply State.flipLead_keeps | apply State.setFlag_keeps | apply State.modCur_keeps | refine Keeps.ite ?_ ?_ | split

theorem epochFlip_keeps {z : State} (t : Nat) (s : State) (hk : Keeps z s) :
    Keeps z (epochFlip t s) := by
  unfold epochFlip
  try dsimp only
  repeat' with_reducible first | assumption | apply State.releaseArrivals_keeps | apply State.flipTile_keeps | refine Keeps.ite ?_ ?_ | split

theorem State.endHeldAcc_keeps {z : State} (s : State) (h : HeldAcc) (hk : Keeps z s) :
    Keeps z (State.endHeldAcc s h) := by
  unfold State.endHeldAcc
  try dsimp only
  repeat' with_reducible first | assumption | apply State.bar4Data_keeps | apply State.count_keeps | apply State.tallyDrop_keeps | apply State.fenceForced_keeps | refine Keeps.ite ?_ ?_ | split

theorem State.endOldHeld_keeps {z : State} (s : State) (e : Bool) (hk : Keeps z s) :
    Keeps z (State.endOldHeld s e) := by
  unfold State.endOldHeld
  try dsimp only
  repeat' with_reducible first | assumption | (refine State.each_keeps _ _ _ ?_ fun t a ht => ?_) | apply State.discardLines_keeps | apply State.endHeldAcc_keeps | refine Keeps.ite ?_ ?_ | simp only [Keeps.upd] | split

theorem State.forceRetire_keeps {z : State} (s : State) (e : Bool) (hk : Keeps z s) :
    Keeps z (State.forceRetire s e) := by
  unfold State.forceRetire
  try dsimp only
  repeat' with_reducible first | assumption | (refine State.each_keeps _ _ _ ?_ fun t a ht => ?_) | apply State.endPacket_keeps | apply State.endOldHeld_keeps | apply State.sticky_keeps | apply State.setLv_keeps | apply State.setFlag_keeps | apply State.modCur_keeps | apply State.countHk_keeps | refine Keeps.ite ?_ ?_ | simp only [id] | split

theorem forcedRetirement_keeps {z : State} (s : State) (hk : Keeps z s) :
    Keeps z (forcedRetirement s) := by
  unfold forcedRetirement
  try dsimp only
  repeat' with_reducible first | assumption | apply State.releaseArrivals_keeps | apply State.forceRetire_keeps | apply State.reach_keeps | refine Keeps.ite ?_ ?_ | split

theorem State.refill_keeps {z : State} (s : State) (e : Bool) (t : Nat) (hk : Keeps z s) :
    Keeps z (State.refill s e t) := by
  unfold State.refill
  try dsimp only
  repeat' with_reducible first | assumption | (refine State.each_keeps _ _ _ ?_ fun t a ht => ?_) | apply State.credit_keeps | apply State.refillMeter_keeps | refine Keeps.ite ?_ ?_ | split

theorem State.recolour_keeps {z : State} (s : State) (t : Nat) (hk : Keeps z s) :
    Keeps z (State.recolour s t) := by
  unfold State.recolour
  try dsimp only
  repeat' with_reducible first | assumption | (refine State.each_keeps _ _ _ ?_ fun t a ht => ?_) | refine State.colour_keeps ?_ (by assumption) | apply State.colour_keeps' | apply State.setWithheld_keeps | apply State.redOut_keeps | refine Keeps.ite ?_ ?_ | split

theorem schedulingRound_keeps {z : State} (t : Nat) (s : State) (hk : Keeps z s) :
    Keeps z (schedulingRound t s) := by
  unfold schedulingRound
  try dsimp only
  repeat' with_reducible first | assumption | apply State.refill_keeps | apply State.modSch_keeps | apply State.recolour_keeps | (refine State.each_keeps _ _ _ ?_ fun t a ht => ?_) | apply State.setWithheld_keeps | apply State.releaseArrivals_keeps | refine Keeps.ite ?_ ?_ | split

end Sys2Proof.Machine
end

