-- ==== Sys2Proof/Laws/KeepsChecks.lean ====
section
/-! SUPPORT. Every operation of Machine/Checks.lean keeps what `Keeps` says. -/

set_option linter.unusedTactic false
set_option linter.unreachableTactic false

namespace Sys2Proof.Machine

theorem consistencyCheckDone_keeps {z : State} (s : State) (hk : Keeps z s) :
    Keeps z (consistencyCheckDone s) := by
  unfold consistencyCheckDone
  try dsimp only
  repeat' with_reducible first | assumption | apply State.setFld_keeps | apply State.setLv_keeps | refine Keeps.ite ?_ ?_ | split

end Sys2Proof.Machine
end

