-- ==== Sys2Proof/Laws/KeepsBoot.lean ====
section
/-! SUPPORT. Every operation of Machine/Boot.lean keeps what `Keeps` says. -/

set_option linter.unusedTactic false
set_option linter.unreachableTactic false

namespace Sys2Proof.Machine

theorem State.fuseStatus_keeps {z : State} (s : State) (hk : Keeps z s) :
    Keeps z (State.fuseStatus s) := by
  unfold State.fuseStatus
  try dsimp only
  repeat' with_reducible first | assumption | apply State.setFld_keeps | apply State.setFlag_keeps | refine Keeps.ite ?_ ?_ | split

theorem State.slot0Bad_keeps {z : State} (s : State) (hk : Keeps z s) :
    Keeps z (State.slot0Bad s) := by
  unfold State.slot0Bad
  try dsimp only
  repeat' with_reducible first | assumption | apply State.countHk_keeps | apply State.setFlag_keeps | refine Keeps.ite ?_ ?_ | split

theorem State.verifyFw_keeps' {z : State} (s : State) (b : BootInput) (hk : Keeps z s) :
    Keeps z (State.verifyFw s b).1 := by
  unfold State.verifyFw
  try dsimp only
  repeat' with_reducible first | assumption | apply State.setFlag_keeps | apply State.slot0Bad_keeps | apply State.countHk_keeps | refine Keeps.ite ?_ ?_ | refine Keeps.ite_fst ?_ ?_ | split | dsimp only

theorem State.verifyFw_keeps {z s' : State} (s : State) (b : BootInput) {x' : Option (Bool × BitVec 256)} (hk : Keeps z s)
    (he' : State.verifyFw s b = (s', x')) : Keeps z s' := by
  have q := State.verifyFw_keeps' s b hk
  rwa [he'] at q

theorem State.countSkipped_keeps {z : State} (s : State) (i : Image) (hk : Keeps z s) :
    Keeps z (State.countSkipped s i) := by
  unfold State.countSkipped
  try dsimp only
  repeat' with_reducible first | assumption | (refine State.each_keeps _ _ _ ?_ fun t a ht => ?_) | apply State.countHk_keeps | refine Keeps.ite ?_ ?_ | split

theorem State.noteImage_keeps {z : State} (s : State) (i : Image) (hk : Keeps z s) :
    Keeps z (State.noteImage s i) := by
  unfold State.noteImage
  try dsimp only
  repeat' with_reducible first | assumption | (refine State.modBoot_keeps _ _ ?_ (fun _ q => q) (fun _ q => q) (fun q => q)) | apply State.setFlag_keeps | refine Keeps.ite ?_ ?_ | split

theorem State.imageWrite_keeps {z : State} (s : State) (p o : Nat) (v : Word) (hk : Keeps z s) :
    Keeps z (State.imageWrite s p o v) := by
  unfold State.imageWrite
  try dsimp only
  repeat' with_reducible first | assumption | apply State.setConf_keeps | apply State.regWrite_keeps | refine Keeps.ite ?_ ?_ | split

theorem State.applyRec_keeps {z : State} (s : State) (p : Nat) (x' : ImgRec) (hk : Keeps z s) :
    Keeps z (State.applyRec s p x') := by
  cases x' <;> (unfold State.applyRec; try dsimp only) <;> repeat' with_reducible first | assumption | (refine State.each_keeps _ _ _ ?_ fun t a ht => ?_) | apply State.imageWrite_keeps | apply State.modLane_keeps | refine Keeps.ite ?_ ?_ | split

theorem State.applyImage_keeps {z : State} (s : State) (i : Image) (hk : Keeps z s) :
    Keeps z (State.applyImage s i) := by
  unfold State.applyImage
  try dsimp only
  repeat' with_reducible first | assumption | apply State.pump_keeps | (refine State.each_keeps _ _ _ ?_ fun t a ht => ?_) | apply State.applyRec_keeps | refine Keeps.ite ?_ ?_ | split

theorem State.defaults_keeps {z : State} (s : State) (hk : Keeps z s) :
    Keeps z (State.defaults s) := by
  unfold State.defaults
  try dsimp only
  repeat' with_reducible first | assumption | apply State.setConf_keeps | refine Keeps.ite ?_ ?_ | split

theorem State.bootCheck_keeps {z : State} (s : State) (hk : Keeps z s) :
    Keeps z (State.bootCheck s) := by
  unfold State.bootCheck
  try dsimp only
  repeat' with_reducible first | assumption | apply consistencyCheckDone_keeps | apply State.setFld_keeps | refine Keeps.ite ?_ ?_ | split

theorem State.applyDefaults_keeps {z : State} (s : State) (cause : Nat) (hk : Keeps z s) :
    Keeps z (State.applyDefaults s cause) := by
  unfold State.applyDefaults
  try dsimp only
  repeat' with_reducible first | assumption | apply State.countHk_keeps | apply State.setFlag_keeps | apply State.setFld_keeps | (refine State.modBoot_keeps _ _ ?_ (fun _ q => q) (fun _ q => q) (fun q => q)) | apply State.bootCheck_keeps | apply State.defaults_keeps | refine Keeps.ite ?_ ?_ | split

theorem Keeps.copies {z s : State} (hk : Keeps z s) (e : Bool) (c : CurtainSt) :
    Keeps z { s with set0 := s.copyOf e, set1 := s.copyOf e, cur := c } := by
  have q : s.Wf → regsWf s.part (s.copyOf e) = true := fun q => by
    cases e
    · exact q.2.1
    · exact q.2.2.1
  exact hk.regs rfl rfl rfl rfl rfl rfl rfl fun w => ⟨w.1, q w, q w, w.2.2.2⟩

theorem State.bootCurtain_keeps {z : State} (s : State) (hk : Keeps z s) : Keeps z s.bootCurtain := by
  unfold State.bootCurtain
  refine Keeps.copies (.ite (State.flipLead_keeps _ _ ?_) ?_) _ _ <;>
    exact State.each_keeps _ _ _ hk fun t a ht => State.flipTile_keeps _ _ _ ht

theorem State.applyOrDefault_keeps {z : State} (s : State) (i : Image) (hk : Keeps z s) :
    Keeps z (State.applyOrDefault s i) := by
  unfold State.applyOrDefault
  try dsimp only
  repeat' with_reducible first | assumption | apply State.bootCurtain_keeps | apply State.applyDefaults_keeps | apply State.countSkipped_keeps | apply State.bootCheck_keeps | apply State.applyImage_keeps | apply State.noteImage_keeps | refine Keeps.ite ?_ ?_ | split

theorem State.xgRise_keeps {z : State} (s : State) (x : Nat) (hk : Keeps z s) :
    Keeps z (State.xgRise s x) := by
  unfold State.xgRise
  try dsimp only
  repeat' with_reducible first | assumption | (refine State.each_keeps _ _ _ ?_ fun t a ht => ?_) | apply State.setFlag_keeps | apply State.seeXg_keeps | refine Keeps.ite ?_ ?_ | split

theorem State.releaseTiles_keeps {z : State} (s : State) (bad : List (Nat × Nat × Nat)) (hk : Keeps z s) :
    Keeps z (State.releaseTiles s bad) := by
  unfold State.releaseTiles
  try dsimp only
  repeat' with_reducible first | assumption | (refine State.each_keeps _ _ _ ?_ fun t a ht => ?_) | apply State.wireTested_keeps | apply State.setFlag_keeps | apply State.xgRise_keeps | refine Keeps.ite ?_ ?_ | simp only [Keeps.upd] | split

theorem State.released_keeps {z : State} (s : State) (hk : Keeps z s) :
    Keeps z (State.released s) := by
  unfold State.released
  try dsimp only
  repeat' with_reducible first | assumption | apply State.modPwr_keeps | refine Keeps.ite ?_ ?_ | simp only [Keeps.upd] | split

theorem State.setStage_keeps {z : State} (s : State) (n : Nat) (hk : Keeps z s) :
    Keeps z (State.setStage s n) := by
  unfold State.setStage
  try dsimp only
  repeat' with_reducible first | assumption | apply State.setFld_keeps | refine Keeps.ite ?_ ?_ | split

theorem State.sense_keeps {z : State} (s : State) (hk : Keeps z s) :
    Keeps z (State.sense s) := by
  unfold State.sense
  try dsimp only
  repeat' with_reducible first | assumption | apply State.fuseStatus_keeps | (refine State.modBoot_keeps _ _ ?_ (fun _ q => q) (fun _ q => q) (fun q => q)) | refine Keeps.ite ?_ ?_ | split

theorem State.bootFull_keeps {z : State} (s : State) (b : BootInput) (hk : Keeps z s) :
    Keeps z (State.bootFull s b) := by
  unfold State.bootFull
  try dsimp only
  repeat' with_reducible first | assumption | refine State.verifyFw_keeps (hk := ?_) (he' := by assumption) | apply State.verifyFw_keeps' | apply State.sense_keeps | apply State.released_keeps | apply State.setStage_keeps | apply State.bootCurtain_keeps | apply State.applyDefaults_keeps | apply State.dieEventsOut_keeps | apply State.applyOrDefault_keeps | apply State.releaseTiles_keeps | (refine State.modBoot_keeps _ _ ?_ (fun _ q => q) (fun _ q => q) (fun q => q)) | refine Keeps.ite ?_ ?_ | split

theorem State.curtainOutcome_keeps {z : State} (s : State) (hk : Keeps z s) :
    Keeps z (State.curtainOutcome s) := by
  unfold State.curtainOutcome
  try dsimp only
  repeat' with_reducible first | assumption | apply State.setFld_keeps | apply State.abortCurtain_keeps | refine Keeps.ite ?_ ?_ | split

theorem State.linksReturn_keeps {z : State} (s : State) (ts : List Nat) (hk : Keeps z s) :
    Keeps z (State.linksReturn s ts) := by
  unfold State.linksReturn
  try dsimp only
  repeat' with_reducible first | assumption | (refine State.each_keeps _ _ _ ?_ fun t a ht => ?_) | apply serviceLinkReturn_keeps | refine Keeps.ite ?_ ?_ | split

theorem State.slotsAgain_keeps {z : State} (s : State) (hk : Keeps z s) :
    Keeps z (State.slotsAgain s) := by
  unfold State.slotsAgain
  try dsimp only
  repeat' with_reducible first | assumption | (refine State.each_keeps _ _ _ ?_ fun t a ht => ?_) | apply State.spMessage_keeps | refine Keeps.ite ?_ ?_ | simp only [Keeps.upd] | split

theorem State.restartEnds_keeps {z : State} (s : State) (b : BootInput) (hk : Keeps z s) :
    Keeps z (State.restartEnds s b) := by
  unfold State.restartEnds
  try dsimp only
  repeat' with_reducible first | assumption | refine State.verifyFw_keeps (hk := ?_) (he' := by assumption) | apply State.verifyFw_keeps' | apply State.released_keeps | apply State.setFlag_keeps | apply State.setStage_keeps | apply State.curtainOutcome_keeps | apply State.slotsAgain_keeps | apply State.linksReturn_keeps | refine Keeps.ite ?_ ?_ | split

theorem State.ftFrom_keeps {z : State} (s : State) (t : Nat) (hk : Keeps z s) :
    Keeps z (State.ftFrom s t) := by
  unfold State.ftFrom
  try dsimp only
  repeat' with_reducible first | assumption | apply State.modTm_keeps | apply State.shiftSlaves_keeps | apply State.setFlag_keeps | refine Keeps.ite ?_ ?_ | split

theorem State.imageNoted_keeps {z : State} (s : State) (i : Image) (hk : Keeps z s) :
    Keeps z (State.imageNoted s i) := by
  unfold State.imageNoted
  try dsimp only
  repeat' with_reducible first | assumption | apply State.setFld_keeps | apply State.noteImage_keeps | apply State.countSkipped_keeps | (refine State.modBoot_keeps _ _ ?_ (fun _ q => q) (fun _ q => q) (fun q => q)) | refine Keeps.ite ?_ ?_ | split

theorem State.slotsFault_keeps {z : State} (s : State) (hk : Keeps z s) :
    Keeps z (State.slotsFault s) := by
  unfold State.slotsFault
  try dsimp only
  repeat' with_reducible first | assumption | (refine State.each_keeps _ _ _ ?_ fun t a ht => ?_) | apply State.sendSide_keeps | refine Keeps.ite ?_ ?_ | split

theorem State.rejoin_keeps {z : State} (s : State) (b : BootInput) (hk : Keeps z s) :
    Keeps z (State.rejoin s b) := by
  unfold State.rejoin
  try dsimp only
  repeat' with_reducible first | assumption | (refine State.each_keeps _ _ _ ?_ fun t a ht => ?_) | apply State.loseTile_keeps | apply State.bootFull_keeps | apply State.deviceReset_keeps | refine State.verifyFw_keeps (hk := ?_) (he' := by assumption) | apply State.verifyFw_keeps' | apply State.sense_keeps | apply State.released_keeps | apply State.setFld_keeps | apply State.setStage_keeps | apply State.imageNoted_keeps | apply State.ftFrom_keeps | (refine State.modBoot_keeps _ _ ?_ (fun _ q => q) (fun _ q => q) (fun q => q)) | apply State.curtainOutcome_keeps | apply State.slotsFault_keeps | apply State.linksReturn_keeps | refine Keeps.ite ?_ ?_ | split

theorem bootRun_keeps {z : State} (b : BootInput) (s : State) (hk : Keeps z s) :
    Keeps z (bootRun b s) := by
  unfold bootRun
  try dsimp only
  repeat' with_reducible first | assumption | apply State.bootFull_keeps | apply State.restartEnds_keeps | apply State.rejoin_keeps | refine Keeps.ite ?_ ?_ | split

end Sys2Proof.Machine
end

