-- ==== Sys2Proof/Laws/Regs.lean ====
section
/-! SUPPORT. The laws of the register file: bit fields, a read after a write, and what the named register operations leave
alone. -/

namespace Sys2Proof.Machine

/-! ### Bit fields -/

theorem testBit_field (v : Word) (hi lo i : Nat) :
    (field v hi lo).testBit i = (decide (i < hi + 1 - lo) && v.getLsbD (i + lo)) := by
  rw [field, Nat.testBit_mod_two_pow, Nat.testBit_div_two_pow, BitVec.getLsbD]

theorem getLsbD_maskOf {hi lo i : Nat} (hlo : lo ≤ hi) (hhi : hi < 32) :
    (maskOf hi lo).getLsbD i = decide (lo ≤ i ∧ i ≤ hi) := by
  simp only [maskOf, BitVec.getLsbD_ofNat, Nat.testBit_mul_two_pow, Nat.testBit_two_pow_sub_one]
  by_cases h1 : lo ≤ i
  · by_cases h2 : i ≤ hi
    · simp [h1, h2]; omega
    · simp [h1, h2]; omega
  · simp [h1]

/-- Every bit of a word whose field was replaced. -/
theorem getLsbD_putField (v : Word) {hi lo i : Nat} (n : Nat) (hlo : lo ≤ hi) (hhi : hi < 32) :
    (putField v hi lo n).getLsbD i = if lo ≤ i ∧ i ≤ hi then n.testBit (i - lo) else v.getLsbD i := by
  have hm : (BitVec.ofNat 32 (n % 2 ^ (hi + 1 - lo) * 2 ^ lo)).getLsbD i =
      (decide (lo ≤ i ∧ i ≤ hi) && n.testBit (i - lo)) := by
    simp only [BitVec.getLsbD_ofNat, Nat.testBit_mul_two_pow, Nat.testBit_mod_two_pow]
    by_cases h1 : lo ≤ i
    · by_cases h2 : i ≤ hi
      · have : i - lo < hi + 1 - lo := by omega
        have : i < 32 := by omega
        simp [*]
      · have : ¬ i - lo < hi + 1 - lo := by omega
        simp [*]
    · simp [h1]
  rw [putField, BitVec.getLsbD_or, hm, BitVec.getLsbD_and, BitVec.getLsbD_not, getLsbD_maskOf hlo hhi]
  by_cases h : lo ≤ i ∧ i ≤ hi
  · have : i < 32 := by omega
    simp [h]
  · by_cases hi' : i < 32
    · simp [h, hi']
    · simp [h, hi', BitVec.getLsbD_of_ge v i (by omega)]

/-- A field replaced reads the value written. -/
theorem field_putField_self (v : Word) {hi lo : Nat} (n : Nat) (hlo : lo ≤ hi) (hhi : hi < 32) :
    field (putField v hi lo n) hi lo = n % 2 ^ (hi + 1 - lo) := by
  apply Nat.eq_of_testBit_eq
  intro i
  rw [testBit_field, getLsbD_putField v n hlo hhi, Nat.testBit_mod_two_pow]
  by_cases h : i < hi + 1 - lo
  · have : lo ≤ i + lo ∧ i + lo ≤ hi := by omega
    simp [h, this]
  · simp [h]

/-- A field replaced leaves a disjoint field alone. -/
theorem field_putField_ne (v : Word) {hi lo hi' lo' : Nat} (n : Nat) (hlo : lo ≤ hi) (hhi : hi < 32)
    (h : hi' < lo ∨ hi < lo') : field (putField v hi lo n) hi' lo' = field v hi' lo' := by
  apply Nat.eq_of_testBit_eq
  intro i
  rw [testBit_field, testBit_field, getLsbD_putField v n hlo hhi]
  by_cases hi : i < hi' + 1 - lo'
  · rw [if_neg (by omega)]
  · simp [hi]

/-- A field replaced leaves a bit outside it alone. -/
theorem bit_putField_ne (v : Word) {hi lo i : Nat} (n : Nat) (hlo : lo ≤ hi) (hhi : hi < 32) (h : i < lo ∨ hi < i) :
    bit (putField v hi lo n) i = bit v i := by
  rw [bit, bit, getLsbD_putField v n hlo hhi, if_neg (by omega)]

@[simp] theorem bit_putBit_self (v : Word) {n : Nat} (b : Bool) (hn : n < 32) : bit (putBit v n b) n = b := by
  rw [putBit, bit, getLsbD_putField v _ (le_refl _) hn, if_pos ⟨le_refl _, le_refl _⟩]
  cases b <;> simp

theorem bit_putBit_ne (v : Word) {n m : Nat} (b : Bool) (hn : n < 32) (h : m ≠ n) :
    bit (putBit v n b) m = bit v m := bit_putField_ne v _ (le_refl _) hn (by omega)

theorem field_putBit_ne (v : Word) {n hi lo : Nat} (b : Bool) (hn : n < 32) (h : hi < n ∨ n < lo) :
    field (putBit v n b) hi lo = field v hi lo := field_putField_ne v _ (le_refl _) hn h

/-! ### A read after a write -/

@[simp] theorem State.lv_setLv (s : State) (o i : Nat) (v : Word) : (s.setLv o v).lv i = if i = o then v else s.lv i := by
  unfold State.lv State.setLv
  by_cases h : i = o
  · subst h; simp
  · simp [h, tget_tset_ne]

theorem State.lv_setLv_self (s : State) (o : Nat) (v : Word) : (s.setLv o v).lv o = v := by
  simp [State.lv_setLv]

theorem State.lv_setLv_ne (s : State) {o i : Nat} (v : Word) (h : i ≠ o) : (s.setLv o v).lv i = s.lv i := by
  simp [State.lv_setLv, h]

@[simp] theorem State.lv_setFld (s : State) (o hi lo n i : Nat) :
    (s.setFld o hi lo n).lv i = if i = o then putField (s.lv o) hi lo n else s.lv i := State.lv_setLv ..

@[simp] theorem State.lv_setFlag (s : State) (o n i : Nat) (b : Bool) :
    (s.setFlag o n b).lv i = if i = o then putBit (s.lv o) n b else s.lv i := State.lv_setLv ..

@[simp] theorem State.lv_sticky (s : State) (o n i : Nat) :
    (s.sticky o n).lv i = if i = o then putBit (s.lv o) n true else s.lv i := State.lv_setLv ..

theorem State.lv_setFld_ne (s : State) {o i : Nat} (hi lo n : Nat) (h : i ≠ o) :
    (s.setFld o hi lo n).lv i = s.lv i := s.lv_setLv_ne _ h

theorem State.lv_setFlag_ne (s : State) {o i : Nat} (n : Nat) (b : Bool) (h : i ≠ o) :
    (s.setFlag o n b).lv i = s.lv i := s.lv_setLv_ne _ h

theorem State.fld_setFld_self (s : State) (o : Nat) {hi lo : Nat} (n : Nat) (hlo : lo ≤ hi) (hhi : hi < 32) :
    (s.setFld o hi lo n).fld o hi lo = n % 2 ^ (hi + 1 - lo) := by
  simp [State.fld, State.setFld, field_putField_self _ _ hlo hhi]

theorem State.flag_setFlag_self (s : State) (o : Nat) {n : Nat} (b : Bool) (hn : n < 32) :
    (s.setFlag o n b).flag o n = b := by
  simp [State.flag, State.setFlag, hn]

theorem State.conf_setConf (s : State) (e e' : Bool) (o i : Nat) (v : Word) :
    (s.setConf e o v).conf e' i = if e' = e ∧ i = o then v else s.conf e' i := by
  by_cases h : i = o <;> cases e <;> cases e' <;>
    simp [State.conf, State.setConf, State.copyOf, h, tget_tset_ne]

@[simp] theorem State.lv_setConf (s : State) (e : Bool) (o : Nat) (v : Word) (i : Nat) :
    (s.setConf e o v).lv i = s.lv i := by cases e <;> rfl

/-- A plain write: RW bits take the value, W1C bits written as 1 clear, the others stay (R6, R7). -/
theorem State.lv_plainWrite (s : State) {o : Nat} {d : WordDef} (v : Word) (h : regDef o = some d) :
    (s.plainWrite o v).lv o = ((s.lv o &&& ~~~BitVec.ofNat 32 d.rwM) ||| (v &&& BitVec.ofNat 32 d.rwM)) &&&
      ~~~(v &&& BitVec.ofNat 32 d.w1cM) := by
  simp [State.plainWrite, h]

theorem State.lv_plainWrite_ne (s : State) {o i : Nat} (v : Word) (h : i ≠ o) : (s.plainWrite o v).lv i = s.lv i := by
  unfold State.plainWrite
  split
  · rfl
  · exact s.lv_setLv_ne _ h

end Sys2Proof.Machine
end

