-- ==== Sys2Proof/Laws/State.lean ====
section
/-! SUPPORT. One lemma per field per update of `State`, true by computation, so that no proof unfolds a record update. -/

namespace Sys2Proof.Machine

/-! `setLv` -/

@[simp] theorem State.setLv_part (s : State) (o : Nat) (v : Word) : (s.setLv o v).part = s.part := (rfl)
@[simp] theorem State.setLv_set0 (s : State) (o : Nat) (v : Word) : (s.setLv o v).set0 = s.set0 := (rfl)
@[simp] theorem State.setLv_set1 (s : State) (o : Nat) (v : Word) : (s.setLv o v).set1 = s.set1 := (rfl)
@[simp] theorem State.setLv_tm (s : State) (o : Nat) (v : Word) : (s.setLv o v).tm = s.tm := (rfl)
@[simp] theorem State.setLv_cur (s : State) (o : Nat) (v : Word) : (s.setLv o v).cur = s.cur := (rfl)
@[simp] theorem State.setLv_core (s : State) (o : Nat) (v : Word) : (s.setLv o v).core = s.core := (rfl)
@[simp] theorem State.setLv_sch (s : State) (o : Nat) (v : Word) : (s.setLv o v).sch = s.sch := (rfl)
@[simp] theorem State.setLv_arrivals (s : State) (o : Nat) (v : Word) : (s.setLv o v).arrivals = s.arrivals := (rfl)
@[simp] theorem State.setLv_pkts (s : State) (o : Nat) (v : Word) : (s.setLv o v).pkts = s.pkts := (rfl)
@[simp] theorem State.setLv_outs (s : State) (o : Nat) (v : Word) : (s.setLv o v).outs = s.outs := (rfl)
@[simp] theorem State.setLv_idCtr (s : State) (o : Nat) (v : Word) : (s.setLv o v).idCtr = s.idCtr := (rfl)
@[simp] theorem State.setLv_ilulysReset (s : State) (o : Nat) (v : Word) : (s.setLv o v).ilulysReset = s.ilulysReset := (rfl)
@[simp] theorem State.setLv_hv (s : State) (o : Nat) (v : Word) : (s.setLv o v).hv = s.hv := (rfl)
@[simp] theorem State.setLv_host (s : State) (o : Nat) (v : Word) : (s.setLv o v).host = s.host := (rfl)
@[simp] theorem State.setLv_tel (s : State) (o : Nat) (v : Word) : (s.setLv o v).tel = s.tel := (rfl)
@[simp] theorem State.setLv_cont (s : State) (o : Nat) (v : Word) : (s.setLv o v).cont = s.cont := (rfl)
@[simp] theorem State.setLv_wc (s : State) (o : Nat) (v : Word) : (s.setLv o v).wc = s.wc := (rfl)
@[simp] theorem State.setLv_win (s : State) (o : Nat) (v : Word) : (s.setLv o v).win = s.win := (rfl)
@[simp] theorem State.setLv_eng (s : State) (o : Nat) (v : Word) : (s.setLv o v).eng = s.eng := (rfl)
@[simp] theorem State.setLv_pu (s : State) (o : Nat) (v : Word) : (s.setLv o v).pu = s.pu := (rfl)
@[simp] theorem State.setLv_seats (s : State) (o : Nat) (v : Word) : (s.setLv o v).seats = s.seats := (rfl)
@[simp] theorem State.setLv_ports (s : State) (o : Nat) (v : Word) : (s.setLv o v).ports = s.ports := (rfl)
@[simp] theorem State.setLv_lanes (s : State) (o : Nat) (v : Word) : (s.setLv o v).lanes = s.lanes := (rfl)
@[simp] theorem State.setLv_sp (s : State) (o : Nat) (v : Word) : (s.setLv o v).sp = s.sp := (rfl)
@[simp] theorem State.setLv_seqLate (s : State) (o : Nat) (v : Word) : (s.setLv o v).seqLate = s.seqLate := (rfl)
@[simp] theorem State.setLv_slots (s : State) (o : Nat) (v : Word) : (s.setLv o v).slots = s.slots := (rfl)
@[simp] theorem State.setLv_links (s : State) (o : Nat) (v : Word) : (s.setLv o v).links = s.links := (rfl)
@[simp] theorem State.setLv_boot (s : State) (o : Nat) (v : Word) : (s.setLv o v).boot = s.boot := (rfl)
@[simp] theorem State.setLv_pwr (s : State) (o : Nat) (v : Word) : (s.setLv o v).pwr = s.pwr := (rfl)
@[simp] theorem State.setLv_wire (s : State) (o : Nat) (v : Word) : (s.setLv o v).wire = s.wire := (rfl)
@[simp] theorem State.setLv_freeCtr (s : State) (o : Nat) (v : Word) : (s.setLv o v).freeCtr = s.freeCtr := (rfl)
@[simp] theorem State.setLv_pending (s : State) (o : Nat) (v : Word) : (s.setLv o v).pending = s.pending := (rfl)

@[simp] theorem State.setLv_conf (s : State) (o : Nat) (v : Word) (x : Bool) (i : Nat) :
    (s.setLv o v).conf x i = s.conf x i := (rfl)

/-! `used` -/

@[simp] theorem State.used_part (s : State) : (s.used).part = s.part := (rfl)
@[simp] theorem State.used_live (s : State) : (s.used).live = s.live := (rfl)
@[simp] theorem State.used_set0 (s : State) : (s.used).set0 = s.set0 := (rfl)
@[simp] theorem State.used_set1 (s : State) : (s.used).set1 = s.set1 := (rfl)
@[simp] theorem State.used_tm (s : State) : (s.used).tm = s.tm := (rfl)
@[simp] theorem State.used_cur (s : State) : (s.used).cur = s.cur := (rfl)
@[simp] theorem State.used_core (s : State) : (s.used).core = s.core := (rfl)
@[simp] theorem State.used_sch (s : State) : (s.used).sch = s.sch := (rfl)
@[simp] theorem State.used_arrivals (s : State) : (s.used).arrivals = s.arrivals := (rfl)
@[simp] theorem State.used_pkts (s : State) : (s.used).pkts = s.pkts := (rfl)
@[simp] theorem State.used_outs (s : State) : (s.used).outs = s.outs := (rfl)
@[simp] theorem State.used_idCtr (s : State) : (s.used).idCtr = s.idCtr := (rfl)
@[simp] theorem State.used_ilulysReset (s : State) : (s.used).ilulysReset = s.ilulysReset := (rfl)
@[simp] theorem State.used_hv (s : State) : (s.used).hv = s.hv := (rfl)
@[simp] theorem State.used_host (s : State) : (s.used).host = s.host := (rfl)
@[simp] theorem State.used_tel (s : State) : (s.used).tel = s.tel := (rfl)
@[simp] theorem State.used_cont (s : State) : (s.used).cont = s.cont := (rfl)
@[simp] theorem State.used_wc (s : State) : (s.used).wc = s.wc := (rfl)
@[simp] theorem State.used_win (s : State) : (s.used).win = s.win := (rfl)
@[simp] theorem State.used_eng (s : State) : (s.used).eng = s.eng := (rfl)
@[simp] theorem State.used_pu (s : State) : (s.used).pu = s.pu := (rfl)
@[simp] theorem State.used_seats (s : State) : (s.used).seats = s.seats := (rfl)
@[simp] theorem State.used_ports (s : State) : (s.used).ports = s.ports := (rfl)
@[simp] theorem State.used_lanes (s : State) : (s.used).lanes = s.lanes := (rfl)
@[simp] theorem State.used_sp (s : State) : (s.used).sp = s.sp := (rfl)
@[simp] theorem State.used_seqLate (s : State) : (s.used).seqLate = s.seqLate := (rfl)
@[simp] theorem State.used_slots (s : State) : (s.used).slots = s.slots := (rfl)
@[simp] theorem State.used_links (s : State) : (s.used).links = s.links := (rfl)
@[simp] theorem State.used_boot (s : State) : (s.used).boot = s.boot := (rfl)
@[simp] theorem State.used_pwr (s : State) : (s.used).pwr = s.pwr := (rfl)
@[simp] theorem State.used_wire (s : State) : (s.used).wire = s.wire := (rfl)
@[simp] theorem State.used_freeCtr (s : State) : (s.used).freeCtr = s.freeCtr + 1 := (rfl)
@[simp] theorem State.used_pending (s : State) : (s.used).pending = s.pending := (rfl)
@[simp] theorem State.used_lv (s : State) (i : Nat) : (s.used).lv i = s.lv i := (rfl)
@[simp] theorem State.used_conf (s : State) (x : Bool) (i : Nat) : (s.used).conf x i = s.conf x i := (rfl)

/-! `emit` -/

@[simp] theorem State.emit_part (s : State) (e : Emission) : (s.emit e).part = s.part := (rfl)
@[simp] theorem State.emit_live (s : State) (e : Emission) : (s.emit e).live = s.live := (rfl)
@[simp] theorem State.emit_set0 (s : State) (e : Emission) : (s.emit e).set0 = s.set0 := (rfl)
@[simp] theorem State.emit_set1 (s : State) (e : Emission) : (s.emit e).set1 = s.set1 := (rfl)
@[simp] theorem State.emit_tm (s : State) (e : Emission) : (s.emit e).tm = s.tm := (rfl)
@[simp] theorem State.emit_cur (s : State) (e : Emission) : (s.emit e).cur = s.cur := (rfl)
@[simp] theorem State.emit_core (s : State) (e : Emission) : (s.emit e).core = s.core := (rfl)
@[simp] theorem State.emit_sch (s : State) (e : Emission) : (s.emit e).sch = s.sch := (rfl)
@[simp] theorem State.emit_arrivals (s : State) (e : Emission) : (s.emit e).arrivals = s.arrivals := (rfl)
@[simp] theorem State.emit_pkts (s : State) (e : Emission) : (s.emit e).pkts = s.pkts := (rfl)
@[simp] theorem State.emit_outs (s : State) (e : Emission) : (s.emit e).outs = s.outs := (rfl)
@[simp] theorem State.emit_idCtr (s : State) (e : Emission) : (s.emit e).idCtr = s.idCtr := (rfl)
@[simp] theorem State.emit_ilulysReset (s : State) (e : Emission) : (s.emit e).ilulysReset = s.ilulysReset := (rfl)
@[simp] theorem State.emit_hv (s : State) (e : Emission) : (s.emit e).hv = s.hv := (rfl)
@[simp] theorem State.emit_host (s : State) (e : Emission) : (s.emit e).host = s.host := (rfl)
@[simp] theorem State.emit_tel (s : State) (e : Emission) : (s.emit e).tel = s.tel := (rfl)
@[simp] theorem State.emit_cont (s : State) (e : Emission) : (s.emit e).cont = s.cont := (rfl)
@[simp] theorem State.emit_wc (s : State) (e : Emission) : (s.emit e).wc = s.wc := (rfl)
@[simp] theorem State.emit_win (s : State) (e : Emission) : (s.emit e).win = s.win := (rfl)
@[simp] theorem State.emit_eng (s : State) (e : Emission) : (s.emit e).eng = s.eng := (rfl)
@[simp] theorem State.emit_pu (s : State) (e : Emission) : (s.emit e).pu = s.pu := (rfl)
@[simp] theorem State.emit_seats (s : State) (e : Emission) : (s.emit e).seats = s.seats := (rfl)
@[simp] theorem State.emit_ports (s : State) (e : Emission) : (s.emit e).ports = s.ports := (rfl)
@[simp] theorem State.emit_lanes (s : State) (e : Emission) : (s.emit e).lanes = s.lanes := (rfl)
@[simp] theorem State.emit_sp (s : State) (e : Emission) : (s.emit e).sp = s.sp := (rfl)
@[simp] theorem State.emit_seqLate (s : State) (e : Emission) : (s.emit e).seqLate = s.seqLate := (rfl)
@[simp] theorem State.emit_slots (s : State) (e : Emission) : (s.emit e).slots = s.slots := (rfl)
@[simp] theorem State.emit_links (s : State) (e : Emission) : (s.emit e).links = s.links := (rfl)
@[simp] theorem State.emit_boot (s : State) (e : Emission) : (s.emit e).boot = s.boot := (rfl)
@[simp] theorem State.emit_pwr (s : State) (e : Emission) : (s.emit e).pwr = s.pwr := (rfl)
@[simp] theorem State.emit_wire (s : State) (e : Emission) : (s.emit e).wire = s.wire ++ [e] := (rfl)
@[simp] theorem State.emit_freeCtr (s : State) (e : Emission) : (s.emit e).freeCtr = s.freeCtr := (rfl)
@[simp] theorem State.emit_pending (s : State) (e : Emission) : (s.emit e).pending = s.pending := (rfl)
@[simp] theorem State.emit_lv (s : State) (e : Emission) (i : Nat) : (s.emit e).lv i = s.lv i := (rfl)
@[simp] theorem State.emit_conf (s : State) (e : Emission) (x : Bool) (i : Nat) : (s.emit e).conf x i = s.conf x i := (rfl)

/-! `addPkt` -/

@[simp] theorem State.addPkt_part (s : State) (p : Packet) : (s.addPkt p).part = s.part := (rfl)
@[simp] theorem State.addPkt_live (s : State) (p : Packet) : (s.addPkt p).live = s.live := (rfl)
@[simp] theorem State.addPkt_set0 (s : State) (p : Packet) : (s.addPkt p).set0 = s.set0 := (rfl)
@[simp] theorem State.addPkt_set1 (s : State) (p : Packet) : (s.addPkt p).set1 = s.set1 := (rfl)
@[simp] theorem State.addPkt_tm (s : State) (p : Packet) : (s.addPkt p).tm = s.tm := (rfl)
@[simp] theorem State.addPkt_cur (s : State) (p : Packet) : (s.addPkt p).cur = s.cur := (rfl)
@[simp] theorem State.addPkt_core (s : State) (p : Packet) : (s.addPkt p).core = s.core := (rfl)
@[simp] theorem State.addPkt_sch (s : State) (p : Packet) : (s.addPkt p).sch = s.sch := (rfl)
@[simp] theorem State.addPkt_arrivals (s : State) (p : Packet) : (s.addPkt p).arrivals = s.arrivals := (rfl)
@[simp] theorem State.addPkt_outs (s : State) (p : Packet) : (s.addPkt p).outs = s.outs := (rfl)
@[simp] theorem State.addPkt_ilulysReset (s : State) (p : Packet) : (s.addPkt p).ilulysReset = s.ilulysReset := (rfl)
@[simp] theorem State.addPkt_hv (s : State) (p : Packet) : (s.addPkt p).hv = s.hv := (rfl)
@[simp] theorem State.addPkt_host (s : State) (p : Packet) : (s.addPkt p).host = s.host := (rfl)
@[simp] theorem State.addPkt_tel (s : State) (p : Packet) : (s.addPkt p).tel = s.tel := (rfl)
@[simp] theorem State.addPkt_cont (s : State) (p : Packet) : (s.addPkt p).cont = s.cont := (rfl)
@[simp] theorem State.addPkt_wc (s : State) (p : Packet) : (s.addPkt p).wc = s.wc := (rfl)
@[simp] theorem State.addPkt_win (s : State) (p : Packet) : (s.addPkt p).win = s.win := (rfl)
@[simp] theorem State.addPkt_eng (s : State) (p : Packet) : (s.addPkt p).eng = s.eng := (rfl)
@[simp] theorem State.addPkt_pu (s : State) (p : Packet) : (s.addPkt p).pu = s.pu := (rfl)
@[simp] theorem State.addPkt_seats (s : State) (p : Packet) : (s.addPkt p).seats = s.seats := (rfl)
@[simp] theorem State.addPkt_ports (s : State) (p : Packet) : (s.addPkt p).ports = s.ports := (rfl)
@[simp] theorem State.addPkt_lanes (s : State) (p : Packet) : (s.addPkt p).lanes = s.lanes := (rfl)
@[simp] theorem State.addPkt_sp (s : State) (p : Packet) : (s.addPkt p).sp = s.sp := (rfl)
@[simp] theorem State.addPkt_seqLate (s : State) (p : Packet) : (s.addPkt p).seqLate = s.seqLate := (rfl)
@[simp] theorem State.addPkt_slots (s : State) (p : Packet) : (s.addPkt p).slots = s.slots := (rfl)
@[simp] theorem State.addPkt_links (s : State) (p : Packet) : (s.addPkt p).links = s.links := (rfl)
@[simp] theorem State.addPkt_boot (s : State) (p : Packet) : (s.addPkt p).boot = s.boot := (rfl)
@[simp] theorem State.addPkt_pwr (s : State) (p : Packet) : (s.addPkt p).pwr = s.pwr := (rfl)
@[simp] theorem State.addPkt_wire (s : State) (p : Packet) : (s.addPkt p).wire = s.wire := (rfl)
@[simp] theorem State.addPkt_freeCtr (s : State) (p : Packet) : (s.addPkt p).freeCtr = s.freeCtr := (rfl)
@[simp] theorem State.addPkt_pending (s : State) (p : Packet) : (s.addPkt p).pending = s.pending := (rfl)
@[simp] theorem State.addPkt_lv (s : State) (p : Packet) (i : Nat) : (s.addPkt p).lv i = s.lv i := (rfl)
@[simp] theorem State.addPkt_conf (s : State) (p : Packet) (x : Bool) (i : Nat) : (s.addPkt p).conf x i = s.conf x i := (rfl)

/-! `modPkt` -/

@[simp] theorem State.modPkt_part (s : State) (n : Nat) (f : Packet → Packet) : (s.modPkt n f).part = s.part := (rfl)
@[simp] theorem State.modPkt_live (s : State) (n : Nat) (f : Packet → Packet) : (s.modPkt n f).live = s.live := (rfl)
@[simp] theorem State.modPkt_set0 (s : State) (n : Nat) (f : Packet → Packet) : (s.modPkt n f).set0 = s.set0 := (rfl)
@[simp] theorem State.modPkt_set1 (s : State) (n : Nat) (f : Packet → Packet) : (s.modPkt n f).set1 = s.set1 := (rfl)
@[simp] theorem State.modPkt_tm (s : State) (n : Nat) (f : Packet → Packet) : (s.modPkt n f).tm = s.tm := (rfl)
@[simp] theorem State.modPkt_cur (s : State) (n : Nat) (f : Packet → Packet) : (s.modPkt n f).cur = s.cur := (rfl)
@[simp] theorem State.modPkt_core (s : State) (n : Nat) (f : Packet → Packet) : (s.modPkt n f).core = s.core := (rfl)
@[simp] theorem State.modPkt_sch (s : State) (n : Nat) (f : Packet → Packet) : (s.modPkt n f).sch = s.sch := (rfl)
@[simp] theorem State.modPkt_arrivals (s : State) (n : Nat) (f : Packet → Packet) : (s.modPkt n f).arrivals = s.arrivals := (rfl)
@[simp] theorem State.modPkt_outs (s : State) (n : Nat) (f : Packet → Packet) : (s.modPkt n f).outs = s.outs := (rfl)
@[simp] theorem State.modPkt_idCtr (s : State) (n : Nat) (f : Packet → Packet) : (s.modPkt n f).idCtr = s.idCtr := (rfl)
@[simp] theorem State.modPkt_ilulysReset (s : State) (n : Nat) (f : Packet → Packet) : (s.modPkt n f).ilulysReset = s.ilulysReset := (rfl)
@[simp] theorem State.modPkt_hv (s : State) (n : Nat) (f : Packet → Packet) : (s.modPkt n f).hv = s.hv := (rfl)
@[simp] theorem State.modPkt_host (s : State) (n : Nat) (f : Packet → Packet) : (s.modPkt n f).host = s.host := (rfl)
@[simp] theorem State.modPkt_tel (s : State) (n : Nat) (f : Packet → Packet) : (s.modPkt n f).tel = s.tel := (rfl)
@[simp] theorem State.modPkt_cont (s : State) (n : Nat) (f : Packet → Packet) : (s.modPkt n f).cont = s.cont := (rfl)
@[simp] theorem State.modPkt_wc (s : State) (n : Nat) (f : Packet → Packet) : (s.modPkt n f).wc = s.wc := (rfl)
@[simp] theorem State.modPkt_win (s : State) (n : Nat) (f : Packet → Packet) : (s.modPkt n f).win = s.win := (rfl)
@[simp] theorem State.modPkt_eng (s : State) (n : Nat) (f : Packet → Packet) : (s.modPkt n f).eng = s.eng := (rfl)
@[simp] theorem State.modPkt_pu (s : State) (n : Nat) (f : Packet → Packet) : (s.modPkt n f).pu = s.pu := (rfl)
@[simp] theorem State.modPkt_seats (s : State) (n : Nat) (f : Packet → Packet) : (s.modPkt n f).seats = s.seats := (rfl)
@[simp] theorem State.modPkt_ports (s : State) (n : Nat) (f : Packet → Packet) : (s.modPkt n f).ports = s.ports := (rfl)
@[simp] theorem State.modPkt_lanes (s : State) (n : Nat) (f : Packet → Packet) : (s.modPkt n f).lanes = s.lanes := (rfl)
@[simp] theorem State.modPkt_sp (s : State) (n : Nat) (f : Packet → Packet) : (s.modPkt n f).sp = s.sp := (rfl)
@[simp] theorem State.modPkt_seqLate (s : State) (n : Nat) (f : Packet → Packet) : (s.modPkt n f).seqLate = s.seqLate := (rfl)
@[simp] theorem State.modPkt_slots (s : State) (n : Nat) (f : Packet → Packet) : (s.modPkt n f).slots = s.slots := (rfl)
@[simp] theorem State.modPkt_links (s : State) (n : Nat) (f : Packet → Packet) : (s.modPkt n f).links = s.links := (rfl)
@[simp] theorem State.modPkt_boot (s : State) (n : Nat) (f : Packet → Packet) : (s.modPkt n f).boot = s.boot := (rfl)
@[simp] theorem State.modPkt_pwr (s : State) (n : Nat) (f : Packet → Packet) : (s.modPkt n f).pwr = s.pwr := (rfl)
@[simp] theorem State.modPkt_wire (s : State) (n : Nat) (f : Packet → Packet) : (s.modPkt n f).wire = s.wire := (rfl)
@[simp] theorem State.modPkt_freeCtr (s : State) (n : Nat) (f : Packet → Packet) : (s.modPkt n f).freeCtr = s.freeCtr := (rfl)
@[simp] theorem State.modPkt_pending (s : State) (n : Nat) (f : Packet → Packet) : (s.modPkt n f).pending = s.pending := (rfl)
@[simp] theorem State.modPkt_lv (s : State) (n : Nat) (f : Packet → Packet) (i : Nat) : (s.modPkt n f).lv i = s.lv i := (rfl)
@[simp] theorem State.modPkt_conf (s : State) (n : Nat) (f : Packet → Packet) (x : Bool) (i : Nat) : (s.modPkt n f).conf x i = s.conf x i := (rfl)

/-! `dropPkt` -/

@[simp] theorem State.dropPkt_part (s : State) (n : Nat) : (s.dropPkt n).part = s.part := (rfl)
@[simp] theorem State.dropPkt_live (s : State) (n : Nat) : (s.dropPkt n).live = s.live := (rfl)
@[simp] theorem State.dropPkt_set0 (s : State) (n : Nat) : (s.dropPkt n).set0 = s.set0 := (rfl)
@[simp] theorem State.dropPkt_set1 (s : State) (n : Nat) : (s.dropPkt n).set1 = s.set1 := (rfl)
@[simp] theorem State.dropPkt_tm (s : State) (n : Nat) : (s.dropPkt n).tm = s.tm := (rfl)
@[simp] theorem State.dropPkt_cur (s : State) (n : Nat) : (s.dropPkt n).cur = s.cur := (rfl)
@[simp] theorem State.dropPkt_core (s : State) (n : Nat) : (s.dropPkt n).core = s.core := (rfl)
@[simp] theorem State.dropPkt_sch (s : State) (n : Nat) : (s.dropPkt n).sch = s.sch := (rfl)
@[simp] theorem State.dropPkt_arrivals (s : State) (n : Nat) : (s.dropPkt n).arrivals = s.arrivals := (rfl)
@[simp] theorem State.dropPkt_pkts (s : State) (n : Nat) : (s.dropPkt n).pkts = s.pkts.filter fun p => p.id != n := (rfl)
@[simp] theorem State.dropPkt_outs (s : State) (n : Nat) : (s.dropPkt n).outs = s.outs := (rfl)
@[simp] theorem State.dropPkt_idCtr (s : State) (n : Nat) : (s.dropPkt n).idCtr = s.idCtr := (rfl)
@[simp] theorem State.dropPkt_ilulysReset (s : State) (n : Nat) : (s.dropPkt n).ilulysReset = s.ilulysReset := (rfl)
@[simp] theorem State.dropPkt_hv (s : State) (n : Nat) : (s.dropPkt n).hv = s.hv := (rfl)
@[simp] theorem State.dropPkt_host (s : State) (n : Nat) : (s.dropPkt n).host = s.host := (rfl)
@[simp] theorem State.dropPkt_tel (s : State) (n : Nat) : (s.dropPkt n).tel = s.tel := (rfl)
@[simp] theorem State.dropPkt_cont (s : State) (n : Nat) : (s.dropPkt n).cont = s.cont := (rfl)
@[simp] theorem State.dropPkt_wc (s : State) (n : Nat) : (s.dropPkt n).wc = s.wc := (rfl)
@[simp] theorem State.dropPkt_win (s : State) (n : Nat) : (s.dropPkt n).win = s.win := (rfl)
@[simp] theorem State.dropPkt_eng (s : State) (n : Nat) : (s.dropPkt n).eng = s.eng := (rfl)
@[simp] theorem State.dropPkt_pu (s : State) (n : Nat) : (s.dropPkt n).pu = s.pu := (rfl)
@[simp] theorem State.dropPkt_seats (s : State) (n : Nat) : (s.dropPkt n).seats = s.seats := (rfl)
@[simp] theorem State.dropPkt_ports (s : State) (n : Nat) : (s.dropPkt n).ports = s.ports := (rfl)
@[simp] theorem State.dropPkt_lanes (s : State) (n : Nat) : (s.dropPkt n).lanes = s.lanes := (rfl)
@[simp] theorem State.dropPkt_sp (s : State) (n : Nat) : (s.dropPkt n).sp = s.sp := (rfl)
@[simp] theorem State.dropPkt_seqLate (s : State) (n : Nat) : (s.dropPkt n).seqLate = s.seqLate := (rfl)
@[simp] theorem State.dropPkt_slots (s : State) (n : Nat) : (s.dropPkt n).slots = s.slots := (rfl)
@[simp] theorem State.dropPkt_links (s : State) (n : Nat) : (s.dropPkt n).links = s.links := (rfl)
@[simp] theorem State.dropPkt_boot (s : State) (n : Nat) : (s.dropPkt n).boot = s.boot := (rfl)
@[simp] theorem State.dropPkt_pwr (s : State) (n : Nat) : (s.dropPkt n).pwr = s.pwr := (rfl)
@[simp] theorem State.dropPkt_wire (s : State) (n : Nat) : (s.dropPkt n).wire = s.wire := (rfl)
@[simp] theorem State.dropPkt_freeCtr (s : State) (n : Nat) : (s.dropPkt n).freeCtr = s.freeCtr := (rfl)
@[simp] theorem State.dropPkt_pending (s : State) (n : Nat) : (s.dropPkt n).pending = s.pending := (rfl)
@[simp] theorem State.dropPkt_lv (s : State) (n : Nat) (i : Nat) : (s.dropPkt n).lv i = s.lv i := (rfl)
@[simp] theorem State.dropPkt_conf (s : State) (n : Nat) (x : Bool) (i : Nat) : (s.dropPkt n).conf x i = s.conf x i := (rfl)

/-! `modCore` -/

@[simp] theorem State.modCore_part (s : State) (f : CoreSt → CoreSt) : (s.modCore f).part = s.part := (rfl)
@[simp] theorem State.modCore_live (s : State) (f : CoreSt → CoreSt) : (s.modCore f).live = s.live := (rfl)
@[simp] theorem State.modCore_set0 (s : State) (f : CoreSt → CoreSt) : (s.modCore f).set0 = s.set0 := (rfl)
@[simp] theorem State.modCore_set1 (s : State) (f : CoreSt → CoreSt) : (s.modCore f).set1 = s.set1 := (rfl)
@[simp] theorem State.modCore_tm (s : State) (f : CoreSt → CoreSt) : (s.modCore f).tm = s.tm := (rfl)
@[simp] theorem State.modCore_cur (s : State) (f : CoreSt → CoreSt) : (s.modCore f).cur = s.cur := (rfl)
@[simp] theorem State.modCore_core (s : State) (f : CoreSt → CoreSt) : (s.modCore f).core = f s.core := (rfl)
@[simp] theorem State.modCore_sch (s : State) (f : CoreSt → CoreSt) : (s.modCore f).sch = s.sch := (rfl)
@[simp] theorem State.modCore_arrivals (s : State) (f : CoreSt → CoreSt) : (s.modCore f).arrivals = s.arrivals := (rfl)
@[simp] theorem State.modCore_pkts (s : State) (f : CoreSt → CoreSt) : (s.modCore f).pkts = s.pkts := (rfl)
@[simp] theorem State.modCore_outs (s : State) (f : CoreSt → CoreSt) : (s.modCore f).outs = s.outs := (rfl)
@[simp] theorem State.modCore_idCtr (s : State) (f : CoreSt → CoreSt) : (s.modCore f).idCtr = s.idCtr := (rfl)
@[simp] theorem State.modCore_ilulysReset (s : State) (f : CoreSt → CoreSt) : (s.modCore f).ilulysReset = s.ilulysReset := (rfl)
@[simp] theorem State.modCore_hv (s : State) (f : CoreSt → CoreSt) : (s.modCore f).hv = s.hv := (rfl)
@[simp] theorem State.modCore_host (s : State) (f : CoreSt → CoreSt) : (s.modCore f).host = s.host := (rfl)
@[simp] theorem State.modCore_tel (s : State) (f : CoreSt → CoreSt) : (s.modCore f).tel = s.tel := (rfl)
@[simp] theorem State.modCore_cont (s : State) (f : CoreSt → CoreSt) : (s.modCore f).cont = s.cont := (rfl)
@[simp] theorem State.modCore_wc (s : State) (f : CoreSt → CoreSt) : (s.modCore f).wc = s.wc := (rfl)
@[simp] theorem State.modCore_win (s : State) (f : CoreSt → CoreSt) : (s.modCore f).win = s.win := (rfl)
@[simp] theorem State.modCore_eng (s : State) (f : CoreSt → CoreSt) : (s.modCore f).eng = s.eng := (rfl)
@[simp] theorem State.modCore_pu (s : State) (f : CoreSt → CoreSt) : (s.modCore f).pu = s.pu := (rfl)
@[simp] theorem State.modCore_seats (s : State) (f : CoreSt → CoreSt) : (s.modCore f).seats = s.seats := (rfl)
@[simp] theorem State.modCore_ports (s : State) (f : CoreSt → CoreSt) : (s.modCore f).ports = s.ports := (rfl)
@[simp] theorem State.modCore_lanes (s : State) (f : CoreSt → CoreSt) : (s.modCore f).lanes = s.lanes := (rfl)
@[simp] theorem State.modCore_sp (s : State) (f : CoreSt → CoreSt) : (s.modCore f).sp = s.sp := (rfl)
@[simp] theorem State.modCore_seqLate (s : State) (f : CoreSt → CoreSt) : (s.modCore f).seqLate = s.seqLate := (rfl)
@[simp] theorem State.modCore_slots (s : State) (f : CoreSt → CoreSt) : (s.modCore f).slots = s.slots := (rfl)
@[simp] theorem State.modCore_links (s : State) (f : CoreSt → CoreSt) : (s.modCore f).links = s.links := (rfl)
@[simp] theorem State.modCore_boot (s : State) (f : CoreSt → CoreSt) : (s.modCore f).boot = s.boot := (rfl)
@[simp] theorem State.modCore_pwr (s : State) (f : CoreSt → CoreSt) : (s.modCore f).pwr = s.pwr := (rfl)
@[simp] theorem State.modCore_wire (s : State) (f : CoreSt → CoreSt) : (s.modCore f).wire = s.wire := (rfl)
@[simp] theorem State.modCore_freeCtr (s : State) (f : CoreSt → CoreSt) : (s.modCore f).freeCtr = s.freeCtr := (rfl)
@[simp] theorem State.modCore_pending (s : State) (f : CoreSt → CoreSt) : (s.modCore f).pending = s.pending := (rfl)
@[simp] theorem State.modCore_lv (s : State) (f : CoreSt → CoreSt) (i : Nat) : (s.modCore f).lv i = s.lv i := (rfl)
@[simp] theorem State.modCore_conf (s : State) (f : CoreSt → CoreSt) (x : Bool) (i : Nat) : (s.modCore f).conf x i = s.conf x i := (rfl)

/-! `modTm` -/

@[simp] theorem State.modTm_part (s : State) (f : TimeSt → TimeSt) : (s.modTm f).part = s.part := (rfl)
@[simp] theorem State.modTm_live (s : State) (f : TimeSt → TimeSt) : (s.modTm f).live = s.live := (rfl)
@[simp] theorem State.modTm_set0 (s : State) (f : TimeSt → TimeSt) : (s.modTm f).set0 = s.set0 := (rfl)
@[simp] theorem State.modTm_set1 (s : State) (f : TimeSt → TimeSt) : (s.modTm f).set1 = s.set1 := (rfl)
@[simp] theorem State.modTm_tm (s : State) (f : TimeSt → TimeSt) : (s.modTm f).tm = f s.tm := (rfl)
@[simp] theorem State.modTm_cur (s : State) (f : TimeSt → TimeSt) : (s.modTm f).cur = s.cur := (rfl)
@[simp] theorem State.modTm_core (s : State) (f : TimeSt → TimeSt) : (s.modTm f).core = s.core := (rfl)
@[simp] theorem State.modTm_sch (s : State) (f : TimeSt → TimeSt) : (s.modTm f).sch = s.sch := (rfl)
@[simp] theorem State.modTm_arrivals (s : State) (f : TimeSt → TimeSt) : (s.modTm f).arrivals = s.arrivals := (rfl)
@[simp] theorem State.modTm_pkts (s : State) (f : TimeSt → TimeSt) : (s.modTm f).pkts = s.pkts := (rfl)
@[simp] theorem State.modTm_outs (s : State) (f : TimeSt → TimeSt) : (s.modTm f).outs = s.outs := (rfl)
@[simp] theorem State.modTm_idCtr (s : State) (f : TimeSt → TimeSt) : (s.modTm f).idCtr = s.idCtr := (rfl)
@[simp] theorem State.modTm_ilulysReset (s : State) (f : TimeSt → TimeSt) : (s.modTm f).ilulysReset = s.ilulysReset := (rfl)
@[simp] theorem State.modTm_hv (s : State) (f : TimeSt → TimeSt) : (s.modTm f).hv = s.hv := (rfl)
@[simp] theorem State.modTm_host (s : State) (f : TimeSt → TimeSt) : (s.modTm f).host = s.host := (rfl)
@[simp] theorem State.modTm_tel (s : State) (f : TimeSt → TimeSt) : (s.modTm f).tel = s.tel := (rfl)
@[simp] theorem State.modTm_cont (s : State) (f : TimeSt → TimeSt) : (s.modTm f).cont = s.cont := (rfl)
@[simp] theorem State.modTm_wc (s : State) (f : TimeSt → TimeSt) : (s.modTm f).wc = s.wc := (rfl)
@[simp] theorem State.modTm_win (s : State) (f : TimeSt → TimeSt) : (s.modTm f).win = s.win := (rfl)
@[simp] theorem State.modTm_eng (s : State) (f : TimeSt → TimeSt) : (s.modTm f).eng = s.eng := (rfl)
@[simp] theorem State.modTm_pu (s : State) (f : TimeSt → TimeSt) : (s.modTm f).pu = s.pu := (rfl)
@[simp] theorem State.modTm_seats (s : State) (f : TimeSt → TimeSt) : (s.modTm f).seats = s.seats := (rfl)
@[simp] theorem State.modTm_ports (s : State) (f : TimeSt → TimeSt) : (s.modTm f).ports = s.ports := (rfl)
@[simp] theorem State.modTm_lanes (s : State) (f : TimeSt → TimeSt) : (s.modTm f).lanes = s.lanes := (rfl)
@[simp] theorem State.modTm_sp (s : State) (f : TimeSt → TimeSt) : (s.modTm f).sp = s.sp := (rfl)
@[simp] theorem State.modTm_seqLate (s : State) (f : TimeSt → TimeSt) : (s.modTm f).seqLate = s.seqLate := (rfl)
@[simp] theorem State.modTm_slots (s : State) (f : TimeSt → TimeSt) : (s.modTm f).slots = s.slots := (rfl)
@[simp] theorem State.modTm_links (s : State) (f : TimeSt → TimeSt) : (s.modTm f).links = s.links := (rfl)
@[simp] theorem State.modTm_boot (s : State) (f : TimeSt → TimeSt) : (s.modTm f).boot = s.boot := (rfl)
@[simp] theorem State.modTm_pwr (s : State) (f : TimeSt → TimeSt) : (s.modTm f).pwr = s.pwr := (rfl)
@[simp] theorem State.modTm_wire (s : State) (f : TimeSt → TimeSt) : (s.modTm f).wire = s.wire := (rfl)
@[simp] theorem State.modTm_freeCtr (s : State) (f : TimeSt → TimeSt) : (s.modTm f).freeCtr = s.freeCtr := (rfl)
@[simp] theorem State.modTm_pending (s : State) (f : TimeSt → TimeSt) : (s.modTm f).pending = s.pending := (rfl)
@[simp] theorem State.modTm_lv (s : State) (f : TimeSt → TimeSt) (i : Nat) : (s.modTm f).lv i = s.lv i := (rfl)
@[simp] theorem State.modTm_conf (s : State) (f : TimeSt → TimeSt) (x : Bool) (i : Nat) : (s.modTm f).conf x i = s.conf x i := (rfl)

/-! `modCur` -/

@[simp] theorem State.modCur_part (s : State) (f : CurtainSt → CurtainSt) : (s.modCur f).part = s.part := (rfl)
@[simp] theorem State.modCur_live (s : State) (f : CurtainSt → CurtainSt) : (s.modCur f).live = s.live := (rfl)
@[simp] theorem State.modCur_set0 (s : State) (f : CurtainSt → CurtainSt) : (s.modCur f).set0 = s.set0 := (rfl)
@[simp] theorem State.modCur_set1 (s : State) (f : CurtainSt → CurtainSt) : (s.modCur f).set1 = s.set1 := (rfl)
@[simp] theorem State.modCur_tm (s : State) (f : CurtainSt → CurtainSt) : (s.modCur f).tm = s.tm := (rfl)
@[simp] theorem State.modCur_cur (s : State) (f : CurtainSt → CurtainSt) : (s.modCur f).cur = f s.cur := (rfl)
@[simp] theorem State.modCur_core (s : State) (f : CurtainSt → CurtainSt) : (s.modCur f).core = s.core := (rfl)
@[simp] theorem State.modCur_sch (s : State) (f : CurtainSt → CurtainSt) : (s.modCur f).sch = s.sch := (rfl)
@[simp] theorem State.modCur_arrivals (s : State) (f : CurtainSt → CurtainSt) : (s.modCur f).arrivals = s.arrivals := (rfl)
@[simp] theorem State.modCur_pkts (s : State) (f : CurtainSt → CurtainSt) : (s.modCur f).pkts = s.pkts := (rfl)
@[simp] theorem State.modCur_outs (s : State) (f : CurtainSt → CurtainSt) : (s.modCur f).outs = s.outs := (rfl)
@[simp] theorem State.modCur_idCtr (s : State) (f : CurtainSt → CurtainSt) : (s.modCur f).idCtr = s.idCtr := (rfl)
@[simp] theorem State.modCur_ilulysReset (s : State) (f : CurtainSt → CurtainSt) : (s.modCur f).ilulysReset = s.ilulysReset := (rfl)
@[simp] theorem State.modCur_hv (s : State) (f : CurtainSt → CurtainSt) : (s.modCur f).hv = s.hv := (rfl)
@[simp] theorem State.modCur_host (s : State) (f : CurtainSt → CurtainSt) : (s.modCur f).host = s.host := (rfl)
@[simp] theorem State.modCur_tel (s : State) (f : CurtainSt → CurtainSt) : (s.modCur f).tel = s.tel := (rfl)
@[simp] theorem State.modCur_cont (s : State) (f : CurtainSt → CurtainSt) : (s.modCur f).cont = s.cont := (rfl)
@[simp] theorem State.modCur_wc (s : State) (f : CurtainSt → CurtainSt) : (s.modCur f).wc = s.wc := (rfl)
@[simp] theorem State.modCur_win (s : State) (f : CurtainSt → CurtainSt) : (s.modCur f).win = s.win := (rfl)
@[simp] theorem State.modCur_eng (s : State) (f : CurtainSt → CurtainSt) : (s.modCur f).eng = s.eng := (rfl)
@[simp] theorem State.modCur_pu (s : State) (f : CurtainSt → CurtainSt) : (s.modCur f).pu = s.pu := (rfl)
@[simp] theorem State.modCur_seats (s : State) (f : CurtainSt → CurtainSt) : (s.modCur f).seats = s.seats := (rfl)
@[simp] theorem State.modCur_ports (s : State) (f : CurtainSt → CurtainSt) : (s.modCur f).ports = s.ports := (rfl)
@[simp] theorem State.modCur_lanes (s : State) (f : CurtainSt → CurtainSt) : (s.modCur f).lanes = s.lanes := (rfl)
@[simp] theorem State.modCur_sp (s : State) (f : CurtainSt → CurtainSt) : (s.modCur f).sp = s.sp := (rfl)
@[simp] theorem State.modCur_seqLate (s : State) (f : CurtainSt → CurtainSt) : (s.modCur f).seqLate = s.seqLate := (rfl)
@[simp] theorem State.modCur_slots (s : State) (f : CurtainSt → CurtainSt) : (s.modCur f).slots = s.slots := (rfl)
@[simp] theorem State.modCur_links (s : State) (f : CurtainSt → CurtainSt) : (s.modCur f).links = s.links := (rfl)
@[simp] theorem State.modCur_boot (s : State) (f : CurtainSt → CurtainSt) : (s.modCur f).boot = s.boot := (rfl)
@[simp] theorem State.modCur_pwr (s : State) (f : CurtainSt → CurtainSt) : (s.modCur f).pwr = s.pwr := (rfl)
@[simp] theorem State.modCur_wire (s : State) (f : CurtainSt → CurtainSt) : (s.modCur f).wire = s.wire := (rfl)
@[simp] theorem State.modCur_freeCtr (s : State) (f : CurtainSt → CurtainSt) : (s.modCur f).freeCtr = s.freeCtr := (rfl)
@[simp] theorem State.modCur_pending (s : State) (f : CurtainSt → CurtainSt) : (s.modCur f).pending = s.pending := (rfl)
@[simp] theorem State.modCur_lv (s : State) (f : CurtainSt → CurtainSt) (i : Nat) : (s.modCur f).lv i = s.lv i := (rfl)
@[simp] theorem State.modCur_conf (s : State) (f : CurtainSt → CurtainSt) (x : Bool) (i : Nat) : (s.modCur f).conf x i = s.conf x i := (rfl)

/-! `modSch` -/

@[simp] theorem State.modSch_part (s : State) (f : SchedSt → SchedSt) : (s.modSch f).part = s.part := (rfl)
@[simp] theorem State.modSch_live (s : State) (f : SchedSt → SchedSt) : (s.modSch f).live = s.live := (rfl)
@[simp] theorem State.modSch_set0 (s : State) (f : SchedSt → SchedSt) : (s.modSch f).set0 = s.set0 := (rfl)
@[simp] theorem State.modSch_set1 (s : State) (f : SchedSt → SchedSt) : (s.modSch f).set1 = s.set1 := (rfl)
@[simp] theorem State.modSch_tm (s : State) (f : SchedSt → SchedSt) : (s.modSch f).tm = s.tm := (rfl)
@[simp] theorem State.modSch_cur (s : State) (f : SchedSt → SchedSt) : (s.modSch f).cur = s.cur := (rfl)
@[simp] theorem State.modSch_core (s : State) (f : SchedSt → SchedSt) : (s.modSch f).core = s.core := (rfl)
@[simp] theorem State.modSch_sch (s : State) (f : SchedSt → SchedSt) : (s.modSch f).sch = f s.sch := (rfl)
@[simp] theorem State.modSch_arrivals (s : State) (f : SchedSt → SchedSt) : (s.modSch f).arrivals = s.arrivals := (rfl)
@[simp] theorem State.modSch_pkts (s : State) (f : SchedSt → SchedSt) : (s.modSch f).pkts = s.pkts := (rfl)
@[simp] theorem State.modSch_outs (s : State) (f : SchedSt → SchedSt) : (s.modSch f).outs = s.outs := (rfl)
@[simp] theorem State.modSch_idCtr (s : State) (f : SchedSt → SchedSt) : (s.modSch f).idCtr = s.idCtr := (rfl)
@[simp] theorem State.modSch_ilulysReset (s : State) (f : SchedSt → SchedSt) : (s.modSch f).ilulysReset = s.ilulysReset := (rfl)
@[simp] theorem State.modSch_hv (s : State) (f : SchedSt → SchedSt) : (s.modSch f).hv = s.hv := (rfl)
@[simp] theorem State.modSch_host (s : State) (f : SchedSt → SchedSt) : (s.modSch f).host = s.host := (rfl)
@[simp] theorem State.modSch_tel (s : State) (f : SchedSt → SchedSt) : (s.modSch f).tel = s.tel := (rfl)
@[simp] theorem State.modSch_cont (s : State) (f : SchedSt → SchedSt) : (s.modSch f).cont = s.cont := (rfl)
@[simp] theorem State.modSch_wc (s : State) (f : SchedSt → SchedSt) : (s.modSch f).wc = s.wc := (rfl)
@[simp] theorem State.modSch_win (s : State) (f : SchedSt → SchedSt) : (s.modSch f).win = s.win := (rfl)
@[simp] theorem State.modSch_eng (s : State) (f : SchedSt → SchedSt) : (s.modSch f).eng = s.eng := (rfl)
@[simp] theorem State.modSch_pu (s : State) (f : SchedSt → SchedSt) : (s.modSch f).pu = s.pu := (rfl)
@[simp] theorem State.modSch_seats (s : State) (f : SchedSt → SchedSt) : (s.modSch f).seats = s.seats := (rfl)
@[simp] theorem State.modSch_ports (s : State) (f : SchedSt → SchedSt) : (s.modSch f).ports = s.ports := (rfl)
@[simp] theorem State.modSch_lanes (s : State) (f : SchedSt → SchedSt) : (s.modSch f).lanes = s.lanes := (rfl)
@[simp] theorem State.modSch_sp (s : State) (f : SchedSt → SchedSt) : (s.modSch f).sp = s.sp := (rfl)
@[simp] theorem State.modSch_seqLate (s : State) (f : SchedSt → SchedSt) : (s.modSch f).seqLate = s.seqLate := (rfl)
@[simp] theorem State.modSch_slots (s : State) (f : SchedSt → SchedSt) : (s.modSch f).slots = s.slots := (rfl)
@[simp] theorem State.modSch_links (s : State) (f : SchedSt → SchedSt) : (s.modSch f).links = s.links := (rfl)
@[simp] theorem State.modSch_boot (s : State) (f : SchedSt → SchedSt) : (s.modSch f).boot = s.boot := (rfl)
@[simp] theorem State.modSch_pwr (s : State) (f : SchedSt → SchedSt) : (s.modSch f).pwr = s.pwr := (rfl)
@[simp] theorem State.modSch_wire (s : State) (f : SchedSt → SchedSt) : (s.modSch f).wire = s.wire := (rfl)
@[simp] theorem State.modSch_freeCtr (s : State) (f : SchedSt → SchedSt) : (s.modSch f).freeCtr = s.freeCtr := (rfl)
@[simp] theorem State.modSch_pending (s : State) (f : SchedSt → SchedSt) : (s.modSch f).pending = s.pending := (rfl)
@[simp] theorem State.modSch_lv (s : State) (f : SchedSt → SchedSt) (i : Nat) : (s.modSch f).lv i = s.lv i := (rfl)
@[simp] theorem State.modSch_conf (s : State) (f : SchedSt → SchedSt) (x : Bool) (i : Nat) : (s.modSch f).conf x i = s.conf x i := (rfl)

/-! `modTel` -/

@[simp] theorem State.modTel_part (s : State) (f : TelSt → TelSt) : (s.modTel f).part = s.part := (rfl)
@[simp] theorem State.modTel_live (s : State) (f : TelSt → TelSt) : (s.modTel f).live = s.live := (rfl)
@[simp] theorem State.modTel_set0 (s : State) (f : TelSt → TelSt) : (s.modTel f).set0 = s.set0 := (rfl)
@[simp] theorem State.modTel_set1 (s : State) (f : TelSt → TelSt) : (s.modTel f).set1 = s.set1 := (rfl)
@[simp] theorem State.modTel_tm (s : State) (f : TelSt → TelSt) : (s.modTel f).tm = s.tm := (rfl)
@[simp] theorem State.modTel_cur (s : State) (f : TelSt → TelSt) : (s.modTel f).cur = s.cur := (rfl)
@[simp] theorem State.modTel_core (s : State) (f : TelSt → TelSt) : (s.modTel f).core = s.core := (rfl)
@[simp] theorem State.modTel_sch (s : State) (f : TelSt → TelSt) : (s.modTel f).sch = s.sch := (rfl)
@[simp] theorem State.modTel_arrivals (s : State) (f : TelSt → TelSt) : (s.modTel f).arrivals = s.arrivals := (rfl)
@[simp] theorem State.modTel_pkts (s : State) (f : TelSt → TelSt) : (s.modTel f).pkts = s.pkts := (rfl)
@[simp] theorem State.modTel_outs (s : State) (f : TelSt → TelSt) : (s.modTel f).outs = s.outs := (rfl)
@[simp] theorem State.modTel_idCtr (s : State) (f : TelSt → TelSt) : (s.modTel f).idCtr = s.idCtr := (rfl)
@[simp] theorem State.modTel_ilulysReset (s : State) (f : TelSt → TelSt) : (s.modTel f).ilulysReset = s.ilulysReset := (rfl)
@[simp] theorem State.modTel_hv (s : State) (f : TelSt → TelSt) : (s.modTel f).hv = s.hv := (rfl)
@[simp] theorem State.modTel_host (s : State) (f : TelSt → TelSt) : (s.modTel f).host = s.host := (rfl)
@[simp] theorem State.modTel_tel (s : State) (f : TelSt → TelSt) : (s.modTel f).tel = f s.tel := (rfl)
@[simp] theorem State.modTel_cont (s : State) (f : TelSt → TelSt) : (s.modTel f).cont = s.cont := (rfl)
@[simp] theorem State.modTel_wc (s : State) (f : TelSt → TelSt) : (s.modTel f).wc = s.wc := (rfl)
@[simp] theorem State.modTel_win (s : State) (f : TelSt → TelSt) : (s.modTel f).win = s.win := (rfl)
@[simp] theorem State.modTel_eng (s : State) (f : TelSt → TelSt) : (s.modTel f).eng = s.eng := (rfl)
@[simp] theorem State.modTel_pu (s : State) (f : TelSt → TelSt) : (s.modTel f).pu = s.pu := (rfl)
@[simp] theorem State.modTel_seats (s : State) (f : TelSt → TelSt) : (s.modTel f).seats = s.seats := (rfl)
@[simp] theorem State.modTel_ports (s : State) (f : TelSt → TelSt) : (s.modTel f).ports = s.ports := (rfl)
@[simp] theorem State.modTel_lanes (s : State) (f : TelSt → TelSt) : (s.modTel f).lanes = s.lanes := (rfl)
@[simp] theorem State.modTel_sp (s : State) (f : TelSt → TelSt) : (s.modTel f).sp = s.sp := (rfl)
@[simp] theorem State.modTel_seqLate (s : State) (f : TelSt → TelSt) : (s.modTel f).seqLate = s.seqLate := (rfl)
@[simp] theorem State.modTel_slots (s : State) (f : TelSt → TelSt) : (s.modTel f).slots = s.slots := (rfl)
@[simp] theorem State.modTel_links (s : State) (f : TelSt → TelSt) : (s.modTel f).links = s.links := (rfl)
@[simp] theorem State.modTel_boot (s : State) (f : TelSt → TelSt) : (s.modTel f).boot = s.boot := (rfl)
@[simp] theorem State.modTel_pwr (s : State) (f : TelSt → TelSt) : (s.modTel f).pwr = s.pwr := (rfl)
@[simp] theorem State.modTel_wire (s : State) (f : TelSt → TelSt) : (s.modTel f).wire = s.wire := (rfl)
@[simp] theorem State.modTel_freeCtr (s : State) (f : TelSt → TelSt) : (s.modTel f).freeCtr = s.freeCtr := (rfl)
@[simp] theorem State.modTel_pending (s : State) (f : TelSt → TelSt) : (s.modTel f).pending = s.pending := (rfl)
@[simp] theorem State.modTel_lv (s : State) (f : TelSt → TelSt) (i : Nat) : (s.modTel f).lv i = s.lv i := (rfl)
@[simp] theorem State.modTel_conf (s : State) (f : TelSt → TelSt) (x : Bool) (i : Nat) : (s.modTel f).conf x i = s.conf x i := (rfl)

/-! `modWc` -/

@[simp] theorem State.modWc_part (s : State) (f : WcSt → WcSt) : (s.modWc f).part = s.part := (rfl)
@[simp] theorem State.modWc_live (s : State) (f : WcSt → WcSt) : (s.modWc f).live = s.live := (rfl)
@[simp] theorem State.modWc_set0 (s : State) (f : WcSt → WcSt) : (s.modWc f).set0 = s.set0 := (rfl)
@[simp] theorem State.modWc_set1 (s : State) (f : WcSt → WcSt) : (s.modWc f).set1 = s.set1 := (rfl)
@[simp] theorem State.modWc_tm (s : State) (f : WcSt → WcSt) : (s.modWc f).tm = s.tm := (rfl)
@[simp] theorem State.modWc_cur (s : State) (f : WcSt → WcSt) : (s.modWc f).cur = s.cur := (rfl)
@[simp] theorem State.modWc_core (s : State) (f : WcSt → WcSt) : (s.modWc f).core = s.core := (rfl)
@[simp] theorem State.modWc_sch (s : State) (f : WcSt → WcSt) : (s.modWc f).sch = s.sch := (rfl)
@[simp] theorem State.modWc_arrivals (s : State) (f : WcSt → WcSt) : (s.modWc f).arrivals = s.arrivals := (rfl)
@[simp] theorem State.modWc_pkts (s : State) (f : WcSt → WcSt) : (s.modWc f).pkts = s.pkts := (rfl)
@[simp] theorem State.modWc_outs (s : State) (f : WcSt → WcSt) : (s.modWc f).outs = s.outs := (rfl)
@[simp] theorem State.modWc_idCtr (s : State) (f : WcSt → WcSt) : (s.modWc f).idCtr = s.idCtr := (rfl)
@[simp] theorem State.modWc_ilulysReset (s : State) (f : WcSt → WcSt) : (s.modWc f).ilulysReset = s.ilulysReset := (rfl)
@[simp] theorem State.modWc_hv (s : State) (f : WcSt → WcSt) : (s.modWc f).hv = s.hv := (rfl)
@[simp] theorem State.modWc_host (s : State) (f : WcSt → WcSt) : (s.modWc f).host = s.host := (rfl)
@[simp] theorem State.modWc_tel (s : State) (f : WcSt → WcSt) : (s.modWc f).tel = s.tel := (rfl)
@[simp] theorem State.modWc_cont (s : State) (f : WcSt → WcSt) : (s.modWc f).cont = s.cont := (rfl)
@[simp] theorem State.modWc_wc (s : State) (f : WcSt → WcSt) : (s.modWc f).wc = f s.wc := (rfl)
@[simp] theorem State.modWc_win (s : State) (f : WcSt → WcSt) : (s.modWc f).win = s.win := (rfl)
@[simp] theorem State.modWc_eng (s : State) (f : WcSt → WcSt) : (s.modWc f).eng = s.eng := (rfl)
@[simp] theorem State.modWc_pu (s : State) (f : WcSt → WcSt) : (s.modWc f).pu = s.pu := (rfl)
@[simp] theorem State.modWc_seats (s : State) (f : WcSt → WcSt) : (s.modWc f).seats = s.seats := (rfl)
@[simp] theorem State.modWc_ports (s : State) (f : WcSt → WcSt) : (s.modWc f).ports = s.ports := (rfl)
@[simp] theorem State.modWc_lanes (s : State) (f : WcSt → WcSt) : (s.modWc f).lanes = s.lanes := (rfl)
@[simp] theorem State.modWc_sp (s : State) (f : WcSt → WcSt) : (s.modWc f).sp = s.sp := (rfl)
@[simp] theorem State.modWc_seqLate (s : State) (f : WcSt → WcSt) : (s.modWc f).seqLate = s.seqLate := (rfl)
@[simp] theorem State.modWc_slots (s : State) (f : WcSt → WcSt) : (s.modWc f).slots = s.slots := (rfl)
@[simp] theorem State.modWc_links (s : State) (f : WcSt → WcSt) : (s.modWc f).links = s.links := (rfl)
@[simp] theorem State.modWc_boot (s : State) (f : WcSt → WcSt) : (s.modWc f).boot = s.boot := (rfl)
@[simp] theorem State.modWc_pwr (s : State) (f : WcSt → WcSt) : (s.modWc f).pwr = s.pwr := (rfl)
@[simp] theorem State.modWc_wire (s : State) (f : WcSt → WcSt) : (s.modWc f).wire = s.wire := (rfl)
@[simp] theorem State.modWc_freeCtr (s : State) (f : WcSt → WcSt) : (s.modWc f).freeCtr = s.freeCtr := (rfl)
@[simp] theorem State.modWc_pending (s : State) (f : WcSt → WcSt) : (s.modWc f).pending = s.pending := (rfl)
@[simp] theorem State.modWc_lv (s : State) (f : WcSt → WcSt) (i : Nat) : (s.modWc f).lv i = s.lv i := (rfl)
@[simp] theorem State.modWc_conf (s : State) (f : WcSt → WcSt) (x : Bool) (i : Nat) : (s.modWc f).conf x i = s.conf x i := (rfl)

/-! `modWin` -/

@[simp] theorem State.modWin_part (s : State) (f : WinSt → WinSt) : (s.modWin f).part = s.part := (rfl)
@[simp] theorem State.modWin_live (s : State) (f : WinSt → WinSt) : (s.modWin f).live = s.live := (rfl)
@[simp] theorem State.modWin_set0 (s : State) (f : WinSt → WinSt) : (s.modWin f).set0 = s.set0 := (rfl)
@[simp] theorem State.modWin_set1 (s : State) (f : WinSt → WinSt) : (s.modWin f).set1 = s.set1 := (rfl)
@[simp] theorem State.modWin_tm (s : State) (f : WinSt → WinSt) : (s.modWin f).tm = s.tm := (rfl)
@[simp] theorem State.modWin_cur (s : State) (f : WinSt → WinSt) : (s.modWin f).cur = s.cur := (rfl)
@[simp] theorem State.modWin_core (s : State) (f : WinSt → WinSt) : (s.modWin f).core = s.core := (rfl)
@[simp] theorem State.modWin_sch (s : State) (f : WinSt → WinSt) : (s.modWin f).sch = s.sch := (rfl)
@[simp] theorem State.modWin_arrivals (s : State) (f : WinSt → WinSt) : (s.modWin f).arrivals = s.arrivals := (rfl)
@[simp] theorem State.modWin_pkts (s : State) (f : WinSt → WinSt) : (s.modWin f).pkts = s.pkts := (rfl)
@[simp] theorem State.modWin_outs (s : State) (f : WinSt → WinSt) : (s.modWin f).outs = s.outs := (rfl)
@[simp] theorem State.modWin_idCtr (s : State) (f : WinSt → WinSt) : (s.modWin f).idCtr = s.idCtr := (rfl)
@[simp] theorem State.modWin_ilulysReset (s : State) (f : WinSt → WinSt) : (s.modWin f).ilulysReset = s.ilulysReset := (rfl)
@[simp] theorem State.modWin_hv (s : State) (f : WinSt → WinSt) : (s.modWin f).hv = s.hv := (rfl)
@[simp] theorem State.modWin_host (s : State) (f : WinSt → WinSt) : (s.modWin f).host = s.host := (rfl)
@[simp] theorem State.modWin_tel (s : State) (f : WinSt → WinSt) : (s.modWin f).tel = s.tel := (rfl)
@[simp] theorem State.modWin_cont (s : State) (f : WinSt → WinSt) : (s.modWin f).cont = s.cont := (rfl)
@[simp] theorem State.modWin_wc (s : State) (f : WinSt → WinSt) : (s.modWin f).wc = s.wc := (rfl)
@[simp] theorem State.modWin_win (s : State) (f : WinSt → WinSt) : (s.modWin f).win = f s.win := (rfl)
@[simp] theorem State.modWin_eng (s : State) (f : WinSt → WinSt) : (s.modWin f).eng = s.eng := (rfl)
@[simp] theorem State.modWin_pu (s : State) (f : WinSt → WinSt) : (s.modWin f).pu = s.pu := (rfl)
@[simp] theorem State.modWin_seats (s : State) (f : WinSt → WinSt) : (s.modWin f).seats = s.seats := (rfl)
@[simp] theorem State.modWin_ports (s : State) (f : WinSt → WinSt) : (s.modWin f).ports = s.ports := (rfl)
@[simp] theorem State.modWin_lanes (s : State) (f : WinSt → WinSt) : (s.modWin f).lanes = s.lanes := (rfl)
@[simp] theorem State.modWin_sp (s : State) (f : WinSt → WinSt) : (s.modWin f).sp = s.sp := (rfl)
@[simp] theorem State.modWin_seqLate (s : State) (f : WinSt → WinSt) : (s.modWin f).seqLate = s.seqLate := (rfl)
@[simp] theorem State.modWin_slots (s : State) (f : WinSt → WinSt) : (s.modWin f).slots = s.slots := (rfl)
@[simp] theorem State.modWin_links (s : State) (f : WinSt → WinSt) : (s.modWin f).links = s.links := (rfl)
@[simp] theorem State.modWin_boot (s : State) (f : WinSt → WinSt) : (s.modWin f).boot = s.boot := (rfl)
@[simp] theorem State.modWin_pwr (s : State) (f : WinSt → WinSt) : (s.modWin f).pwr = s.pwr := (rfl)
@[simp] theorem State.modWin_wire (s : State) (f : WinSt → WinSt) : (s.modWin f).wire = s.wire := (rfl)
@[simp] theorem State.modWin_freeCtr (s : State) (f : WinSt → WinSt) : (s.modWin f).freeCtr = s.freeCtr := (rfl)
@[simp] theorem State.modWin_pending (s : State) (f : WinSt → WinSt) : (s.modWin f).pending = s.pending := (rfl)
@[simp] theorem State.modWin_lv (s : State) (f : WinSt → WinSt) (i : Nat) : (s.modWin f).lv i = s.lv i := (rfl)
@[simp] theorem State.modWin_conf (s : State) (f : WinSt → WinSt) (x : Bool) (i : Nat) : (s.modWin f).conf x i = s.conf x i := (rfl)

/-! `modEng` -/

@[simp] theorem State.modEng_part (s : State) (f : EngSt → EngSt) : (s.modEng f).part = s.part := (rfl)
@[simp] theorem State.modEng_live (s : State) (f : EngSt → EngSt) : (s.modEng f).live = s.live := (rfl)
@[simp] theorem State.modEng_set0 (s : State) (f : EngSt → EngSt) : (s.modEng f).set0 = s.set0 := (rfl)
@[simp] theorem State.modEng_set1 (s : State) (f : EngSt → EngSt) : (s.modEng f).set1 = s.set1 := (rfl)
@[simp] theorem State.modEng_tm (s : State) (f : EngSt → EngSt) : (s.modEng f).tm = s.tm := (rfl)
@[simp] theorem State.modEng_cur (s : State) (f : EngSt → EngSt) : (s.modEng f).cur = s.cur := (rfl)
@[simp] theorem State.modEng_core (s : State) (f : EngSt → EngSt) : (s.modEng f).core = s.core := (rfl)
@[simp] theorem State.modEng_sch (s : State) (f : EngSt → EngSt) : (s.modEng f).sch = s.sch := (rfl)
@[simp] theorem State.modEng_arrivals (s : State) (f : EngSt → EngSt) : (s.modEng f).arrivals = s.arrivals := (rfl)
@[simp] theorem State.modEng_pkts (s : State) (f : EngSt → EngSt) : (s.modEng f).pkts = s.pkts := (rfl)
@[simp] theorem State.modEng_outs (s : State) (f : EngSt → EngSt) : (s.modEng f).outs = s.outs := (rfl)
@[simp] theorem State.modEng_idCtr (s : State) (f : EngSt → EngSt) : (s.modEng f).idCtr = s.idCtr := (rfl)
@[simp] theorem State.modEng_ilulysReset (s : State) (f : EngSt → EngSt) : (s.modEng f).ilulysReset = s.ilulysReset := (rfl)
@[simp] theorem State.modEng_hv (s : State) (f : EngSt → EngSt) : (s.modEng f).hv = s.hv := (rfl)
@[simp] theorem State.modEng_host (s : State) (f : EngSt → EngSt) : (s.modEng f).host = s.host := (rfl)
@[simp] theorem State.modEng_tel (s : State) (f : EngSt → EngSt) : (s.modEng f).tel = s.tel := (rfl)
@[simp] theorem State.modEng_cont (s : State) (f : EngSt → EngSt) : (s.modEng f).cont = s.cont := (rfl)
@[simp] theorem State.modEng_wc (s : State) (f : EngSt → EngSt) : (s.modEng f).wc = s.wc := (rfl)
@[simp] theorem State.modEng_win (s : State) (f : EngSt → EngSt) : (s.modEng f).win = s.win := (rfl)
@[simp] theorem State.modEng_eng (s : State) (f : EngSt → EngSt) : (s.modEng f).eng = f s.eng := (rfl)
@[simp] theorem State.modEng_pu (s : State) (f : EngSt → EngSt) : (s.modEng f).pu = s.pu := (rfl)
@[simp] theorem State.modEng_seats (s : State) (f : EngSt → EngSt) : (s.modEng f).seats = s.seats := (rfl)
@[simp] theorem State.modEng_ports (s : State) (f : EngSt → EngSt) : (s.modEng f).ports = s.ports := (rfl)
@[simp] theorem State.modEng_lanes (s : State) (f : EngSt → EngSt) : (s.modEng f).lanes = s.lanes := (rfl)
@[simp] theorem State.modEng_sp (s : State) (f : EngSt → EngSt) : (s.modEng f).sp = s.sp := (rfl)
@[simp] theorem State.modEng_seqLate (s : State) (f : EngSt → EngSt) : (s.modEng f).seqLate = s.seqLate := (rfl)
@[simp] theorem State.modEng_slots (s : State) (f : EngSt → EngSt) : (s.modEng f).slots = s.slots := (rfl)
@[simp] theorem State.modEng_links (s : State) (f : EngSt → EngSt) : (s.modEng f).links = s.links := (rfl)
@[simp] theorem State.modEng_boot (s : State) (f : EngSt → EngSt) : (s.modEng f).boot = s.boot := (rfl)
@[simp] theorem State.modEng_pwr (s : State) (f : EngSt → EngSt) : (s.modEng f).pwr = s.pwr := (rfl)
@[simp] theorem State.modEng_wire (s : State) (f : EngSt → EngSt) : (s.modEng f).wire = s.wire := (rfl)
@[simp] theorem State.modEng_freeCtr (s : State) (f : EngSt → EngSt) : (s.modEng f).freeCtr = s.freeCtr := (rfl)
@[simp] theorem State.modEng_pending (s : State) (f : EngSt → EngSt) : (s.modEng f).pending = s.pending := (rfl)
@[simp] theorem State.modEng_lv (s : State) (f : EngSt → EngSt) (i : Nat) : (s.modEng f).lv i = s.lv i := (rfl)
@[simp] theorem State.modEng_conf (s : State) (f : EngSt → EngSt) (x : Bool) (i : Nat) : (s.modEng f).conf x i = s.conf x i := (rfl)

/-! `modBoot` -/

@[simp] theorem State.modBoot_part (s : State) (f : BootSt → BootSt) : (s.modBoot f).part = s.part := (rfl)
@[simp] theorem State.modBoot_live (s : State) (f : BootSt → BootSt) : (s.modBoot f).live = s.live := (rfl)
@[simp] theorem State.modBoot_set0 (s : State) (f : BootSt → BootSt) : (s.modBoot f).set0 = s.set0 := (rfl)
@[simp] theorem State.modBoot_set1 (s : State) (f : BootSt → BootSt) : (s.modBoot f).set1 = s.set1 := (rfl)
@[simp] theorem State.modBoot_tm (s : State) (f : BootSt → BootSt) : (s.modBoot f).tm = s.tm := (rfl)
@[simp] theorem State.modBoot_cur (s : State) (f : BootSt → BootSt) : (s.modBoot f).cur = s.cur := (rfl)
@[simp] theorem State.modBoot_core (s : State) (f : BootSt → BootSt) : (s.modBoot f).core = s.core := (rfl)
@[simp] theorem State.modBoot_sch (s : State) (f : BootSt → BootSt) : (s.modBoot f).sch = s.sch := (rfl)
@[simp] theorem State.modBoot_arrivals (s : State) (f : BootSt → BootSt) : (s.modBoot f).arrivals = s.arrivals := (rfl)
@[simp] theorem State.modBoot_pkts (s : State) (f : BootSt → BootSt) : (s.modBoot f).pkts = s.pkts := (rfl)
@[simp] theorem State.modBoot_outs (s : State) (f : BootSt → BootSt) : (s.modBoot f).outs = s.outs := (rfl)
@[simp] theorem State.modBoot_idCtr (s : State) (f : BootSt → BootSt) : (s.modBoot f).idCtr = s.idCtr := (rfl)
@[simp] theorem State.modBoot_ilulysReset (s : State) (f : BootSt → BootSt) : (s.modBoot f).ilulysReset = s.ilulysReset := (rfl)
@[simp] theorem State.modBoot_hv (s : State) (f : BootSt → BootSt) : (s.modBoot f).hv = s.hv := (rfl)
@[simp] theorem State.modBoot_host (s : State) (f : BootSt → BootSt) : (s.modBoot f).host = s.host := (rfl)
@[simp] theorem State.modBoot_tel (s : State) (f : BootSt → BootSt) : (s.modBoot f).tel = s.tel := (rfl)
@[simp] theorem State.modBoot_cont (s : State) (f : BootSt → BootSt) : (s.modBoot f).cont = s.cont := (rfl)
@[simp] theorem State.modBoot_wc (s : State) (f : BootSt → BootSt) : (s.modBoot f).wc = s.wc := (rfl)
@[simp] theorem State.modBoot_win (s : State) (f : BootSt → BootSt) : (s.modBoot f).win = s.win := (rfl)
@[simp] theorem State.modBoot_eng (s : State) (f : BootSt → BootSt) : (s.modBoot f).eng = s.eng := (rfl)
@[simp] theorem State.modBoot_pu (s : State) (f : BootSt → BootSt) : (s.modBoot f).pu = s.pu := (rfl)
@[simp] theorem State.modBoot_seats (s : State) (f : BootSt → BootSt) : (s.modBoot f).seats = s.seats := (rfl)
@[simp] theorem State.modBoot_ports (s : State) (f : BootSt → BootSt) : (s.modBoot f).ports = s.ports := (rfl)
@[simp] theorem State.modBoot_lanes (s : State) (f : BootSt → BootSt) : (s.modBoot f).lanes = s.lanes := (rfl)
@[simp] theorem State.modBoot_sp (s : State) (f : BootSt → BootSt) : (s.modBoot f).sp = s.sp := (rfl)
@[simp] theorem State.modBoot_seqLate (s : State) (f : BootSt → BootSt) : (s.modBoot f).seqLate = s.seqLate := (rfl)
@[simp] theorem State.modBoot_slots (s : State) (f : BootSt → BootSt) : (s.modBoot f).slots = s.slots := (rfl)
@[simp] theorem State.modBoot_links (s : State) (f : BootSt → BootSt) : (s.modBoot f).links = s.links := (rfl)
@[simp] theorem State.modBoot_boot (s : State) (f : BootSt → BootSt) : (s.modBoot f).boot = f s.boot := (rfl)
@[simp] theorem State.modBoot_pwr (s : State) (f : BootSt → BootSt) : (s.modBoot f).pwr = s.pwr := (rfl)
@[simp] theorem State.modBoot_wire (s : State) (f : BootSt → BootSt) : (s.modBoot f).wire = s.wire := (rfl)
@[simp] theorem State.modBoot_freeCtr (s : State) (f : BootSt → BootSt) : (s.modBoot f).freeCtr = s.freeCtr := (rfl)
@[simp] theorem State.modBoot_pending (s : State) (f : BootSt → BootSt) : (s.modBoot f).pending = s.pending := (rfl)
@[simp] theorem State.modBoot_lv (s : State) (f : BootSt → BootSt) (i : Nat) : (s.modBoot f).lv i = s.lv i := (rfl)
@[simp] theorem State.modBoot_conf (s : State) (f : BootSt → BootSt) (x : Bool) (i : Nat) : (s.modBoot f).conf x i = s.conf x i := (rfl)

/-! `modPwr` -/

@[simp] theorem State.modPwr_part (s : State) (f : PwrSt → PwrSt) : (s.modPwr f).part = s.part := (rfl)
@[simp] theorem State.modPwr_live (s : State) (f : PwrSt → PwrSt) : (s.modPwr f).live = s.live := (rfl)
@[simp] theorem State.modPwr_set0 (s : State) (f : PwrSt → PwrSt) : (s.modPwr f).set0 = s.set0 := (rfl)
@[simp] theorem State.modPwr_set1 (s : State) (f : PwrSt → PwrSt) : (s.modPwr f).set1 = s.set1 := (rfl)
@[simp] theorem State.modPwr_tm (s : State) (f : PwrSt → PwrSt) : (s.modPwr f).tm = s.tm := (rfl)
@[simp] theorem State.modPwr_cur (s : State) (f : PwrSt → PwrSt) : (s.modPwr f).cur = s.cur := (rfl)
@[simp] theorem State.modPwr_core (s : State) (f : PwrSt → PwrSt) : (s.modPwr f).core = s.core := (rfl)
@[simp] theorem State.modPwr_sch (s : State) (f : PwrSt → PwrSt) : (s.modPwr f).sch = s.sch := (rfl)
@[simp] theorem State.modPwr_arrivals (s : State) (f : PwrSt → PwrSt) : (s.modPwr f).arrivals = s.arrivals := (rfl)
@[simp] theorem State.modPwr_pkts (s : State) (f : PwrSt → PwrSt) : (s.modPwr f).pkts = s.pkts := (rfl)
@[simp] theorem State.modPwr_outs (s : State) (f : PwrSt → PwrSt) : (s.modPwr f).outs = s.outs := (rfl)
@[simp] theorem State.modPwr_idCtr (s : State) (f : PwrSt → PwrSt) : (s.modPwr f).idCtr = s.idCtr := (rfl)
@[simp] theorem State.modPwr_ilulysReset (s : State) (f : PwrSt → PwrSt) : (s.modPwr f).ilulysReset = s.ilulysReset := (rfl)
@[simp] theorem State.modPwr_hv (s : State) (f : PwrSt → PwrSt) : (s.modPwr f).hv = s.hv := (rfl)
@[simp] theorem State.modPwr_host (s : State) (f : PwrSt → PwrSt) : (s.modPwr f).host = s.host := (rfl)
@[simp] theorem State.modPwr_tel (s : State) (f : PwrSt → PwrSt) : (s.modPwr f).tel = s.tel := (rfl)
@[simp] theorem State.modPwr_cont (s : State) (f : PwrSt → PwrSt) : (s.modPwr f).cont = s.cont := (rfl)
@[simp] theorem State.modPwr_wc (s : State) (f : PwrSt → PwrSt) : (s.modPwr f).wc = s.wc := (rfl)
@[simp] theorem State.modPwr_win (s : State) (f : PwrSt → PwrSt) : (s.modPwr f).win = s.win := (rfl)
@[simp] theorem State.modPwr_eng (s : State) (f : PwrSt → PwrSt) : (s.modPwr f).eng = s.eng := (rfl)
@[simp] theorem State.modPwr_pu (s : State) (f : PwrSt → PwrSt) : (s.modPwr f).pu = s.pu := (rfl)
@[simp] theorem State.modPwr_seats (s : State) (f : PwrSt → PwrSt) : (s.modPwr f).seats = s.seats := (rfl)
@[simp] theorem State.modPwr_ports (s : State) (f : PwrSt → PwrSt) : (s.modPwr f).ports = s.ports := (rfl)
@[simp] theorem State.modPwr_lanes (s : State) (f : PwrSt → PwrSt) : (s.modPwr f).lanes = s.lanes := (rfl)
@[simp] theorem State.modPwr_sp (s : State) (f : PwrSt → PwrSt) : (s.modPwr f).sp = s.sp := (rfl)
@[simp] theorem State.modPwr_seqLate (s : State) (f : PwrSt → PwrSt) : (s.modPwr f).seqLate = s.seqLate := (rfl)
@[simp] theorem State.modPwr_slots (s : State) (f : PwrSt → PwrSt) : (s.modPwr f).slots = s.slots := (rfl)
@[simp] theorem State.modPwr_links (s : State) (f : PwrSt → PwrSt) : (s.modPwr f).links = s.links := (rfl)
@[simp] theorem State.modPwr_boot (s : State) (f : PwrSt → PwrSt) : (s.modPwr f).boot = s.boot := (rfl)
@[simp] theorem State.modPwr_pwr (s : State) (f : PwrSt → PwrSt) : (s.modPwr f).pwr = f s.pwr := (rfl)
@[simp] theorem State.modPwr_wire (s : State) (f : PwrSt → PwrSt) : (s.modPwr f).wire = s.wire := (rfl)
@[simp] theorem State.modPwr_freeCtr (s : State) (f : PwrSt → PwrSt) : (s.modPwr f).freeCtr = s.freeCtr := (rfl)
@[simp] theorem State.modPwr_pending (s : State) (f : PwrSt → PwrSt) : (s.modPwr f).pending = s.pending := (rfl)
@[simp] theorem State.modPwr_lv (s : State) (f : PwrSt → PwrSt) (i : Nat) : (s.modPwr f).lv i = s.lv i := (rfl)
@[simp] theorem State.modPwr_conf (s : State) (f : PwrSt → PwrSt) (x : Bool) (i : Nat) : (s.modPwr f).conf x i = s.conf x i := (rfl)

/-! `modVport` -/

@[simp] theorem State.modVport_part (s : State) (p d : Nat) (f : VPort → VPort) : (s.modVport p d f).part = s.part := (rfl)
@[simp] theorem State.modVport_live (s : State) (p d : Nat) (f : VPort → VPort) : (s.modVport p d f).live = s.live := (rfl)
@[simp] theorem State.modVport_set0 (s : State) (p d : Nat) (f : VPort → VPort) : (s.modVport p d f).set0 = s.set0 := (rfl)
@[simp] theorem State.modVport_set1 (s : State) (p d : Nat) (f : VPort → VPort) : (s.modVport p d f).set1 = s.set1 := (rfl)
@[simp] theorem State.modVport_tm (s : State) (p d : Nat) (f : VPort → VPort) : (s.modVport p d f).tm = s.tm := (rfl)
@[simp] theorem State.modVport_cur (s : State) (p d : Nat) (f : VPort → VPort) : (s.modVport p d f).cur = s.cur := (rfl)
@[simp] theorem State.modVport_core (s : State) (p d : Nat) (f : VPort → VPort) : (s.modVport p d f).core = s.core := (rfl)
@[simp] theorem State.modVport_sch (s : State) (p d : Nat) (f : VPort → VPort) : (s.modVport p d f).sch = s.sch := (rfl)
@[simp] theorem State.modVport_arrivals (s : State) (p d : Nat) (f : VPort → VPort) : (s.modVport p d f).arrivals = s.arrivals := (rfl)
@[simp] theorem State.modVport_pkts (s : State) (p d : Nat) (f : VPort → VPort) : (s.modVport p d f).pkts = s.pkts := (rfl)
@[simp] theorem State.modVport_outs (s : State) (p d : Nat) (f : VPort → VPort) : (s.modVport p d f).outs = s.outs := (rfl)
@[simp] theorem State.modVport_idCtr (s : State) (p d : Nat) (f : VPort → VPort) : (s.modVport p d f).idCtr = s.idCtr := (rfl)
@[simp] theorem State.modVport_ilulysReset (s : State) (p d : Nat) (f : VPort → VPort) : (s.modVport p d f).ilulysReset = s.ilulysReset := (rfl)
@[simp] theorem State.modVport_host (s : State) (p d : Nat) (f : VPort → VPort) : (s.modVport p d f).host = s.host := (rfl)
@[simp] theorem State.modVport_tel (s : State) (p d : Nat) (f : VPort → VPort) : (s.modVport p d f).tel = s.tel := (rfl)
@[simp] theorem State.modVport_cont (s : State) (p d : Nat) (f : VPort → VPort) : (s.modVport p d f).cont = s.cont := (rfl)
@[simp] theorem State.modVport_wc (s : State) (p d : Nat) (f : VPort → VPort) : (s.modVport p d f).wc = s.wc := (rfl)
@[simp] theorem State.modVport_win (s : State) (p d : Nat) (f : VPort → VPort) : (s.modVport p d f).win = s.win := (rfl)
@[simp] theorem State.modVport_eng (s : State) (p d : Nat) (f : VPort → VPort) : (s.modVport p d f).eng = s.eng := (rfl)
@[simp] theorem State.modVport_pu (s : State) (p d : Nat) (f : VPort → VPort) : (s.modVport p d f).pu = s.pu := (rfl)
@[simp] theorem State.modVport_seats (s : State) (p d : Nat) (f : VPort → VPort) : (s.modVport p d f).seats = s.seats := (rfl)
@[simp] theorem State.modVport_ports (s : State) (p d : Nat) (f : VPort → VPort) : (s.modVport p d f).ports = s.ports := (rfl)
@[simp] theorem State.modVport_lanes (s : State) (p d : Nat) (f : VPort → VPort) : (s.modVport p d f).lanes = s.lanes := (rfl)
@[simp] theorem State.modVport_sp (s : State) (p d : Nat) (f : VPort → VPort) : (s.modVport p d f).sp = s.sp := (rfl)
@[simp] theorem State.modVport_seqLate (s : State) (p d : Nat) (f : VPort → VPort) : (s.modVport p d f).seqLate = s.seqLate := (rfl)
@[simp] theorem State.modVport_slots (s : State) (p d : Nat) (f : VPort → VPort) : (s.modVport p d f).slots = s.slots := (rfl)
@[simp] theorem State.modVport_links (s : State) (p d : Nat) (f : VPort → VPort) : (s.modVport p d f).links = s.links := (rfl)
@[simp] theorem State.modVport_boot (s : State) (p d : Nat) (f : VPort → VPort) : (s.modVport p d f).boot = s.boot := (rfl)
@[simp] theorem State.modVport_pwr (s : State) (p d : Nat) (f : VPort → VPort) : (s.modVport p d f).pwr = s.pwr := (rfl)
@[simp] theorem State.modVport_wire (s : State) (p d : Nat) (f : VPort → VPort) : (s.modVport p d f).wire = s.wire := (rfl)
@[simp] theorem State.modVport_freeCtr (s : State) (p d : Nat) (f : VPort → VPort) : (s.modVport p d f).freeCtr = s.freeCtr := (rfl)
@[simp] theorem State.modVport_pending (s : State) (p d : Nat) (f : VPort → VPort) : (s.modVport p d f).pending = s.pending := (rfl)
@[simp] theorem State.modVport_lv (s : State) (p d : Nat) (f : VPort → VPort) (i : Nat) : (s.modVport p d f).lv i = s.lv i := (rfl)
@[simp] theorem State.modVport_conf (s : State) (p d : Nat) (f : VPort → VPort) (x : Bool) (i : Nat) : (s.modVport p d f).conf x i = s.conf x i := (rfl)

/-! `modFab` -/

@[simp] theorem State.modFab_part (s : State) (p : Nat) (f : FabFn → FabFn) : (s.modFab p f).part = s.part := (rfl)
@[simp] theorem State.modFab_live (s : State) (p : Nat) (f : FabFn → FabFn) : (s.modFab p f).live = s.live := (rfl)
@[simp] theorem State.modFab_set0 (s : State) (p : Nat) (f : FabFn → FabFn) : (s.modFab p f).set0 = s.set0 := (rfl)
@[simp] theorem State.modFab_set1 (s : State) (p : Nat) (f : FabFn → FabFn) : (s.modFab p f).set1 = s.set1 := (rfl)
@[simp] theorem State.modFab_tm (s : State) (p : Nat) (f : FabFn → FabFn) : (s.modFab p f).tm = s.tm := (rfl)
@[simp] theorem State.modFab_cur (s : State) (p : Nat) (f : FabFn → FabFn) : (s.modFab p f).cur = s.cur := (rfl)
@[simp] theorem State.modFab_core (s : State) (p : Nat) (f : FabFn → FabFn) : (s.modFab p f).core = s.core := (rfl)
@[simp] theorem State.modFab_sch (s : State) (p : Nat) (f : FabFn → FabFn) : (s.modFab p f).sch = s.sch := (rfl)
@[simp] theorem State.modFab_arrivals (s : State) (p : Nat) (f : FabFn → FabFn) : (s.modFab p f).arrivals = s.arrivals := (rfl)
@[simp] theorem State.modFab_pkts (s : State) (p : Nat) (f : FabFn → FabFn) : (s.modFab p f).pkts = s.pkts := (rfl)
@[simp] theorem State.modFab_outs (s : State) (p : Nat) (f : FabFn → FabFn) : (s.modFab p f).outs = s.outs := (rfl)
@[simp] theorem State.modFab_idCtr (s : State) (p : Nat) (f : FabFn → FabFn) : (s.modFab p f).idCtr = s.idCtr := (rfl)
@[simp] theorem State.modFab_ilulysReset (s : State) (p : Nat) (f : FabFn → FabFn) : (s.modFab p f).ilulysReset = s.ilulysReset := (rfl)
@[simp] theorem State.modFab_host (s : State) (p : Nat) (f : FabFn → FabFn) : (s.modFab p f).host = s.host := (rfl)
@[simp] theorem State.modFab_tel (s : State) (p : Nat) (f : FabFn → FabFn) : (s.modFab p f).tel = s.tel := (rfl)
@[simp] theorem State.modFab_cont (s : State) (p : Nat) (f : FabFn → FabFn) : (s.modFab p f).cont = s.cont := (rfl)
@[simp] theorem State.modFab_wc (s : State) (p : Nat) (f : FabFn → FabFn) : (s.modFab p f).wc = s.wc := (rfl)
@[simp] theorem State.modFab_win (s : State) (p : Nat) (f : FabFn → FabFn) : (s.modFab p f).win = s.win := (rfl)
@[simp] theorem State.modFab_eng (s : State) (p : Nat) (f : FabFn → FabFn) : (s.modFab p f).eng = s.eng := (rfl)
@[simp] theorem State.modFab_pu (s : State) (p : Nat) (f : FabFn → FabFn) : (s.modFab p f).pu = s.pu := (rfl)
@[simp] theorem State.modFab_seats (s : State) (p : Nat) (f : FabFn → FabFn) : (s.modFab p f).seats = s.seats := (rfl)
@[simp] theorem State.modFab_ports (s : State) (p : Nat) (f : FabFn → FabFn) : (s.modFab p f).ports = s.ports := (rfl)
@[simp] theorem State.modFab_lanes (s : State) (p : Nat) (f : FabFn → FabFn) : (s.modFab p f).lanes = s.lanes := (rfl)
@[simp] theorem State.modFab_sp (s : State) (p : Nat) (f : FabFn → FabFn) : (s.modFab p f).sp = s.sp := (rfl)
@[simp] theorem State.modFab_seqLate (s : State) (p : Nat) (f : FabFn → FabFn) : (s.modFab p f).seqLate = s.seqLate := (rfl)
@[simp] theorem State.modFab_slots (s : State) (p : Nat) (f : FabFn → FabFn) : (s.modFab p f).slots = s.slots := (rfl)
@[simp] theorem State.modFab_links (s : State) (p : Nat) (f : FabFn → FabFn) : (s.modFab p f).links = s.links := (rfl)
@[simp] theorem State.modFab_boot (s : State) (p : Nat) (f : FabFn → FabFn) : (s.modFab p f).boot = s.boot := (rfl)
@[simp] theorem State.modFab_pwr (s : State) (p : Nat) (f : FabFn → FabFn) : (s.modFab p f).pwr = s.pwr := (rfl)
@[simp] theorem State.modFab_wire (s : State) (p : Nat) (f : FabFn → FabFn) : (s.modFab p f).wire = s.wire := (rfl)
@[simp] theorem State.modFab_freeCtr (s : State) (p : Nat) (f : FabFn → FabFn) : (s.modFab p f).freeCtr = s.freeCtr := (rfl)
@[simp] theorem State.modFab_pending (s : State) (p : Nat) (f : FabFn → FabFn) : (s.modFab p f).pending = s.pending := (rfl)
@[simp] theorem State.modFab_lv (s : State) (p : Nat) (f : FabFn → FabFn) (i : Nat) : (s.modFab p f).lv i = s.lv i := (rfl)
@[simp] theorem State.modFab_conf (s : State) (p : Nat) (f : FabFn → FabFn) (x : Bool) (i : Nat) : (s.modFab p f).conf x i = s.conf x i := (rfl)

/-! `modSeat` -/

@[simp] theorem State.modSeat_part (s : State) (k : Nat) (f : SeatSt → SeatSt) : (s.modSeat k f).part = s.part := (rfl)
@[simp] theorem State.modSeat_live (s : State) (k : Nat) (f : SeatSt → SeatSt) : (s.modSeat k f).live = s.live := (rfl)
@[simp] theorem State.modSeat_set0 (s : State) (k : Nat) (f : SeatSt → SeatSt) : (s.modSeat k f).set0 = s.set0 := (rfl)
@[simp] theorem State.modSeat_set1 (s : State) (k : Nat) (f : SeatSt → SeatSt) : (s.modSeat k f).set1 = s.set1 := (rfl)
@[simp] theorem State.modSeat_tm (s : State) (k : Nat) (f : SeatSt → SeatSt) : (s.modSeat k f).tm = s.tm := (rfl)
@[simp] theorem State.modSeat_cur (s : State) (k : Nat) (f : SeatSt → SeatSt) : (s.modSeat k f).cur = s.cur := (rfl)
@[simp] theorem State.modSeat_core (s : State) (k : Nat) (f : SeatSt → SeatSt) : (s.modSeat k f).core = s.core := (rfl)
@[simp] theorem State.modSeat_sch (s : State) (k : Nat) (f : SeatSt → SeatSt) : (s.modSeat k f).sch = s.sch := (rfl)
@[simp] theorem State.modSeat_arrivals (s : State) (k : Nat) (f : SeatSt → SeatSt) : (s.modSeat k f).arrivals = s.arrivals := (rfl)
@[simp] theorem State.modSeat_pkts (s : State) (k : Nat) (f : SeatSt → SeatSt) : (s.modSeat k f).pkts = s.pkts := (rfl)
@[simp] theorem State.modSeat_outs (s : State) (k : Nat) (f : SeatSt → SeatSt) : (s.modSeat k f).outs = s.outs := (rfl)
@[simp] theorem State.modSeat_idCtr (s : State) (k : Nat) (f : SeatSt → SeatSt) : (s.modSeat k f).idCtr = s.idCtr := (rfl)
@[simp] theorem State.modSeat_ilulysReset (s : State) (k : Nat) (f : SeatSt → SeatSt) : (s.modSeat k f).ilulysReset = s.ilulysReset := (rfl)
@[simp] theorem State.modSeat_hv (s : State) (k : Nat) (f : SeatSt → SeatSt) : (s.modSeat k f).hv = s.hv := (rfl)
@[simp] theorem State.modSeat_host (s : State) (k : Nat) (f : SeatSt → SeatSt) : (s.modSeat k f).host = s.host := (rfl)
@[simp] theorem State.modSeat_tel (s : State) (k : Nat) (f : SeatSt → SeatSt) : (s.modSeat k f).tel = s.tel := (rfl)
@[simp] theorem State.modSeat_cont (s : State) (k : Nat) (f : SeatSt → SeatSt) : (s.modSeat k f).cont = s.cont := (rfl)
@[simp] theorem State.modSeat_wc (s : State) (k : Nat) (f : SeatSt → SeatSt) : (s.modSeat k f).wc = s.wc := (rfl)
@[simp] theorem State.modSeat_win (s : State) (k : Nat) (f : SeatSt → SeatSt) : (s.modSeat k f).win = s.win := (rfl)
@[simp] theorem State.modSeat_eng (s : State) (k : Nat) (f : SeatSt → SeatSt) : (s.modSeat k f).eng = s.eng := (rfl)
@[simp] theorem State.modSeat_pu (s : State) (k : Nat) (f : SeatSt → SeatSt) : (s.modSeat k f).pu = s.pu := (rfl)
@[simp] theorem State.modSeat_seats (s : State) (k : Nat) (f : SeatSt → SeatSt) : (s.modSeat k f).seats = tmod {} s.seats k f := (rfl)
@[simp] theorem State.modSeat_ports (s : State) (k : Nat) (f : SeatSt → SeatSt) : (s.modSeat k f).ports = s.ports := (rfl)
@[simp] theorem State.modSeat_lanes (s : State) (k : Nat) (f : SeatSt → SeatSt) : (s.modSeat k f).lanes = s.lanes := (rfl)
@[simp] theorem State.modSeat_sp (s : State) (k : Nat) (f : SeatSt → SeatSt) : (s.modSeat k f).sp = s.sp := (rfl)
@[simp] theorem State.modSeat_seqLate (s : State) (k : Nat) (f : SeatSt → SeatSt) : (s.modSeat k f).seqLate = s.seqLate := (rfl)
@[simp] theorem State.modSeat_slots (s : State) (k : Nat) (f : SeatSt → SeatSt) : (s.modSeat k f).slots = s.slots := (rfl)
@[simp] theorem State.modSeat_links (s : State) (k : Nat) (f : SeatSt → SeatSt) : (s.modSeat k f).links = s.links := (rfl)
@[simp] theorem State.modSeat_boot (s : State) (k : Nat) (f : SeatSt → SeatSt) : (s.modSeat k f).boot = s.boot := (rfl)
@[simp] theorem State.modSeat_pwr (s : State) (k : Nat) (f : SeatSt → SeatSt) : (s.modSeat k f).pwr = s.pwr := (rfl)
@[simp] theorem State.modSeat_wire (s : State) (k : Nat) (f : SeatSt → SeatSt) : (s.modSeat k f).wire = s.wire := (rfl)
@[simp] theorem State.modSeat_freeCtr (s : State) (k : Nat) (f : SeatSt → SeatSt) : (s.modSeat k f).freeCtr = s.freeCtr := (rfl)
@[simp] theorem State.modSeat_pending (s : State) (k : Nat) (f : SeatSt → SeatSt) : (s.modSeat k f).pending = s.pending := (rfl)
@[simp] theorem State.modSeat_lv (s : State) (k : Nat) (f : SeatSt → SeatSt) (i : Nat) : (s.modSeat k f).lv i = s.lv i := (rfl)
@[simp] theorem State.modSeat_conf (s : State) (k : Nat) (f : SeatSt → SeatSt) (x : Bool) (i : Nat) : (s.modSeat k f).conf x i = s.conf x i := (rfl)

/-! `modRing` -/

@[simp] theorem State.modRing_part (s : State) (r : Nat) (f : RingSt → RingSt) : (s.modRing r f).part = s.part := (rfl)
@[simp] theorem State.modRing_live (s : State) (r : Nat) (f : RingSt → RingSt) : (s.modRing r f).live = s.live := (rfl)
@[simp] theorem State.modRing_set0 (s : State) (r : Nat) (f : RingSt → RingSt) : (s.modRing r f).set0 = s.set0 := (rfl)
@[simp] theorem State.modRing_set1 (s : State) (r : Nat) (f : RingSt → RingSt) : (s.modRing r f).set1 = s.set1 := (rfl)
@[simp] theorem State.modRing_tm (s : State) (r : Nat) (f : RingSt → RingSt) : (s.modRing r f).tm = s.tm := (rfl)
@[simp] theorem State.modRing_cur (s : State) (r : Nat) (f : RingSt → RingSt) : (s.modRing r f).cur = s.cur := (rfl)
@[simp] theorem State.modRing_core (s : State) (r : Nat) (f : RingSt → RingSt) : (s.modRing r f).core = s.core := (rfl)
@[simp] theorem State.modRing_sch (s : State) (r : Nat) (f : RingSt → RingSt) : (s.modRing r f).sch = s.sch := (rfl)
@[simp] theorem State.modRing_arrivals (s : State) (r : Nat) (f : RingSt → RingSt) : (s.modRing r f).arrivals = s.arrivals := (rfl)
@[simp] theorem State.modRing_pkts (s : State) (r : Nat) (f : RingSt → RingSt) : (s.modRing r f).pkts = s.pkts := (rfl)
@[simp] theorem State.modRing_outs (s : State) (r : Nat) (f : RingSt → RingSt) : (s.modRing r f).outs = s.outs := (rfl)
@[simp] theorem State.modRing_idCtr (s : State) (r : Nat) (f : RingSt → RingSt) : (s.modRing r f).idCtr = s.idCtr := (rfl)
@[simp] theorem State.modRing_ilulysReset (s : State) (r : Nat) (f : RingSt → RingSt) : (s.modRing r f).ilulysReset = s.ilulysReset := (rfl)
@[simp] theorem State.modRing_hv (s : State) (r : Nat) (f : RingSt → RingSt) : (s.modRing r f).hv = s.hv := (rfl)
@[simp] theorem State.modRing_tel (s : State) (r : Nat) (f : RingSt → RingSt) : (s.modRing r f).tel = s.tel := (rfl)
@[simp] theorem State.modRing_cont (s : State) (r : Nat) (f : RingSt → RingSt) : (s.modRing r f).cont = s.cont := (rfl)
@[simp] theorem State.modRing_wc (s : State) (r : Nat) (f : RingSt → RingSt) : (s.modRing r f).wc = s.wc := (rfl)
@[simp] theorem State.modRing_win (s : State) (r : Nat) (f : RingSt → RingSt) : (s.modRing r f).win = s.win := (rfl)
@[simp] theorem State.modRing_eng (s : State) (r : Nat) (f : RingSt → RingSt) : (s.modRing r f).eng = s.eng := (rfl)
@[simp] theorem State.modRing_pu (s : State) (r : Nat) (f : RingSt → RingSt) : (s.modRing r f).pu = s.pu := (rfl)
@[simp] theorem State.modRing_seats (s : State) (r : Nat) (f : RingSt → RingSt) : (s.modRing r f).seats = s.seats := (rfl)
@[simp] theorem State.modRing_ports (s : State) (r : Nat) (f : RingSt → RingSt) : (s.modRing r f).ports = s.ports := (rfl)
@[simp] theorem State.modRing_lanes (s : State) (r : Nat) (f : RingSt → RingSt) : (s.modRing r f).lanes = s.lanes := (rfl)
@[simp] theorem State.modRing_sp (s : State) (r : Nat) (f : RingSt → RingSt) : (s.modRing r f).sp = s.sp := (rfl)
@[simp] theorem State.modRing_seqLate (s : State) (r : Nat) (f : RingSt → RingSt) : (s.modRing r f).seqLate = s.seqLate := (rfl)
@[simp] theorem State.modRing_slots (s : State) (r : Nat) (f : RingSt → RingSt) : (s.modRing r f).slots = s.slots := (rfl)
@[simp] theorem State.modRing_links (s : State) (r : Nat) (f : RingSt → RingSt) : (s.modRing r f).links = s.links := (rfl)
@[simp] theorem State.modRing_boot (s : State) (r : Nat) (f : RingSt → RingSt) : (s.modRing r f).boot = s.boot := (rfl)
@[simp] theorem State.modRing_pwr (s : State) (r : Nat) (f : RingSt → RingSt) : (s.modRing r f).pwr = s.pwr := (rfl)
@[simp] theorem State.modRing_wire (s : State) (r : Nat) (f : RingSt → RingSt) : (s.modRing r f).wire = s.wire := (rfl)
@[simp] theorem State.modRing_freeCtr (s : State) (r : Nat) (f : RingSt → RingSt) : (s.modRing r f).freeCtr = s.freeCtr := (rfl)
@[simp] theorem State.modRing_pending (s : State) (r : Nat) (f : RingSt → RingSt) : (s.modRing r f).pending = s.pending := (rfl)
@[simp] theorem State.modRing_lv (s : State) (r : Nat) (f : RingSt → RingSt) (i : Nat) : (s.modRing r f).lv i = s.lv i := (rfl)
@[simp] theorem State.modRing_conf (s : State) (r : Nat) (f : RingSt → RingSt) (x : Bool) (i : Nat) : (s.modRing r f).conf x i = s.conf x i := (rfl)

/-! `modPort` -/

@[simp] theorem State.modPort_part (s : State) (p : Nat) (f : PortSt → PortSt) : (s.modPort p f).part = s.part := (rfl)
@[simp] theorem State.modPort_live (s : State) (p : Nat) (f : PortSt → PortSt) : (s.modPort p f).live = s.live := (rfl)
@[simp] theorem State.modPort_set0 (s : State) (p : Nat) (f : PortSt → PortSt) : (s.modPort p f).set0 = s.set0 := (rfl)
@[simp] theorem State.modPort_set1 (s : State) (p : Nat) (f : PortSt → PortSt) : (s.modPort p f).set1 = s.set1 := (rfl)
@[simp] theorem State.modPort_tm (s : State) (p : Nat) (f : PortSt → PortSt) : (s.modPort p f).tm = s.tm := (rfl)
@[simp] theorem State.modPort_cur (s : State) (p : Nat) (f : PortSt → PortSt) : (s.modPort p f).cur = s.cur := (rfl)
@[simp] theorem State.modPort_core (s : State) (p : Nat) (f : PortSt → PortSt) : (s.modPort p f).core = s.core := (rfl)
@[simp] theorem State.modPort_sch (s : State) (p : Nat) (f : PortSt → PortSt) : (s.modPort p f).sch = s.sch := (rfl)
@[simp] theorem State.modPort_arrivals (s : State) (p : Nat) (f : PortSt → PortSt) : (s.modPort p f).arrivals = s.arrivals := (rfl)
@[simp] theorem State.modPort_pkts (s : State) (p : Nat) (f : PortSt → PortSt) : (s.modPort p f).pkts = s.pkts := (rfl)
@[simp] theorem State.modPort_outs (s : State) (p : Nat) (f : PortSt → PortSt) : (s.modPort p f).outs = s.outs := (rfl)
@[simp] theorem State.modPort_idCtr (s : State) (p : Nat) (f : PortSt → PortSt) : (s.modPort p f).idCtr = s.idCtr := (rfl)
@[simp] theorem State.modPort_ilulysReset (s : State) (p : Nat) (f : PortSt → PortSt) : (s.modPort p f).ilulysReset = s.ilulysReset := (rfl)
@[simp] theorem State.modPort_hv (s : State) (p : Nat) (f : PortSt → PortSt) : (s.modPort p f).hv = s.hv := (rfl)
@[simp] theorem State.modPort_host (s : State) (p : Nat) (f : PortSt → PortSt) : (s.modPort p f).host = s.host := (rfl)
@[simp] theorem State.modPort_tel (s : State) (p : Nat) (f : PortSt → PortSt) : (s.modPort p f).tel = s.tel := (rfl)
@[simp] theorem State.modPort_cont (s : State) (p : Nat) (f : PortSt → PortSt) : (s.modPort p f).cont = s.cont := (rfl)
@[simp] theorem State.modPort_wc (s : State) (p : Nat) (f : PortSt → PortSt) : (s.modPort p f).wc = s.wc := (rfl)
@[simp] theorem State.modPort_win (s : State) (p : Nat) (f : PortSt → PortSt) : (s.modPort p f).win = s.win := (rfl)
@[simp] theorem State.modPort_eng (s : State) (p : Nat) (f : PortSt → PortSt) : (s.modPort p f).eng = s.eng := (rfl)
@[simp] theorem State.modPort_pu (s : State) (p : Nat) (f : PortSt → PortSt) : (s.modPort p f).pu = s.pu := (rfl)
@[simp] theorem State.modPort_seats (s : State) (p : Nat) (f : PortSt → PortSt) : (s.modPort p f).seats = s.seats := (rfl)
@[simp] theorem State.modPort_lanes (s : State) (p : Nat) (f : PortSt → PortSt) : (s.modPort p f).lanes = s.lanes := (rfl)
@[simp] theorem State.modPort_sp (s : State) (p : Nat) (f : PortSt → PortSt) : (s.modPort p f).sp = s.sp := (rfl)
@[simp] theorem State.modPort_seqLate (s : State) (p : Nat) (f : PortSt → PortSt) : (s.modPort p f).seqLate = s.seqLate := (rfl)
@[simp] theorem State.modPort_slots (s : State) (p : Nat) (f : PortSt → PortSt) : (s.modPort p f).slots = s.slots := (rfl)
@[simp] theorem State.modPort_links (s : State) (p : Nat) (f : PortSt → PortSt) : (s.modPort p f).links = s.links := (rfl)
@[simp] theorem State.modPort_boot (s : State) (p : Nat) (f : PortSt → PortSt) : (s.modPort p f).boot = s.boot := (rfl)
@[simp] theorem State.modPort_pwr (s : State) (p : Nat) (f : PortSt → PortSt) : (s.modPort p f).pwr = s.pwr := (rfl)
@[simp] theorem State.modPort_wire (s : State) (p : Nat) (f : PortSt → PortSt) : (s.modPort p f).wire = s.wire := (rfl)
@[simp] theorem State.modPort_freeCtr (s : State) (p : Nat) (f : PortSt → PortSt) : (s.modPort p f).freeCtr = s.freeCtr := (rfl)
@[simp] theorem State.modPort_pending (s : State) (p : Nat) (f : PortSt → PortSt) : (s.modPort p f).pending = s.pending := (rfl)
@[simp] theorem State.modPort_lv (s : State) (p : Nat) (f : PortSt → PortSt) (i : Nat) : (s.modPort p f).lv i = s.lv i := (rfl)
@[simp] theorem State.modPort_conf (s : State) (p : Nat) (f : PortSt → PortSt) (x : Bool) (i : Nat) : (s.modPort p f).conf x i = s.conf x i := (rfl)

/-! `modSlot` -/

@[simp] theorem State.modSlot_part (s : State) (p : Nat) (f : SlotSt → SlotSt) : (s.modSlot p f).part = s.part := (rfl)
@[simp] theorem State.modSlot_live (s : State) (p : Nat) (f : SlotSt → SlotSt) : (s.modSlot p f).live = s.live := (rfl)
@[simp] theorem State.modSlot_set0 (s : State) (p : Nat) (f : SlotSt → SlotSt) : (s.modSlot p f).set0 = s.set0 := (rfl)
@[simp] theorem State.modSlot_set1 (s : State) (p : Nat) (f : SlotSt → SlotSt) : (s.modSlot p f).set1 = s.set1 := (rfl)
@[simp] theorem State.modSlot_tm (s : State) (p : Nat) (f : SlotSt → SlotSt) : (s.modSlot p f).tm = s.tm := (rfl)
@[simp] theorem State.modSlot_cur (s : State) (p : Nat) (f : SlotSt → SlotSt) : (s.modSlot p f).cur = s.cur := (rfl)
@[simp] theorem State.modSlot_core (s : State) (p : Nat) (f : SlotSt → SlotSt) : (s.modSlot p f).core = s.core := (rfl)
@[simp] theorem State.modSlot_sch (s : State) (p : Nat) (f : SlotSt → SlotSt) : (s.modSlot p f).sch = s.sch := (rfl)
@[simp] theorem State.modSlot_arrivals (s : State) (p : Nat) (f : SlotSt → SlotSt) : (s.modSlot p f).arrivals = s.arrivals := (rfl)
@[simp] theorem State.modSlot_pkts (s : State) (p : Nat) (f : SlotSt → SlotSt) : (s.modSlot p f).pkts = s.pkts := (rfl)
@[simp] theorem State.modSlot_outs (s : State) (p : Nat) (f : SlotSt → SlotSt) : (s.modSlot p f).outs = s.outs := (rfl)
@[simp] theorem State.modSlot_idCtr (s : State) (p : Nat) (f : SlotSt → SlotSt) : (s.modSlot p f).idCtr = s.idCtr := (rfl)
@[simp] theorem State.modSlot_ilulysReset (s : State) (p : Nat) (f : SlotSt → SlotSt) : (s.modSlot p f).ilulysReset = s.ilulysReset := (rfl)
@[simp] theorem State.modSlot_hv (s : State) (p : Nat) (f : SlotSt → SlotSt) : (s.modSlot p f).hv = s.hv := (rfl)
@[simp] theorem State.modSlot_host (s : State) (p : Nat) (f : SlotSt → SlotSt) : (s.modSlot p f).host = s.host := (rfl)
@[simp] theorem State.modSlot_tel (s : State) (p : Nat) (f : SlotSt → SlotSt) : (s.modSlot p f).tel = s.tel := (rfl)
@[simp] theorem State.modSlot_cont (s : State) (p : Nat) (f : SlotSt → SlotSt) : (s.modSlot p f).cont = s.cont := (rfl)
@[simp] theorem State.modSlot_wc (s : State) (p : Nat) (f : SlotSt → SlotSt) : (s.modSlot p f).wc = s.wc := (rfl)
@[simp] theorem State.modSlot_win (s : State) (p : Nat) (f : SlotSt → SlotSt) : (s.modSlot p f).win = s.win := (rfl)
@[simp] theorem State.modSlot_eng (s : State) (p : Nat) (f : SlotSt → SlotSt) : (s.modSlot p f).eng = s.eng := (rfl)
@[simp] theorem State.modSlot_pu (s : State) (p : Nat) (f : SlotSt → SlotSt) : (s.modSlot p f).pu = s.pu := (rfl)
@[simp] theorem State.modSlot_seats (s : State) (p : Nat) (f : SlotSt → SlotSt) : (s.modSlot p f).seats = s.seats := (rfl)
@[simp] theorem State.modSlot_ports (s : State) (p : Nat) (f : SlotSt → SlotSt) : (s.modSlot p f).ports = s.ports := (rfl)
@[simp] theorem State.modSlot_lanes (s : State) (p : Nat) (f : SlotSt → SlotSt) : (s.modSlot p f).lanes = s.lanes := (rfl)
@[simp] theorem State.modSlot_sp (s : State) (p : Nat) (f : SlotSt → SlotSt) : (s.modSlot p f).sp = s.sp := (rfl)
@[simp] theorem State.modSlot_seqLate (s : State) (p : Nat) (f : SlotSt → SlotSt) : (s.modSlot p f).seqLate = s.seqLate := (rfl)
@[simp] theorem State.modSlot_links (s : State) (p : Nat) (f : SlotSt → SlotSt) : (s.modSlot p f).links = s.links := (rfl)
@[simp] theorem State.modSlot_boot (s : State) (p : Nat) (f : SlotSt → SlotSt) : (s.modSlot p f).boot = s.boot := (rfl)
@[simp] theorem State.modSlot_pwr (s : State) (p : Nat) (f : SlotSt → SlotSt) : (s.modSlot p f).pwr = s.pwr := (rfl)
@[simp] theorem State.modSlot_wire (s : State) (p : Nat) (f : SlotSt → SlotSt) : (s.modSlot p f).wire = s.wire := (rfl)
@[simp] theorem State.modSlot_freeCtr (s : State) (p : Nat) (f : SlotSt → SlotSt) : (s.modSlot p f).freeCtr = s.freeCtr := (rfl)
@[simp] theorem State.modSlot_pending (s : State) (p : Nat) (f : SlotSt → SlotSt) : (s.modSlot p f).pending = s.pending := (rfl)
@[simp] theorem State.modSlot_lv (s : State) (p : Nat) (f : SlotSt → SlotSt) (i : Nat) : (s.modSlot p f).lv i = s.lv i := (rfl)
@[simp] theorem State.modSlot_conf (s : State) (p : Nat) (f : SlotSt → SlotSt) (x : Bool) (i : Nat) : (s.modSlot p f).conf x i = s.conf x i := (rfl)

/-! `modLink` -/

@[simp] theorem State.modLink_part (s : State) (l : Link) (f : LinkSt → LinkSt) : (s.modLink l f).part = s.part := (rfl)
@[simp] theorem State.modLink_live (s : State) (l : Link) (f : LinkSt → LinkSt) : (s.modLink l f).live = s.live := (rfl)
@[simp] theorem State.modLink_set0 (s : State) (l : Link) (f : LinkSt → LinkSt) : (s.modLink l f).set0 = s.set0 := (rfl)
@[simp] theorem State.modLink_set1 (s : State) (l : Link) (f : LinkSt → LinkSt) : (s.modLink l f).set1 = s.set1 := (rfl)
@[simp] theorem State.modLink_tm (s : State) (l : Link) (f : LinkSt → LinkSt) : (s.modLink l f).tm = s.tm := (rfl)
@[simp] theorem State.modLink_cur (s : State) (l : Link) (f : LinkSt → LinkSt) : (s.modLink l f).cur = s.cur := (rfl)
@[simp] theorem State.modLink_core (s : State) (l : Link) (f : LinkSt → LinkSt) : (s.modLink l f).core = s.core := (rfl)
@[simp] theorem State.modLink_sch (s : State) (l : Link) (f : LinkSt → LinkSt) : (s.modLink l f).sch = s.sch := (rfl)
@[simp] theorem State.modLink_arrivals (s : State) (l : Link) (f : LinkSt → LinkSt) : (s.modLink l f).arrivals = s.arrivals := (rfl)
@[simp] theorem State.modLink_pkts (s : State) (l : Link) (f : LinkSt → LinkSt) : (s.modLink l f).pkts = s.pkts := (rfl)
@[simp] theorem State.modLink_outs (s : State) (l : Link) (f : LinkSt → LinkSt) : (s.modLink l f).outs = s.outs := (rfl)
@[simp] theorem State.modLink_idCtr (s : State) (l : Link) (f : LinkSt → LinkSt) : (s.modLink l f).idCtr = s.idCtr := (rfl)
@[simp] theorem State.modLink_ilulysReset (s : State) (l : Link) (f : LinkSt → LinkSt) : (s.modLink l f).ilulysReset = s.ilulysReset := (rfl)
@[simp] theorem State.modLink_hv (s : State) (l : Link) (f : LinkSt → LinkSt) : (s.modLink l f).hv = s.hv := (rfl)
@[simp] theorem State.modLink_host (s : State) (l : Link) (f : LinkSt → LinkSt) : (s.modLink l f).host = s.host := (rfl)
@[simp] theorem State.modLink_tel (s : State) (l : Link) (f : LinkSt → LinkSt) : (s.modLink l f).tel = s.tel := (rfl)
@[simp] theorem State.modLink_cont (s : State) (l : Link) (f : LinkSt → LinkSt) : (s.modLink l f).cont = s.cont := (rfl)
@[simp] theorem State.modLink_wc (s : State) (l : Link) (f : LinkSt → LinkSt) : (s.modLink l f).wc = s.wc := (rfl)
@[simp] theorem State.modLink_win (s : State) (l : Link) (f : LinkSt → LinkSt) : (s.modLink l f).win = s.win := (rfl)
@[simp] theorem State.modLink_eng (s : State) (l : Link) (f : LinkSt → LinkSt) : (s.modLink l f).eng = s.eng := (rfl)
@[simp] theorem State.modLink_pu (s : State) (l : Link) (f : LinkSt → LinkSt) : (s.modLink l f).pu = s.pu := (rfl)
@[simp] theorem State.modLink_seats (s : State) (l : Link) (f : LinkSt → LinkSt) : (s.modLink l f).seats = s.seats := (rfl)
@[simp] theorem State.modLink_ports (s : State) (l : Link) (f : LinkSt → LinkSt) : (s.modLink l f).ports = s.ports := (rfl)
@[simp] theorem State.modLink_lanes (s : State) (l : Link) (f : LinkSt → LinkSt) : (s.modLink l f).lanes = s.lanes := (rfl)
@[simp] theorem State.modLink_sp (s : State) (l : Link) (f : LinkSt → LinkSt) : (s.modLink l f).sp = s.sp := (rfl)
@[simp] theorem State.modLink_seqLate (s : State) (l : Link) (f : LinkSt → LinkSt) : (s.modLink l f).seqLate = s.seqLate := (rfl)
@[simp] theorem State.modLink_slots (s : State) (l : Link) (f : LinkSt → LinkSt) : (s.modLink l f).slots = s.slots := (rfl)
@[simp] theorem State.modLink_boot (s : State) (l : Link) (f : LinkSt → LinkSt) : (s.modLink l f).boot = s.boot := (rfl)
@[simp] theorem State.modLink_pwr (s : State) (l : Link) (f : LinkSt → LinkSt) : (s.modLink l f).pwr = s.pwr := (rfl)
@[simp] theorem State.modLink_wire (s : State) (l : Link) (f : LinkSt → LinkSt) : (s.modLink l f).wire = s.wire := (rfl)
@[simp] theorem State.modLink_freeCtr (s : State) (l : Link) (f : LinkSt → LinkSt) : (s.modLink l f).freeCtr = s.freeCtr := (rfl)
@[simp] theorem State.modLink_pending (s : State) (l : Link) (f : LinkSt → LinkSt) : (s.modLink l f).pending = s.pending := (rfl)
@[simp] theorem State.modLink_lv (s : State) (l : Link) (f : LinkSt → LinkSt) (i : Nat) : (s.modLink l f).lv i = s.lv i := (rfl)
@[simp] theorem State.modLink_conf (s : State) (l : Link) (f : LinkSt → LinkSt) (x : Bool) (i : Nat) : (s.modLink l f).conf x i = s.conf x i := (rfl)

/-! `modLane` -/

@[simp] theorem State.modLane_part (s : State) (l : Nat) (f : LaneSt → LaneSt) : (s.modLane l f).part = s.part := (rfl)
@[simp] theorem State.modLane_live (s : State) (l : Nat) (f : LaneSt → LaneSt) : (s.modLane l f).live = s.live := (rfl)
@[simp] theorem State.modLane_set0 (s : State) (l : Nat) (f : LaneSt → LaneSt) : (s.modLane l f).set0 = s.set0 := (rfl)
@[simp] theorem State.modLane_set1 (s : State) (l : Nat) (f : LaneSt → LaneSt) : (s.modLane l f).set1 = s.set1 := (rfl)
@[simp] theorem State.modLane_tm (s : State) (l : Nat) (f : LaneSt → LaneSt) : (s.modLane l f).tm = s.tm := (rfl)
@[simp] theorem State.modLane_cur (s : State) (l : Nat) (f : LaneSt → LaneSt) : (s.modLane l f).cur = s.cur := (rfl)
@[simp] theorem State.modLane_core (s : State) (l : Nat) (f : LaneSt → LaneSt) : (s.modLane l f).core = s.core := (rfl)
@[simp] theorem State.modLane_sch (s : State) (l : Nat) (f : LaneSt → LaneSt) : (s.modLane l f).sch = s.sch := (rfl)
@[simp] theorem State.modLane_arrivals (s : State) (l : Nat) (f : LaneSt → LaneSt) : (s.modLane l f).arrivals = s.arrivals := (rfl)
@[simp] theorem State.modLane_pkts (s : State) (l : Nat) (f : LaneSt → LaneSt) : (s.modLane l f).pkts = s.pkts := (rfl)
@[simp] theorem State.modLane_outs (s : State) (l : Nat) (f : LaneSt → LaneSt) : (s.modLane l f).outs = s.outs := (rfl)
@[simp] theorem State.modLane_idCtr (s : State) (l : Nat) (f : LaneSt → LaneSt) : (s.modLane l f).idCtr = s.idCtr := (rfl)
@[simp] theorem State.modLane_ilulysReset (s : State) (l : Nat) (f : LaneSt → LaneSt) : (s.modLane l f).ilulysReset = s.ilulysReset := (rfl)
@[simp] theorem State.modLane_hv (s : State) (l : Nat) (f : LaneSt → LaneSt) : (s.modLane l f).hv = s.hv := (rfl)
@[simp] theorem State.modLane_host (s : State) (l : Nat) (f : LaneSt → LaneSt) : (s.modLane l f).host = s.host := (rfl)
@[simp] theorem State.modLane_tel (s : State) (l : Nat) (f : LaneSt → LaneSt) : (s.modLane l f).tel = s.tel := (rfl)
@[simp] theorem State.modLane_cont (s : State) (l : Nat) (f : LaneSt → LaneSt) : (s.modLane l f).cont = s.cont := (rfl)
@[simp] theorem State.modLane_wc (s : State) (l : Nat) (f : LaneSt → LaneSt) : (s.modLane l f).wc = s.wc := (rfl)
@[simp] theorem State.modLane_win (s : State) (l : Nat) (f : LaneSt → LaneSt) : (s.modLane l f).win = s.win := (rfl)
@[simp] theorem State.modLane_eng (s : State) (l : Nat) (f : LaneSt → LaneSt) : (s.modLane l f).eng = s.eng := (rfl)
@[simp] theorem State.modLane_pu (s : State) (l : Nat) (f : LaneSt → LaneSt) : (s.modLane l f).pu = s.pu := (rfl)
@[simp] theorem State.modLane_seats (s : State) (l : Nat) (f : LaneSt → LaneSt) : (s.modLane l f).seats = s.seats := (rfl)
@[simp] theorem State.modLane_ports (s : State) (l : Nat) (f : LaneSt → LaneSt) : (s.modLane l f).ports = s.ports := (rfl)
@[simp] theorem State.modLane_lanes (s : State) (l : Nat) (f : LaneSt → LaneSt) : (s.modLane l f).lanes = tmod {} s.lanes l f := (rfl)
@[simp] theorem State.modLane_sp (s : State) (l : Nat) (f : LaneSt → LaneSt) : (s.modLane l f).sp = s.sp := (rfl)
@[simp] theorem State.modLane_seqLate (s : State) (l : Nat) (f : LaneSt → LaneSt) : (s.modLane l f).seqLate = s.seqLate := (rfl)
@[simp] theorem State.modLane_slots (s : State) (l : Nat) (f : LaneSt → LaneSt) : (s.modLane l f).slots = s.slots := (rfl)
@[simp] theorem State.modLane_links (s : State) (l : Nat) (f : LaneSt → LaneSt) : (s.modLane l f).links = s.links := (rfl)
@[simp] theorem State.modLane_boot (s : State) (l : Nat) (f : LaneSt → LaneSt) : (s.modLane l f).boot = s.boot := (rfl)
@[simp] theorem State.modLane_pwr (s : State) (l : Nat) (f : LaneSt → LaneSt) : (s.modLane l f).pwr = s.pwr := (rfl)
@[simp] theorem State.modLane_wire (s : State) (l : Nat) (f : LaneSt → LaneSt) : (s.modLane l f).wire = s.wire := (rfl)
@[simp] theorem State.modLane_freeCtr (s : State) (l : Nat) (f : LaneSt → LaneSt) : (s.modLane l f).freeCtr = s.freeCtr := (rfl)
@[simp] theorem State.modLane_pending (s : State) (l : Nat) (f : LaneSt → LaneSt) : (s.modLane l f).pending = s.pending := (rfl)
@[simp] theorem State.modLane_lv (s : State) (l : Nat) (f : LaneSt → LaneSt) (i : Nat) : (s.modLane l f).lv i = s.lv i := (rfl)
@[simp] theorem State.modLane_conf (s : State) (l : Nat) (f : LaneSt → LaneSt) (x : Bool) (i : Nat) : (s.modLane l f).conf x i = s.conf x i := (rfl)

/-! `modSp` -/

@[simp] theorem State.modSp_part (s : State) (c : Nat) (f : SpSt → SpSt) : (s.modSp c f).part = s.part := (rfl)
@[simp] theorem State.modSp_live (s : State) (c : Nat) (f : SpSt → SpSt) : (s.modSp c f).live = s.live := (rfl)
@[simp] theorem State.modSp_set0 (s : State) (c : Nat) (f : SpSt → SpSt) : (s.modSp c f).set0 = s.set0 := (rfl)
@[simp] theorem State.modSp_set1 (s : State) (c : Nat) (f : SpSt → SpSt) : (s.modSp c f).set1 = s.set1 := (rfl)
@[simp] theorem State.modSp_tm (s : State) (c : Nat) (f : SpSt → SpSt) : (s.modSp c f).tm = s.tm := (rfl)
@[simp] theorem State.modSp_cur (s : State) (c : Nat) (f : SpSt → SpSt) : (s.modSp c f).cur = s.cur := (rfl)
@[simp] theorem State.modSp_core (s : State) (c : Nat) (f : SpSt → SpSt) : (s.modSp c f).core = s.core := (rfl)
@[simp] theorem State.modSp_sch (s : State) (c : Nat) (f : SpSt → SpSt) : (s.modSp c f).sch = s.sch := (rfl)
@[simp] theorem State.modSp_arrivals (s : State) (c : Nat) (f : SpSt → SpSt) : (s.modSp c f).arrivals = s.arrivals := (rfl)
@[simp] theorem State.modSp_pkts (s : State) (c : Nat) (f : SpSt → SpSt) : (s.modSp c f).pkts = s.pkts := (rfl)
@[simp] theorem State.modSp_outs (s : State) (c : Nat) (f : SpSt → SpSt) : (s.modSp c f).outs = s.outs := (rfl)
@[simp] theorem State.modSp_idCtr (s : State) (c : Nat) (f : SpSt → SpSt) : (s.modSp c f).idCtr = s.idCtr := (rfl)
@[simp] theorem State.modSp_ilulysReset (s : State) (c : Nat) (f : SpSt → SpSt) : (s.modSp c f).ilulysReset = s.ilulysReset := (rfl)
@[simp] theorem State.modSp_hv (s : State) (c : Nat) (f : SpSt → SpSt) : (s.modSp c f).hv = s.hv := (rfl)
@[simp] theorem State.modSp_host (s : State) (c : Nat) (f : SpSt → SpSt) : (s.modSp c f).host = s.host := (rfl)
@[simp] theorem State.modSp_tel (s : State) (c : Nat) (f : SpSt → SpSt) : (s.modSp c f).tel = s.tel := (rfl)
@[simp] theorem State.modSp_cont (s : State) (c : Nat) (f : SpSt → SpSt) : (s.modSp c f).cont = s.cont := (rfl)
@[simp] theorem State.modSp_wc (s : State) (c : Nat) (f : SpSt → SpSt) : (s.modSp c f).wc = s.wc := (rfl)
@[simp] theorem State.modSp_win (s : State) (c : Nat) (f : SpSt → SpSt) : (s.modSp c f).win = s.win := (rfl)
@[simp] theorem State.modSp_eng (s : State) (c : Nat) (f : SpSt → SpSt) : (s.modSp c f).eng = s.eng := (rfl)
@[simp] theorem State.modSp_pu (s : State) (c : Nat) (f : SpSt → SpSt) : (s.modSp c f).pu = s.pu := (rfl)
@[simp] theorem State.modSp_seats (s : State) (c : Nat) (f : SpSt → SpSt) : (s.modSp c f).seats = s.seats := (rfl)
@[simp] theorem State.modSp_ports (s : State) (c : Nat) (f : SpSt → SpSt) : (s.modSp c f).ports = s.ports := (rfl)
@[simp] theorem State.modSp_lanes (s : State) (c : Nat) (f : SpSt → SpSt) : (s.modSp c f).lanes = s.lanes := (rfl)
@[simp] theorem State.modSp_sp (s : State) (c : Nat) (f : SpSt → SpSt) : (s.modSp c f).sp = tmod {} s.sp c f := (rfl)
@[simp] theorem State.modSp_seqLate (s : State) (c : Nat) (f : SpSt → SpSt) : (s.modSp c f).seqLate = s.seqLate := (rfl)
@[simp] theorem State.modSp_slots (s : State) (c : Nat) (f : SpSt → SpSt) : (s.modSp c f).slots = s.slots := (rfl)
@[simp] theorem State.modSp_links (s : State) (c : Nat) (f : SpSt → SpSt) : (s.modSp c f).links = s.links := (rfl)
@[simp] theorem State.modSp_boot (s : State) (c : Nat) (f : SpSt → SpSt) : (s.modSp c f).boot = s.boot := (rfl)
@[simp] theorem State.modSp_pwr (s : State) (c : Nat) (f : SpSt → SpSt) : (s.modSp c f).pwr = s.pwr := (rfl)
@[simp] theorem State.modSp_wire (s : State) (c : Nat) (f : SpSt → SpSt) : (s.modSp c f).wire = s.wire := (rfl)
@[simp] theorem State.modSp_freeCtr (s : State) (c : Nat) (f : SpSt → SpSt) : (s.modSp c f).freeCtr = s.freeCtr := (rfl)
@[simp] theorem State.modSp_pending (s : State) (c : Nat) (f : SpSt → SpSt) : (s.modSp c f).pending = s.pending := (rfl)
@[simp] theorem State.modSp_lv (s : State) (c : Nat) (f : SpSt → SpSt) (i : Nat) : (s.modSp c f).lv i = s.lv i := (rfl)
@[simp] theorem State.modSp_conf (s : State) (c : Nat) (f : SpSt → SpSt) (x : Bool) (i : Nat) : (s.modSp c f).conf x i = s.conf x i := (rfl)

/-! `modBridge` -/

@[simp] theorem State.modBridge_part (s : State) (f : BridgeSt → BridgeSt) : (s.modBridge f).part = s.part := (rfl)
@[simp] theorem State.modBridge_live (s : State) (f : BridgeSt → BridgeSt) : (s.modBridge f).live = s.live := (rfl)
@[simp] theorem State.modBridge_set0 (s : State) (f : BridgeSt → BridgeSt) : (s.modBridge f).set0 = s.set0 := (rfl)
@[simp] theorem State.modBridge_set1 (s : State) (f : BridgeSt → BridgeSt) : (s.modBridge f).set1 = s.set1 := (rfl)
@[simp] theorem State.modBridge_tm (s : State) (f : BridgeSt → BridgeSt) : (s.modBridge f).tm = s.tm := (rfl)
@[simp] theorem State.modBridge_cur (s : State) (f : BridgeSt → BridgeSt) : (s.modBridge f).cur = s.cur := (rfl)
@[simp] theorem State.modBridge_core (s : State) (f : BridgeSt → BridgeSt) : (s.modBridge f).core = s.core := (rfl)
@[simp] theorem State.modBridge_sch (s : State) (f : BridgeSt → BridgeSt) : (s.modBridge f).sch = s.sch := (rfl)
@[simp] theorem State.modBridge_arrivals (s : State) (f : BridgeSt → BridgeSt) : (s.modBridge f).arrivals = s.arrivals := (rfl)
@[simp] theorem State.modBridge_pkts (s : State) (f : BridgeSt → BridgeSt) : (s.modBridge f).pkts = s.pkts := (rfl)
@[simp] theorem State.modBridge_outs (s : State) (f : BridgeSt → BridgeSt) : (s.modBridge f).outs = s.outs := (rfl)
@[simp] theorem State.modBridge_idCtr (s : State) (f : BridgeSt → BridgeSt) : (s.modBridge f).idCtr = s.idCtr := (rfl)
@[simp] theorem State.modBridge_ilulysReset (s : State) (f : BridgeSt → BridgeSt) : (s.modBridge f).ilulysReset = s.ilulysReset := (rfl)
@[simp] theorem State.modBridge_hv (s : State) (f : BridgeSt → BridgeSt) : (s.modBridge f).hv = s.hv := (rfl)
@[simp] theorem State.modBridge_tel (s : State) (f : BridgeSt → BridgeSt) : (s.modBridge f).tel = s.tel := (rfl)
@[simp] theorem State.modBridge_cont (s : State) (f : BridgeSt → BridgeSt) : (s.modBridge f).cont = s.cont := (rfl)
@[simp] theorem State.modBridge_wc (s : State) (f : BridgeSt → BridgeSt) : (s.modBridge f).wc = s.wc := (rfl)
@[simp] theorem State.modBridge_win (s : State) (f : BridgeSt → BridgeSt) : (s.modBridge f).win = s.win := (rfl)
@[simp] theorem State.modBridge_eng (s : State) (f : BridgeSt → BridgeSt) : (s.modBridge f).eng = s.eng := (rfl)
@[simp] theorem State.modBridge_pu (s : State) (f : BridgeSt → BridgeSt) : (s.modBridge f).pu = s.pu := (rfl)
@[simp] theorem State.modBridge_seats (s : State) (f : BridgeSt → BridgeSt) : (s.modBridge f).seats = s.seats := (rfl)
@[simp] theorem State.modBridge_ports (s : State) (f : BridgeSt → BridgeSt) : (s.modBridge f).ports = s.ports := (rfl)
@[simp] theorem State.modBridge_lanes (s : State) (f : BridgeSt → BridgeSt) : (s.modBridge f).lanes = s.lanes := (rfl)
@[simp] theorem State.modBridge_sp (s : State) (f : BridgeSt → BridgeSt) : (s.modBridge f).sp = s.sp := (rfl)
@[simp] theorem State.modBridge_seqLate (s : State) (f : BridgeSt → BridgeSt) : (s.modBridge f).seqLate = s.seqLate := (rfl)
@[simp] theorem State.modBridge_slots (s : State) (f : BridgeSt → BridgeSt) : (s.modBridge f).slots = s.slots := (rfl)
@[simp] theorem State.modBridge_links (s : State) (f : BridgeSt → BridgeSt) : (s.modBridge f).links = s.links := (rfl)
@[simp] theorem State.modBridge_boot (s : State) (f : BridgeSt → BridgeSt) : (s.modBridge f).boot = s.boot := (rfl)
@[simp] theorem State.modBridge_pwr (s : State) (f : BridgeSt → BridgeSt) : (s.modBridge f).pwr = s.pwr := (rfl)
@[simp] theorem State.modBridge_wire (s : State) (f : BridgeSt → BridgeSt) : (s.modBridge f).wire = s.wire := (rfl)
@[simp] theorem State.modBridge_freeCtr (s : State) (f : BridgeSt → BridgeSt) : (s.modBridge f).freeCtr = s.freeCtr := (rfl)
@[simp] theorem State.modBridge_pending (s : State) (f : BridgeSt → BridgeSt) : (s.modBridge f).pending = s.pending := (rfl)
@[simp] theorem State.modBridge_lv (s : State) (f : BridgeSt → BridgeSt) (i : Nat) : (s.modBridge f).lv i = s.lv i := (rfl)
@[simp] theorem State.modBridge_conf (s : State) (f : BridgeSt → BridgeSt) (x : Bool) (i : Nat) : (s.modBridge f).conf x i = s.conf x i := (rfl)

/-! `setFld` -/

@[simp] theorem State.setFld_part (s : State) (o hi lo n : Nat) : (s.setFld o hi lo n).part = s.part := (rfl)
@[simp] theorem State.setFld_set0 (s : State) (o hi lo n : Nat) : (s.setFld o hi lo n).set0 = s.set0 := (rfl)
@[simp] theorem State.setFld_set1 (s : State) (o hi lo n : Nat) : (s.setFld o hi lo n).set1 = s.set1 := (rfl)
@[simp] theorem State.setFld_tm (s : State) (o hi lo n : Nat) : (s.setFld o hi lo n).tm = s.tm := (rfl)
@[simp] theorem State.setFld_cur (s : State) (o hi lo n : Nat) : (s.setFld o hi lo n).cur = s.cur := (rfl)
@[simp] theorem State.setFld_core (s : State) (o hi lo n : Nat) : (s.setFld o hi lo n).core = s.core := (rfl)
@[simp] theorem State.setFld_sch (s : State) (o hi lo n : Nat) : (s.setFld o hi lo n).sch = s.sch := (rfl)
@[simp] theorem State.setFld_arrivals (s : State) (o hi lo n : Nat) : (s.setFld o hi lo n).arrivals = s.arrivals := (rfl)
@[simp] theorem State.setFld_pkts (s : State) (o hi lo n : Nat) : (s.setFld o hi lo n).pkts = s.pkts := (rfl)
@[simp] theorem State.setFld_outs (s : State) (o hi lo n : Nat) : (s.setFld o hi lo n).outs = s.outs := (rfl)
@[simp] theorem State.setFld_idCtr (s : State) (o hi lo n : Nat) : (s.setFld o hi lo n).idCtr = s.idCtr := (rfl)
@[simp] theorem State.setFld_ilulysReset (s : State) (o hi lo n : Nat) : (s.setFld o hi lo n).ilulysReset = s.ilulysReset := (rfl)
@[simp] theorem State.setFld_hv (s : State) (o hi lo n : Nat) : (s.setFld o hi lo n).hv = s.hv := (rfl)
@[simp] theorem State.setFld_host (s : State) (o hi lo n : Nat) : (s.setFld o hi lo n).host = s.host := (rfl)
@[simp] theorem State.setFld_tel (s : State) (o hi lo n : Nat) : (s.setFld o hi lo n).tel = s.tel := (rfl)
@[simp] theorem State.setFld_cont (s : State) (o hi lo n : Nat) : (s.setFld o hi lo n).cont = s.cont := (rfl)
@[simp] theorem State.setFld_wc (s : State) (o hi lo n : Nat) : (s.setFld o hi lo n).wc = s.wc := (rfl)
@[simp] theorem State.setFld_win (s : State) (o hi lo n : Nat) : (s.setFld o hi lo n).win = s.win := (rfl)
@[simp] theorem State.setFld_eng (s : State) (o hi lo n : Nat) : (s.setFld o hi lo n).eng = s.eng := (rfl)
@[simp] theorem State.setFld_pu (s : State) (o hi lo n : Nat) : (s.setFld o hi lo n).pu = s.pu := (rfl)
@[simp] theorem State.setFld_seats (s : State) (o hi lo n : Nat) : (s.setFld o hi lo n).seats = s.seats := (rfl)
@[simp] theorem State.setFld_ports (s : State) (o hi lo n : Nat) : (s.setFld o hi lo n).ports = s.ports := (rfl)
@[simp] theorem State.setFld_lanes (s : State) (o hi lo n : Nat) : (s.setFld o hi lo n).lanes = s.lanes := (rfl)
@[simp] theorem State.setFld_sp (s : State) (o hi lo n : Nat) : (s.setFld o hi lo n).sp = s.sp := (rfl)
@[simp] theorem State.setFld_seqLate (s : State) (o hi lo n : Nat) : (s.setFld o hi lo n).seqLate = s.seqLate := (rfl)
@[simp] theorem State.setFld_slots (s : State) (o hi lo n : Nat) : (s.setFld o hi lo n).slots = s.slots := (rfl)
@[simp] theorem State.setFld_links (s : State) (o hi lo n : Nat) : (s.setFld o hi lo n).links = s.links := (rfl)
@[simp] theorem State.setFld_boot (s : State) (o hi lo n : Nat) : (s.setFld o hi lo n).boot = s.boot := (rfl)
@[simp] theorem State.setFld_pwr (s : State) (o hi lo n : Nat) : (s.setFld o hi lo n).pwr = s.pwr := (rfl)
@[simp] theorem State.setFld_wire (s : State) (o hi lo n : Nat) : (s.setFld o hi lo n).wire = s.wire := (rfl)
@[simp] theorem State.setFld_freeCtr (s : State) (o hi lo n : Nat) : (s.setFld o hi lo n).freeCtr = s.freeCtr := (rfl)
@[simp] theorem State.setFld_pending (s : State) (o hi lo n : Nat) : (s.setFld o hi lo n).pending = s.pending := (rfl)
@[simp] theorem State.setFld_conf (s : State) (o hi lo n : Nat) (x : Bool) (i : Nat) : (s.setFld o hi lo n).conf x i = s.conf x i := (rfl)

/-! `setFlag` -/

@[simp] theorem State.setFlag_part (s : State) (o n : Nat) (b : Bool) : (s.setFlag o n b).part = s.part := (rfl)
@[simp] theorem State.setFlag_set0 (s : State) (o n : Nat) (b : Bool) : (s.setFlag o n b).set0 = s.set0 := (rfl)
@[simp] theorem State.setFlag_set1 (s : State) (o n : Nat) (b : Bool) : (s.setFlag o n b).set1 = s.set1 := (rfl)
@[simp] theorem State.setFlag_tm (s : State) (o n : Nat) (b : Bool) : (s.setFlag o n b).tm = s.tm := (rfl)
@[simp] theorem State.setFlag_cur (s : State) (o n : Nat) (b : Bool) : (s.setFlag o n b).cur = s.cur := (rfl)
@[simp] theorem State.setFlag_core (s : State) (o n : Nat) (b : Bool) : (s.setFlag o n b).core = s.core := (rfl)
@[simp] theorem State.setFlag_sch (s : State) (o n : Nat) (b : Bool) : (s.setFlag o n b).sch = s.sch := (rfl)
@[simp] theorem State.setFlag_arrivals (s : State) (o n : Nat) (b : Bool) : (s.setFlag o n b).arrivals = s.arrivals := (rfl)
@[simp] theorem State.setFlag_pkts (s : State) (o n : Nat) (b : Bool) : (s.setFlag o n b).pkts = s.pkts := (rfl)
@[simp] theorem State.setFlag_outs (s : State) (o n : Nat) (b : Bool) : (s.setFlag o n b).outs = s.outs := (rfl)
@[simp] theorem State.setFlag_idCtr (s : State) (o n : Nat) (b : Bool) : (s.setFlag o n b).idCtr = s.idCtr := (rfl)
@[simp] theorem State.setFlag_ilulysReset (s : State) (o n : Nat) (b : Bool) : (s.setFlag o n b).ilulysReset = s.ilulysReset := (rfl)
@[simp] theorem State.setFlag_hv (s : State) (o n : Nat) (b : Bool) : (s.setFlag o n b).hv = s.hv := (rfl)
@[simp] theorem State.setFlag_host (s : State) (o n : Nat) (b : Bool) : (s.setFlag o n b).host = s.host := (rfl)
@[simp] theorem State.setFlag_tel (s : State) (o n : Nat) (b : Bool) : (s.setFlag o n b).tel = s.tel := (rfl)
@[simp] theorem State.setFlag_cont (s : State) (o n : Nat) (b : Bool) : (s.setFlag o n b).cont = s.cont := (rfl)
@[simp] theorem State.setFlag_wc (s : State) (o n : Nat) (b : Bool) : (s.setFlag o n b).wc = s.wc := (rfl)
@[simp] theorem State.setFlag_win (s : State) (o n : Nat) (b : Bool) : (s.setFlag o n b).win = s.win := (rfl)
@[simp] theorem State.setFlag_eng (s : State) (o n : Nat) (b : Bool) : (s.setFlag o n b).eng = s.eng := (rfl)
@[simp] theorem State.setFlag_pu (s : State) (o n : Nat) (b : Bool) : (s.setFlag o n b).pu = s.pu := (rfl)
@[simp] theorem State.setFlag_seats (s : State) (o n : Nat) (b : Bool) : (s.setFlag o n b).seats = s.seats := (rfl)
@[simp] theorem State.setFlag_ports (s : State) (o n : Nat) (b : Bool) : (s.setFlag o n b).ports = s.ports := (rfl)
@[simp] theorem State.setFlag_lanes (s : State) (o n : Nat) (b : Bool) : (s.setFlag o n b).lanes = s.lanes := (rfl)
@[simp] theorem State.setFlag_sp (s : State) (o n : Nat) (b : Bool) : (s.setFlag o n b).sp = s.sp := (rfl)
@[simp] theorem State.setFlag_seqLate (s : State) (o n : Nat) (b : Bool) : (s.setFlag o n b).seqLate = s.seqLate := (rfl)
@[simp] theorem State.setFlag_slots (s : State) (o n : Nat) (b : Bool) : (s.setFlag o n b).slots = s.slots := (rfl)
@[simp] theorem State.setFlag_links (s : State) (o n : Nat) (b : Bool) : (s.setFlag o n b).links = s.links := (rfl)
@[simp] theorem State.setFlag_boot (s : State) (o n : Nat) (b : Bool) : (s.setFlag o n b).boot = s.boot := (rfl)
@[simp] theorem State.setFlag_pwr (s : State) (o n : Nat) (b : Bool) : (s.setFlag o n b).pwr = s.pwr := (rfl)
@[simp] theorem State.setFlag_wire (s : State) (o n : Nat) (b : Bool) : (s.setFlag o n b).wire = s.wire := (rfl)
@[simp] theorem State.setFlag_freeCtr (s : State) (o n : Nat) (b : Bool) : (s.setFlag o n b).freeCtr = s.freeCtr := (rfl)
@[simp] theorem State.setFlag_pending (s : State) (o n : Nat) (b : Bool) : (s.setFlag o n b).pending = s.pending := (rfl)
@[simp] theorem State.setFlag_conf (s : State) (o n : Nat) (b : Bool) (x : Bool) (i : Nat) : (s.setFlag o n b).conf x i = s.conf x i := (rfl)

/-! `sticky` -/

@[simp] theorem State.sticky_part (s : State) (o n : Nat) : (s.sticky o n).part = s.part := (rfl)
@[simp] theorem State.sticky_set0 (s : State) (o n : Nat) : (s.sticky o n).set0 = s.set0 := (rfl)
@[simp] theorem State.sticky_set1 (s : State) (o n : Nat) : (s.sticky o n).set1 = s.set1 := (rfl)
@[simp] theorem State.sticky_tm (s : State) (o n : Nat) : (s.sticky o n).tm = s.tm := (rfl)
@[simp] theorem State.sticky_cur (s : State) (o n : Nat) : (s.sticky o n).cur = s.cur := (rfl)
@[simp] theorem State.sticky_core (s : State) (o n : Nat) : (s.sticky o n).core = s.core := (rfl)
@[simp] theorem State.sticky_sch (s : State) (o n : Nat) : (s.sticky o n).sch = s.sch := (rfl)
@[simp] theorem State.sticky_arrivals (s : State) (o n : Nat) : (s.sticky o n).arrivals = s.arrivals := (rfl)
@[simp] theorem State.sticky_pkts (s : State) (o n : Nat) : (s.sticky o n).pkts = s.pkts := (rfl)
@[simp] theorem State.sticky_outs (s : State) (o n : Nat) : (s.sticky o n).outs = s.outs := (rfl)
@[simp] theorem State.sticky_idCtr (s : State) (o n : Nat) : (s.sticky o n).idCtr = s.idCtr := (rfl)
@[simp] theorem State.sticky_ilulysReset (s : State) (o n : Nat) : (s.sticky o n).ilulysReset = s.ilulysReset := (rfl)
@[simp] theorem State.sticky_hv (s : State) (o n : Nat) : (s.sticky o n).hv = s.hv := (rfl)
@[simp] theorem State.sticky_host (s : State) (o n : Nat) : (s.sticky o n).host = s.host := (rfl)
@[simp] theorem State.sticky_tel (s : State) (o n : Nat) : (s.sticky o n).tel = s.tel := (rfl)
@[simp] theorem State.sticky_cont (s : State) (o n : Nat) : (s.sticky o n).cont = s.cont := (rfl)
@[simp] theorem State.sticky_wc (s : State) (o n : Nat) : (s.sticky o n).wc = s.wc := (rfl)
@[simp] theorem State.sticky_win (s : State) (o n : Nat) : (s.sticky o n).win = s.win := (rfl)
@[simp] theorem State.sticky_eng (s : State) (o n : Nat) : (s.sticky o n).eng = s.eng := (rfl)
@[simp] theorem State.sticky_pu (s : State) (o n : Nat) : (s.sticky o n).pu = s.pu := (rfl)
@[simp] theorem State.sticky_seats (s : State) (o n : Nat) : (s.sticky o n).seats = s.seats := (rfl)
@[simp] theorem State.sticky_ports (s : State) (o n : Nat) : (s.sticky o n).ports = s.ports := (rfl)
@[simp] theorem State.sticky_lanes (s : State) (o n : Nat) : (s.sticky o n).lanes = s.lanes := (rfl)
@[simp] theorem State.sticky_sp (s : State) (o n : Nat) : (s.sticky o n).sp = s.sp := (rfl)
@[simp] theorem State.sticky_seqLate (s : State) (o n : Nat) : (s.sticky o n).seqLate = s.seqLate := (rfl)
@[simp] theorem State.sticky_slots (s : State) (o n : Nat) : (s.sticky o n).slots = s.slots := (rfl)
@[simp] theorem State.sticky_links (s : State) (o n : Nat) : (s.sticky o n).links = s.links := (rfl)
@[simp] theorem State.sticky_boot (s : State) (o n : Nat) : (s.sticky o n).boot = s.boot := (rfl)
@[simp] theorem State.sticky_pwr (s : State) (o n : Nat) : (s.sticky o n).pwr = s.pwr := (rfl)
@[simp] theorem State.sticky_wire (s : State) (o n : Nat) : (s.sticky o n).wire = s.wire := (rfl)
@[simp] theorem State.sticky_freeCtr (s : State) (o n : Nat) : (s.sticky o n).freeCtr = s.freeCtr := (rfl)
@[simp] theorem State.sticky_pending (s : State) (o n : Nat) : (s.sticky o n).pending = s.pending := (rfl)
@[simp] theorem State.sticky_conf (s : State) (o n : Nat) (x : Bool) (i : Nat) : (s.sticky o n).conf x i = s.conf x i := (rfl)

/-! `setConf` -/

@[simp] theorem State.setConf_part (s : State) (e : Bool) (o : Nat) (v : Word) : (s.setConf e o v).part = s.part := by
  cases e <;> rfl
@[simp] theorem State.setConf_live (s : State) (e : Bool) (o : Nat) (v : Word) : (s.setConf e o v).live = s.live := by
  cases e <;> rfl
@[simp] theorem State.setConf_tm (s : State) (e : Bool) (o : Nat) (v : Word) : (s.setConf e o v).tm = s.tm := by
  cases e <;> rfl
@[simp] theorem State.setConf_cur (s : State) (e : Bool) (o : Nat) (v : Word) : (s.setConf e o v).cur = s.cur := by
  cases e <;> rfl
@[simp] theorem State.setConf_core (s : State) (e : Bool) (o : Nat) (v : Word) : (s.setConf e o v).core = s.core := by
  cases e <;> rfl
@[simp] theorem State.setConf_sch (s : State) (e : Bool) (o : Nat) (v : Word) : (s.setConf e o v).sch = s.sch := by
  cases e <;> rfl
@[simp] theorem State.setConf_arrivals (s : State) (e : Bool) (o : Nat) (v : Word) : (s.setConf e o v).arrivals = s.arrivals := by
  cases e <;> rfl
@[simp] theorem State.setConf_pkts (s : State) (e : Bool) (o : Nat) (v : Word) : (s.setConf e o v).pkts = s.pkts := by
  cases e <;> rfl
@[simp] theorem State.setConf_outs (s : State) (e : Bool) (o : Nat) (v : Word) : (s.setConf e o v).outs = s.outs := by
  cases e <;> rfl
@[simp] theorem State.setConf_idCtr (s : State) (e : Bool) (o : Nat) (v : Word) : (s.setConf e o v).idCtr = s.idCtr := by
  cases e <;> rfl
@[simp] theorem State.setConf_ilulysReset (s : State) (e : Bool) (o : Nat) (v : Word) : (s.setConf e o v).ilulysReset = s.ilulysReset := by
  cases e <;> rfl
@[simp] theorem State.setConf_hv (s : State) (e : Bool) (o : Nat) (v : Word) : (s.setConf e o v).hv = s.hv := by
  cases e <;> rfl
@[simp] theorem State.setConf_host (s : State) (e : Bool) (o : Nat) (v : Word) : (s.setConf e o v).host = s.host := by
  cases e <;> rfl
@[simp] theorem State.setConf_tel (s : State) (e : Bool) (o : Nat) (v : Word) : (s.setConf e o v).tel = s.tel := by
  cases e <;> rfl
@[simp] theorem State.setConf_cont (s : State) (e : Bool) (o : Nat) (v : Word) : (s.setConf e o v).cont = s.cont := by
  cases e <;> rfl
@[simp] theorem State.setConf_wc (s : State) (e : Bool) (o : Nat) (v : Word) : (s.setConf e o v).wc = s.wc := by
  cases e <;> rfl
@[simp] theorem State.setConf_win (s : State) (e : Bool) (o : Nat) (v : Word) : (s.setConf e o v).win = s.win := by
  cases e <;> rfl
@[simp] theorem State.setConf_eng (s : State) (e : Bool) (o : Nat) (v : Word) : (s.setConf e o v).eng = s.eng := by
  cases e <;> rfl
@[simp] theorem State.setConf_pu (s : State) (e : Bool) (o : Nat) (v : Word) : (s.setConf e o v).pu = s.pu := by
  cases e <;> rfl
@[simp] theorem State.setConf_seats (s : State) (e : Bool) (o : Nat) (v : Word) : (s.setConf e o v).seats = s.seats := by
  cases e <;> rfl
@[simp] theorem State.setConf_ports (s : State) (e : Bool) (o : Nat) (v : Word) : (s.setConf e o v).ports = s.ports := by
  cases e <;> rfl
@[simp] theorem State.setConf_lanes (s : State) (e : Bool) (o : Nat) (v : Word) : (s.setConf e o v).lanes = s.lanes := by
  cases e <;> rfl
@[simp] theorem State.setConf_sp (s : State) (e : Bool) (o : Nat) (v : Word) : (s.setConf e o v).sp = s.sp := by
  cases e <;> rfl
@[simp] theorem State.setConf_seqLate (s : State) (e : Bool) (o : Nat) (v : Word) : (s.setConf e o v).seqLate = s.seqLate := by
  cases e <;> rfl
@[simp] theorem State.setConf_slots (s : State) (e : Bool) (o : Nat) (v : Word) : (s.setConf e o v).slots = s.slots := by
  cases e <;> rfl
@[simp] theorem State.setConf_links (s : State) (e : Bool) (o : Nat) (v : Word) : (s.setConf e o v).links = s.links := by
  cases e <;> rfl
@[simp] theorem State.setConf_boot (s : State) (e : Bool) (o : Nat) (v : Word) : (s.setConf e o v).boot = s.boot := by
  cases e <;> rfl
@[simp] theorem State.setConf_pwr (s : State) (e : Bool) (o : Nat) (v : Word) : (s.setConf e o v).pwr = s.pwr := by
  cases e <;> rfl
@[simp] theorem State.setConf_wire (s : State) (e : Bool) (o : Nat) (v : Word) : (s.setConf e o v).wire = s.wire := by
  cases e <;> rfl
@[simp] theorem State.setConf_freeCtr (s : State) (e : Bool) (o : Nat) (v : Word) : (s.setConf e o v).freeCtr = s.freeCtr := by
  cases e <;> rfl
@[simp] theorem State.setConf_pending (s : State) (e : Bool) (o : Nat) (v : Word) : (s.setConf e o v).pending = s.pending := by
  cases e <;> rfl

/-! `plainWrite` -/

@[simp] theorem State.plainWrite_part (s : State) (o : Nat) (v : Word) : (s.plainWrite o v).part = s.part := by
  unfold State.plainWrite; split <;> rfl
@[simp] theorem State.plainWrite_set0 (s : State) (o : Nat) (v : Word) : (s.plainWrite o v).set0 = s.set0 := by
  unfold State.plainWrite; split <;> rfl
@[simp] theorem State.plainWrite_set1 (s : State) (o : Nat) (v : Word) : (s.plainWrite o v).set1 = s.set1 := by
  unfold State.plainWrite; split <;> rfl
@[simp] theorem State.plainWrite_tm (s : State) (o : Nat) (v : Word) : (s.plainWrite o v).tm = s.tm := by
  unfold State.plainWrite; split <;> rfl
@[simp] theorem State.plainWrite_cur (s : State) (o : Nat) (v : Word) : (s.plainWrite o v).cur = s.cur := by
  unfold State.plainWrite; split <;> rfl
@[simp] theorem State.plainWrite_core (s : State) (o : Nat) (v : Word) : (s.plainWrite o v).core = s.core := by
  unfold State.plainWrite; split <;> rfl
@[simp] theorem State.plainWrite_sch (s : State) (o : Nat) (v : Word) : (s.plainWrite o v).sch = s.sch := by
  unfold State.plainWrite; split <;> rfl
@[simp] theorem State.plainWrite_arrivals (s : State) (o : Nat) (v : Word) : (s.plainWrite o v).arrivals = s.arrivals := by
  unfold State.plainWrite; split <;> rfl
@[simp] theorem State.plainWrite_pkts (s : State) (o : Nat) (v : Word) : (s.plainWrite o v).pkts = s.pkts := by
  unfold State.plainWrite; split <;> rfl
@[simp] theorem State.plainWrite_outs (s : State) (o : Nat) (v : Word) : (s.plainWrite o v).outs = s.outs := by
  unfold State.plainWrite; split <;> rfl
@[simp] theorem State.plainWrite_idCtr (s : State) (o : Nat) (v : Word) : (s.plainWrite o v).idCtr = s.idCtr := by
  unfold State.plainWrite; split <;> rfl
@[simp] theorem State.plainWrite_ilulysReset (s : State) (o : Nat) (v : Word) : (s.plainWrite o v).ilulysReset = s.ilulysReset := by
  unfold State.plainWrite; split <;> rfl
@[simp] theorem State.plainWrite_hv (s : State) (o : Nat) (v : Word) : (s.plainWrite o v).hv = s.hv := by
  unfold State.plainWrite; split <;> rfl
@[simp] theorem State.plainWrite_host (s : State) (o : Nat) (v : Word) : (s.plainWrite o v).host = s.host := by
  unfold State.plainWrite; split <;> rfl
@[simp] theorem State.plainWrite_tel (s : State) (o : Nat) (v : Word) : (s.plainWrite o v).tel = s.tel := by
  unfold State.plainWrite; split <;> rfl
@[simp] theorem State.plainWrite_cont (s : State) (o : Nat) (v : Word) : (s.plainWrite o v).cont = s.cont := by
  unfold State.plainWrite; split <;> rfl
@[simp] theorem State.plainWrite_wc (s : State) (o : Nat) (v : Word) : (s.plainWrite o v).wc = s.wc := by
  unfold State.plainWrite; split <;> rfl
@[simp] theorem State.plainWrite_win (s : State) (o : Nat) (v : Word) : (s.plainWrite o v).win = s.win := by
  unfold State.plainWrite; split <;> rfl
@[simp] theorem State.plainWrite_eng (s : State) (o : Nat) (v : Word) : (s.plainWrite o v).eng = s.eng := by
  unfold State.plainWrite; split <;> rfl
@[simp] theorem State.plainWrite_pu (s : State) (o : Nat) (v : Word) : (s.plainWrite o v).pu = s.pu := by
  unfold State.plainWrite; split <;> rfl
@[simp] theorem State.plainWrite_seats (s : State) (o : Nat) (v : Word) : (s.plainWrite o v).seats = s.seats := by
  unfold State.plainWrite; split <;> rfl
@[simp] theorem State.plainWrite_ports (s : State) (o : Nat) (v : Word) : (s.plainWrite o v).ports = s.ports := by
  unfold State.plainWrite; split <;> rfl
@[simp] theorem State.plainWrite_lanes (s : State) (o : Nat) (v : Word) : (s.plainWrite o v).lanes = s.lanes := by
  unfold State.plainWrite; split <;> rfl
@[simp] theorem State.plainWrite_sp (s : State) (o : Nat) (v : Word) : (s.plainWrite o v).sp = s.sp := by
  unfold State.plainWrite; split <;> rfl
@[simp] theorem State.plainWrite_seqLate (s : State) (o : Nat) (v : Word) : (s.plainWrite o v).seqLate = s.seqLate := by
  unfold State.plainWrite; split <;> rfl
@[simp] theorem State.plainWrite_slots (s : State) (o : Nat) (v : Word) : (s.plainWrite o v).slots = s.slots := by
  unfold State.plainWrite; split <;> rfl
@[simp] theorem State.plainWrite_links (s : State) (o : Nat) (v : Word) : (s.plainWrite o v).links = s.links := by
  unfold State.plainWrite; split <;> rfl
@[simp] theorem State.plainWrite_boot (s : State) (o : Nat) (v : Word) : (s.plainWrite o v).boot = s.boot := by
  unfold State.plainWrite; split <;> rfl
@[simp] theorem State.plainWrite_pwr (s : State) (o : Nat) (v : Word) : (s.plainWrite o v).pwr = s.pwr := by
  unfold State.plainWrite; split <;> rfl
@[simp] theorem State.plainWrite_wire (s : State) (o : Nat) (v : Word) : (s.plainWrite o v).wire = s.wire := by
  unfold State.plainWrite; split <;> rfl
@[simp] theorem State.plainWrite_freeCtr (s : State) (o : Nat) (v : Word) : (s.plainWrite o v).freeCtr = s.freeCtr := by
  unfold State.plainWrite; split <;> rfl
@[simp] theorem State.plainWrite_pending (s : State) (o : Nat) (v : Word) : (s.plainWrite o v).pending = s.pending := by
  unfold State.plainWrite; split <;> rfl

@[simp] theorem State.plainWrite_conf (s : State) (o : Nat) (v : Word) (x : Bool) (i : Nat) :
    (s.plainWrite o v).conf x i = s.conf x i := by
  unfold State.plainWrite; split <;> rfl

end Sys2Proof.Machine
end

