-- ==== Sys2Proof/WellFormed.lean ====
section
/-! DEFINITION. Which commands name what a part can carry: the largest part's tiles, lanes, ports, blocks and crossings (R1,
R2, R49), its partitions, seats, rings and channels, and operands that fit the fields the formats give them. A smaller part
lacks some of what is named here; a command that names what the part lacks has no effect on it. -/

namespace Sys2Proof

/-! ### Numbers of objects -/

/-- A tile (R1). -/
def tileOk (n : Nat) : Bool := decide (n < 8)
/-- A lane (R49). -/
def laneOk (n : Nat) : Bool := decide (n < 1024)
/-- A port, named by its lowest lane (R73). -/
def portOk (n : Nat) : Bool := decide (n < 1024)
/-- A quad (R49). -/
def quadOk (n : Nat) : Bool := decide (n < 256)
/-- A port block (R49). -/
def blockOk (n : Nat) : Bool := decide (n < 64)
/-- An edge of a tile that a crossing may use (R120). -/
def edgeOk (n : Nat) : Bool := decide (n < 3)
/-- A crossing of the part (R10). -/
def crossingOk (n : Nat) : Bool := decide (n < 10)
/-- A partition (R148). -/
def partOk (n : Nat) : Bool := decide (n < 256)
/-- A virtual downstream port of a partition (R149). -/
def vdpOk (n : Nat) : Bool := decide (n < 32)
/-- A seat (R227). -/
def seatOk (n : Nat) : Bool := decide (n < 4096)
/-- A ring (R283). -/
def ringOk (n : Nat) : Bool := decide (n < 65536)
/-- A slot-power channel (R353). -/
def channelOk (n : Nat) : Bool := decide (n < 128)
/-- An entry of the slot-power sequencer (R368). -/
def seqOk (n : Nat) : Bool := decide (n < 32)
/-- A serving agent of a mailbox: a tile, or 8 the stage manager (R446). -/
def agentOk (n : Nat) : Bool := decide (n ≤ 8)
/-- A queue pair (R205). -/
def qpnOk (n : Nat) : Bool := decide (n < 2 ^ 24)
/-- A window index (R194). -/
def indexOk (n : Nat) : Bool := decide (n < 2 ^ 24)
/-- A histogram of a tile (R318). -/
def histOk (n : Nat) : Bool := decide (n < 8)
/-- A capture of a tile (R320). -/
def captureOk (n : Nat) : Bool := decide (n < 4)
/-- A programmable counter of a tile (R311). -/
def progOk (n : Nat) : Bool := decide (n < 32)

/-! ### Fields -/

/-- A BAR0 offset: 4-byte aligned, below 256 MiB (R280, R281). -/
def offsetOk (o : Nat) : Bool := o % 4 == 0 && decide (o < 0x10000000)
/-- A byte offset of a word in the manager's half of a mailbox (R233). -/
def mbxOk (o : Nat) : Bool := o % 4 == 0 && decide (o < 64)
/-- A requester ID. -/
def ridOk (n : Nat) : Bool := decide (n < 65536)
/-- A 14-bit tag (R9). -/
def tagOk (n : Nat) : Bool := decide (n < 2 ^ 14)
/-- An INTx pin, INTA to INTD. -/
def pinOk (n : Nat) : Bool := decide (n < 4)
/-- A 12-bit sample of a slot-power channel (R354). -/
def sampleOk (n : Nat) : Bool := decide (n < 4096)
/-- A slot indicator's two bits (R89). -/
def indicatorOk (n : Nat) : Bool := decide (n < 4)
/-- A dynamic I3C address (R303). -/
def i3cOk (n : Nat) : Bool := decide (n < 128)
/-- A cause of HK_RESET_CAUSE (R401). -/
def causeOk (n : Nat) : Bool := decide (n < 16)
/-- The payload of one TLP or engine packet: at most 4,096 bytes. -/
def dataOk (l : List Byte) : Bool := decide (l.length ≤ 4096)

/-! ### Operand records -/

/-- A path of a register access. -/
def Via.wf : Via → Bool
  | .inband tile port => tileOk tile && portOk port
  | .command => true
  | .bridge => true
  | .mgmtPort => true
/-- A requester: a 16-bit ID, or the function of a binding entry (R152). -/
def Requester.wf : Requester → Bool
  | .host rid => ridOk rid
  | .func f => decide (f < 16384)
/-- A memory request: a 16-bit ID, a tag, a traffic class, an AT field, a 20-bit PASID; data and byte enables of its
length. -/
def Req.wf (r : Req) : Bool :=
  ridOk r.rid && tagOk r.tag && decide (r.tc < 8) && decide (r.atBits < 4) && dataOk r.data &&
    (r.pasid.all fun x => decide (x < 2 ^ 20)) && (r.data.isEmpty || r.data.length == r.len)
/-- A configuration request. -/
def CfgReq.wf (r : CfgReq) : Bool :=
  ridOk r.rid && tagOk r.tag && decide (r.bus < 256) && decide (r.devfn < 256) && decide (r.reg < 4096) && decide (r.be < 16)
/-- A completion. -/
def Cpl.wf (c : Cpl) : Bool := ridOk c.rid && tagOk c.tag && ridOk c.cid && dataOk c.data
/-- A link that runs the VFL link layer. -/
def Link.wf : Link → Bool
  | .port p => portOk p
  | .xing tile g => tileOk tile && edgeOk g
/-- A flit: 31 words of 8 bytes, a codeword of 128 symbols, 672 wires (R95, R118). -/
def Flit.wf (f : Flit) : Bool :=
  f.words.length == 31 && decide (f.symErr0 ≤ 128) && decide (f.symErr1 ≤ 128) && f.wires.all fun w => decide (w < 672)
/-- A work request descriptor, field by field (R211). -/
def Desc.wf (d : Desc) : Bool :=
  decide (d.opcode < 256) && decide (d.access < 8) && qpnOk d.qpn && decide (d.rSw < 64) && decide (d.length < 2 ^ 32) &&
    decide (d.rOffset < 2 ^ 64) && qpnOk d.trigQpn && qpnOk d.doneQpn && decide (d.thresh < 2 ^ 64)
/-- The context that QP_CREATE carries (R206). -/
def CtxInit.wf (c : CtxInit) : Bool :=
  seatOk c.ownerSeat && ringOk c.cqRing && qpnOk c.remoteQpn && decide (c.remoteSw < 64) && decide (c.backoff < 16) &&
    decide (c.retryLimit < 8) && decide (c.maxOut < 256) && decide (c.rqLog2 < 32)
/-- The header of an engine packet (R216). -/
def EngHdr.wf (h : EngHdr) : Bool :=
  decide (h.mtype < 16) && decide (h.srcSw < 64) && seatOk h.reqSeat && decide (h.aop < 8) && qpnOk h.qpn && qpnOk h.dstQpn &&
    decide (h.code < 256) && decide (h.rOffset < 2 ^ 64) && decide (h.wrSlot < 2 ^ 15) && decide (h.ssn < 65536) &&
    decide (h.length < 2 ^ 32)
/-- A management command (R297). -/
def Cmd.wf (c : Cmd) : Bool := decide (c.opcode < 256) && decide (c.target < 4096) && decide (c.kind < 4) && decide (c.secTop < 4)
/-- An entry of a fetch. -/
def RingEntry.wf : RingEntry → Bool
  | .work d c => d.wf && c.wf
  | .command c => c.wf
/-- A packet over VFL: fabric IDs of 16 bits, a 4-bit kind, eight services (R101). -/
def VflPkt.wf (p : VflPkt) : Bool := decide (p.dst < 65536) && decide (p.src < 65536) && decide (p.kind < 16) && decide (p.svc < 8) &&
  match p.lens with
  | some l => decide (l.1 < 15) && decide (l.2 ≤ 1024)
  | none => true

/-! ### Commands -/

/-- Whether a command names objects of the largest part and its operands fit their fields. -/
def Instr.wf : Instr → Bool
  | .ppsEdge => true
  | .ppsEdgeMissing => true
  | .trefClkAbsent => true
  | .todLoad _ => true
  | .deferredTodApply => true
  | .syncFrame tile => tileOk tile
  | .ftSnap => true
  | .ftSnapDone => true
  | .setFieldWrite via off _ => via.wf && offsetOk off
  | .understudyRead _ => true
  | .understudyReadDone => true
  | .consistencyCheck _ => true
  | .consistencyCheckDone => true
  | .curtainArm _ => true
  | .curtainPrepare tile => tileOk tile
  | .curtainPrepareAck tile => tileOk tile
  | .curtainCommit tile => tileOk tile
  | .curtainCommitAck tile => tileOk tile
  | .lastCall => true
  | .curtainAbort _ => true
  | .curtainQuery tile => tileOk tile
  | .curtainFall tile => tileOk tile
  | .epochFlip tile => tileOk tile
  | .oldDrainedReport tile => tileOk tile
  | .forcedRetirement => true
  | .copyForwardDone => true
  | .registerWrite via off _ => via.wf && offsetOk off
  | .partnerDetected port => portOk port
  | .linkUp2g5 port _ _ _ _ _ => portOk port
  | .vflConfirmTimeout port => portOk port
  | .equalisationPhaseDone lane _ _ _ _ => laneOk lane
  | .speedChangeDone port _ _ => portOk port
  | .eiExitDetect lane _ => laneOk lane
  | .l0sEntry port => portOk port
  | .l1Entry port _ => portOk port
  | .linkPowerExit port => portOk port
  | .losDetect e => laneOk e.lane
  | .laneLol lane => laneOk lane
  | .quadPllLol quad => quadOk quad
  | .quadPllRelock quad => quadOk quad
  | .eiHoldRelease lane _ => laneOk lane
  | .vflMarker lane _ => laneOk lane
  | .markerLoss lane => laneOk lane
  | .patternModeEnter lane _ => laneOk lane
  | .patternModeExit lane _ => laneOk lane
  | .injectOne lane _ => laneOk lane
  | .cntClear lane _ => laneOk lane
  | .checkerLock lane => laneOk lane
  | .checkerUnlock lane => laneOk lane
  | .laneMbxRead agent pb _ => agentOk agent && blockOk pb
  | .laneMbxWrite agent pb _ => agentOk agent && blockOk pb
  | .laneMbxDone agent pb => agentOk agent && blockOk pb
  | .replayNumRollover port => portOk port
  | .pcieLinkDown port => portOk port
  | .dpcTrigger part vdp _ => partOk part && vdpOk vdp
  | .dpcTriggerStatusClear part vdp => partOk part && vdpOk vdp
  | .slotPowerOn part vdp => partOk part && vdpOk vdp
  | .slotPowerOff part vdp => partOk part && vdpOk vdp
  | .slotIndicatorWrite part vdp attn pwr => partOk part && vdpOk vdp && indicatorOk attn && indicatorOk pwr
  | .commandCompleted port => portOk port
  | .slotSidebandMessage port => portOk port
  | .presenceSample port _ => portOk port
  | .attentionButton port => portOk port
  | .flitReceive link flit => link.wf && flit.wf
  | .packetItemAccept link => link.wf
  | .initSend port => portOk port
  | .initReceive port _ _ _ _ _ => portOk port
  | .initTimeout port => portOk port
  | .initMismatchRetry port => portOk port
  | .ackDue link => link.wf
  | .replayTimeout link => link.wf
  | .linkRetrainDone link _ _ => link.wf
  | .vflLinkDown port => portOk port
  | .routeHopRestore tile port => tileOk tile && portOk port
  | .injectBadCrc port _ => portOk port
  | .injectDropAck port _ => portOk port
  | .injectStaleCredit port _ => portOk port
  | .injectSkipSeq port _ => portOk port
  | .injectFecSym port _ => portOk port
  | .wireFailure tile g _ => tileOk tile && edgeOk g
  | .wireRepairDone tile g => tileOk tile && edgeOk g
  | .crossingWireInject tile g _ => tileOk tile && edgeOk g
  | .crossingBulkLoss x => crossingOk x
  | .crossingStateNotice tile x _ => tileOk tile && crossingOk x
  | .cellSlot tile => tileOk tile
  | .admissionRetry tile _ => tileOk tile
  | .ticketReturn tile fromTile _ _ => tileOk tile && tileOk fromTile
  | .sprayRecompute tile => tileOk tile
  | .egressArrival tile _ => tileOk tile
  | .voidNotice tile _ _ _ => tileOk tile
  | .reorderGapTimeout tile _ _ => tileOk tile
  | .ticketQuery agent tile _ => agentOk agent && tileOk tile
  | .ticketQueryDone agent tile => agentOk agent && tileOk tile
  | .hostMemoryRequest port req => portOk port && req.wf
  | .functionMemoryRequest port req => portOk port && req.wf
  | .hostConfigRequest port req => portOk port && req.wf
  | .functionLevelReset part _ rid tag _ => partOk part && ridOk rid && tagOk tag
  | .secondaryBusReset part vdp => partOk part && vdpOk vdp
  | .partitionReset part => partOk part
  | .fabricFunctionPowerState part _ => partOk part
  | .intxControlChange part _ _ => partOk part
  | .msixUnmask part _ => partOk part
  | .completionArrival port cpl => portOk port && cpl.wf
  | .outstandingEntryAlloc port => portOk port
  | .completionTimeout tile _ => tileOk tile
  | .vflPacketArrival port pkt => portOk port && pkt.wf
  | .intxMessage port hdr pin _ => portOk port && ridOk hdr.rid && hdr.data.isEmpty && pinOk pin
  | .messageReceived port hdr _ => portOk port && ridOk hdr.rid && dataOk hdr.data
  | .bar4Write part who req => partOk part && who.wf && req.wf
  | .bar4Read part who req => partOk part && who.wf && req.wf
  | .wcLineTimeout tile _ => tileOk tile
  | .wcFlushAdmit tile _ => tileOk tile
  | .fenceRead part who seat req => partOk part && who.wf && seatOk seat && req.wf
  | .flushReadComplete tile _ _ _ _ _ _ => tileOk tile
  | .fenceTimeout tile _ => tileOk tile
  | .apContReadState agent tile _ => agentOk agent && tileOk tile
  | .apContClear agent tile _ => agentOk agent && tileOk tile
  | .apContContain agent tile _ => agentOk agent && tileOk tile
  | .apContDone agent tile => agentOk agent && tileOk tile
  | .windowTableInit _ => true
  | .windowTableInitDone => true
  | .windowFetchDone tile index => tileOk tile && indexOk index
  | .revokeDrained tile index => tileOk tile && indexOk index
  | .revokeFlushDone tile index => tileOk tile && indexOk index
  | .windowViolationIntervalEnd tile index => tileOk tile && indexOk index
  | .qpTableInit _ => true
  | .qpTableInitDone => true
  | .contextFetchDone tile qpn => tileOk tile && qpnOk qpn
  | .nop ring d => ringOk ring && d.wf
  | .write ring d => ringOk ring && d.wf
  | .read ring d => ringOk ring && d.wf
  | .send ring d => ringOk ring && d.wf
  | .recvPost ring d => ringOk ring && d.wf
  | .fetchAdd8 ring d => ringOk ring && d.wf
  | .cmpSwap8 ring d => ringOk ring && d.wf
  | .cmpSwap16 ring d => ringOk ring && d.wf
  | .fence ring d => ringOk ring && d.wf
  | .countAdd ring d => ringOk ring && d.wf
  | .winOpen ring d => ringOk ring && d.wf
  | .winRevoke ring d => ringOk ring && d.wf
  | .qpCreate ring d c => ringOk ring && d.wf && c.wf
  | .qpDestroy ring d => ringOk ring && d.wf
  | .qpDestroyDone qpn => qpnOk qpn
  | .workRequestStart _ => true
  | .engineWritePacket hdr data => hdr.wf && dataOk data
  | .readReq hdr => hdr.wf
  | .readResp hdr data => hdr.wf && dataOk data
  | .sendPacket hdr _ _ _ data => hdr.wf && dataOk data
  | .atomicReq hdr data => hdr.wf && dataOk data
  | .atomicResp hdr data => hdr.wf && dataOk data
  | .engineAck hdr => hdr.wf
  | .notReady hdr => hdr.wf
  | .notReadyBackoff _ _ => true
  | .notify hdr => hdr.wf
  | .workRequestTimeout _ => true
  | .dmaReadCompletion _ cpl => cpl.wf
  | .ringDoorbell part who seat _ req => partOk part && who.wf && seatOk seat && req.wf
  | .poolDoorbell part who seat req => partOk part && who.wf && seatOk seat && req.wf
  | .bar2Atomic part who seat req => partOk part && who.wf && seatOk seat && req.wf
  | .mbxT2mWrite part who seat _ req => partOk part && who.wf && seatOk seat && req.wf
  | .t2mPost part who seat req => partOk part && who.wf && seatOk seat && req.wf
  | .t2mAck via seat _ => via.wf && seatOk seat
  | .mbxM2tWrite via seat off _ => via.wf && seatOk seat && mbxOk off
  | .m2tPost via seat _ => via.wf && seatOk seat
  | .m2tAck part who seat req => partOk part && who.wf && seatOk seat && req.wf
  | .seatReset via tile seat _ => via.wf && tileOk tile && seatOk seat
  | .seatRemove via tile seat _ => via.wf && tileOk tile && seatOk seat
  | .seatEscalate via tile seat _ => via.wf && tileOk tile && seatOk seat
  | .drainTimeout seat => seatOk seat
  | .seatResetDone seat => seatOk seat
  | .poolRingHandover ring => ringOk ring
  | .seatStop via tile seat _ => via.wf && tileOk tile && seatOk seat
  | .puDisable tile seat _ => tileOk tile && seatOk seat
  | .puDisabled tile seat => tileOk tile && seatOk seat
  | .puEnable tile seat _ => tileOk tile && seatOk seat
  | .puHoldTimeout tile _ => tileOk tile
  | .puEdit agent tile _ => agentOk agent && tileOk tile
  | .puEditDone agent tile => agentOk agent && tileOk tile
  | .puViolationIntervalEnd tile seat => tileOk tile && seatOk seat
  | .schedulingRound tile => tileOk tile
  | .schedulePacketStart port => portOk port
  | .takeoverArm pb _ => blockOk pb
  | .takeoverCancel pb _ => blockOk pb
  | .takeover pb => blockOk pb
  | .backlogRead agent tile _ => agentOk agent && tileOk tile
  | .backlogReadDone agent tile => agentOk agent && tileOk tile
  | .ringEnable ring _ => ringOk ring
  | .ringDisable ring _ => ringOk ring
  | .ringFetch ring => ringOk ring
  | .ringFetchComplete ring _ entries => ringOk ring && entries.all RingEntry.wf
  | .ringFetchResume ring _ => ringOk ring
  | .recordWrite ring => ringOk ring
  | .shadowWrite ring => ringOk ring
  | .irqModTimeout ring => ringOk ring
  | .regWrite ring c => ringOk ring && c.wf
  | .regRead ring c => ringOk ring && c.wf
  | .stop ring c => ringOk ring && c.wf
  | .barrier ring c => ringOk ring && c.wf
  | .waitFt ring c => ringOk ring && c.wf
  | .waitFtReached ring => ringOk ring
  | .tlStopApply agent tile _ => agentOk agent && tileOk tile
  | .tlStopRelease agent tile _ => agentOk agent && tileOk tile
  | .stopPropagate tile _ => tileOk tile
  | .bridgeWrite off _ _ => offsetOk off
  | .bridgeRead off _ => offsetOk off
  | .bridgeStatus => true
  | .hkBridgeTimeout _ => true
  | .i3cPrivateWrite _ => true
  | .i3cPrivateRead _ => true
  | .entdaa addr => i3cOk addr
  | .mgmtPortAccess _ _ _ => true
  | .counterRead agent _ => agentOk agent
  | .counterReadDone agent => agentOk agent
  | .counterWrap block _ => agentOk block
  | .ctProgWrite tile k _ => tileOk tile && progOk k
  | .snapshotArm _ => true
  | .snapshot block => agentOk block
  | .snapshotDone => true
  | .histogramClear tile h _ => tileOk tile && histOk h
  | .captureEnable tile c _ => tileOk tile && captureOk c
  | .captureRecordWrite tile c => tileOk tile && captureOk c
  | .minuteMarkLatch tile => tileOk tile
  | .boContribution tile => tileOk tile
  | .boCollectDeadline => true
  | .eccCorrectable tile => tileOk tile
  | .eccUncorrectable tile _ => tileOk tile
  | .eccScrub tile => tileOk tile
  | .injCell tile _ => tileOk tile
  | .injTable tile _ => tileOk tile
  | .tileLoss tile => tileOk tile
  | .tileRejoin tile => tileOk tile
  | .serviceLinkLoss tile => tileOk tile
  | .serviceLinkReturn tile => tileOk tile
  | .spEnable ch _ => channelOk ch
  | .spDisable ch _ => channelOk ch
  | .mgrOffSet ch _ => channelOk ch
  | .mgrOffClear ch _ => channelOk ch
  | .slotPowerTick ch vsense vout vin _ => channelOk ch && sampleOk vsense && sampleOk vout && sampleOk vin
  | .fastTripLatch ch => channelOk ch
  | .fastTrip ch => channelOk ch
  | .thermalTrip ch => channelOk ch
  | .faultTimerTrip ch => channelOk ch
  | .stoppingGateOff ch => channelOk ch
  | .vinStart ch => channelOk ch
  | .vinLowTimeout ch => channelOk ch
  | .powerGood ch => channelOk ch
  | .perstDeassert ch => channelOk ch
  | .retryStart ch => channelOk ch
  | .attemptsReset ch => channelOk ch
  | .spSeqArm e _ => seqOk e
  | .spSeqFire e => seqOk e
  | .boot _ => true
  | .fuseSelect _ => true
  | .fuseSelectDone => true
  | .fuseBlow via _ => via.wf
  | .fuseBlowDone _ => true
  | .attReadWord _ => true
  | .attFormReport _ => true
  | .attLoadModulus _ => true
  | .attDone => true
  | .devkeyReady => true
  | .flashRead _ => true
  | .flashProgram _ => true
  | .flashErase _ => true
  | .flashDone => true
  | .jtagInstruction _ _ => true
  | .railGood _ => true
  | .railLost _ => true
  | .vauxInputLost _ => true
  | .vauxLoss => true
  | .refclkBad _ _ => true
  | .refclkGood _ _ => true
  | .refclkRevert _ => true
  | .refclkForce _ _ => true
  | .warmReset via _ => via.wf
  | .coldReset via _ => via.wf
  | .ilulysRestart cause => causeOk cause
  | .tileReset via _ => via.wf
  | .keyErr via _ => via.wf
  | .sysReset => true
  | .watchdogExpiry => true
  | .strapSample _ _ _ => true
  | .tempSample tile _ => tileOk tile
  | .tileOvertemp tile => tileOk tile
  | .ilulysOvertemp => true
  | .trefClkPresent => true
  | .l0pEntry port _ => portOk port
  | .pcieRecoveryDone port _ => portOk port
  | .dllpReceive port _ _ _ _ => portOk port
  | .ptmRequest port => portOk port
  | .egressPacketSent port _ => portOk port
  | .boIndexSwWrite _ => true
  | .corePllRelock tile => tileOk tile

end Sys2Proof
end

