-- ==== Sys2Proof/Tests/Slice0.lean ====
section
/-! SUPPORT. Tests: every check of WellFormed refuses an ill-formed command; addresses, fields and single steps of the manual's
worked examples; and, for every statement that has hypotheses, a state and operands that meet them, clause by clause and branch by
branch (`witness_<statement>`). -/

namespace Sys2Proof.Tests
open Sys2Proof Sys2Proof.Machine
set_option linter.unusedVariables false
set_option Elab.async false
/-- A part with its tiles released, its supplies good and the register words given. -/
def tst (live set : NMap Word) : State :=
  { live := live, set0 := set, set1 := set, cont := { lost := [] }
    pwr := { core := [0, 1, 2, 3, 4, 5, 6, 7], sda := [0, 1, 2, 3, 4, 5, 6, 7], sdh := [0, 1, 2, 3, 4, 5, 6, 7], io := true, valid := true, due := none } }
/-- A memory write of four bytes. -/
def req0 : Req :=
  { kind := .memWrite, addr := 0, len := 4, data := [1, 2, 3, 4], be := [true, true, true, true], rid := 0, tag := 0, pasid := none
    tc := 0, relaxed := false, poisoned := false, atBits := 0, malformed := false, ecrcBad := false, mc := none }
/-- A configuration read of a virtual bridge. -/
def ask0 : CfgReq := { rid := 0, tag := 0, type1 := false, bus := 0, devfn := 0, reg := 0, be := 15, sriov := none, wr := none }
/-- A completion of four bytes. -/
def cpl0 : Cpl :=
  { rid := 0, tag := 0, cid := 0, relaxed := false, status := .sc, poisoned := false, addr := 0, data := [1, 2, 3, 4], last := true }
/-- A good IDLE flit. -/
def flit0 : Flit := { symErr0 := 2, symErr1 := 2, words := flitWords { first := 31 } [] false }
/-- A memory write that comes over VFL. -/
def vpkt0 : VflPkt := { dst := 0, src := 0, kind := 0, ordered := true, ro := false, svc := 0, mgmtVc := false, body := .req req0 false }
/-- A work request descriptor. -/
def desc0 : Desc :=
  { opcode := 0, signal := true, notify := false, trig := false, cntOnDone := false, immV := false, access := 0, qpn := 0, rSw := 0
    wrId := 0, localAddr := 0, length := 8, rKey := 0, rOffset := 0, trigQpn := 0, doneQpn := 0, thresh := 0, imm := 0 }
/-- Context bytes of a QP_CREATE. -/
def ctx0 : CtxInit :=
  { ordered := false, notifyEn := true, ownerSeat := 0, cqRing := 1, remoteQpn := 0, remoteSw := 0, backoff := 0, retryLimit := 7, maxOut := 1
    rqLog2 := 4, rqBase := 0 }
/-- An engine header. -/
def hdr0 : EngHdr :=
  { mtype := 0, srcSw := 0, reqSeat := 0, immV := false, aop := 0, qpn := 0, keyOrImm := 0, dstQpn := 0, code := 0, rOffset := 0, wrSlot := 0
    pkt := 0, ssn := 0, length := 4 }
/-- A management command. -/
def cmd0 : Cmd := { opcode := 0, signal := true, cmdId := 0, offset := 0, data := 0, target := 0, kind := 0, clear := false, secTop := 0 }
/-- A posted packet. -/
def pkt0 : Packet := { id := 0, cls := .posted, body := .req req0, origin := .self 0 }
/-- A forwarded request's entry. -/
def out0 : OutEntry :=
  { id := 0, tile := 0, port := 0, rid := 0, tag := 0, newTag := 0, origin := .func 0, purpose := .forward, part := some 0, epoch := false
    mgmt := false, seat := none, len := 4, srcTile := 0 }
/-- A work request that has started. -/
def wr0 : Wr := { id := 0, tile := 0, seat := 0, ring := 0, d := desc0, st := .started }
/-- An issue of two reads. -/
def dma0 : Dma := { id := 0, tile := 0, part := 0, wr := some 0, issue := none, start := 0, reqs := [(0, 4)] }
/-- Partition 0 with upstream port 16, its device on port 0 behind virtual port 0 (binding entry 0, address map entry 0),
aperture entry 0, seat 0 for every host process, seat 4095 for PASID 5. -/
def eb (live : NMap Word) : State :=
  let b := tst (live ++ [(0x0014000C, 1), (0x0014001C, 1), (portStatus 0, 1), (portStatus 16, 1)])
    [(partCfg 0, 0x21), (portCfg 0, 1), (portCfg 16, 1), (vdpReg 0 0, 1), (bindReg 0 0, 1), (bindReg 0 1, 0), (amapReg 0 0, 0x300001),
      (apReg 0 0 0, 0x339), (stBind 0 0, 0x401), (stBind 4095 0, 0xC01), (stBind 4095 2, 5)]
  { b with
    hv := { vp := [(0, { mse := true, memBase := 0x1000, memLimit := 0x1FFF })], amBar := [(0, 0x1000)], bindMse := [(0, true)]
            ff := [(0, { bme := true })] }
    seats := [(0, { st := 1 }), (4095, { st := 1 })]
    eng := { qps := [(0, { state := 1, rqLog2 := 4, maxOut := 8, notifyEn := true, retryLimit := 7 })], lru := [(0, [0])] }
    win := { tbl := [(0, { state := 1, access := 15, len := 4096 })], lru := [(0, [0])] } }
/-- The opcodes of R211 with the context that QP_CREATE carries. -/
def ops0 : List (Nat × Option CtxInit) :=
  [0, 1, 2, 3, 4, 5, 6, 7, 8, 9, 0x10, 0x11, 0x21].map (fun n => (n, none)) ++ [(0x20, some ctx0)]
/-- A descriptor of an opcode. -/
def op0 (n : Nat) : Desc := { desc0 with opcode := n, rKey := 1 }
/-- The state after a command. -/
def after (i : Instr) (s : State) : State :=
  match exec i s with
  | .next t => t
  | _ => s

/-! ### Ill-formed commands are refused, the well-formed neighbour accepted (one test per check) -/

theorem test_wf_tile : (Instr.syncFrame 7).wf = true ∧ (Instr.syncFrame 8).wf = false := by decide
theorem test_wf_lane : (Instr.laneLol 1023).wf = true ∧ (Instr.laneLol 1024).wf = false := by decide
theorem test_wf_port : (Instr.initSend 1023).wf = true ∧ (Instr.initSend 1024).wf = false := by decide
theorem test_wf_quad : (Instr.quadPllLol 255).wf = true ∧ (Instr.quadPllLol 256).wf = false := by decide
theorem test_wf_block : (Instr.takeover 63).wf = true ∧ (Instr.takeover 64).wf = false := by decide
theorem test_wf_edge : (Instr.wireRepairDone 0 2).wf = true ∧ (Instr.wireRepairDone 0 3).wf = false := by decide
theorem test_wf_crossing : (Instr.crossingBulkLoss 9).wf = true ∧ (Instr.crossingBulkLoss 10).wf = false := by decide
theorem test_wf_part : (Instr.partitionReset 255).wf = true ∧ (Instr.partitionReset 256).wf = false := by decide
theorem test_wf_vdp : (Instr.slotPowerOn 0 31).wf = true ∧ (Instr.slotPowerOn 0 32).wf = false := by decide
theorem test_wf_seat : (Instr.drainTimeout 4095).wf = true ∧ (Instr.drainTimeout 4096).wf = false := by decide
theorem test_wf_ring : (Instr.ringFetch 65535).wf = true ∧ (Instr.ringFetch 65536).wf = false := by decide
theorem test_wf_channel : (Instr.powerGood 127).wf = true ∧ (Instr.powerGood 128).wf = false := by decide
theorem test_wf_sequence : (Instr.spSeqFire 31).wf = true ∧ (Instr.spSeqFire 32).wf = false := by decide
theorem test_wf_agent : (Instr.counterReadDone 8).wf = true ∧ (Instr.counterReadDone 9).wf = false := by decide
theorem test_wf_queue_pair : (Instr.qpDestroyDone (2 ^ 24 - 1)).wf = true ∧ (Instr.qpDestroyDone (2 ^ 24)).wf = false := by
  decide +kernel
theorem test_wf_window : (Instr.revokeDrained 0 (2 ^ 24 - 1)).wf = true ∧ (Instr.revokeDrained 0 (2 ^ 24)).wf = false := by
  decide +kernel
theorem test_wf_histogram : (Instr.histogramClear 0 7 0).wf = true ∧ (Instr.histogramClear 0 8 0).wf = false := by decide
theorem test_wf_capture : (Instr.captureRecordWrite 0 3).wf = true ∧ (Instr.captureRecordWrite 0 4).wf = false := by decide
theorem test_wf_program : (Instr.ctProgWrite 0 31 0).wf = true ∧ (Instr.ctProgWrite 0 32 0).wf = false := by decide
theorem test_wf_offset : (Instr.registerWrite .command 0xFFFFFFC 0).wf = true ∧ (Instr.registerWrite .command 2 0).wf = false ∧
    (Instr.registerWrite .command 0x10000000 0).wf = false := by decide +kernel
theorem test_wf_mailbox : (Instr.mbxM2tWrite .bridge 0 60 0).wf = true ∧ (Instr.mbxM2tWrite .bridge 0 64 0).wf = false := by decide
theorem test_wf_rid : (Instr.messageReceived 0 ⟨65535, [], false⟩ .pmPme).wf = true ∧ (Instr.messageReceived 0 ⟨65536, [], false⟩ .pmPme).wf = false := by
  decide +kernel
theorem test_wf_tag : (Instr.functionLevelReset 0 0 0 16383 []).wf = true ∧ (Instr.functionLevelReset 0 0 0 16384 []).wf = false := by
  decide +kernel
theorem test_wf_pin : (Instr.intxMessage 0 ⟨0, [], false⟩ 3 true).wf = true ∧ (Instr.intxMessage 0 ⟨0, [], false⟩ 4 true).wf = false := by decide
theorem test_wf_sample : (Instr.slotPowerTick 0 4095 0 0 false).wf = true ∧ (Instr.slotPowerTick 0 4096 0 0 false).wf = false := by
  decide +kernel
theorem test_wf_indicator : (Instr.slotIndicatorWrite 0 0 3 3).wf = true ∧ (Instr.slotIndicatorWrite 0 0 3 4).wf = false := by decide
theorem test_wf_i3c : (Instr.entdaa 127).wf = true ∧ (Instr.entdaa 128).wf = false := by decide
theorem test_wf_cause : (Instr.ilulysRestart 15).wf = true ∧ (Instr.ilulysRestart 16).wf = false := by decide
theorem test_wf_via : (Instr.keyErr (.inband 7 1023) 0).wf = true ∧ (Instr.keyErr (.inband 8 0) 0).wf = false := by decide
theorem test_wf_requester : (Instr.bar4Write 0 (.func 16383) req0).wf = true ∧ (Instr.bar4Write 0 (.func 16384) req0).wf = false := by
  decide +kernel
theorem test_wf_request : (Instr.hostMemoryRequest 0 req0).wf = true ∧ (Instr.hostMemoryRequest 0 { req0 with tc := 8 }).wf = false := by
  decide +kernel
theorem test_wf_configuration : (Instr.hostConfigRequest 0 ask0).wf = true ∧
    (Instr.hostConfigRequest 0 { ask0 with reg := 4096 }).wf = false := by decide +kernel
theorem test_wf_completion : (Instr.completionArrival 0 cpl0).wf = true ∧
    (Instr.completionArrival 0 { cpl0 with tag := 16384 }).wf = false := by decide +kernel
theorem test_wf_link : (Instr.ackDue (.xing 7 2)).wf = true ∧ (Instr.ackDue (.xing 7 3)).wf = false := by decide
theorem test_wf_flit : (Instr.flitReceive (.port 0) flit0).wf = true ∧
    (Instr.flitReceive (.port 0) { flit0 with words := [] }).wf = false := by decide +kernel
theorem test_wf_descriptor : (Instr.nop 0 desc0).wf = true ∧ (Instr.nop 0 { desc0 with access := 8 }).wf = false := by decide +kernel
theorem test_wf_context : (Instr.qpCreate 0 desc0 ctx0).wf = true ∧ (Instr.qpCreate 0 desc0 { ctx0 with maxOut := 256 }).wf = false := by
  decide +kernel
theorem test_wf_engine_header : (Instr.readReq hdr0).wf = true ∧ (Instr.readReq { hdr0 with wrSlot := 32768 }).wf = false := by
  decide +kernel
theorem test_wf_command : (Instr.regRead 0 cmd0).wf = true ∧ (Instr.regRead 0 { cmd0 with target := 4096 }).wf = false := by
  decide +kernel
theorem test_wf_entries : (Instr.ringFetchComplete 0 .ok [.command cmd0]).wf = true ∧
    (Instr.ringFetchComplete 0 .ok [.command { cmd0 with kind := 4 }]).wf = false := by decide +kernel
theorem test_wf_data : (Instr.engineWritePacket hdr0 [1, 2, 3, 4]).wf = true ∧
    (Instr.engineWritePacket hdr0 (List.replicate 4097 0)).wf = false := by decide +kernel
theorem test_wf_vfl_packet :
    let p : VflPkt := { dst := 0, src := 0, kind := 15, ordered := false, ro := false, svc := 7, mgmtVc := false, body := .mgmt }
    (Instr.vflPacketArrival 0 p).wf = true ∧ (Instr.vflPacketArrival 0 { p with kind := 16 }).wf = false := by decide +kernel

/-! ### The manual's worked examples: addresses and fields -/

/-- "Worked example: margining lane L137": PB_TEST_CTRL[9] of PB8 and the fields of 0x0000_4035. -/
theorem test_margining_lane_137 : testCtrl 137 = 0x02101124 ∧ field 0x4035 3 0 = 5 ∧ bit 0x4035 4 = true ∧ bit 0x4035 5 = true ∧
    bit 0x4035 14 = true := by decide +kernel
/-- "Worked example: a mixed split of PB20": the entries' addresses and the fields of their values. -/
theorem test_split_of_pb20 :
    let s := tst [] [(0x03500000, 0x191), (0x03500020, 0xAF), (0x0350003C, 0x45)]
    s.portEn false 320 = true ∧ s.isVfl false 320 = false ∧ s.cfld false (portCfg 320) 4 2 = 4 ∧ s.isVfl false 328 = true ∧
      s.cfld false (portCfg 328) 4 2 = 3 ∧ s.cfld false (portCfg 335) 4 2 = 1 ∧ s.cfld false (portCfg 335) 7 5 = 2 := by decide +kernel
/-- The words of "Worked example: giving host A one virtual function of a shared NIC". -/
def nicA : State :=
  let b := tst [(portStatus 640, 1), (portStatus 0, 1)]
    [(0x06100000, 1), (0x061000C0, 0x01410140), (0x00050018, 1), (0x0005001C, 0x002F0020), (0x00051188, 0x501), (0x00060C80, 0x80F),
      (0x00060C84, 0x00014084), (0x000A1900, 0x01380191), (0x000A1904, 0x00410000), (0x000A1908, 0x2000), (portCfg 0, 1)]
  { b with hv := { vp := [(64 * 3 + 2, { mse := true, prefBase := 0x3800100000, prefLimit := 0x38001FFFFF })]
                   amBar := [(400, 0x3800100000)], bindMse := [(200, true)] } }
/-- Its tables: the virtual port, the function's owner and place, the proxy RID and the base of the BAR. -/
theorem test_nic_tables : nicA.vdpPort false 3 2 = 640 ∧ nicA.bindPart false 200 = 3 ∧ nicA.bindVdp false 200 = 2 ∧
    nicA.bindRid false 200 = 0x14084 ∧ nicA.proxyRid false 3 = 0x2000 ∧ nicA.amapFunc false 400 = 200 ∧
    nicA.amapLog2 false 400 = 14 ∧ nicA.amapBase false 400 = 0x200000410000 := by decide +kernel
/-- Its step 4: the host's address is translated to 0x0000_2000_0041_2040. -/
theorem test_nic_downstream : nicA.amapHit false 3 0x3800102040 = some 400 ∧ nicA.amapTo false 400 0x3800102040 = 0x200000412040 := by
  decide +kernel
/-- Its step 5: link RID 0x4084 on P640 names entry 200. -/
theorem test_nic_upstream : nicA.srcFunc false 640 0x4084 = some 200 := by decide +kernel
/-- "Worked example: decoding two offsets": SC_TAKEOVER_SEC_HI of PB34, and TL_BIND[4,097] word 0. -/
theorem test_two_offsets : pbBase 34 + 0x52044 = 0x05352044 ∧ bindReg 4097 0 = 0x00120010 ∧ bindReg 4097 1 = 0x00120014 := by
  decide +kernel
/-- "Worked example: a read-only page in seat 17's BAR4": rules 100 and 101 and the three writes. -/
theorem test_read_only_page :
    let s := tst [] [(0x01040C80, 0x0011001B), (0x01040C8C, 0x000FF000), (0x01040CA0, 0x0011000B), (0x01040CA4, 0x00080000),
      (0x01040CAC, 0x00080000)]
    s.puFaultOf false 0 17 1 1 0x7FFF0 16 = none ∧ s.puFaultOf false 0 17 1 1 0x80040 64 = some (1, 101) ∧
      s.puFaultOf false 0 17 1 1 0x80FF0 32 = some (1, 101) := by decide +kernel
/-- Registers that the worked examples name by address: PU_SEAT_CTRL[17], ST_CTRL[17] on T7, RM_RING[137], SP40's block. -/
theorem test_register_addresses : puCtrl 0 17 = 0x01060044 ∧ stCtrl 7 17 = 0x08010044 ∧ ringReg 137 0 = 0x00501120 ∧
    spReg 40 0 = 0x00800A00 := by decide +kernel
/-- "A write work request caught by a revoke": index 0x41_2345 with N = 24 is homed on T2; "a chain with no processor": with Q = 20,
QP 0x4_0040 is homed on T2. -/
theorem test_home_tiles : (tst [(0x00140000, 24)] []).winTile 0x412345 = 2 ∧ (tst [(0x00140010, 20)] []).qpTile 0x40040 = 2 := by
  decide +kernel

/-! ### The manual's worked examples: one step -/

/-- "Policing a burst of writes": writes 0 to 3 of 1,040 bytes against 4,096 and 8,192 bytes; the fourth is yellow. -/
theorem test_policing_a_burst :
    let s := tst [] [(meterReg 0 5 0, 1), (meterReg 0 5 1, 0x100), (meterReg 0 5 2, 0x200), (meterReg 0 5 3, 0x00800040)]
    let a := s.colour false 0 5 1040
    let b := a.1.colour false 0 5 1040
    let c := b.1.colour false 0 5 1040
    let d := c.1.colour false 0 5 1040
    a.2 = 0 ∧ b.2 = 0 ∧ c.2 = 0 ∧ d.2 = 1 := by decide +kernel
/-- "One doorbell, three completions" step 1: the doorbell 1 against 65,534 is valid; SW_INDEX becomes 1. -/
theorem test_doorbell_wraps :
    let b := eb [(ringReg 136 0, 0x41), (ringReg 136 6, 0xFFFEFFFE)]
    let s := { b with set0 := b.set0 ++ [(stBind 17 0, 0xC01), (stBind 17 2, 6)], seats := b.seats ++ [(17, { st := 1 })] }
    (after (.ringDoorbell 0 (.host 0) 17 0 { req0 with pasid := some 6, data := [1, 0, 0, 0] }) s).swIndex 136 = 1 := by decide +kernel
/-- Its step 2: the first fetch is of two entries, 128 bytes at 0x0000_0001_0000_3F80. -/
theorem test_fetch_ends_at_the_ring_end :
    let s := tst [(ringReg 136 0, 0x41), (ringReg 136 2, 1), (ringReg 136 6, 0x0001FFFE)] []
    s.fetchLen 136 = 2 ∧ s.ringBase 136 + 64 * (s.hwIndex 136 % s.ringLen 136) = 0x100003F80 := by decide +kernel
/-- "A lost acknowledgement across the sequence wrap": the credit before it, 1,206, and the duplicate's distance, 5. -/
theorem test_credit_across_the_wrap : modSub 65536 1200 65530 = 1206 ∧ modSub 4096 3 4094 = 5 := by decide
/-- Its step 7: the replay timer expires and TIMEOUTS becomes 1. -/
theorem test_replay_timer : (after (.replayTimeout (.port 1020))
    { tst [(lkStatus 1020, 1)] [] with links := [(1020, { outst := [{ seqNo := 4094 }] })] }).timeouts (.port 1020) = 1 := by
  decide +kernel
/-- "Retargeting an aperture at a curtain" step 10: the end of copy-forward sets US_READY and leaves the curtain idle. -/
theorem test_copy_forward_ends :
    let t := after .copyForwardDone { tst [(tmStatus, 0xC0)] [] with cur := { retired := true } }
    t.flag tmStatus 8 = true ∧ t.curtainState = 0 := by decide +kernel
/-- "A ramp, a short and an exhausted retry": the settings pass the start check of R358. -/
theorem test_start_check :
    (tst [(spReg 40 4, 0x01655280), (spReg 40 8, 0x00D800C8), (spVin 40, 1200)] []).sound 40 = true := by decide +kernel
/-- Its last line: Power Controller Control off, in FAULT, leaves the channel OFF at the next tick (R356). -/
theorem test_disable_leaves_fault :
    let t := after (.slotPowerTick 40 0 0 0 false) (after (.spDisable 40 true) (tst [(spStatus 40, 4)] []))
    t.spState 40 = 0 := by decide +kernel
/-- R43: an abort of an arming sets ARM_ERR and leaves the curtain idle. -/
theorem test_abort_of_an_arming :
    let t := after (.curtainAbort 4) (tst [(tmStatus, 0x40)] [])
    t.curtainState = 0 ∧ t.flag tmStatus 12 = true := by decide +kernel
/-- R400: a reset write without the key sets KEY_ERR and resets nothing. -/
theorem test_reset_without_key :
    let t := after (.coldReset .bridge 0x00000002) (tst [] [(portCfg 0, 1)])
    t.flag resetCtrl 8 = true ∧ t.portEn false 0 = true := by decide +kernel
/-- R336: a posted write that enters a partition in blackout is discarded; no packet is admitted. -/
theorem test_posted_write_to_a_dark_partition :
    let s := { eb [] with host := { stamps := [(stopKey 0 1 0, { ft := 0, tile := 0, on := true })] } }
    (after (.hostMemoryRequest 16 req0) s).pkts = [] := by decide +kernel
/-- R382: a blow takes the two copies of its bit when it verifies. -/
theorem test_blow_sets_both_copies :
    let t := after (.fuseBlowDone true) { tst [] [] with boot := { blows := [300] } }
    t.boot.fuseA.getLsbD 300 = true ∧ t.boot.fuseB.getLsbD 300 = true ∧ t.boot.blows = [] := by decide +kernel
/-- R48 and the table's queue: a step takes the command at the front of the queue and leaves the rest. -/
theorem test_step_takes_the_front :
    (match step { tst [] [] with pending := [.trefClkPresent, .ppsEdge] } with
      | .next t => t.flag tmStatus 4 && t.pending == [.ppsEdge]
      | _ => false) = true := by decide +kernel

/-! ### Witnesses of the statements' hypotheses -/

/-- The hypotheses of `TimeReferenceEvents` can be met. -/
theorem witness_TimeReferenceEvents :
    (let s : State := tst [] []; s.ilulysReset = false ∧ s.pwr.io = true ∧ s.flag tmCtrl 6 = true ∧ s.edgeValid = true) ∧
    (let s : State := { tst [(tmCtrl, 0x40)] [] with tm := { now := 999998999, lastEdge := some 0 } };
      s.ilulysReset = false ∧ s.pwr.io = true ∧ s.flag tmCtrl 6 = true ∧ s.edgeValid = false) ∧
    (let s : State := { tst [(tmCtrl, 0x40)] [] with tm := { now := 999998999, lastEdge := some 0 } };
      s.ilulysReset = false ∧ s.tm.lastEdge.isSome = true ∧ s.tm.misses = 0) ∧
    (let s : State := { tst [(tmStatus, 1)] [] with tm := { lastEdge := some 0, misses := 1 } };
      s.ilulysReset = false ∧ s.tm.lastEdge.isSome = true ∧ s.tm.misses = 1 ∧ s.qualified = true) ∧
    (let s : State := tst [] []; s.ilulysReset = false ∧ (let n : Nat := 0; s.operates n = true ∧ s.headless n = false)) ∧
    (let s : State := tst [] []; s.ilulysReset = false) := by
  refine ⟨?_, ?_, ?_, ?_, ?_, ?_⟩ <;> decide +kernel
/-- The hypotheses of `TimeLoadsAndSnapshots` can be met. -/
theorem witness_TimeLoadsAndSnapshots :
    (let s : State := tst [] []; s.ilulysReset = false ∧ (let v : Word := 0x18; bit v 3 = true ∧ bit v 4 = true ∧
      s.curtainState = 0)) ∧
    (let s : State := tst [(0x00030004, 0x40)] []; s.ilulysReset = false ∧ (let v : Word := 0x18; bit v 3 = true ∧
      (¬(bit v 4 = true ∧ s.curtainState = 0)))) ∧
    (let s : State := { tst [] [] with tm := { tod := some { value := 5, atOnce := true, deferred := true } } };
      s.ilulysReset = false ∧ ((s.tm.tod).any (fun q => decide (q.atOnce = true ∧ s.curtainState = 0)) = true)) ∧
    (let s : State := tst [] []; s.ilulysReset = false ∧
      (∀ q, s.tm.tod = some q → q.atOnce = false ∨ s.curtainState ≠ 0)) ∧
    (let s : State := { tst [] [] with tm := { snap := some 9 } }; s.ilulysReset = false ∧ (s.tm.snap).isSome = true) ∧
    (let s : State := tst [] []; s.ilulysReset = false ∧ s.tm.snap = none) := by
  refine ⟨?_, ?_, ?_, ?_, ?_, ?_⟩ <;> decide +kernel
/-- The hypotheses of `SetFieldWriteCompletes` can be met. -/
theorem witness_SetFieldWriteCompletes :
    (let s : State := tst [(tmStatus, 0x100)] []; let via : Via := .bridge; let o : Nat := portCfg 0;
      s.viaOpen via = true ∧ setMask o ≠ 0 ∧ s.wordHere o = true ∧ s.locked o = false ∧ s.curtainState = 0 ∧
      s.flag tmStatus 8 = true) ∧
    (let s : State := tst [(tmStatus, 0)] []; let via : Via := .bridge; let o : Nat := portCfg 1023;
      s.viaOpen via = true ∧ setMask o ≠ 0 ∧ s.wordHere o = true ∧ s.locked o = false ∧
      (s.curtainState ≠ 0 ∨ s.flag tmStatus 8 = false)) ∧
    (let s : State := { tst [] [] with ilulysReset := true }; let o : Nat := 0;
      (setMask o = 0 ∨ s.wordHere o = false ∨ s.locked o = true)) ∧
    (let s : State := { tst [] [] with ilulysReset := true }; let via : Via := .bridge; s.viaOpen via = false) := by
  refine ⟨?_, ?_, ?_, ?_⟩ <;> decide +kernel
/-- The hypotheses of `SetWriteNeverTouchesTheLead` can be met. -/
theorem witness_SetWriteNeverTouchesTheLead :
    (let s : State := tst [] []; ∃ t, exec (.setFieldWrite .bridge (portCfg 1023) 1) s = .next t) := by
  exact ⟨_, rfl⟩
/-- The hypotheses of `UnderstudyReadReturnsTheSetValue` can be met. -/
theorem witness_UnderstudyReadReturnsTheSetValue :
    (let s : State := tst [] []; let v : Word := BitVec.ofNat 32 (portCfg 1023); s.ilulysReset = false ∧
      (let o := v.toNat % 2 ^ 28 / 4 * 4; setMask o ≠ 0 ∧ s.wordHere o = true)) ∧
    (let s : State := tst [] []; let v : Word := 0; s.ilulysReset = false ∧ (let o := v.toNat % 2 ^ 28 / 4 * 4;
      ¬(setMask o ≠ 0 ∧ s.wordHere o = true))) ∧
    (let s : State := tst [] []; s.ilulysReset = false) := by
  refine ⟨?_, ?_, ?_⟩ <;> decide +kernel
/-- The hypotheses of `CurtainArmingPhases` can be met. -/
theorem witness_CurtainArmingPhases :
    (let s : State := tst [] []; s.ilulysReset = false ∧ (let v : Word := 1; bit v 0 = true ∧
      (s.tmFields v).curtainState = 0)) ∧
    (let s : State := tst [(0x00030040, 1)] [(partCfg 0, 1), (portCfg 0, 5), (stBind 0 0, 0x401)];
      s.ilulysReset = false ∧ s.checkState = 1 ∧ s.checkSet (!s.leadEpoch) = none) ∧
    (let s : State := tst [(0x00030040, 1)] []; s.ilulysReset = false ∧ s.checkState = 1 ∧ (let code := 7;
      let tile := 15; let d := 0; s.checkSet (!s.leadEpoch) = some (code, tile, d))) ∧
    (let s : State := tst [(0x00030004, 0x100), (0x00030030, 1), (0x00030040, 2)] []; s.ilulysReset = false ∧
      (let v : Word := 2; bit v 1 = true ∧ (s.tmFields v).armCause = 0)) ∧
    (let s : State := tst [] []; s.ilulysReset = false ∧ (let v : Word := 2; let k := 1; bit v 1 = true ∧
      (s.tmFields v).armCause = k ∧ k ≠ 0 ∧ k ≠ 6)) ∧
    (let s : State := tst [(0x00030004, 0x40)] []; s.ilulysReset = false ∧ (let v : Word := 2; bit v 1 = true ∧
      (s.tmFields v).armCause = 6)) ∧
    (let s : State := { tst [(0x00030004, 0x40)] [] with cur := { prepSent := [7] } }; s.ilulysReset = false ∧
      (let n : Nat := 7; s.here n = true ∧ s.headless n = false ∧ s.curtainState = 1 ∧ n ∈ s.cur.prepSent)) ∧
    (let s : State := { tst [(0x00030004, 0x40)] [] with cur := { prepAckSent := [7], prepAcks := [0, 1, 2, 3, 4, 5, 6] } };
      s.ilulysReset = false ∧ (let n : Nat := 7; n ∈ s.cur.prepAckSent ∧ s.curtainState = 1 ∧ s.cur.commitSent = [] ∧
      s.cur.commitAckSent = [] ∧ s.cur.commitAcks = [] ∧ (∀ u ∈ s.present, u ∈ s.cur.prepAcks ++ [n]))) ∧
    (let s : State := { tst [(0x00030004, 0x40)] [] with cur := { prepAckSent := [0] } }; s.ilulysReset = false ∧
      (let n : Nat := 0; let u := 7; n ∈ s.cur.prepAckSent ∧ u ∈ s.present ∧ u ∉ s.cur.prepAcks ++ [n])) ∧
    (let s : State := { tst [(0x00030004, 0x40)] [] with cur := { commitSent := [0] } }; s.ilulysReset = false ∧
      (let n : Nat := 0; s.here n = true ∧ s.headless n = false ∧ s.curtainState = 1 ∧ n ∈ s.cur.commitSent)) ∧
    (let s : State := { tst [(0x00030004, 0x40)] [] with cur := { commitAckSent := [7], commitAcks := [0, 1, 2, 3, 4, 5, 6] } };
      s.ilulysReset = false ∧ (let n : Nat := 7; n ∈ s.cur.commitAckSent ∧ s.curtainState = 1 ∧
      (∀ u ∈ s.present, u ∈ s.cur.commitAcks ++ [n]))) ∧
    (let s : State := { tst [(0x00030004, 0x40)] [] with cur := { commitAckSent := [7] } }; s.ilulysReset = false ∧
      (let n : Nat := 7; let u := 0; n ∈ s.cur.commitAckSent ∧ u ∈ s.present ∧ u ∉ s.cur.commitAcks ++ [n])) := by
  refine ⟨?_, ?_, ?_, ?_, ?_, ?_, ?_, ?_, ?_, ?_, ?_, ?_⟩ <;> decide +kernel
/-- The hypotheses of `AbortEndsAnArming` can be met. -/
theorem witness_AbortEndsAnArming :
    (let s : State := tst [(0x00030004, 0x80)] []; let v : Word := 4; s.ilulysReset = false ∧ bit v 2 = true ∧
      (s.curtainState = 1 ∨ s.curtainState = 2) ∧ s.cur.lastCall = false) ∧
    (let s : State := { tst [(0x00030004, 0x40)] [] with cur := { lastCall := true } }; let v : Word := 4;
      s.ilulysReset = false ∧ bit v 2 = true ∧ (s.curtainState = 3 ∨ (s.curtainState ≠ 0 ∧ s.cur.lastCall = true))) ∧
    (let s : State := tst [] []; let v : Word := 4; s.ilulysReset = false ∧ bit v 2 = true ∧ s.curtainState = 0) := by
  refine ⟨?_, ?_, ?_⟩ <;> decide +kernel
/-- The hypotheses of `CurtainFallsAndEnds` can be met. -/
theorem witness_CurtainFallsAndEnds :
    (let s : State := tst [(0x00030004, 0x80), (slaveStatus 0, 0x1800), (slaveStatus 1, 0x1800), (slaveStatus 2, 0x1800), (slaveStatus 3, 0x1800), (slaveStatus 4, 0x1800), (slaveStatus 5, 0x1800), (slaveStatus 6, 0x1800), (slaveStatus 7, 0x1800)] [];
      s.ilulysReset = false ∧ (s.curtainState = 1 ∨ s.curtainState = 2) ∧
      (s.reach (·.tm.ft) (s.cur.tc - 10000)).armComplete = true) ∧
    (let s : State := tst [(0x00030004, 0x40)] []; s.ilulysReset = false ∧ (s.curtainState = 1 ∨ s.curtainState = 2) ∧
      (s.reach (·.tm.ft) (s.cur.tc - 10000)).armComplete = false) ∧
    (let s : State := tst [(tileBase 7 + 0x04, 1), (slaveStatus 7, 0x800)] []; let n : Nat := 7; s.here n = true ∧
      s.headless n = true ∧ s.flag (slaveStatus n) 11 = true) ∧
    (let s : State := tst [(0x00030004, 0x80), (slaveStatus 0, 0x1800), (slaveStatus 1, 0x1800), (slaveStatus 2, 0x1800), (slaveStatus 3, 0x1800), (slaveStatus 4, 0x1800), (slaveStatus 5, 0x1800), (slaveStatus 6, 0x1800), (slaveStatus 7, 0x1800)] [];
      let n : Nat := 0; s.operates n = true ∧ s.flag (slaveStatus n) 12 = true ∧ n ∉ s.cur.held) ∧
    (let s : State := { tst [] [] with cur := { held := [7] } }; let n : Nat := 7; s.operates n = true ∧
      n ∈ s.cur.held ∧ n ∉ s.cur.flipped) ∧
    (let s : State := { tst [] [] with cur := { held := [0], flipped := [0] } }; let n : Nat := 0; s.here n = true ∧
      n ∈ s.cur.flipped ∧ n ∉ s.cur.drained ∧ s.oldResident n = false) ∧
    (let s : State := { tst [] [] with cur := { held := [0], flipped := [0] } }; s.cur.retired = false ∧
      s.cur.flipped ≠ [] ∧ (∀ n ∈ s.cur.held, n ∈ s.cur.flipped ∨ s.operates n = false)) ∧
    (let s : State := { tst [] [] with cur := { retired := true } }; s.cur.retired = true) := by
  refine ⟨?_, ?_, ?_, ?_, ?_, ?_, ?_, ?_⟩ <;> decide +kernel
/-- The hypotheses of `LaneTrainingSteps` can be met. -/
theorem witness_LaneTrainingSteps :
    (let s : State := tst [] [(portCfg 1023, 1)]; let port : Nat := 1023; s.mayTrain port = true ∧
      (s.portSt port).train = 0 ∧ s.flag (laneCtrl port) 5 = false) ∧
    (let s : State := tst [] []; let port : Nat := 0;
      (s.mayTrain port = false ∨ (s.portSt port).train ≠ 0 ∨ s.flag (laneCtrl port) 5 = true)) ∧
    (let s : State := { tst [] [(portCfg 1008, 0x13)] with ports := [(1008, { train := 1 })] }; let port : Nat := 1008;
      let width : Nat := 1; let rev : Bool := false; let pol : List Nat := []; let sk : List Nat := [];
      let pv : Bool := true; s.mayTrain port = true ∧ (s.portSt port).train = 1 ∧
      s.isVfl (s.tileEpoch (tileOf port)) port = pv ∧
      (let noRev := rev && s.cflag (s.tileEpoch (tileOf port)) (portCfg port) 9;
      let r := s.lanesUp port (rev && !noRev) pol sk;
      let top := if noRev then 1 else min width (r.cfld (s.tileEpoch (tileOf port)) (portCfg port) 4 2);
      let lanes := r.logical port; let held := fun l => r.flag (laneCtrl l) 5; let bad := fun l => (r.laneSt l).bad;
      let w := goodWidth lanes (fun l => !held l && !bad l) top;
      let x := r.each lanes fun u l => if held l || bad l then u.setFlag (laneStatus l) 10 true else u;
      (w = 0 ∨ ((lanes.take (widthLanes top)).any bad = true ∧
      x.flag (phyCfg port) 18 = false) ∨ (x.isVfl (s.tileEpoch (tileOf port)) port = true ∧ w < 3)))) ∧
    (let s : State := { tst [] [(portCfg 1008, 0x13)] with ports := [(1008, { train := 1 })] }; let port : Nat := 1008;
      let width : Nat := 4; let rev : Bool := false; let pol : List Nat := []; let sk : List Nat := [];
      let pv : Bool := true; s.mayTrain port = true ∧ (s.portSt port).train = 1 ∧
      s.isVfl (s.tileEpoch (tileOf port)) port = pv ∧
      (let noRev := rev && s.cflag (s.tileEpoch (tileOf port)) (portCfg port) 9;
      let r := s.lanesUp port (rev && !noRev) pol sk;
      let top := if noRev then 1 else min width (r.cfld (s.tileEpoch (tileOf port)) (portCfg port) 4 2);
      let lanes := r.logical port; let held := fun l => r.flag (laneCtrl l) 5; let bad := fun l => (r.laneSt l).bad;
      let w := goodWidth lanes (fun l => !held l && !bad l) top;
      let x := r.each lanes fun u l => if held l || bad l then u.setFlag (laneStatus l) 10 true else u;
      let v := ((x.lanesLink (lanes.take (widthLanes w))).modPort port fun k => { k with train := 2, trainWidth := w }).setEi lanes;
      (¬(w = 0 ∨ ((lanes.take (widthLanes top)).any bad = true ∧
      x.flag (phyCfg port) 18 = false) ∨ (x.isVfl (s.tileEpoch (tileOf port)) port = true ∧ w < 3))) ∧
      v.isVfl (s.tileEpoch (tileOf port)) port = true)) ∧
    (let s : State := { tst [] [(portCfg 0, 0x11)] with ports := [(0, { train := 1 })] }; let port : Nat := 0;
      let width : Nat := 4; let rev : Bool := false; let pol : List Nat := []; let sk : List Nat := [];
      let pv : Bool := false; s.mayTrain port = true ∧ (s.portSt port).train = 1 ∧
      s.isVfl (s.tileEpoch (tileOf port)) port = pv ∧
      (let noRev := rev && s.cflag (s.tileEpoch (tileOf port)) (portCfg port) 9;
      let r := s.lanesUp port (rev && !noRev) pol sk;
      let top := if noRev then 1 else min width (r.cfld (s.tileEpoch (tileOf port)) (portCfg port) 4 2);
      let lanes := r.logical port; let held := fun l => r.flag (laneCtrl l) 5; let bad := fun l => (r.laneSt l).bad;
      let w := goodWidth lanes (fun l => !held l && !bad l) top;
      let x := r.each lanes fun u l => if held l || bad l then u.setFlag (laneStatus l) 10 true else u;
      let v := ((x.lanesLink (lanes.take (widthLanes w))).modPort port fun k => { k with train := 2, trainWidth := w }).setEi lanes;
      let no := w = 0 ∨ ((lanes.take (widthLanes top)).any bad = true ∧
      x.flag (phyCfg port) 18 = false) ∨ (x.isVfl (s.tileEpoch (tileOf port)) port = true ∧ w < 3); (¬no) ∧
      v.isVfl (s.tileEpoch (tileOf port)) port = false)) ∧
    (let s : State := { tst [] [(portCfg 1023, 3)] with ports := [(1023, { train := 1 })] }; let port : Nat := 1023;
      let pv : Bool := false; s.isVfl (s.tileEpoch (tileOf port)) port ≠ pv) ∧
    (let s : State := { tst [] [(portCfg 1023, 3)] with ports := [(1023, { train := 1 })] }; let port : Nat := 1023;
      s.laneHere port = true ∧ s.isVfl (s.tileEpoch (tileOf port)) port = true ∧ (s.portSt port).train = 1) ∧
    (let s : State := { tst [] [(portCfg 0, 0x45)] with ports := [(0, { train := 2 })] }; let lane : Nat := 0;
      let rate : Nat := 2; s.laneHere lane = true ∧ s.eqTurn lane rate = true) ∧
    (let s : State := tst [] [(portCfg 1023, 1)]; let lane : Nat := 0; let rate : Nat := 0; s.eqTurn lane rate = false) ∧
    (let s : State := { tst [] [(portCfg 0, 1)] with ports := [(0, { train := 2 })] }; let port : Nat := 0;
      let partner : Nat := 5; let flit : Bool := false; s.laneHere port = true ∧ 2 ≤ (s.portSt port).train ∧
      s.linkHeld port = false ∧ (let e := s.tileEpoch (tileOf port); let vfl := s.isVfl e port;
      let fm := !vfl && s.cflag e (portCfg port) 8 && flit; let top := min (s.rateCap port) partner;
      let rate := if vfl then (if 5 ≤ top then 5 else 4) else if fm then top else min 4 top;
      let lanes := (s.logical port).take (widthLanes (if vfl then (s.portSt port).trainWidth else s.fld (portStatus port) 3 1));
      s.eqReached lanes rate = true)) := by
  refine ⟨?_, ?_, ?_, ?_, ?_, ?_, ?_, ?_, ?_, ?_⟩ <;> decide +kernel
/-- The hypotheses of `LinkPowerStates` can be met. -/
theorem witness_LinkPowerStates :
    (let s : State := { tst [(portStatus 1023, 0x19)] [(partCfg 255, 0x7FF)] with hv := { vp := [(64 * 255 + 32, { aspm := 3 })] } };
      let port : Nat := 1023; s.txIdle port = true ∧ s.fld (portStatus port) 6 4 < 5 ∧ s.aspm port % 2 = 1) ∧
    (let s : State := tst [] []; let port : Nat := 0;
      (s.txIdle port = false ∨ 5 ≤ s.fld (portStatus port) 6 4 ∨ s.aspm port % 2 = 0)) ∧
    (let s : State := { tst [(portStatus 1023, 0x19)] [(partCfg 255, 0x7FF)] with hv := { vp := [(64 * 255 + 32, { aspm := 3 })] } };
      let port : Nat := 1023; let pm : Bool := false; s.txIdle port = true ∧ (pm = true ∨ s.aspm port / 2 % 2 = 1)) ∧
    (let s : State := tst [] []; let port : Nat := 0; let pm : Bool := false; (s.txIdle port = false ∨ (pm = false ∧
      s.aspm port / 2 % 2 = 0))) ∧
    (let s : State := tst [(portStatus 0, 0x100)] []; let port : Nat := 0; s.operates (tileOf port) = true ∧
      s.fld (portStatus port) 10 8 ≠ 0) ∧
    (let s : State := { tst [(portStatus 1023, 0x19)] [(partCfg 255, 0x7FF)] with hv := { vp := [(64 * 255 + 32, { aspm := 3 })] } };
      let port : Nat := 1023; (s.operates (tileOf port) = false ∨ s.fld (portStatus port) 10 8 = 0)) ∧
    (let s : State := tst [(portStatus 1023, 0x85)] []; let port : Nat := 1023; let width : Nat := 1;
      s.operates (tileOf port) = true ∧ s.dlActive port = true ∧ s.flag (portStatus port) 7 = true ∧
      s.vflNow port = false ∧ 1 ≤ width ∧ width < s.fld (portStatus port) 3 1) ∧
    (let s : State := { tst [(portStatus 1023, 0x19)] [(partCfg 255, 0x7FF)] with hv := { vp := [(64 * 255 + 32, { aspm := 3 })] } };
      let port : Nat := 1023; let width : Nat := 0;
      (s.operates (tileOf port) = false ∨ s.dlActive port = false ∨ s.flag (portStatus port) 7 = false ∨ s.vflNow port = true ∨ width = 0 ∨ s.fld (portStatus port) 3 1 ≤ width)) ∧
    (let s : State := tst [(portStatus 1023, 0x201)] [(portCfg 1023, 5)]; let lane : Nat := 1023; let mv : Nat := 176;
      s.laneHere lane = true ∧ (175 < mv ∨ (65 ≤ mv ∧ s.freeBelow 2 = 1)) ∧
      (let u := s.used.setFlag (laneStatus lane) 5 false;
      (u.portOfLane lane).any (fun p => decide (u.flag (portStatus p) 9 = true)) = true)) ∧
    (let s : State := tst [] []; let lane : Nat := 1023; let mv : Nat := 176; s.laneHere lane = true ∧
      (175 < mv ∨ (65 ≤ mv ∧ s.freeBelow 2 = 1)) ∧ (let u := s.used.setFlag (laneStatus lane) 5 false;
      (∀ p, u.portOfLane lane = some p → u.flag (portStatus p) 9 = false))) ∧
    (let s : State := tst [(portStatus 0, 0x100)] []; let lane : Nat := 0; let mv : Nat := 0; s.laneHere lane = true ∧
      mv ≤ 175 ∧ (mv < 65 ∨ s.freeBelow 2 ≠ 1)) := by
  refine ⟨?_, ?_, ?_, ?_, ?_, ?_, ?_, ?_, ?_, ?_, ?_⟩ <;> decide +kernel
/-- The hypotheses of `LaneFaultsAndHolds` can be met. -/
theorem witness_LaneFaultsAndHolds :
    (let s : State := { tst [(laneCtrl 0, 8), (portStatus 0, 3)] [(portCfg 0, 5)] with ports := [(0, { train := 3 })] };
      let lane : Nat := 0; let mv : Nat := 0; let ns : Nat := 100000; s.laneHere lane = true ∧
      s.flag (laneCtrl lane) 3 = true ∧ s.expected lane = true ∧ mv < s.losMv lane ∧ s.losTime lane ≤ ns) ∧
    (let s : State := tst [] [(portCfg 1023, 7)]; let lane : Nat := 1023; let eios : Bool := false;
      (eios = true ∨ s.expected lane = false)) ∧
    (let s : State := tst [(quadStatus 255, 1)] []; let lane : Nat := 0; s.laneHere lane = true ∧
      s.flag (laneCtrl lane) 4 = true) ∧
    (let s : State := tst [(quadStatus 0, 0), (0x00020808, 0)] []; let q : Nat := 0; q < 256 ∧
      s.operates (tileOf (4 * q)) = true ∧ s.flag (quadStatus q) 2 = false) ∧
    (let s : State := tst [(laneCtrl 0, 8), (portStatus 0, 3)] [(portCfg 0, 5)]; let q : Nat := 0; q < 256 ∧
      s.flag 0x00020808 5 = false ∧ s.operates (tileOf (4 * q)) = true ∧ s.flag (quadStatus q) 0 = false ∧
      s.flag (quadStatus q) 2 = false) ∧
    (let s : State := tst [] [(portCfg 0, 7)]; let lane : Nat := 0;
      let m : BitVec 128 := BitVec.ofNat 128 (0x4B1DE2A7 + 2 ^ 48 * (crc16 (leBytes 6 0x4B1DE2A7)).toNat);
      s.laneHere lane = true ∧ m.toNat / 2 ^ 48 % 65536 = (crc16 (leBytes 6 m.toNat)).toNat ∧
      m.toNat % 2 ^ 32 = 0x4B1DE2A7 ∧
      ((s.portOfLane lane).any (fun p => decide (s.isVfl (s.tileEpoch (tileOf p)) p = true)) = true)) ∧
    (let m : BitVec 128 := default;
      (m.toNat / 2 ^ 48 % 65536 ≠ (crc16 (leBytes 6 m.toNat)).toNat ∨ m.toNat % 2 ^ 32 ≠ 0x4B1DE2A7)) ∧
    (let s : State := tst [] [(portCfg 0, 7)]; let lane : Nat := 0; let p := 0; s.laneHere lane = true ∧
      s.portOfLane lane = some p ∧ s.vflNow p = true ∧ s.inPattern lane = false) ∧
    (let s : State := tst [(laneCtrl 1023, 32)] []; let lane : Nat := 1023; s.laneHere lane = true ∧
      s.flag (laneCtrl lane) 5 = true) := by
  refine ⟨?_, ?_, ?_, ?_, ?_, ?_, ?_, ?_, ?_⟩ <;> decide +kernel
/-- The hypotheses of `LaneTestHardware` can be met, part 1. -/
theorem witness_LaneTestHardware_a :
    (let s : State := tst [] []; let lane : Nat := 1023; s.laneHere lane = true) ∧
    (let s : State := tst [] []; let lane : Nat := 0; s.laneHere lane = true) ∧
    (let s : State := tst [] []; let lane : Nat := 1023; s.laneHere lane = true) ∧
    (let s : State := tst [] []; let lane : Nat := 0; s.laneHere lane = true) ∧
    (let s : State := tst [(testCtrl 0, 0x21)] []; let lane : Nat := 0; s.laneHere lane = true ∧
      s.inPattern lane = true ∧ s.flag (testCtrl lane) 5 = true) ∧
    (let s : State := tst [] []; let lane : Nat := 0; (s.inPattern lane = false ∨ s.flag (testCtrl lane) 5 = false)) ∧
    (let s : State := tst [(testCtrl 1023, 0x40)] []; let lane : Nat := 1023; s.laneHere lane = true ∧
      s.flag (testCtrl lane) 6 = true) ∧
    (let s : State := tst [] []; let lane : Nat := 0; s.flag (testCtrl lane) 6 = false) ∧
    (let s : State := tst [] []; let pb : Nat := 0; pb < 64 ∧ s.here (pb / 8) = true) ∧
    (let s : State := tst [] []; let pb : Nat := 63; pb < 64 ∧ s.here (pb / 8) = true) ∧
    (let s : State := tst [(laneSel 8 63, 0x1030F)] []; let agent : Nat := 8; let pb : Nat := 63; pb < 64 ∧
      s.here (pb / 8) = true ∧ (let v := s.lv (laneSel agent pb); bit v 16 = true ∧ 3 ≤ field v 11 8 ∧ field v 11 8 ≤ 6)) ∧
    (let s : State := tst [(laneSel 8 63, 0x10F)] []; let agent : Nat := 8; let pb : Nat := 63; pb < 64 ∧
      s.here (pb / 8) = true ∧ (let v := s.lv (laneSel agent pb); bit v 16 = false ∧ field v 11 8 ≠ 0)) := by
  refine ⟨?_, ?_, ?_, ?_, ?_, ?_, ?_, ?_, ?_, ?_, ?_, ?_⟩ <;> decide +kernel
/-- The hypotheses of `LaneTestHardware` can be met, part 2. -/
theorem witness_LaneTestHardware_b :
    (let s : State := tst [] []; let pb : Nat := 0; pb < 64 ∧ s.here (pb / 8) = true) := by
  decide +kernel
/-- The hypotheses of `PciExpressLinkEvents` can be met. -/
theorem witness_PciExpressLinkEvents :
    (let s : State := { tst [(portStatus 0, 0xB)] [(portCfg 0, 0x15)] with ports := [(0, { recovering := true })] };
      let port : Nat := 0; s.pcieUp port = true ∧ (s.downAfter port = 0 ∨ (s.portSt port).rolls + 1 < s.downAfter port)) ∧
    (let s : State := tst [(portStatus 0, 1), (pbBase 0 + 0x100, 1)] []; let port : Nat := 0; s.pcieUp port = true ∧
      s.downAfter port ≠ 0 ∧ s.downAfter port ≤ (s.portSt port).rolls + 1) ∧
    (let s : State := tst [(portStatus 0, 1), (pbBase 0 + 0x100, 1)] []; let port : Nat := 0; s.pcieUp port = true) ∧
    (let s : State := { tst [(portStatus 0, 0xB)] [(portCfg 0, 0x15)] with ports := [(0, { recovering := true })] };
      let port : Nat := 0; let gl : List Nat := []; s.operates (tileOf port) = true ∧ s.dlActive port = true ∧
      s.vflNow port = false ∧ (s.portSt port).recovering = true ∧ (let lanes := s.logical port;
      let good := fun l => gl.contains (l - port) && !s.flag (laneCtrl l) 5 && !s.flag (laneStatus l) 10;
      let lost := (lanes.take (widthLanes (s.fld (portStatus port) 3 1))).any fun l => !gl.contains (l - port);
      let w := goodWidth lanes good (s.cfld (s.tileEpoch (tileOf port)) (portCfg port) 4 2);
      let no := w = 0 ∨ (lost = true ∧ s.flag (phyCfg port) 18 = false);
      let r := ((s.relink port w good).modPort port fun k => { k with recovering := false }).setEi lanes; no)) ∧
    (let s : State := { tst [(portStatus 0, 3)] [(portCfg 0, 5)] with ports := [(0, { recovering := true })] };
      let port : Nat := 0; let gl : List Nat := [0]; s.operates (tileOf port) = true ∧ s.dlActive port = true ∧
      s.vflNow port = false ∧ (s.portSt port).recovering = true ∧ (let lanes := s.logical port;
      let good := fun l => gl.contains (l - port) && !s.flag (laneCtrl l) 5 && !s.flag (laneStatus l) 10;
      let lost := (lanes.take (widthLanes (s.fld (portStatus port) 3 1))).any fun l => !gl.contains (l - port);
      let w := goodWidth lanes good (s.cfld (s.tileEpoch (tileOf port)) (portCfg port) 4 2);
      let r := ((s.relink port w good).modPort port fun k => { k with recovering := false }).setEi lanes;
      ¬(w = 0 ∨ (lost = true ∧ s.flag (phyCfg port) 18 = false)))) ∧
    (let s : State := eb []; let p : Nat := 0; let d : Nat := 0; let cause : DpcCause := .software;
      s.partEn s.leadEpoch p = true ∧ s.vdpEn s.leadEpoch p d = true ∧ s.vdpDpc s.leadEpoch p d = true ∧
      (let port := s.vdpPort s.leadEpoch p d;
      let r : Nat × Nat := match cause with | .software => (3, 1) | .uncorrectable => (0, 0) | .errNonfatalMsg => (1, 0) | .errFatalMsg => (2, 0);
      let m := s.setDpc p d r.1 r.2;
      let u : State := { m with cont := { m.cont with dpc := tset false m.cont.dpc port true } };
      s.vdpLocal s.leadEpoch p d = true ∧ s.slotOwner s.leadEpoch port = p ∧ s.operates (tileOf port) = true ∧
      tget false s.cont.dpc port = false)) ∧
    (let s : State := tst [] [(partCfg 255, 1), (vdpReg 255 31, 0x10FFF)]; let p : Nat := 255; let d : Nat := 31;
      let cause : DpcCause := .software; s.partEn s.leadEpoch p = true ∧ s.vdpEn s.leadEpoch p d = true ∧
      s.vdpDpc s.leadEpoch p d = true ∧ (let port := s.vdpPort s.leadEpoch p d;
      let r : Nat × Nat := match cause with | .software => (3, 1) | .uncorrectable => (0, 0) | .errNonfatalMsg => (1, 0) | .errFatalMsg => (2, 0);
      let m := s.setDpc p d r.1 r.2;
      let u : State := { m with cont := { m.cont with dpc := tset false m.cont.dpc port true } };
      (s.vdpLocal s.leadEpoch p d = false ∨ s.slotOwner s.leadEpoch port ≠ p))) ∧
    (let s : State := tst [] [(partCfg 0, 1), (vdpReg 0 0, 1)]; let p : Nat := 0; let d : Nat := 0;
      s.partEn s.leadEpoch p = true ∧ s.vdpEn s.leadEpoch p d = true ∧ (let port := s.vdpPort s.leadEpoch p d;
      let m := s.modVport p d fun v => { v with dpcStatus := false, dpcReason := 0, dpcExt := 0 };
      s.vdpLocal s.leadEpoch p d = true ∧ s.slotOwner s.leadEpoch port = p ∧ s.mgrHolds (tileOf port) 0 port = false)) ∧
    (let s : State := { tst [] [(partCfg 255, 1), (vdpReg 255 31, 0x7FF), (slotCfg 1023, 0xFF0000)] with host := { stamps := [(stopKey 7 0 1023, { ft := 0, tile := 0, on := true })] } };
      let p : Nat := 255; let d : Nat := 31; s.partEn s.leadEpoch p = true ∧ s.vdpEn s.leadEpoch p d = true ∧
      (let port := s.vdpPort s.leadEpoch p d;
      let m := s.modVport p d fun v => { v with dpcStatus := false, dpcReason := 0, dpcExt := 0 };
      s.vdpLocal s.leadEpoch p d = true ∧ s.slotOwner s.leadEpoch port = p ∧ s.mgrHolds (tileOf port) 0 port = true)) ∧
    (let s : State := tst [] [(partCfg 255, 1), (vdpReg 255 31, 0x400003FF)]; let p : Nat := 255; let d : Nat := 31;
      s.partEn s.leadEpoch p = true ∧ s.vdpEn s.leadEpoch p d = true ∧ (let port := s.vdpPort s.leadEpoch p d;
      let m := s.modVport p d fun v => { v with dpcStatus := false, dpcReason := 0, dpcExt := 0 };
      (s.vdpLocal s.leadEpoch p d = false ∨ s.slotOwner s.leadEpoch port ≠ p))) := by
  refine ⟨?_, ?_, ?_, ?_, ?_, ?_, ?_, ?_, ?_, ?_⟩ <;> decide +kernel
/-- The hypotheses of `HotPlugSlots` can be met, part 1. -/
theorem witness_HotPlugSlots_a :
    (let s : State := tst [] [(partCfg 255, 1), (vdpReg 255 31, 0x7FF), (slotCfg 1023, 0xFF0D01), (portCfg 1023, 1)];
      let p : Nat := 255; let d : Nat := 31; let port := 1023; s.slotAt p d = some port ∧
      (s.slotChan port).isSome = true ∧ (s.slotSt port).off = true) ∧
    (let s : State := { tst [] [(partCfg 0, 1), (vdpReg 0 0, 1), (slotCfg 0, 0x101), (portCfg 0, 1)] with slots := [(0, { off := false })] };
      let p : Nat := 0; let d : Nat := 0; let port := 0; s.slotAt p d = some port ∧ (s.slotChan port).isSome = true ∧
      (s.slotSt port).off = false) ∧
    (let s : State := { tst [] [(partCfg 0, 1), (vdpReg 0 0, 1), (slotCfg 0, 0x101), (portCfg 0, 1)] with slots := [(0, { off := false })] };
      let p : Nat := 0; let d : Nat := 0; let port := 0; s.slotAt p d = some port ∧
      ((s.slotChan port).isSome = false ∨ (s.slotSt port).off = false)) ∧
    (let s : State := tst [] [(partCfg 255, 1), (vdpReg 255 31, 0x7FF), (slotCfg 1023, 0xFF0D01), (portCfg 1023, 1)];
      let p : Nat := 255; let d : Nat := 31; let port := 1023; s.slotAt p d = some port ∧
      ((s.slotChan port).isSome = false ∨ (s.slotSt port).off = true)) ∧
    (let s : State := tst [] [(partCfg 255, 1), (vdpReg 255 31, 0x7FF), (slotCfg 1023, 0xFF0D01), (portCfg 1023, 1)];
      let p : Nat := 255; let d : Nat := 31; let port := 1023; s.slotAt p d = some port ∧
      (let hasA := s.cflag s.leadEpoch (slotCfg port) 10; let hasP := s.cflag s.leadEpoch (slotCfg port) 11;
      (hasA = true ∨ hasP = true))) ∧
    (let s : State := { tst [] [(partCfg 0, 1), (vdpReg 0 0, 1), (slotCfg 0, 0x101), (portCfg 0, 1)] with slots := [(0, { off := false })] };
      let p : Nat := 0; let d : Nat := 0; let port := 0; s.slotAt p d = some port ∧
      (let hasA := s.cflag s.leadEpoch (slotCfg port) 10; let hasP := s.cflag s.leadEpoch (slotCfg port) 11;
      hasA = false ∧ hasP = false)) ∧
    (let s : State := tst [] [(slotCfg 0, 0x201), (portCfg 0, 1)]; let p : Nat := 0; let d : Nat := 0;
      s.slotAt p d = none) ∧
    (let s : State := { tst [] [] with slots := [(1023, { waiting := true })] }; let port : Nat := 1023;
      (s.slotSt port).waiting = true) ∧
    (let s : State := { tst [] [(partCfg 0, 1), (vdpReg 0 0, 1), (slotCfg 0, 0x101), (portCfg 0, 1)] with slots := [(0, { off := false })] };
      let port : Nat := 0; (s.slotSt port).waiting = false) ∧
    (let s : State := { tst [] [] with host := { sideband := [(1023, [1])] } }; let port : Nat := 1023; let c := 1;
      let cs := []; s.operates (tileOf port) = true ∧ s.headless (tileOf port) = false ∧ s.ilulysReset = false ∧
      tget [] s.host.sideband port = c :: cs) ∧
    (let s : State := tst [] [(slotCfg 1023, 1), (portCfg 1023, 1)]; let port : Nat := 1023; let b : Bool := true;
      s.ilulysReset = false ∧ s.pwr.io = true ∧ s.portEn s.leadEpoch port = true ∧
      s.cflag s.leadEpoch (slotCfg port) 0 = true ∧ s.cflag s.leadEpoch (slotCfg port) 13 = false ∧
      (s.slotSt port).sampled ≠ b) ∧
    (let s : State := { tst [] [] with host := { sideband := [(1023, [1])] } }; let port : Nat := 1023;
      let b : Bool := false; (s.slotSt port).sampled = b) := by
  refine ⟨?_, ?_, ?_, ?_, ?_, ?_, ?_, ?_, ?_, ?_, ?_, ?_⟩ <;> decide +kernel
/-- The hypotheses of `HotPlugSlots` can be met, part 2. -/
theorem witness_HotPlugSlots_b :
    (let s : State := tst [] [(slotCfg 0, 0x201), (portCfg 0, 1)]; let port : Nat := 0; s.ilulysReset = false ∧
      s.pwr.io = true ∧ s.portEn s.leadEpoch port = true ∧ s.cflag s.leadEpoch (slotCfg port) 0 = true ∧
      s.cflag s.leadEpoch (slotCfg port) 9 = true) := by
  decide +kernel
/-- The hypotheses of `VflInitialisation` can be met. -/
theorem witness_VflInitialisation :
    (let s : State := tst [(portStatus 0, 9)] [(portCfg 0, 0x13)]; let port : Nat := 0; s.initPhase port = true) ∧
    (let s : State := tst [(portStatus 0, 9)] [(portCfg 0, 0x13)]; let port : Nat := 0; let n : Nat := 0;
      s.initPhase port = true ∧ n ≠ s.cfgVcs (s.tileEpoch (tileOf port)) port) ∧
    (let s : State := tst [(portStatus 1020, 8)] [(portCfg 1020, 0x13)]; let port : Nat := 1020;
      s.initPhase port = true) ∧
    (let s : State := tst [(portStatus 1020, 8)] [(portCfg 1020, 0x13)]; let port : Nat := 1020;
      s.initPhase port = true) ∧
    (let s : State := tst [(portStatus 0, 9)] [(portCfg 0, 0x13)]; let port : Nat := 0; let proto : Nat := 0;
      (proto ≠ 1 ∨ s.initPhase port = false)) ∧
    (let s : State := { tst [(portStatus 1020, 8)] [(portCfg 1020, 0x13)] with links := [(1020, { initSent := true })] };
      let port : Nat := 1020; s.initPhase port = true ∧ (s.linkSt (.port port)).initSent = true) ∧
    (let s : State := { tst [] [] with links := [(0, { hold := true })] }; let port : Nat := 0;
      (s.linkSt (.port port)).hold = true) ∧
    (let s : State := tst [(portStatus 0, 9)] [(portCfg 0, 0x13)]; let port : Nat := 0;
      s.operates (tileOf port) = true ∧ s.isVfl (s.tileEpoch (tileOf port)) port = true ∧ s.dlActive port = true) ∧
    (let s : State := tst [(portStatus 0, 9)] [(portCfg 0, 0x13)]; let n : Nat := 0; let port : Nat := 0;
      s.sees n (tileOf port) = true ∧ s.portUp port = true) := by
  refine ⟨?_, ?_, ?_, ?_, ?_, ?_, ?_, ?_, ?_⟩ <;> decide +kernel
/-- The hypotheses of `VflLinkLayer` can be met, part 1. -/
theorem witness_VflLinkLayer_a :
    (let s : State := tst [(lkStatus 1020, 1)] []; let l : Link := .port 1020;
      let f : Flit := { flit0 with symErr0 := 3 }; s.hears l = true ∧ (let a := s.countLink l .lkFecCorr (flitFixed f);
      let u := match l with | .xing t g => a.each f.wires fun z w => z.wireError t g w | .port _ => a;
      let h := flitHead f; let b := if h.ackV then u.ackIn l h.ack else u; flitGood f = false)) ∧
    (let s : State := tst [(lkStatus 1020, 1)] []; let l : Link := .port 1020;
      let f : Flit := { symErr0 := 0, symErr1 := 0, words := flitWords { ftype := 15, first := 31 } [] false };
      s.hears l = true ∧ (let a := s.countLink l .lkFecCorr (flitFixed f);
      let u := match l with | .xing t g => a.each f.wires fun z w => z.wireError t g w | .port _ => a;
      let h := flitHead f; let b := if h.ackV then u.ackIn l h.ack else u; flitGood f = true ∧ 4 ≤ h.ftype)) ∧
    (let s : State := { tst [(lkStatus 1020, 1)] [] with links := [(1020, { sinceAck := 1 })] };
      let l : Link := .port 1020; let f : Flit := flit0; s.hears l = true ∧
      (let a := s.countLink l .lkFecCorr (flitFixed f);
      let u := match l with | .xing t g => a.each f.wires fun z w => z.wireError t g w | .port _ => a;
      let h := flitHead f; let b := if h.ackV then u.ackIn l h.ack else u; flitGood f = true ∧ h.ftype < 4 ∧
      u.linkUp l = true)) ∧
    (let s : State := tst [(portStatus 1020, 8)] [(portCfg 1020, 0x13)]; let l : Link := .port 1020;
      let f : Flit := { symErr0 := 0, symErr1 := 0, words := flitWords { ftype := 3, first := 31 } [] false };
      s.hears l = true ∧ (let a := s.countLink l .lkFecCorr (flitFixed f);
      let u := match l with | .xing t g => a.each f.wires fun z w => z.wireError t g w | .port _ => a;
      let h := flitHead f; let b := if h.ackV then u.ackIn l h.ack else u; let p := 1020; l = .port p ∧
      flitGood f = true ∧ h.ftype < 4 ∧ u.linkUp l = false)) ∧
    (let s : State := { tst [] [] with links := [(2000, { items := [{ vc := 0, hdr := [], body := [], blocks := 1 }] })] };
      let l : Link := .xing 0 0; s.hears l = false) ∧
    (let s : State := { tst [] [] with links := [(2000, { items := [{ vc := 0, hdr := [], body := [], blocks := 1 }] })] };
      let l : Link := .xing 0 0; let ok := fun (x : RxItem) => x.vc + 1 == s.vcs l || !s.rxHeld l;
      let x := { vc := 0, hdr := [], body := [], blocks := 1 }; (s.linkSt l).items.find? ok = some x) ∧
    (let s : State := { tst [(lkStatus 1020, 1), (portStatus 1020, 8)] [(portCfg 1020, 0x13)] with links := [(1020, { stopped := true })] };
      let l : Link := .port 0; let ok := fun (x : RxItem) => x.vc + 1 == s.vcs l || !s.rxHeld l;
      (s.linkSt l).items.find? ok = none) ∧
    (let s : State := { tst [(lkStatus 1020, 1)] [] with links := [(1020, { sinceAck := 1 })] };
      let l : Link := .port 1020; s.linkUp l = true ∧ (s.linkSt l).stopped = false ∧ s.operates (linkTile l) = true ∧
      s.ackOwed l = true) ∧
    (let s : State := { tst [(lkStatus 1020, 0x201)] [] with links := [(1020, { outst := [{ seqNo := 0 }] })] };
      let l : Link := .port 1020; s.linkUp l = true ∧ (s.linkSt l).stopped = false ∧ (s.linkSt l).outst ≠ [] ∧
      s.operates (linkTile l) = true ∧ (let u := s.countLink l .lkTimeout; let n := u.timeouts l + 1; n < 4)) ∧
    (let s : State := { tst [(lkStatus 1020, 0x1301)] [] with links := [(1020, { outst := [{ seqNo := 0 }] })] };
      let l : Link := .port 1020; s.linkUp l = true ∧ (s.linkSt l).stopped = false ∧ (s.linkSt l).outst ≠ [] ∧
      s.operates (linkTile l) = true ∧ (let u := s.countLink l .lkTimeout; let n := u.timeouts l + 1; 4 ≤ n ∧
      u.retrains l < 3)) ∧
    (let s : State := { tst [(lkStatus 1020, 0x1B01)] [] with links := [(1020, { outst := [{ seqNo := 0 }] })] };
      let l : Link := .port 1020; s.linkUp l = true ∧ (s.linkSt l).stopped = false ∧ (s.linkSt l).outst ≠ [] ∧
      s.operates (linkTile l) = true ∧ (let u := s.countLink l .lkTimeout; let n := u.timeouts l + 1; 4 ≤ n ∧
      3 ≤ u.retrains l)) ∧
    (let s : State := { tst [(lkStatus 1020, 1)] [] with links := [(1020, { stopped := true })] };
      let l : Link := .port 1020; s.linkUp l = true ∧ (s.linkSt l).stopped = true) := by
  refine ⟨?_, ?_, ?_, ?_, ?_, ?_, ?_, ?_, ?_, ?_, ?_, ?_⟩ <;> decide +kernel
/-- The hypotheses of `VflLinkLayer` can be met, part 2. -/
theorem witness_VflLinkLayer_b :
    (let s : State := { tst [(xgStatus 7 2, 1)] [] with links := [(2030, { stopped := true })] }; let n := 7;
      let g := 2; s.linkUp (.xing n g) = true ∧ (s.linkSt (.xing n g)).stopped = true) ∧
    (let s : State := { tst [(lkStatus 1020, 1)] [] with links := [(1020, { stopped := true })] }; let p := 1020;
      let width : Nat := 3; s.linkUp (.port p) = true ∧ (s.linkSt (.port p)).stopped = true ∧ (let lanes := s.logical p;
      let good := fun l => (lanes.take (widthLanes width)).contains l && !s.flag (laneCtrl l) 5 && !s.flag (laneStatus l) 10;
      let w := goodWidth lanes good (s.cfld (s.tileEpoch (tileOf p)) (portCfg p) 4 2);
      let no := w < 3 ∨ ((lanes.take (widthLanes (s.fld (portStatus p) 3 1))).any (fun l => !good l) = true ∧
      s.flag (pbBase (pbOf p) + 0x1090) 18 = false); no)) ∧
    (let s : State := { tst [(lkStatus 1008, 1), (portStatus 1008, 8)] [(portCfg 1008, 0x13)] with links := [(1008, { stopped := true })] };
      let p := 1008; let width : Nat := 4; s.linkUp (.port p) = true ∧ (s.linkSt (.port p)).stopped = true ∧
      (let lanes := s.logical p;
      let good := fun l => (lanes.take (widthLanes width)).contains l && !s.flag (laneCtrl l) 5 && !s.flag (laneStatus l) 10;
      let w := goodWidth lanes good (s.cfld (s.tileEpoch (tileOf p)) (portCfg p) 4 2);
      ¬(w < 3 ∨ ((lanes.take (widthLanes (s.fld (portStatus p) 3 1))).any (fun l => !good l) = true ∧
      s.flag (pbBase (pbOf p) + 0x1090) 18 = false)))) := by
  refine ⟨?_, ?_, ?_⟩ <;> decide +kernel
/-- The hypotheses of `VflInjectionsAndWires` can be met, part 1. -/
theorem witness_VflInjectionsAndWires_a :
    (let s : State := tst [(lkStatus 1020, 1)] []; let port : Nat := 1020; s.linkUp (.port port) = true) ∧
    (let s : State := tst [(lkStatus 1020, 1)] []; let port : Nat := 1020; s.linkUp (.port port) = true) ∧
    (let s : State := tst [(lkStatus 1020, 1)] []; let port : Nat := 1020; s.linkUp (.port port) = true) ∧
    (let s : State := tst [(lkStatus 1020, 1)] []; let port : Nat := 1020; s.linkUp (.port port) = true) ∧
    (let s : State := tst [(lkStatus 1020, 1)] []; let port : Nat := 1020; s.linkUp (.port port) = true) ∧
    (let s : State := tst [(xgStatus 0 1, 0x1F01)] []; let port : Nat := 0; s.linkUp (.port port) = false) ∧
    (let s : State := { tst [(xgStatus 0 1, 1)] [] with links := [(2001, { stopped := true })] }; let n : Nat := 0;
      let g : Nat := 1; let w : Nat := 0; let u := 1; xgPeer n g = some u ∧
      ((s.part.xgOf n g).any (fun x => decide (s.xgUp x = true ∧ s.here n = true ∧ w < 672 ∧
      (s.linkSt (.xing n g)).wireUsed w = true ∧ (let h := xgGroup u n; let v := s.mapWire n g u w;
      s.fld (xgStatus n g) 13 8 < 32))) = true)) ∧
    (let s : State := { tst [(xgStatus 0 1, 8193), (xgStatus 1 0, 1), (xgCtrl 0 1, 0)] [] with links := [] };
      let n : Nat := 0; let g : Nat := 1; let w : Nat := 0; let u := 1; let x := 0; xgPeer n g = some u ∧
      s.part.xgOf n g = some x ∧ s.xgUp x = true ∧ s.here n = true ∧ w < 672 ∧ (s.linkSt (.xing n g)).wireUsed w = true ∧
      (let h := xgGroup u n; let v := s.mapWire n g u w; 32 ≤ s.fld (xgStatus n g) 13 8 ∧ v.mayHalve n g = false)) ∧
    (let s : State := { tst [(xgStatus 0 1, 8195), (xgStatus 1 0, 1), (xgCtrl 0 1, 64)] [] with links := [] };
      let n : Nat := 0; let g : Nat := 1; let w : Nat := 0; let u := 1; let x := 0; xgPeer n g = some u ∧
      s.part.xgOf n g = some x ∧ s.xgUp x = true ∧ s.here n = true ∧ w < 672 ∧ (s.linkSt (.xing n g)).wireUsed w = true ∧
      (let h := xgGroup u n; let v := s.mapWire n g u w; 32 ≤ s.fld (xgStatus n g) 13 8 ∧ v.mayHalve n g = true ∧
      v.flag (xgStatus n g) 1 = true)) ∧
    (let s : State := { tst [(xgStatus 0 1, 8193), (xgStatus 1 0, 1), (xgCtrl 0 1, 64)] [] with links := [] };
      let n : Nat := 0; let g : Nat := 1; let w : Nat := 0; let u := 1; let x := 0; xgPeer n g = some u ∧
      s.part.xgOf n g = some x ∧ s.xgUp x = true ∧ s.here n = true ∧ w < 672 ∧ (s.linkSt (.xing n g)).wireUsed w = true ∧
      (let h := xgGroup u n; let v := s.mapWire n g u w; 32 ≤ s.fld (xgStatus n g) 13 8 ∧ v.mayHalve n g = true ∧
      v.flag (xgStatus n g) 1 = false)) ∧
    (let n : Nat := 7; let g : Nat := 2; let u := 3; xgPeer n g = some u) ∧
    (let s : State := { tst [(xgStatus 0 1, 1)] [] with links := [(2001, { stopped := true })] }; let n : Nat := 0;
      let g : Nat := 1; let u := 1; s.here n = true ∧ (s.part.xgOf n g).isSome = true ∧ xgPeer n g = some u) := by
  refine ⟨?_, ?_, ?_, ?_, ?_, ?_, ?_, ?_, ?_, ?_, ?_, ?_⟩ <;> decide +kernel
/-- The hypotheses of `VflInjectionsAndWires` can be met, part 2. -/
theorem witness_VflInjectionsAndWires_b :
    (let s : State := tst [(xgStatus 0 1, 0x1F01)] []; let x : Nat := 0; s.xgThere x = true ∧ s.xgUp x = true ∧
      s.core.locks = []) ∧
    (let s : State := tst [(xgStatus 0 1, 0x1F01)] []; let n : Nat := 0; let x : Nat := 0; s.here n = true ∧
      s.xgThere x = true) := by
  refine ⟨?_, ?_⟩ <;> decide +kernel
/-- The hypotheses of `SwitchCoreSteps` can be met. -/
theorem witness_SwitchCoreSteps :
    (let s : State := tst [] []; let n : Nat := 0; s.operates n = true) ∧
    (let s : State := { tst [] [] with pkts := [{ pkt0 with loc := .arriving }] }; let n : Nat := 0; let k : Nat := 0;
      let p := { pkt0 with loc := .arriving }; s.pkt k = some p ∧ p.tile = n ∧ s.operates n = true) ∧
    (let s : State := tst [] []; let n : Nat := 0; let u : Nat := 1; let d : Nat := 8; let k : Nat := 2 ^ 23 - 1;
      s.here n = true ∧ s.here u = true ∧ destTile d = u ∧ n ≠ u ∧
      (let got := modSub (2 ^ 24) k (tget 0 s.core.acceptedCount (destKey n d)); 0 < got ∧ got < 2 ^ 23)) ∧
    (let s : State := { tst [] [] with core := { arrived := [(streamKey 0 0, [1])] } }; let n : Nat := 0;
      let d : Nat := 0; let k : Nat := 0; let got := modSub (2 ^ 24) k (tget 0 s.core.acceptedCount (destKey n d));
      (got = 0 ∨ 2 ^ 23 ≤ got)) ∧
    (let s : State := tst [] []; let n : Nat := 0; s.here n = true ∧ s.flag (tileBase n + 0x6000) 0 = true) ∧
    (let s : State := tst [(tileBase 7 + 0x6000, 0)] []; let n : Nat := 7; s.flag (tileBase n + 0x6000) 0 = false) ∧
    (let s : State := { tst [] [] with pkts := [{ pkt0 with loc := .arriving }] }; let n : Nat := 0; let k : Nat := 0;
      let p := { pkt0 with loc := .arriving }; s.pkt k = some p ∧ p.tile = n ∧ p.loc = .arriving ∧ s.operates n = true) ∧
    (let s : State := { tst [] [] with core := { flights := [{ srcTile := 0, stream := 5, seqNo := 0, dest := 63, cells := 1, mgmt := false }] } };
      let n : Nat := 7; let src : Nat := 5; let d : Nat := 63; let k : Nat := 0; s.operates n = true ∧ destTile d = n ∧
      (s.core.flights.any fun f => f.stream == src && f.dest == d && f.seqNo == k) = true ∧
      (s.pkts.any fun p => p.src == src && p.seqs.contains (d, k)) = false) ∧
    (let s : State := { tst [] [] with core := { arrived := [(streamKey 0 0, [1])] } }; let n : Nat := 0;
      let src : Nat := 0; let d : Nat := 0; s.operates n = true ∧ destTile d = n ∧
      tget [] s.core.arrived (streamKey src d) ≠ []) ∧
    (let s : State := tst [] []; let n : Nat := 0; s.here n = true) ∧
    (let s : State := tst [] []; let n : Nat := 0; s.here n = true) := by
  refine ⟨?_, ?_, ?_, ?_, ?_, ?_, ?_, ?_, ?_, ?_, ?_⟩ <;> decide +kernel
/-- The hypotheses of `RequestsEnteringAPort` can be met, part 1. -/
theorem witness_RequestsEnteringAPort_a :
    (let s : State := eb []; let port : Nat := 16; let p := 0; let r : Req := { req0 with malformed := true };
      let u := s.rxTlp port (reqFc r) r.data.length; let e := u.tileEpoch (tileOf port); u.live? port = true ∧
      u.ingressHeld port = false ∧ u.partOfUp e port = some p ∧ (let seat := u.seatOf e p (.host r.rid) r.pasid;
      (u.badTlp port p 32 r (u.mps p)).isSome = true)) ∧
    (let s : State := eb []; let port : Nat := 16; let p := 0; let r : Req := { req0 with kind := .ioRequest };
      let u := s.rxTlp port (reqFc r) r.data.length; let e := u.tileEpoch (tileOf port); u.live? port = true ∧
      u.ingressHeld port = false ∧ u.partOfUp e port = some p ∧ (let seat := u.seatOf e p (.host r.rid) r.pasid;
      u.badTlp port p 32 r (u.mps p) = none ∧ r.kind = .ioRequest)) ∧
    (let s : State := { eb [] with hv := { (eb []).hv with ff := [(0, { mse := true, bar0 := 0x10000000, bme := true })] } };
      let port : Nat := 16; let p := 0; let r : Req := { req0 with addr := 0x10000000 };
      let u := s.rxTlp port (reqFc r) r.data.length; let e := u.tileEpoch (tileOf port); u.live? port = true ∧
      u.ingressHeld port = false ∧ u.partOfUp e port = some p ∧ (let seat := u.seatOf e p (.host r.rid) r.pasid;
      let bar := if r.mc.isSome && r.kind == .memWrite then none else u.barOf e p r.addr.toNat;
      u.badTlp port p 32 r (u.mps p) = none ∧ r.kind ≠ .ioRequest ∧ (bar).isSome = true)) ∧
    (let s : State := { eb [] with host := { stamps := [(stopKey 0 1 0, { ft := 0, tile := 0, on := true })] } };
      let port : Nat := 16; let p := 0; let r : Req := req0; let u := s.rxTlp port (reqFc r) r.data.length;
      let e := u.tileEpoch (tileOf port); u.live? port = true ∧ u.ingressHeld port = false ∧ u.partOfUp e port = some p ∧
      (let seat := u.seatOf e p (.host r.rid) r.pasid;
      let dark := u.partBlack (tileOf port) p || seat.any fun k => u.seatBlack (tileOf port) k;
      let bar := if r.mc.isSome && r.kind == .memWrite then none else u.barOf e p r.addr.toNat;
      u.badTlp port p 32 r (u.mps p) = none ∧ r.kind ≠ .ioRequest ∧ bar = none ∧ dark = true)) ∧
    (let s : State := eb []; let port : Nat := 16; let p := 0; let r : Req := { req0 with mc := some 63 };
      let u := s.rxTlp port (reqFc r) r.data.length; let e := u.tileEpoch (tileOf port); u.live? port = true ∧
      u.ingressHeld port = false ∧ u.partOfUp e port = some p ∧ (let seat := u.seatOf e p (.host r.rid) r.pasid;
      let dark := u.partBlack (tileOf port) p || seat.any fun k => u.seatBlack (tileOf port) k;
      let grp := if r.kind == .memWrite then r.mc else none;
      let bar := if r.mc.isSome && r.kind == .memWrite then none else u.barOf e p r.addr.toNat;
      u.badTlp port p 32 r (u.mps p) = none ∧ r.kind ≠ .ioRequest ∧ bar = none ∧ dark = false ∧ (grp).isSome = true)) ∧
    (let s : State := eb []; let port : Nat := 16; let p := 0; let r : Req := { req0 with addr := 0x1FFC };
      let u := s.rxTlp port (reqFc r) r.data.length; let e := u.tileEpoch (tileOf port); u.live? port = true ∧
      u.ingressHeld port = false ∧ u.partOfUp e port = some p ∧ (let seat := u.seatOf e p (.host r.rid) r.pasid;
      let dark := u.partBlack (tileOf port) p || seat.any fun k => u.seatBlack (tileOf port) k;
      let grp := if r.kind == .memWrite then r.mc else none;
      let bar := if r.mc.isSome && r.kind == .memWrite then none else u.barOf e p r.addr.toNat;
      let v := u.notePoison port p 32 r.poisoned; u.badTlp port p 32 r (u.mps p) = none ∧ r.kind ≠ .ioRequest ∧
      bar = none ∧ dark = false ∧ grp = none ∧ (let x := 0; v.amapHit e p r.addr.toNat = some x))) ∧
    (let s : State := eb []; let port : Nat := 16; let p := 0; let r : Req := req0;
      let u := s.rxTlp port (reqFc r) r.data.length; let e := u.tileEpoch (tileOf port); u.live? port = true ∧
      u.ingressHeld port = false ∧ u.partOfUp e port = some p ∧ (let seat := u.seatOf e p (.host r.rid) r.pasid;
      let dark := u.partBlack (tileOf port) p || seat.any fun k => u.seatBlack (tileOf port) k;
      let grp := if r.kind == .memWrite then r.mc else none;
      let bar := if r.mc.isSome && r.kind == .memWrite then none else u.barOf e p r.addr.toNat;
      let v := u.notePoison port p 32 r.poisoned; u.badTlp port p 32 r (u.mps p) = none ∧ r.kind ≠ .ioRequest ∧
      bar = none ∧ dark = false ∧ grp = none ∧ v.amapHit e p r.addr.toNat = none)) ∧
    (let s : State := eb []; let port : Nat := 0; let r : Req := { req0 with malformed := true };
      let u := s.rxTlp port (reqFc r) r.data.length; let e := u.tileEpoch (tileOf port); u.live? port = true ∧
      u.isVfl e port = false ∧ u.partOfUp e port = none ∧ u.ingressHeld port = false ∧
      (let d0 := (u.vdpOf e (u.slotOwner e port) port).getD 0;
      (u.badTlp port (u.slotOwner e port) d0 r (u.portMps e port)).isSome = true)) ∧
    (let s : State := eb []; let port : Nat := 0; let r : Req := { req0 with rid := 0xFFFF };
      let u := s.rxTlp port (reqFc r) r.data.length; let e := u.tileEpoch (tileOf port); u.live? port = true ∧
      u.isVfl e port = false ∧ u.partOfUp e port = none ∧ u.ingressHeld port = false ∧ (let own := u.slotOwner e port;
      let d0 := (u.vdpOf e own port).getD 0; u.badTlp port own d0 r (u.portMps e port) = none ∧
      u.srcFunc e port r.rid = none)) ∧
    (let s : State := eb []; let port : Nat := 0; let r : Req := { req0 with atBits := 1 };
      let u := s.rxTlp port (reqFc r) r.data.length; let e := u.tileEpoch (tileOf port); u.live? port = true ∧
      u.isVfl e port = false ∧ u.partOfUp e port = none ∧ u.ingressHeld port = false ∧
      (let d0 := (u.vdpOf e (u.slotOwner e port) port).getD 0;
      u.badTlp port (u.slotOwner e port) d0 r (u.portMps e port) = none ∧
      ((u.srcFunc e port r.rid).any (fun f => decide (let p := u.bindPart e f;
      let seat := u.seatOf e p (.func f) r.pasid; r.atBits ≠ 0 ∧ (u.bindSw e f = u.switchNum e))) = true))) ∧
    (let s : State := { eb [] with set0 := [(bindReg 0 0, 0x08000001)] ++ ((eb []).set0.filter fun x => x.1 != bindReg 0 0) };
      let port : Nat := 0; let r : Req := { req0 with atBits := 1 }; let u := s.rxTlp port (reqFc r) r.data.length;
      let e := u.tileEpoch (tileOf port); u.live? port = true ∧ u.isVfl e port = false ∧ u.partOfUp e port = none ∧
      u.ingressHeld port = false ∧ (let d0 := (u.vdpOf e (u.slotOwner e port) port).getD 0;
      u.badTlp port (u.slotOwner e port) d0 r (u.portMps e port) = none ∧
      ((u.srcFunc e port r.rid).any (fun f => decide (let p := u.bindPart e f;
      let seat := u.seatOf e p (.func f) r.pasid; r.atBits ≠ 0 ∧ (¬(u.bindSw e f = u.switchNum e)))) = true))) ∧
    (let s : State := { eb [] with set0 := [(bindReg 0 0, 0x08000001)] ++ ((eb []).set0.filter fun x => x.1 != bindReg 0 0) };
      let port : Nat := 0; let r : Req := req0; let u := s.rxTlp port (reqFc r) r.data.length;
      let e := u.tileEpoch (tileOf port); u.live? port = true ∧ u.isVfl e port = false ∧ u.partOfUp e port = none ∧
      u.ingressHeld port = false ∧ (let d0 := (u.vdpOf e (u.slotOwner e port) port).getD 0;
      u.badTlp port (u.slotOwner e port) d0 r (u.portMps e port) = none ∧
      ((u.srcFunc e port r.rid).any (fun f => decide (let p := u.bindPart e f;
      let seat := u.seatOf e p (.func f) r.pasid; r.atBits = 0 ∧ (¬(u.bindSw e f = u.switchNum e)))) = true))) := by
  refine ⟨?_, ?_, ?_, ?_, ?_, ?_, ?_, ?_, ?_, ?_, ?_, ?_⟩ <;> decide +kernel
/-- The hypotheses of `RequestsEnteringAPort` can be met, part 2. -/
theorem witness_RequestsEnteringAPort_b :
    (let s : State := eb []; let port : Nat := 0; let r : Req := req0; let u := s.rxTlp port (reqFc r) r.data.length;
      let e := u.tileEpoch (tileOf port); u.live? port = true ∧ u.isVfl e port = false ∧ u.partOfUp e port = none ∧
      u.ingressHeld port = false ∧ (let own := u.slotOwner e port; let d0 := (u.vdpOf e own port).getD 0;
      u.badTlp port own d0 r (u.portMps e port) = none ∧ (let f := 0; u.srcFunc e port r.rid = some f ∧
      (let p := u.bindPart e f; let here := u.bindSw e f = u.switchNum e; let seat := u.seatOf e p (.func f) r.pasid;
      r.atBits = 0 ∧ here)))) ∧
    (let s : State := { eb [] with hv := { (eb []).hv with vp := [(0, { mse := true, memBase := 0x1000, memLimit := 0x1FFF, ecrcCheck := true }), (32, { ecrcCheck := true })] } };
      let port : Nat := 16; let p := 0; let q : CfgReq := { ask0 with ecrcBad := true };
      let u := s.rxTlp port 1 (if q.wr.isSome then 4 else 0); let e := u.tileEpoch (tileOf port); u.live? port = true ∧
      u.ingressHeld port = false ∧ u.partOfUp e port = some p ∧ u.ecrcFails e port q.ecrcBad = true) ∧
    (let s : State := { eb [] with host := { stamps := [(stopKey 0 1 0, { ft := 0, tile := 0, on := true })] } };
      let port : Nat := 16; let p := 0; let q : CfgReq := ask0; let u := s.rxTlp port 1 (if q.wr.isSome then 4 else 0);
      let e := u.tileEpoch (tileOf port); u.live? port = true ∧ u.ingressHeld port = false ∧ u.partOfUp e port = some p ∧
      u.ecrcFails e port q.ecrcBad = false ∧ u.partBlack (tileOf port) p = true) ∧
    (let s : State := eb []; let port : Nat := 16; let p := 0; let q : CfgReq := ask0;
      let u := s.rxTlp port 1 (if q.wr.isSome then 4 else 0); let e := u.tileEpoch (tileOf port); u.live? port = true ∧
      u.ingressHeld port = false ∧ u.partOfUp e port = some p ∧ u.ecrcFails e port q.ecrcBad = false ∧
      u.partBlack (tileOf port) p = false ∧ q.type1 = false) ∧
    (let s : State := eb []; let port : Nat := 16; let p := 0; let q : CfgReq := { ask0 with type1 := true };
      let u := s.rxTlp port 1 (if q.wr.isSome then 4 else 0); let e := u.tileEpoch (tileOf port); u.live? port = true ∧
      u.ingressHeld port = false ∧ u.partOfUp e port = some p ∧ u.ecrcFails e port q.ecrcBad = false ∧
      u.partBlack (tileOf port) p = false ∧ q.type1 = true ∧ q.bus = (u.vport p 32).sec) ∧
    (let s : State := eb []; let port : Nat := 16; let p := 0;
      let q : CfgReq := { ask0 with type1 := true, bus := 255 }; let u := s.rxTlp port 1 (if q.wr.isSome then 4 else 0);
      let e := u.tileEpoch (tileOf port); u.live? port = true ∧ u.ingressHeld port = false ∧ u.partOfUp e port = some p ∧
      u.ecrcFails e port q.ecrcBad = false ∧ u.partBlack (tileOf port) p = false ∧ q.type1 = true ∧
      q.bus ≠ (u.vport p 32).sec) ∧
    (let s : State := { tst [] [] with ilulysReset := true }; let port : Nat := 0; s.live? port = false) ∧
    (let s : State := { eb [] with arrivals := [.hostMemoryRequest 0 req0] }; let port : Nat := 0; let r : Req := req0;
      let u := s.rxTlp port (reqFc r) r.data.length; u.live? port = true ∧ u.ingressHeld port = true ∧
      u.isVfl (u.tileEpoch (tileOf port)) port = false ∧ u.partOfUp (u.tileEpoch (tileOf port)) port = none) ∧
    (let s : State := { eb [] with arrivals := [.hostMemoryRequest 16 req0] }; let port : Nat := 16;
      let r : Req := req0; let u := s.rxTlp port (reqFc r) r.data.length; u.live? port = true ∧ u.ingressHeld port = true) ∧
    (let s : State := { eb [] with arrivals := [.hostMemoryRequest 0 req0] }; let port : Nat := 0;
      let q : CfgReq := ask0; let u := s.rxTlp port 1 (if q.wr.isSome then 4 else 0); u.live? port = true ∧
      u.ingressHeld port = true) := by
  refine ⟨?_, ?_, ?_, ?_, ?_, ?_, ?_, ?_, ?_, ?_⟩ <;> decide +kernel
/-- The hypotheses of `ResetsAndFabricFunctionControls` can be met, part 1. -/
theorem witness_ResetsAndFabricFunctionControls_a :
    (let s : State := { eb [] with host := { stamps := [(stopKey 0 1 0, { ft := 0, tile := 0, on := true })] } };
      let p : Nat := 0; let f : Nat := 0; let rid : Nat := 0; let tag : Nat := 0; let vfs : List Nat := [];
      let port0 := s.upPort (s.entryEpoch p) p; let u := s.rxTlp port0 1 4; let e := u.entryEpoch p;
      let port := u.upPort e p; u.partEn e p = true ∧ u.live? port = true ∧ u.ingressHeld port = false ∧
      (let q : CfgReq := { rid := rid, tag := tag, type1 := true, bus := 0, devfn := 0, reg := 0, be := 15, sriov := none, wr := none };
      u.partBlack (tileOf port) p = true)) ∧
    (let s : State := eb []; let p : Nat := 0; let f : Nat := 16383; let rid : Nat := 0; let tag : Nat := 0;
      let vfs : List Nat := []; let port0 := s.upPort (s.entryEpoch p) p; let u := s.rxTlp port0 1 4;
      let e := u.entryEpoch p; let port := u.upPort e p; u.partEn e p = true ∧ u.live? port = true ∧
      u.ingressHeld port = false ∧
      (let q : CfgReq := { rid := rid, tag := tag, type1 := true, bus := 0, devfn := 0, reg := 0, be := 15, sriov := none, wr := none };
      u.partBlack (tileOf port) p = false ∧ (¬(u.vdpEn e p (u.bindVdp e f) = true ∧
      u.boundFn e p (u.bindVdp e f) (u.bindFn e f) = some f)))) ∧
    (let s : State := { eb [] with set0 := (eb []).set0 ++ [(bindReg 1 0, 0x101), (bindReg 1 1, 1)] };
      let p : Nat := 0; let f : Nat := 0; let rid : Nat := 0; let tag : Nat := 0; let vfs : List Nat := [1, 257, 256];
      let port0 := s.upPort (s.entryEpoch p) p; let u := s.rxTlp port0 1 4; let e := u.entryEpoch p;
      let port := u.upPort e p; u.partEn e p = true ∧ u.live? port = true ∧ u.ingressHeld port = false ∧
      (let q : CfgReq := { rid := rid, tag := tag, type1 := true, bus := 0, devfn := 0, reg := 0, be := 15, sriov := none, wr := none };
      let far := (u.bindEntries e).any fun g => !u.bindVf e f && vfs.contains (u.bindRid e g) && !(u.bindSw e g == u.switchNum e && u.bindPart e g == p);
      u.partBlack (tileOf port) p = false ∧ (u.vdpEn e p (u.bindVdp e f) = true ∧
      u.boundFn e p (u.bindVdp e f) (u.bindFn e f) = some f) ∧ far = true)) ∧
    (let s : State := eb []; let p : Nat := 0; let f : Nat := 0; let rid : Nat := 0; let tag : Nat := 0;
      let vfs : List Nat := []; let port0 := s.upPort (s.entryEpoch p) p; let u := s.rxTlp port0 1 4;
      let e := u.entryEpoch p; let port := u.upPort e p; u.partEn e p = true ∧ u.live? port = true ∧
      u.ingressHeld port = false ∧
      (let q : CfgReq := { rid := rid, tag := tag, type1 := true, bus := 0, devfn := 0, reg := 0, be := 15, sriov := none, wr := none };
      let reach := u.vdpEn e p (u.bindVdp e f) = true ∧ u.boundFn e p (u.bindVdp e f) (u.bindFn e f) = some f;
      let far := (u.bindEntries e).any fun g => !u.bindVf e f && vfs.contains (u.bindRid e g) && !(u.bindSw e g == u.switchNum e && u.bindPart e g == p);
      u.partBlack (tileOf port) p = false ∧ reach ∧ far = false)) ∧
    (let s : State := tst [] [(partCfg 255, 1)]; let p : Nat := 255; let d : Nat := 0; s.partEn s.leadEpoch p = true ∧
      d ≠ 32) ∧
    (let s : State := eb []; let p : Nat := 0; s.partEn s.leadEpoch p = true) ∧
    (let s : State := eb []; let p : Nat := 0; s.partEn s.leadEpoch p = true) ∧
    (let s : State := tst [] [(partCfg 255, 1)]; let p : Nat := 255; s.partEn s.leadEpoch p = true) ∧
    (let s : State := tst [] [(partCfg 255, 1)]; let p : Nat := 255; s.partEn s.leadEpoch p = true) ∧
    (let s : State := eb []; let p : Nat := 0; s.partEn s.leadEpoch p = true) ∧
    (let s : State := eb []; let p : Nat := 0; s.partEn s.leadEpoch p = true) ∧
    (let s : State := tst [] [(partCfg 255, 1)]; let p : Nat := 255; s.partEn s.leadEpoch p = true) := by
  refine ⟨?_, ?_, ?_, ?_, ?_, ?_, ?_, ?_, ?_, ?_, ?_, ?_⟩ <;> decide +kernel
/-- The hypotheses of `ResetsAndFabricFunctionControls` can be met, part 2. -/
theorem witness_ResetsAndFabricFunctionControls_b :
    (let s : State := tst [] []; let p : Nat := 0; s.partEn s.leadEpoch p = false) := by
  decide +kernel
/-- The hypotheses of `CompletionsAndMessages` can be met, part 1. -/
theorem witness_CompletionsAndMessages_a :
    (let s : State := eb []; let port : Nat := 0; let c : Cpl := { cpl0 with data := List.replicate 5000 0 };
      let u := s.rxTlp port 2 c.data.length; let e := u.tileEpoch (tileOf port); u.live? port = true ∧
      u.isVfl e port = false ∧ u.ingressHeld port = false ∧ u.portMps e port < c.data.length) ∧
    (let s : State := { eb [] with hv := { (eb []).hv with vp := [(0, { mse := true, memBase := 0x1000, memLimit := 0x1FFF, ecrcCheck := true }), (32, { ecrcCheck := true })] } };
      let port : Nat := 0; let c : Cpl := { cpl0 with ecrcBad := true }; let u := s.rxTlp port 2 c.data.length;
      let e := u.tileEpoch (tileOf port); u.live? port = true ∧ u.isVfl e port = false ∧ u.ingressHeld port = false ∧
      c.data.length ≤ u.portMps e port ∧ u.ecrcFails e port c.ecrcBad = true) ∧
    (let s : State := eb []; let port : Nat := 16; let c : Cpl := cpl0; let u := s.rxTlp port 2 c.data.length;
      let e := u.tileEpoch (tileOf port); u.live? port = true ∧ u.isVfl e port = false ∧ u.ingressHeld port = false ∧
      c.data.length ≤ u.portMps e port ∧ u.ecrcFails e port c.ecrcBad = false ∧ u.outFor port none c = none) ∧
    (let s : State := { eb [] with outs := [{ out0 with injected := true }] }; let port : Nat := 0;
      let c : Cpl := cpl0; let u := s.rxTlp port 2 c.data.length; let e := u.tileEpoch (tileOf port);
      u.live? port = true ∧ u.isVfl e port = false ∧ u.ingressHeld port = false ∧ c.data.length ≤ u.portMps e port ∧
      u.ecrcFails e port c.ecrcBad = false ∧ ((u.outFor port none c).any (fun o => decide (o.injected = true)) = true)) ∧
    (let s : State := { eb [] with outs := [{ out0 with part := some 255 }] }; let port : Nat := 0;
      let c : Cpl := cpl0; let u := s.rxTlp port 2 c.data.length; let e := u.tileEpoch (tileOf port);
      u.live? port = true ∧ u.isVfl e port = false ∧ u.ingressHeld port = false ∧ c.data.length ≤ u.portMps e port ∧
      u.ecrcFails e port c.ecrcBad = false ∧ ((u.outFor port none c).any (fun o => decide (o.injected = false ∧
      u.placed e o = false)) = true)) ∧
    (let s : State := { eb [] with outs := [out0] }; let port : Nat := 0; let c : Cpl := cpl0;
      let u := s.rxTlp port 2 c.data.length; let e := u.tileEpoch (tileOf port); u.live? port = true ∧
      u.isVfl e port = false ∧ u.ingressHeld port = false ∧ c.data.length ≤ u.portMps e port ∧
      u.ecrcFails e port c.ecrcBad = false ∧ (let o := out0; u.outFor port none c = some o ∧ o.injected = false ∧
      u.placed e o = true ∧ o.purpose = .forward)) ∧
    (let s : State := { eb [] with outs := [{ out0 with purpose := .ringFetch 0 }] }; let port : Nat := 0;
      let c : Cpl := cpl0; let u := s.rxTlp port 2 c.data.length; let e := u.tileEpoch (tileOf port);
      u.live? port = true ∧ u.isVfl e port = false ∧ u.ingressHeld port = false ∧ c.data.length ≤ u.portMps e port ∧
      u.ecrcFails e port c.ecrcBad = false ∧ ((u.outFor port none c).any (fun o => decide (o.injected = false ∧
      u.placed e o = true ∧ o.purpose ≠ .forward)) = true)) ∧
    (let s : State := { eb [] with pkts := [{ pkt0 with cls := .nonPosted, npWait := true, ports := [16], loc := .egress }] };
      let port : Nat := 16; let p := { pkt0 with cls := .nonPosted, npWait := true, ports := [16], loc := .egress };
      let ws := s.pkts.filter fun q => q.npWait && q.ports.contains port;
      ((ws.find? (·.mgmt)).orElse fun _ => ws.head?) = some p ∧ s.portReady port = true ∧ s.entryFree port p = true ∧
      s.canLeave port p = true) ∧
    (let s : State := { eb [] with outs := [{ out0 with injected := true }] }; let n : Nat := 0; let id : Nat := 0;
      ((s.outs.find? fun k => k.id == id && k.tile == n)).isSome = true ∧ s.operates n = true) ∧
    (let s : State := { tst [] [] with links := [(0, { moved := [{ vc := 0, hdr := [], body := [], blocks := 1 }] })] };
      let port : Nat := 0; (s.linkSt (.port port)).moved ≠ []) ∧
    (let s : State := tst [(portStatus 1020, 9)] [(portCfg 1020, 0x13)]; let port : Nat := 1020;
      let k : VflPkt := { dst := 0, src := 0, kind := 4, ordered := false, ro := false, svc := 0, mgmtVc := false, body := .mgmt };
      (s.linkSt (.port port)).moved = [] ∧ s.live? port = true ∧ s.isVfl (s.tileEpoch (tileOf port)) port = true ∧
      s.ingressHeld port = false ∧ (let undefinedKind := 4 ≤ k.kind ∨ (k.kind = 2 ∧ k.mgmtVc = false); undefinedKind)) ∧
    (let s : State := tst [(portStatus 1020, 9)] [(portCfg 1020, 0x13)]; let port : Nat := 1020;
      let k : VflPkt := { vpkt0 with kind := 3 }; (s.linkSt (.port port)).moved = [] ∧ s.live? port = true ∧
      s.isVfl (s.tileEpoch (tileOf port)) port = true ∧ s.ingressHeld port = false ∧ (¬(4 ≤ k.kind ∨ (k.kind = 2 ∧
      k.mgmtVc = false))) ∧ k.kind = 3) := by
  refine ⟨?_, ?_, ?_, ?_, ?_, ?_, ?_, ?_, ?_, ?_, ?_, ?_⟩ <;> decide +kernel
/-- The hypotheses of `CompletionsAndMessages` can be met, part 2. -/
theorem witness_CompletionsAndMessages_b :
    (let s : State := tst [(portStatus 1020, 9)] [(portCfg 1020, 0x13)]; let port : Nat := 1020;
      let k : VflPkt := vpkt0; (s.linkSt (.port port)).moved = [] ∧ s.live? port = true ∧
      s.isVfl (s.tileEpoch (tileOf port)) port = true ∧ s.ingressHeld port = false ∧ (let e := s.tileEpoch (tileOf port);
      (¬(4 ≤ k.kind ∨ (k.kind = 2 ∧ k.mgmtVc = false))) ∧ k.kind ≠ 3 ∧ fidSw k.dst = s.switchNum e)) ∧
    (let s : State := tst [(portStatus 1020, 9)] [(portCfg 1020, 0x13)]; let port : Nat := 1020;
      let k : VflPkt := { dst := 65535, src := 0, kind := 0, ordered := false, ro := false, svc := 0, mgmtVc := false, body := .req req0 false };
      (s.linkSt (.port port)).moved = [] ∧ s.live? port = true ∧ s.isVfl (s.tileEpoch (tileOf port)) port = true ∧
      s.ingressHeld port = false ∧ (let e := s.tileEpoch (tileOf port); let undefinedKind := 4 ≤ k.kind ∨ (k.kind = 2 ∧
      k.mgmtVc = false); (¬undefinedKind) ∧ k.kind ≠ 3 ∧ fidSw k.dst ≠ s.switchNum e)) ∧
    (let s : State := { eb [] with hv := { (eb []).hv with vp := [(0, { mse := true, memBase := 0x1000, memLimit := 0x1FFF, ecrcCheck := true }), (32, { ecrcCheck := true })] } };
      let port : Nat := 0; let rid := 0; let d : List Byte := []; let pin : Nat := 3; let a : Bool := true;
      let bad : Bool := true; let u := s.rxTlp port 0 0; let e := u.tileEpoch (tileOf port); u.live? port = true ∧
      u.isVfl e port = false ∧ u.partOfUp e port = none ∧ u.ingressHeld port = false ∧ u.ecrcFails e port bad = true) ∧
    (let s : State := eb []; let port : Nat := 0; let rid := 65535; let d : List Byte := []; let pin : Nat := 3;
      let a : Bool := true; let bad : Bool := false; let u := s.rxTlp port 0 0; let e := u.tileEpoch (tileOf port);
      u.live? port = true ∧ u.isVfl e port = false ∧ u.partOfUp e port = none ∧ u.ingressHeld port = false ∧
      u.ecrcFails e port bad = false ∧ u.srcFunc e port rid = none) ∧
    (let s : State := { eb [] with hv := { (eb []).hv with vp := [(0, { mse := true, memBase := 0x1000, memLimit := 0x1FFF, ecrcCheck := true }), (32, { ecrcCheck := true })] } };
      let port : Nat := 0; let rid := 0; let d : List Byte := []; let pin : Nat := 0; let a : Bool := false;
      let bad : Bool := false; let u := s.rxTlp port 0 0; let e := u.tileEpoch (tileOf port); u.live? port = true ∧
      u.isVfl e port = false ∧ u.partOfUp e port = none ∧ u.ingressHeld port = false ∧ u.ecrcFails e port bad = false ∧
      (u.srcFunc e port rid).isSome = true) ∧
    (let s : State := { eb [] with hv := { (eb []).hv with vp := [(0, { mse := true, memBase := 0x1000, memLimit := 0x1FFF, ecrcCheck := true }), (32, { ecrcCheck := true })] } };
      let port : Nat := 0; let rid := 0; let m : MsgKind := .pmPme; let d : List Byte := []; let bad : Bool := true;
      let u := s.rxTlp port 0 d.length; let e := u.tileEpoch (tileOf port); u.live? port = true ∧
      u.isVfl e port = false ∧ u.ingressHeld port = false ∧ u.ecrcFails e port bad = true) ∧
    (let s : State := eb []; let port : Nat := 16; let rid := 0; let m : MsgKind := .pmPme; let d : List Byte := [];
      let bad : Bool := false; let u := s.rxTlp port 0 d.length; let e := u.tileEpoch (tileOf port);
      u.live? port = true ∧ u.isVfl e port = false ∧ u.ingressHeld port = false ∧ u.ecrcFails e port bad = false ∧
      (let p := 0; u.partOfUp e port = some p)) ∧
    (let s : State := { eb [] with hv := { (eb []).hv with vp := [(0, { mse := true, memBase := 0x1000, memLimit := 0x1FFF, ecrcCheck := true }), (32, { ecrcCheck := true })] } };
      let port : Nat := 0; let rid := 0; let m : MsgKind := .pmPme; let d : List Byte := []; let bad : Bool := false;
      let u := s.rxTlp port 0 d.length; let e := u.tileEpoch (tileOf port); u.live? port = true ∧
      u.isVfl e port = false ∧ u.ingressHeld port = false ∧ u.ecrcFails e port bad = false ∧ u.partOfUp e port = none) := by
  refine ⟨?_, ?_, ?_, ?_, ?_, ?_, ?_, ?_⟩ <;> decide +kernel
/-- The hypotheses of `ApertureAccesses` can be met, part 1. -/
theorem witness_ApertureAccesses_a :
    (let s : State := eb []; let p : Nat := 0; let who : Requester := .host 0;
      let r : Req := { req0 with poisoned := true }; s.partEn (s.entryEpoch p) p = true ∧
      s.here (s.homeTile (s.entryEpoch p) p) = true ∧ s.barWaits p who r.pasid = false ∧
      (let w : Req := { r with kind := .memWrite }; let e := s.entryEpoch p; let n := s.homeTile e p;
      let o := s.bar4Ofs e p w; w.poisoned = true)) ∧
    (let s : State := { eb [] with set0 := ((eb []).set0.filter fun x => x.1 != stBind 0 0) }; let p : Nat := 0;
      let who : Requester := .host 0; let r : Req := { req0 with kind := .memRead }; s.partEn (s.entryEpoch p) p = true ∧
      s.here (s.homeTile (s.entryEpoch p) p) = true ∧ s.barWaits p who r.pasid = false ∧
      (let w : Req := { r with kind := .memWrite }; let e := s.entryEpoch p; let n := s.homeTile e p;
      let o := s.bar4Ofs e p w; w.poisoned = false ∧ s.seatOf e p who w.pasid = none)) ∧
    (let s : State := eb []; let p : Nat := 0; let who : Requester := .host 0;
      let r : Req := { req0 with kind := .memWrite, addr := 0xFFF00000 }; s.partEn (s.entryEpoch p) p = true ∧
      s.here (s.homeTile (s.entryEpoch p) p) = true ∧ s.barWaits p who r.pasid = false ∧
      (let w : Req := { r with kind := .memWrite }; let e := s.entryEpoch p; let n := s.homeTile e p;
      let o := s.bar4Ofs e p w; let hit := fun k => (s.apHit e n p o).filter fun x => s.apAdmits e n x k w;
      w.poisoned = false ∧ (let k := 0; s.seatOf e p who w.pasid = some k ∧ hit k = none))) ∧
    (let s : State := eb [(puCtrl 0 0, 1)]; let p : Nat := 0; let who : Requester := .host 0;
      let r : Req := { req0 with kind := .memRead }; s.partEn (s.entryEpoch p) p = true ∧
      s.here (s.homeTile (s.entryEpoch p) p) = true ∧ s.barWaits p who r.pasid = false ∧
      (let w : Req := { r with kind := .memWrite }; let e := s.entryEpoch p; let n := s.homeTile e p;
      let o := s.bar4Ofs e p w; let hit := fun k => (s.apHit e n p o).filter fun x => s.apAdmits e n x k w;
      w.poisoned = false ∧ (let k := 0; s.seatOf e p who w.pasid = some k ∧ (let x := 0; hit k = some x ∧
      s.puOff n k = true ∧ s.seatCode n k = none)))) ∧
    (let s : State := { eb [] with seats := [(0, { st := 2 })] }; let p : Nat := 0; let who : Requester := .host 0;
      let r : Req := { req0 with kind := .memWrite }; s.partEn (s.entryEpoch p) p = true ∧
      s.here (s.homeTile (s.entryEpoch p) p) = true ∧ s.barWaits p who r.pasid = false ∧
      (let w : Req := { r with kind := .memWrite }; let e := s.entryEpoch p; let n := s.homeTile e p;
      let o := s.bar4Ofs e p w; let hit := fun k => (s.apHit e n p o).filter fun x => s.apAdmits e n x k w;
      w.poisoned = false ∧ (let k := 0; s.seatOf e p who w.pasid = some k ∧ (let x := 0; hit k = some x ∧
      (s.seatCode n k).isSome = true)))) ∧
    (let s : State := eb []; let p : Nat := 0; let who : Requester := .host 0;
      let r : Req := { req0 with kind := .memRead, pasid := some 5 }; s.partEn (s.entryEpoch p) p = true ∧
      s.here (s.homeTile (s.entryEpoch p) p) = true ∧ s.barWaits p who r.pasid = false ∧
      (let w : Req := { r with kind := .memWrite }; let e := s.entryEpoch p; let n := s.homeTile e p;
      let o := s.bar4Ofs e p w; let hit := fun k => (s.apHit e n p o).filter fun x => s.apAdmits e n x k w;
      w.poisoned = false ∧ (let k := 4095; s.seatOf e p who w.pasid = some k ∧ (let x := 0; hit k = some x ∧
      s.puOff n k = false ∧ s.seatCode n k = none ∧
      (s.puFaultOf e n k 1 (if reqNp w then 0 else 1) o w.len).isSome = true)))) ∧
    (let s : State := eb []; let p : Nat := 0; let who : Requester := .host 0;
      let r : Req := { req0 with kind := .memRead }; s.partEn (s.entryEpoch p) p = true ∧
      s.here (s.homeTile (s.entryEpoch p) p) = true ∧ s.barWaits p who r.pasid = false ∧
      (let w : Req := { r with kind := .memWrite }; let e := s.entryEpoch p; let n := s.homeTile e p;
      let o := s.bar4Ofs e p w; let hit := fun k => (s.apHit e n p o).filter fun x => s.apAdmits e n x k w;
      w.poisoned = false ∧ ((s.seatOf e p who w.pasid).any (fun k => decide (let x := 0; hit k = some x ∧
      s.puOff n k = false ∧ s.seatCode n k = none ∧
      s.puFaultOf e n k 1 (if reqNp w then 0 else 1) o w.len = none)) = true))) ∧
    (let s : State := eb []; let p : Nat := 0; let who : Requester := .host 0;
      let r : Req := { req0 with kind := .atomicOp }; s.partEn (s.entryEpoch p) p = true ∧
      s.here (s.homeTile (s.entryEpoch p) p) = true ∧ s.barWaits p who r.pasid = false ∧
      (let w : Req := if r.kind = .memWrite then { r with kind := .memRead } else r; let e := s.entryEpoch p;
      let n := s.homeTile e p; let o := s.bar4Ofs e p w; w.kind ≠ .memRead)) ∧
    (let s : State := { eb [] with set0 := ((eb []).set0.filter fun x => x.1 != stBind 0 0) }; let p : Nat := 0;
      let who : Requester := .host 0; let r : Req := { req0 with kind := .memWrite };
      s.partEn (s.entryEpoch p) p = true ∧ s.here (s.homeTile (s.entryEpoch p) p) = true ∧
      s.barWaits p who r.pasid = false ∧ (let w : Req := if r.kind = .memWrite then { r with kind := .memRead } else r;
      let e := s.entryEpoch p; let n := s.homeTile e p; let o := s.bar4Ofs e p w; w.kind = .memRead ∧
      s.seatOf e p who w.pasid = none)) ∧
    (let s : State := eb []; let p : Nat := 0; let who : Requester := .host 0;
      let r : Req := { req0 with kind := .memRead, addr := 0xFFF00000 }; s.partEn (s.entryEpoch p) p = true ∧
      s.here (s.homeTile (s.entryEpoch p) p) = true ∧ s.barWaits p who r.pasid = false ∧
      (let w : Req := if r.kind = .memWrite then { r with kind := .memRead } else r; let e := s.entryEpoch p;
      let n := s.homeTile e p; let o := s.bar4Ofs e p w;
      let hit := fun k => (s.apHit e n p o).filter fun x => s.apAdmits e n x k w; w.kind = .memRead ∧ (let k := 0;
      s.seatOf e p who w.pasid = some k ∧ hit k = none))) ∧
    (let s : State := eb [(puCtrl 0 0, 1)]; let p : Nat := 0; let who : Requester := .host 0;
      let r : Req := { req0 with kind := .memWrite }; s.partEn (s.entryEpoch p) p = true ∧
      s.here (s.homeTile (s.entryEpoch p) p) = true ∧ s.barWaits p who r.pasid = false ∧
      (let w : Req := if r.kind = .memWrite then { r with kind := .memRead } else r; let e := s.entryEpoch p;
      let n := s.homeTile e p; let o := s.bar4Ofs e p w;
      let hit := fun k => (s.apHit e n p o).filter fun x => s.apAdmits e n x k w; w.kind = .memRead ∧ (let k := 0;
      s.seatOf e p who w.pasid = some k ∧ (let x := 0; hit k = some x ∧ s.puOff n k = true ∧ s.seatCode n k = none)))) ∧
    (let s : State := { eb [] with seats := [(0, { st := 2 })] }; let p : Nat := 0; let who : Requester := .host 0;
      let r : Req := { req0 with kind := .memRead }; s.partEn (s.entryEpoch p) p = true ∧
      s.here (s.homeTile (s.entryEpoch p) p) = true ∧ s.barWaits p who r.pasid = false ∧
      (let w : Req := if r.kind = .memWrite then { r with kind := .memRead } else r; let e := s.entryEpoch p;
      let n := s.homeTile e p; let o := s.bar4Ofs e p w;
      let hit := fun k => (s.apHit e n p o).filter fun x => s.apAdmits e n x k w; w.kind = .memRead ∧ (let k := 0;
      s.seatOf e p who w.pasid = some k ∧ (let x := 0; hit k = some x ∧ (s.seatCode n k).isSome = true)))) := by
  refine ⟨?_, ?_, ?_, ?_, ?_, ?_, ?_, ?_, ?_, ?_, ?_, ?_⟩ <;> decide +kernel
/-- The hypotheses of `ApertureAccesses` can be met, part 2. -/
theorem witness_ApertureAccesses_b :
    (let s : State := eb []; let p : Nat := 0; let who : Requester := .host 0;
      let r : Req := { req0 with kind := .memWrite, pasid := some 5 }; s.partEn (s.entryEpoch p) p = true ∧
      s.here (s.homeTile (s.entryEpoch p) p) = true ∧ s.barWaits p who r.pasid = false ∧
      (let w : Req := if r.kind = .memWrite then { r with kind := .memRead } else r; let e := s.entryEpoch p;
      let n := s.homeTile e p; let o := s.bar4Ofs e p w;
      let hit := fun k => (s.apHit e n p o).filter fun x => s.apAdmits e n x k w; w.kind = .memRead ∧ (let k := 4095;
      s.seatOf e p who w.pasid = some k ∧ (let x := 0; hit k = some x ∧ s.puOff n k = false ∧ s.seatCode n k = none ∧
      (s.puFaultOf e n k 1 (if reqNp w then 0 else 1) o w.len).isSome = true)))) ∧
    (let s : State := eb []; let p : Nat := 0; let who : Requester := .host 0; let r : Req := req0;
      s.partEn (s.entryEpoch p) p = true ∧ s.here (s.homeTile (s.entryEpoch p) p) = true ∧
      s.barWaits p who r.pasid = false ∧ (let w : Req := if r.kind = .memWrite then { r with kind := .memRead } else r;
      let e := s.entryEpoch p; let n := s.homeTile e p; let o := s.bar4Ofs e p w;
      let hit := fun k => (s.apHit e n p o).filter fun x => s.apAdmits e n x k w; w.kind = .memRead ∧
      ((s.seatOf e p who w.pasid).any (fun k => decide (let x := 0; hit k = some x ∧ s.puOff n k = false ∧
      s.seatCode n k = none ∧ s.puFaultOf e n k 1 (if reqNp w then 0 else 1) o w.len = none)) = true))) ∧
    (let s : State := { eb [] with wc := { stuck := [{ tile := 0, seat := 0, entry := 0, epoch := false, addr := 0, data := [], be := [], store := 0 }] } };
      let p : Nat := 0; let who : Requester := .host 0; let r : Req := req0; s.barWaits p who r.pasid = true) ∧
    (let s : State := { { tst [] [] with wc := { lines := [{ id := 0, tile := 7, seat := 0, entry := 0, addr := 0, epoch := false, data := [], mask := 0, flushing := false }] } } with sch := { withheld := [4096 * 7] } };
      let n : Nat := 7; let l : Nat := 0;
      let k := { id := 0, tile := 7, seat := 0, entry := 0, addr := 0, epoch := false, data := [], mask := 0, flushing := false };
      (s.wc.lines.find? fun q => q.id == l && q.tile == n && !q.flushing) = some k) ∧
    (let s : State := { tst [] [] with wc := { lines := [{ id := 0, tile := 7, seat := 0, entry := 0, addr := 0, epoch := false, data := [], mask := 0, flushing := true }] } };
      let n : Nat := 7; let l : Nat := 0;
      let k := { id := 0, tile := 7, seat := 0, entry := 0, addr := 0, epoch := false, data := [], mask := 0, flushing := true };
      (s.wc.lines.find? fun q => q.id == l && q.tile == n && q.flushing) = some k ∧ s.operates n = true) ∧
    (let s : State := eb []; let n : Nat := 0; let l : Nat := 0;
      (s.wc.lines.find? fun q => q.id == l && q.tile == n && q.flushing) = none) := by
  refine ⟨?_, ?_, ?_, ?_, ?_, ?_⟩ <;> decide +kernel
/-- The hypotheses of `FencesAndContainedEntries` can be met, part 1. -/
theorem witness_FencesAndContainedEntries_a :
    (let s : State := { eb [] with set0 := ((eb []).set0.filter fun x => x.1 != stBind 0 0) }; let p : Nat := 0;
      let who : Requester := .host 0; let seat : Nat := 0; let r : Req := { req0 with kind := .memRead, len := 8 };
      s.partEn (s.entryEpoch p) p = true ∧ s.here (s.homeTile (s.entryEpoch p) p) = true ∧
      s.barWaits p who r.pasid = false ∧ (let e := s.entryEpoch p; ¬(s.seatOf e p who r.pasid = some seat ∧
      s.bound e seat = true ∧ s.seatPart e seat = p))) ∧
    (let s : State := eb []; let p : Nat := 0; let who : Requester := .host 0; let seat : Nat := 0;
      let r : Req := { req0 with kind := .memRead, len := 3 }; s.partEn (s.entryEpoch p) p = true ∧
      s.here (s.homeTile (s.entryEpoch p) p) = true ∧ s.barWaits p who r.pasid = false ∧ (let e := s.entryEpoch p;
      (s.seatOf e p who r.pasid = some seat ∧ s.bound e seat = true ∧ s.seatPart e seat = p) ∧
      (¬((r.len = 4 ∨ r.len = 8) ∧ r.addr.toNat % r.len = 0)))) ∧
    (let s : State := { eb [(puCtrl 0 0, 1)] with pu := { held := [{ id := 0, tile := 0, seat := 0, item := .work 0 desc0 none }] } };
      let p : Nat := 0; let who : Requester := .host 0; let seat : Nat := 0;
      let r : Req := { req0 with kind := .memRead, len := 8 }; s.partEn (s.entryEpoch p) p = true ∧
      s.here (s.homeTile (s.entryEpoch p) p) = true ∧ s.barWaits p who r.pasid = false ∧ (let e := s.entryEpoch p;
      let n := s.homeTile e p; (s.seatOf e p who r.pasid = some seat ∧ s.bound e seat = true ∧ s.seatPart e seat = p) ∧
      ((r.len = 4 ∨ r.len = 8) ∧ r.addr.toNat % r.len = 0) ∧ (s.puOff n seat = true ∧
      (s.pu.held.any fun h => h.tile == n && h.seat == seat) = true))) ∧
    (let s : State := eb []; let p : Nat := 0; let who : Requester := .host 0; let seat : Nat := 0;
      let r : Req := req0; s.partEn (s.entryEpoch p) p = true ∧ s.here (s.homeTile (s.entryEpoch p) p) = true ∧
      s.barWaits p who r.pasid = false ∧ (let e := s.entryEpoch p; let n := s.homeTile e p;
      let own := s.seatOf e p who r.pasid = some seat ∧ s.bound e seat = true ∧ s.seatPart e seat = p;
      let fits := (r.len = 4 ∨ r.len = 8) ∧ r.addr.toNat % r.len = 0; let queued := s.puOff n seat = true ∧
      (s.pu.held.any fun h => h.tile == n && h.seat == seat) = true; own ∧ fits ∧ (¬queued))) ∧
    (let s : State := { eb [] with wc := { stuck := [{ tile := 0, seat := 0, entry := 0, epoch := false, addr := 0, data := [], be := [], store := 0 }] } };
      let p : Nat := 0; let who : Requester := .host 0; let r : Req := { req0 with kind := .memRead, len := 8 };
      s.partEn (s.entryEpoch p) p = true ∧ s.here (s.homeTile (s.entryEpoch p) p) = true ∧
      s.barWaits p who r.pasid = true) ∧
    (let s : State := { tst [] [] with wc := { fences := [{ id := 0, tile := 7, part := 0, seat := 0, origin := .host 0, rid := 0, tag := 0, tc := 0, len := 4, epoch := false, reads := [{ dest := 0, entry := 0, addr := 0 }], tally := {} }] } };
      let n : Nat := 7; let k : Nat := 0; let j : Nat := 0;
      ((s.wc.fences.find? fun y => y.id == k && y.tile == n && !y.ended)).any (fun f => decide (((f.reads.find? fun y => y.dest == j)).isSome = true ∧
      (let st : CplStatus := .ur; let po : Bool := false; st ≠ .sc ∨ po = true))) = true) ∧
    (let s : State := { tst [] [] with wc := { fences := [{ id := 0, tile := 0, part := 0, seat := 0, origin := .host 0, rid := 0, tag := 0, tc := 0, len := 4, epoch := false, reads := [{ dest := 0, entry := 0, addr := 0 }], tally := {} }] } };
      let n : Nat := 0; let k : Nat := 0; let j : Nat := 0;
      let f := { id := 0, tile := 0, part := 0, seat := 0, origin := .host 0, rid := 0, tag := 0, tc := 0, len := 4, epoch := false, reads := [{ dest := 0, entry := 0, addr := 0 }], tally := {} };
      let q := { dest := 0, entry := 0, addr := 0 };
      (s.wc.fences.find? fun y => y.id == k && y.tile == n && !y.ended) = some f ∧
      (f.reads.find? fun y => y.dest == j) = some q) ∧
    (let s : State := { tst [] [] with wc := { fences := [{ id := 0, tile := 0, part := 0, seat := 0, origin := .host 0, rid := 0, tag := 0, tc := 0, len := 4, epoch := false, reads := [{ dest := 0, entry := 0, addr := 0 }], tally := {} }] } };
      let n : Nat := 0; let k : Nat := 0;
      let f := { id := 0, tile := 0, part := 0, seat := 0, origin := .host 0, rid := 0, tag := 0, tc := 0, len := 4, epoch := false, reads := [{ dest := 0, entry := 0, addr := 0 }], tally := {} };
      (s.wc.fences.find? fun y => y.id == k && y.tile == n && !y.ended) = some f) ∧
    (let s : State := { tst [] [] with wc := { fences := [{ id := 0, tile := 0, part := 0, seat := 0, origin := .host 0, rid := 0, tag := 0, tc := 0, len := 4, epoch := false, reads := [{ dest := 0, entry := 0, addr := 0 }], tally := {} }] } };
      let n : Nat := 0; s.here n = true) ∧
    (let s : State := eb []; let n : Nat := 0; s.here n = true) ∧
    (let s : State := { tst [] [] with wc := { contained := [(entKey 7 16383, true)] } }; let agent : Nat := 0;
      let n : Nat := 7; let v : Word := 0x3FFF; s.here n = true ∧ s.contained n (field v 13 0) = true) ∧
    (let s : State := tst [] []; let agent : Nat := 0; let n : Nat := 7; let v : Word := 0; s.here n = true ∧
      s.contained n (field v 13 0) = false) := by
  refine ⟨?_, ?_, ?_, ?_, ?_, ?_, ?_, ?_, ?_, ?_, ?_, ?_⟩ <;> decide +kernel
/-- The hypotheses of `FencesAndContainedEntries` can be met, part 2. -/
theorem witness_FencesAndContainedEntries_b :
    (let s : State := { tst [] [] with wc := { fences := [{ id := 0, tile := 0, part := 0, seat := 0, origin := .host 0, rid := 0, tag := 0, tc := 0, len := 4, epoch := false, reads := [{ dest := 0, entry := 0, addr := 0 }], tally := {} }] } };
      let n : Nat := 0; s.here n = true) := by
  decide +kernel
/-- The hypotheses of `WindowTableAndRevocation` can be met. -/
theorem witness_WindowTableAndRevocation :
    (let s : State := tst [] []; s.winReady = false) ∧
    (let s : State := eb []; s.winReady = true) ∧
    (let s : State := tst [(0x0014000C, 2)] []; s.flag 0x0014000C 1 = true) ∧
    (let s : State := tst [] []; s.flag 0x0014000C 1 = false) ∧
    (let s : State := eb []; let n : Nat := 0; let i : Nat := 0; s.here n = true ∧ s.winReady = true ∧
      s.winTile i = n ∧ i < 2 ^ s.winN) ∧
    (let s : State := { tst [] [] with win := { tbl := [(0, { state := 2, owner := 0 })], revokes := [{ index := 0, wr := none, seat := none, flushing := false }] } };
      let n : Nat := 0; let i : Nat := 0; s.winTile i = n ∧ s.here n = true ∧ (s.window i).inflight = 0 ∧
      (s.win.revokes.any fun r => r.index == i && !r.flushing) = true) ∧
    (let s : State := { tst [] [] with win := { tbl := [(0, { state := 2, owner := 0 })], revokes := [{ index := 0, wr := none, seat := none, flushing := true }] } };
      let n : Nat := 0; let i : Nat := 0; s.winTile i = n ∧ s.here n = true ∧
      ((s.win.revokes.find? fun q => q.index == i && q.flushing)).isSome = true) ∧
    (let s : State := { tst [] [] with win := { viol := [(0, some { n := 0, key := 0, fid := 0, code := 3, offset := 0, seat := 0 })] } };
      let n : Nat := 0; let i : Nat := 0; let q := { n := 0, key := 0, fid := 0, code := 3, offset := 0, seat := 0 };
      s.winTile i = n ∧ tget none s.win.viol i = some q ∧ q.n = 0) ∧
    (let s : State := { tst [] [] with win := { viol := [(0, some { n := 1, key := 0, fid := 0, code := 3, offset := 0, seat := 0 })] } };
      let n : Nat := 0; let i : Nat := 0; let q := { n := 1, key := 0, fid := 0, code := 3, offset := 0, seat := 0 };
      s.winTile i = n ∧ tget none s.win.viol i = some q ∧ q.n ≠ 0) := by
  refine ⟨?_, ?_, ?_, ?_, ?_, ?_, ?_, ?_, ?_⟩ <;> decide +kernel
/-- The hypotheses of `EngineCommandsServedAtOnce` can be met. -/
theorem witness_EngineCommandsServedAtOnce :
    (let s : State := eb []; let ring : Nat := 0; let seat := 0; let d0 : Desc := desc0;
      let d : Desc := { d0 with opcode := 0x00 }; s.admits ring seat d none = true ∧
      (s.withWr ring seat d none).canStart (s.wrOf ring seat d none) = true) ∧
    (let s : State := eb []; let ring : Nat := 0; let seat := 0; let d0 : Desc := { desc0 with rKey := 1 };
      let d : Desc := { d0 with opcode := 0x04 }; s.admits ring seat d none = true ∧
      (s.withWr ring seat d none).canStart (s.wrOf ring seat d none) = true) ∧
    (let s : State := eb []; let ring : Nat := 0; let seat := 0; let d0 : Desc := desc0;
      let d : Desc := { d0 with opcode := 0x08 }; s.admits ring seat d none = true ∧
      (s.withWr ring seat d none).canStart (s.wrOf ring seat d none) = true) ∧
    (let s : State := eb []; let ring : Nat := 0; let seat := 0; let d0 : Desc := desc0;
      let d : Desc := { d0 with opcode := 0x09 }; s.admits ring seat d none = true ∧
      (s.withWr ring seat d none).canStart (s.wrOf ring seat d none) = true) ∧
    (let s : State := eb []; let ring : Nat := 0; let seat := 0; let d0 : Desc := { desc0 with rKey := 1 };
      let d : Desc := { d0 with opcode := 0x10 }; s.admits ring seat d none = true ∧
      (s.withWr ring seat d none).canStart (s.wrOf ring seat d none) = true) ∧
    (let s : State := eb []; let ring : Nat := 0; let seat := 0; let d0 : Desc := { desc0 with rKey := 1 };
      let d : Desc := { d0 with opcode := 0x11 }; s.admits ring seat d none = true ∧
      (s.withWr ring seat d none).canStart (s.wrOf ring seat d none) = true) ∧
    (let s : State := { eb [] with eng := { lru := [(0, [0])] } }; let ring : Nat := 0; let seat := 0;
      let d0 : Desc := desc0; let c : CtxInit := ctx0; let d : Desc := { d0 with opcode := 0x20 };
      s.admits ring seat d (some c) = true ∧
      (s.withWr ring seat d (some c)).canStart (s.wrOf ring seat d (some c)) = true) ∧
    (let s : State := eb []; let ring : Nat := 0; let seat := 0; let d0 : Desc := desc0;
      let d : Desc := { d0 with opcode := 0x21 }; s.admits ring seat d none = true ∧
      (s.withWr ring seat d none).canStart (s.wrOf ring seat d none) = true) := by
  refine ⟨?_, ?_, ?_, ?_, ?_, ?_, ?_, ?_⟩ <;> decide +kernel
/-- The hypotheses of `EngineCommandsWithPackets` can be met. -/
theorem witness_EngineCommandsWithPackets :
    (let s : State := eb []; let ring : Nat := 0; let seat := 0; let d0 : Desc := desc0;
      let d : Desc := { d0 with opcode := 0x01 }; s.admits ring seat d none = true ∧
      (s.withWr ring seat d none).canStart (s.wrOf ring seat d none) = true) ∧
    (let s : State := eb []; let ring : Nat := 0; let seat := 0; let d0 : Desc := desc0;
      let d : Desc := { d0 with opcode := 0x02 }; s.admits ring seat d none = true ∧
      (s.withWr ring seat d none).canStart (s.wrOf ring seat d none) = true) ∧
    (let s : State := eb []; let ring : Nat := 0; let seat := 0; let d0 : Desc := desc0;
      let d : Desc := { d0 with opcode := 0x03 }; s.admits ring seat d none = true ∧
      (s.withWr ring seat d none).canStart (s.wrOf ring seat d none) = true) ∧
    (let s : State := eb []; let ring : Nat := 0; let seat := 0; let d0 : Desc := desc0;
      let d : Desc := { d0 with opcode := 0x05 }; s.admits ring seat d none = true ∧
      (s.withWr ring seat d none).canStart (s.wrOf ring seat d none) = true) ∧
    (let s : State := eb []; let ring : Nat := 0; let seat := 0; let d0 : Desc := desc0;
      let d : Desc := { d0 with opcode := 0x06 }; s.admits ring seat d none = true ∧
      (s.withWr ring seat d none).canStart (s.wrOf ring seat d none) = true) ∧
    (let s : State := eb []; let ring : Nat := 0; let seat := 0; let d0 : Desc := desc0;
      let d : Desc := { d0 with opcode := 0x07 }; s.admits ring seat d none = true ∧
      (s.withWr ring seat d none).canStart (s.wrOf ring seat d none) = true) ∧
    (let s : State := { tst [] [] with eng := { wrs := [{ wr0 with st := .held, q := some 0, d := { desc0 with trig := false, opcode := 1 } }] } };
      let id : Nat := 0; let w := { wr0 with st := .held, q := some 0, d := { desc0 with trig := false, opcode := 1 } };
      s.wr id = some w ∧ s.here w.tile = true ∧ s.canStart w = true) ∧
    (let s : State := { tst [] [] with eng := { wrs := [{ wr0 with st := .started, q := some 0, d := { desc0 with trig := false, opcode := 1 } }] } };
      let id : Nat := 0;
      let w := { wr0 with st := .started, q := some 0, d := { desc0 with trig := false, opcode := 1 } };
      s.wr id = some w ∧ s.here w.tile = true ∧ s.canStart w = false) := by
  refine ⟨?_, ?_, ?_, ?_, ?_, ?_, ?_, ?_⟩ <;> decide +kernel
/-- The hypotheses of `HeldAndFailedDescriptors` can be met. -/
theorem witness_HeldAndFailedDescriptors :
    (let s : State := tst [] []; let ring : Nat := 0; let seat : Nat := 0; let d0 : Desc := desc0;
      let k : CtxInit := ctx0;
      (([(0x00, none, .nop ring d0), (0x01, none, .write ring d0), (0x02, none, .read ring d0), (0x03, none, .send ring d0), (0x04, none, .recvPost ring d0), (0x05, none, .fetchAdd8 ring d0), (0x06, none, .cmpSwap8 ring d0), (0x07, none, .cmpSwap16 ring d0), (0x08, none, .fence ring d0), (0x09, none, .countAdd ring d0), (0x10, none, .winOpen ring d0), (0x11, none, .winRevoke ring d0), (0x20, some k, .qpCreate ring d0 k), (0x21, none, .qpDestroy ring d0)] : List (Nat × Option CtxInit × Instr)).all fun x => decide (let d : Desc := { d0 with opcode := x.1 };
      s.workOwner ring = none)) = true) ∧
    (let s : State := { eb [] with cont := { lost := [0] } }; let ring : Nat := 0; let seat : Nat := 0;
      let d0 : Desc := { desc0 with rKey := 1 }; let k : CtxInit := ctx0;
      (([(0x00, none, .nop ring d0), (0x01, none, .write ring d0), (0x02, none, .read ring d0), (0x03, none, .send ring d0), (0x04, none, .recvPost ring d0), (0x05, none, .fetchAdd8 ring d0), (0x06, none, .cmpSwap8 ring d0), (0x07, none, .cmpSwap16 ring d0), (0x08, none, .fence ring d0), (0x09, none, .countAdd ring d0), (0x10, none, .winOpen ring d0), (0x11, none, .winRevoke ring d0), (0x20, some k, .qpCreate ring d0 k), (0x21, none, .qpDestroy ring d0)] : List (Nat × Option CtxInit × Instr)).all fun x => decide (let d : Desc := { d0 with opcode := x.1 };
      let t := s.descTile seat d; s.workOwner ring = some seat ∧ s.here t = false)) = true) ∧
    (let s : State := { eb [] with eng := { (eb []).eng with lru := [] }, win := { (eb []).win with lru := [] } };
      (ops0.filter fun x => x.1 != 0x10).all (fun x => decide (let d := op0 x.1; let t := s.descTile 0 d;
      s.workOwner 0 = some 0 ∧ s.here t = true ∧
      (descKey d).any (fun ⟨isWin, n⟩ => decide (s.isCached isWin t n = false ∧
      n < 2 ^ (if isWin then s.winN else s.qpQ))) = true)) = true) ∧
    (let s : State := { eb [] with seats := [(0, { st := 2 })] }; let ring : Nat := 0; let seat : Nat := 0;
      let d0 : Desc := { desc0 with rKey := 1 }; let k : CtxInit := ctx0;
      (([(0x00, none, .nop ring d0), (0x01, none, .write ring d0), (0x02, none, .read ring d0), (0x03, none, .send ring d0), (0x04, none, .recvPost ring d0), (0x05, none, .fetchAdd8 ring d0), (0x06, none, .cmpSwap8 ring d0), (0x07, none, .cmpSwap16 ring d0), (0x08, none, .fence ring d0), (0x09, none, .countAdd ring d0), (0x10, none, .winOpen ring d0), (0x11, none, .winRevoke ring d0), (0x20, some k, .qpCreate ring d0 k), (0x21, none, .qpDestroy ring d0)] : List (Nat × Option CtxInit × Instr)).all fun x => decide (let d : Desc := { d0 with opcode := x.1 };
      let c := x.2.1; let t := s.descTile seat d; let u := s.descAt seat d; s.servesDesc ring seat d = true ∧
      (((u.seatCode t seat).orElse fun _ => u.descCode t seat d c)).isSome = true)) = true) ∧
    (let s : State := eb [(puCtrl 0 0, 1)];
      (ops0.filter fun x => [1, 2, 3, 5, 6, 7, 0x10].contains x.1).all (fun x => decide (let d := op0 x.1;
      let t := s.descTile 0 d; s.servesDesc 0 0 d = true ∧ (s.descAt 0 d).seatCode t 0 = none ∧
      (s.descAt 0 d).descCode t 0 d x.2 = none ∧ (s.descAt 0 d).puOff t 0 = true ∧
      ((localRange d).isSome = true ∨ x.1 = 0x10))) = true) ∧
    (let s : State := { eb [] with sch := { withheld := [0] } };
      (ops0.filter fun x => x.1 != 0x20).all (fun x => decide (let d := op0 x.1; let t := s.descTile 0 d;
      s.admits 0 0 d x.2 = true ∧ (s.withWr 0 0 d x.2).canStart (s.wrOf 0 0 d x.2) = false)) = true) ∧
    (let s : State := { eb [] with sch := { withheld := [0] }, eng := { lru := [(0, [0])] } }; let d := op0 0x20;
      s.admits 0 0 d (some ctx0) = true ∧ (s.withWr 0 0 d (some ctx0)).canStart (s.wrOf 0 0 d (some ctx0)) = false) := by
  refine ⟨?_, ?_, ?_, ?_, ?_, ?_, ?_⟩ <;> decide +kernel
/-- The hypotheses of `EnginePacketsAreServed` can be met, part 1. -/
theorem witness_EnginePacketsAreServed_a :
    (let s : State := eb []; let h0 : EngHdr := { hdr0 with keyOrImm := 0 }; let data : List Byte := [1, 2, 3, 4];
      let h : EngHdr := { h0 with mtype := 0 }; let v := s.touch (s.pktKey h).1 (s.pktKey h).2.2 (s.pktKey h).2.1;
      let n := (s.pktKey h).2.2; let i := h.keyOrImm.toNat / 256; s.servesPkt h = true ∧ (let code := 4;
      v.winCheck n h 1 data.length = some code)) ∧
    (let s : State := eb []; let h0 : EngHdr := { hdr0 with keyOrImm := 1, rOffset := 4092 };
      let data : List Byte := [1, 2, 3, 4]; let h : EngHdr := { h0 with mtype := 0 };
      let v := s.touch (s.pktKey h).1 (s.pktKey h).2.2 (s.pktKey h).2.1; let n := (s.pktKey h).2.2;
      let i := h.keyOrImm.toNat / 256; s.servesPkt h = true ∧ v.winCheck n h 1 data.length = none) ∧
    (let s : State := { eb [] with eng := { qps := [(0, { state := 1, rqLog2 := 4, pi := 15, ci := 65535 })], lru := [(0, [0])] } };
      let h0 : EngHdr := { hdr0 with ssn := 65535 }; let h : EngHdr := { h0 with mtype := 1 };
      let v := s.touch (s.pktKey h).1 (s.pktKey h).2.2 (s.pktKey h).2.1; let n := (s.pktKey h).2.2;
      let i := h.keyOrImm.toNat / 256; s.servesPkt h = true ∧ (v.winCheck n h 0 h.length).isSome = true) ∧
    (let s : State := eb []; let h0 : EngHdr := { hdr0 with keyOrImm := 1, aop := 0 };
      let h : EngHdr := { h0 with mtype := 1 }; let v := s.touch (s.pktKey h).1 (s.pktKey h).2.2 (s.pktKey h).2.1;
      let n := (s.pktKey h).2.2; let i := h.keyOrImm.toNat / 256; s.servesPkt h = true ∧ v.winCheck n h 0 h.length = none) ∧
    (let s : State := eb []; let h0 : EngHdr := { hdr0 with keyOrImm := 0 }; let data : List Byte := [1, 2, 3, 4];
      let h : EngHdr := { h0 with mtype := 4 }; let v := s.touch (s.pktKey h).1 (s.pktKey h).2.2 (s.pktKey h).2.1;
      let n := (s.pktKey h).2.2; let i := h.keyOrImm.toNat / 256; let len := atomLen (h.aop + 5); s.servesPkt h = true ∧
      (let code := 4; v.winCheck n h 2 len = some code)) ∧
    (let s : State := eb []; let h0 : EngHdr := { hdr0 with keyOrImm := 1, aop := 0 };
      let data : List Byte := [1, 2, 3, 4, 5, 6, 7, 8]; let h : EngHdr := { h0 with mtype := 4 };
      let v := s.touch (s.pktKey h).1 (s.pktKey h).2.2 (s.pktKey h).2.1; let n := (s.pktKey h).2.2;
      let i := h.keyOrImm.toNat / 256; let len := atomLen (h.aop + 5); s.servesPkt h = true ∧ v.winCheck n h 2 len = none) ∧
    (let s : State := eb []; let h0 : EngHdr := { hdr0 with keyOrImm := 1, rOffset := 4092 };
      let h : EngHdr := { h0 with mtype := 8 }; let v := s.touch (s.pktKey h).1 (s.pktKey h).2.2 (s.pktKey h).2.1;
      s.servesPkt h = true) ∧
    (let s : State := eb []; let h0 : EngHdr := { hdr0 with srcSw := 63 }; let ea : Addr := 0; let el : Nat := 4;
      let ew : BitVec 64 := 0; let data : List Byte := [1, 2, 3, 4]; let h : EngHdr := { h0 with mtype := 3 };
      let v := s.touch (s.pktKey h).1 (s.pktKey h).2.2 (s.pktKey h).2.1; let n := (s.pktKey h).2.2; let k := h.dstQpn;
      let q := v.qp k; let m := h.ssn % 65536; let old := q.recv.find? fun r => r.ssn == m;
      let r : RecvMsg := old.getD { ssn := m, addr := ea.toNat, entryLen := el, wrId := ew, len := h.length, got := 0, imm := if h.immV then some h.keyOrImm else none, srcQpn := h.qpn, srcSw := h.srcSw };
      let u := if old.isNone then v.modQp k fun z => { z with recv := z.recv ++ [r] } else v; s.servesPkt h = true ∧
      (¬(q.state = 1 ∧ q.rSw = h.srcSw ∧ q.rQpn = h.qpn) ∨ (old = none ∧ 1 ≤ modSub 65536 q.ci m ∧
      modSub 65536 q.ci m ≤ 32768))) ∧
    (let s : State := eb []; let h0 : EngHdr := { hdr0 with keyOrImm := 0 }; let ea : Addr := 0; let el : Nat := 0;
      let ew : BitVec 64 := default; let data : List Byte := [1, 2, 3, 4]; let h : EngHdr := { h0 with mtype := 3 };
      let v := s.touch (s.pktKey h).1 (s.pktKey h).2.2 (s.pktKey h).2.1; let n := (s.pktKey h).2.2; let k := h.dstQpn;
      let q := v.qp k; let m := h.ssn % 65536; let old := q.recv.find? fun r => r.ssn == m;
      let r : RecvMsg := old.getD { ssn := m, addr := ea.toNat, entryLen := el, wrId := ew, len := h.length, got := 0, imm := if h.immV then some h.keyOrImm else none, srcQpn := h.qpn, srcSw := h.srcSw };
      let u := if old.isNone then v.modQp k fun z => { z with recv := z.recv ++ [r] } else v; let peer := q.state = 1 ∧
      q.rSw = h.srcSw ∧ q.rQpn = h.qpn; let used := old = none ∧ 1 ≤ modSub 65536 q.ci m ∧ modSub 65536 q.ci m ≤ 32768;
      let posted := old ≠ none ∨ (1 ≤ modSub 65536 q.pi m ∧ modSub 65536 q.pi m ≤ 2 ^ q.rqLog2); s.servesPkt h = true ∧
      peer ∧ (¬used) ∧ (¬posted ∨ v.puOff n q.owner = true)) ∧
    (let s : State := { eb [] with eng := { (eb []).eng with qps := [(0, { state := 1, rqLog2 := 4, maxOut := 8, notifyEn := true, retryLimit := 7, recv := [{ ssn := 65535, addr := 0, entryLen := 4, wrId := 0, len := 4, got := 0, imm := none, srcQpn := 0, srcSw := 0, done := true }] })] } };
      let h0 : EngHdr := { hdr0 with ssn := 65535 }; let ea : Addr := 0; let el : Nat := 4; let ew : BitVec 64 := 0;
      let data : List Byte := [1, 2, 3, 4]; let h : EngHdr := { h0 with mtype := 3 };
      let v := s.touch (s.pktKey h).1 (s.pktKey h).2.2 (s.pktKey h).2.1; let n := (s.pktKey h).2.2; let k := h.dstQpn;
      let q := v.qp k; let m := h.ssn % 65536; let old := q.recv.find? fun r => r.ssn == m;
      let r : RecvMsg := old.getD { ssn := m, addr := ea.toNat, entryLen := el, wrId := ew, len := h.length, got := 0, imm := if h.immV then some h.keyOrImm else none, srcQpn := h.qpn, srcSw := h.srcSw };
      let u := if old.isNone then v.modQp k fun z => { z with recv := z.recv ++ [r] } else v; s.servesPkt h = true ∧
      (q.state = 1 ∧ q.rSw = h.srcSw ∧ q.rQpn = h.qpn) ∧ (¬(old = none ∧ 1 ≤ modSub 65536 q.ci m ∧
      modSub 65536 q.ci m ≤ 32768)) ∧ (old ≠ none ∨ (1 ≤ modSub 65536 q.pi m ∧ modSub 65536 q.pi m ≤ 2 ^ q.rqLog2)) ∧
      v.puOff n q.owner = false ∧ r.done = true) ∧
    (let s : State := { eb [] with eng := { (eb []).eng with qps := [(0, { state := 1, rqLog2 := 4, maxOut := 8, notifyEn := true, retryLimit := 7, recv := [{ ssn := 65535, addr := 0, entryLen := 3, wrId := 0, len := 4, got := 0, imm := none, srcQpn := 0, srcSw := 0, done := false }] })] } };
      let h0 : EngHdr := { hdr0 with ssn := 65535 }; let ea : Addr := 0; let el : Nat := 4; let ew : BitVec 64 := 0;
      let data : List Byte := [1, 2, 3, 4]; let h : EngHdr := { h0 with mtype := 3 };
      let v := s.touch (s.pktKey h).1 (s.pktKey h).2.2 (s.pktKey h).2.1; let n := (s.pktKey h).2.2; let k := h.dstQpn;
      let q := v.qp k; let m := h.ssn % 65536; let old := q.recv.find? fun r => r.ssn == m;
      let r : RecvMsg := old.getD { ssn := m, addr := ea.toNat, entryLen := el, wrId := ew, len := h.length, got := 0, imm := if h.immV then some h.keyOrImm else none, srcQpn := h.qpn, srcSw := h.srcSw };
      let u := if old.isNone then v.modQp k fun z => { z with recv := z.recv ++ [r] } else v; s.servesPkt h = true ∧
      (q.state = 1 ∧ q.rSw = h.srcSw ∧ q.rQpn = h.qpn) ∧ (¬(old = none ∧ 1 ≤ modSub 65536 q.ci m ∧
      modSub 65536 q.ci m ≤ 32768)) ∧ (old ≠ none ∨ (1 ≤ modSub 65536 q.pi m ∧ modSub 65536 q.pi m ≤ 2 ^ q.rqLog2)) ∧
      v.puOff n q.owner = false ∧ r.done = false ∧ r.entryLen < r.len) ∧
    (let s : State := { eb [] with set0 := (eb []).set0.map fun x => if x.1 = stBind 4095 0 then (x.1, 0xC01) else x, eng := { (eb []).eng with qps := [(0, { state := 1, rqLog2 := 4, maxOut := 8, pi := 2, owner := 4095 })] } };
      let h0 : EngHdr := { hdr0 with ssn := 1 }; let ea : Addr := 0; let el : Nat := 4; let ew : BitVec 64 := 0;
      let data : List Byte := [1, 2, 3, 4]; let h : EngHdr := { h0 with mtype := 3 };
      let v := s.touch (s.pktKey h).1 (s.pktKey h).2.2 (s.pktKey h).2.1; let n := (s.pktKey h).2.2; let k := h.dstQpn;
      let q := v.qp k; let m := h.ssn % 65536; let old := q.recv.find? fun r => r.ssn == m;
      let r : RecvMsg := old.getD { ssn := m, addr := ea.toNat, entryLen := el, wrId := ew, len := h.length, got := 0, imm := if h.immV then some h.keyOrImm else none, srcQpn := h.qpn, srcSw := h.srcSw };
      let u := if old.isNone then v.modQp k fun z => { z with recv := z.recv ++ [r] } else v;
      let fault := if old.isNone then u.puCheck n q.owner 0 r.addr r.len [1] else none; s.servesPkt h = true ∧
      (q.state = 1 ∧ q.rSw = h.srcSw ∧ q.rQpn = h.qpn) ∧ (¬(old = none ∧ 1 ≤ modSub 65536 q.ci m ∧
      modSub 65536 q.ci m ≤ 32768)) ∧ (old ≠ none ∨ (1 ≤ modSub 65536 q.pi m ∧ modSub 65536 q.pi m ≤ 2 ^ q.rqLog2)) ∧
      v.puOff n q.owner = false ∧ r.done = false ∧ r.len ≤ r.entryLen ∧ (fault).isSome = true) := by
  refine ⟨?_, ?_, ?_, ?_, ?_, ?_, ?_, ?_, ?_, ?_, ?_, ?_⟩ <;> decide +kernel
/-- The hypotheses of `EnginePacketsAreServed` can be met, part 2. -/
theorem witness_EnginePacketsAreServed_b :
    (let s : State := { eb [] with eng := { qps := [(0, { state := 1, rqLog2 := 4, pi := 15, ci := 65535 })], lru := [(0, [0])] } };
      let h0 : EngHdr := { hdr0 with ssn := 65535 }; let ea : Addr := 0; let el : Nat := 4; let ew : BitVec 64 := 0;
      let data : List Byte := [1, 2, 3, 4]; let h : EngHdr := { h0 with mtype := 3 };
      let v := s.touch (s.pktKey h).1 (s.pktKey h).2.2 (s.pktKey h).2.1; let n := (s.pktKey h).2.2; let k := h.dstQpn;
      let q := v.qp k; let m := h.ssn % 65536; let old := q.recv.find? fun r => r.ssn == m;
      let r : RecvMsg := old.getD { ssn := m, addr := ea.toNat, entryLen := el, wrId := ew, len := h.length, got := 0, imm := if h.immV then some h.keyOrImm else none, srcQpn := h.qpn, srcSw := h.srcSw };
      let u := if old.isNone then v.modQp k fun z => { z with recv := z.recv ++ [r] } else v; let peer := q.state = 1 ∧
      q.rSw = h.srcSw ∧ q.rQpn = h.qpn; let used := old = none ∧ 1 ≤ modSub 65536 q.ci m ∧ modSub 65536 q.ci m ≤ 32768;
      let posted := old ≠ none ∨ (1 ≤ modSub 65536 q.pi m ∧ modSub 65536 q.pi m ≤ 2 ^ q.rqLog2);
      let fault := if old.isNone then u.puCheck n q.owner 0 r.addr r.len [1] else none; s.servesPkt h = true ∧ peer ∧
      (¬used) ∧ posted ∧ v.puOff n q.owner = false ∧ r.done = false ∧ r.len ≤ r.entryLen ∧ fault = none) ∧
    (let s : State := { eb [] with host := { stamps := [(stopKey 0 2 0, { ft := 0, tile := 0, on := true })] } };
      let h0 : EngHdr := hdr0; let ea : Addr := 0; let el : Nat := 4; let ew : BitVec 64 := 0;
      let data : List Byte := [1, 2, 3, 4];
      (([(0, data, 0, 0, 0, .engineWritePacket h0 data), (1, [], 0, 0, 0, .readReq h0), (3, data, ea, el, ew, .sendPacket h0 ea el ew data), (4, data, 0, 0, 0, .atomicReq h0 data), (8, [], 0, 0, 0, .notify h0)] : List (Nat × List Byte × Addr × Nat × BitVec 64 × Instr)).all fun x => decide (let h : EngHdr := { h0 with mtype := x.1 };
      let k := s.pktKey h; s.here k.2.2 = true ∧ k.2.1 < 2 ^ (if k.1 then s.winN else s.qpQ) ∧
      ((s.objOwner k.1 k.2.1).any fun o => s.seatBlack k.2.2 o) = true)) = true) ∧
    (let s : State := tst [] []; let h0 : EngHdr := hdr0; let ea : Addr := 0; let el : Nat := 0;
      let ew : BitVec 64 := default; let data : List Byte := [];
      (([(0, data, 0, 0, 0, .engineWritePacket h0 data), (1, [], 0, 0, 0, .readReq h0), (3, data, ea, el, ew, .sendPacket h0 ea el ew data), (4, data, 0, 0, 0, .atomicReq h0 data), (8, [], 0, 0, 0, .notify h0)] : List (Nat × List Byte × Addr × Nat × BitVec 64 × Instr)).all fun x => decide (let h : EngHdr := { h0 with mtype := x.1 };
      let k := s.pktKey h; s.here k.2.2 = true ∧ k.2.1 < 2 ^ (if k.1 then s.winN else s.qpQ) ∧
      ((s.objOwner k.1 k.2.1).any fun o => s.seatBlack k.2.2 o) = false ∧
      (s.isCached k.1 k.2.2 k.2.1 = false ∨ (s.eng.parked.any fun j => j.isWin == k.1 && j.key == k.2.1) = true))) = true) := by
  refine ⟨?_, ?_, ?_⟩ <;> decide +kernel
/-- The hypotheses of `EngineAnswersAndTables` can be met, part 1. -/
theorem witness_EngineAnswersAndTables_a :
    (let s : State := { eb [] with eng := { qps := [(0, { state := 1, retryLimit := 1 })], lru := [(0, [0])], wrs := [{ wr0 with q := some 0, owed := 1, refused := [(0, 0)], d := { desc0 with opcode := 1 } }] } };
      let h : EngHdr := hdr0; let id := 0;
      let w := { wr0 with q := some 0, owed := 1, refused := [(0, 0)], d := { desc0 with opcode := 1 } };
      s.here (s.qpTile h.qpn) = true ∧ s.wrBySlot h = some id ∧ s.wr id = some w) ∧
    (let s : State := { eb [] with eng := { qps := [(0, { state := 1, retryLimit := 0 })], lru := [(0, [0])], wrs := [{ wr0 with q := some 0, owed := 1, refused := [(0, 0)], d := { desc0 with opcode := 1 } }] } };
      let h : EngHdr := hdr0; let id := 0;
      let w := { wr0 with q := some 0, owed := 1, refused := [(0, 0)], d := { desc0 with opcode := 1 } };
      s.here (s.qpTile h.qpn) = true ∧ s.wrBySlot h = some id ∧ s.wr id = some w) ∧
    (let s : State := { tst [] [] with eng := { qps := [(0, { state := 2 })] } }; let h : EngHdr := hdr0;
      s.here (s.qpTile h.qpn) = true ∧ s.wrBySlot h = none) ∧
    (let s : State := { eb [] with eng := { qps := [(0, { state := 1, retryLimit := 0 })], lru := [(0, [0])], wrs := [{ wr0 with q := some 0, owed := 1, refused := [(0, 0)], d := { desc0 with opcode := 1 } }] } };
      let h : EngHdr := hdr0; let id := 0; s.here (s.qpTile h.qpn) = true ∧ s.wrBySlot h = some id) ∧
    (let s : State := { eb [] with eng := { qps := [(0, { state := 1, retryLimit := 1 })], lru := [(0, [0])], wrs := [{ wr0 with q := some 0, owed := 1, refused := [(0, 0)], d := { desc0 with opcode := 1 } }] } };
      let h : EngHdr := hdr0; let id := 0;
      let w := { wr0 with q := some 0, owed := 1, refused := [(0, 0)], d := { desc0 with opcode := 1 } };
      s.here (s.qpTile h.qpn) = true ∧ s.wrBySlot h = some id ∧ s.wr id = some w) ∧
    (let s : State := { eb [] with eng := { qps := [(0, { state := 1, retryLimit := 0 })], lru := [(0, [0])], wrs := [{ wr0 with q := some 0, owed := 1, refused := [(0, 0)], d := { desc0 with opcode := 1 } }] } };
      let id : Nat := 0; let o : Nat := 0;
      let w := { wr0 with q := some 0, owed := 1, refused := [(0, 0)], d := { desc0 with opcode := 1 } };
      s.wr id = some w ∧ w.st = .started ∧ (w.refused.any fun r => r.1 == o) = true ∧ s.here w.tile = true) ∧
    (let s : State := { eb [] with eng := { qps := [(0, { state := 1, retryLimit := 1 })], lru := [(0, [0])], wrs := [{ wr0 with q := some 0, owed := 1, refused := [(0, 0)], d := { desc0 with opcode := 1 } }] } };
      let id : Nat := 0;
      let w := { wr0 with q := some 0, owed := 1, refused := [(0, 0)], d := { desc0 with opcode := 1 } };
      s.wr id = some w ∧ w.st = .started ∧ s.here w.tile = true) ∧
    (let s : State := { tst [] [] with eng := { qps := [(0, { state := 2 })] } }; let n : Nat := 0;
      (s.qp n).state = 2 ∧ s.wrsOf n = [] ∧ s.here (s.qpTile n) = true) ∧
    (let s : State := { eb [] with eng := { qps := [(0, { state := 1, retryLimit := 1 })], lru := [(0, [0])], wrs := [{ wr0 with q := some 0, owed := 1, refused := [(0, 0)], d := { desc0 with opcode := 1 } }] } };
      s.qpReady = true) ∧
    (let s : State := { tst [] [] with host := { dmas := [dma0] } }; s.qpReady = false) ∧
    (let s : State := tst [(0x0014001C, 2)] []; s.flag 0x0014001C 1 = true) ∧
    (let s : State := eb []; let n : Nat := 0; let k : Nat := 0; s.here n = true ∧ s.qpReady = true ∧ s.qpTile k = n ∧
      k < 2 ^ s.qpQ) := by
  refine ⟨?_, ?_, ?_, ?_, ?_, ?_, ?_, ?_, ?_, ?_, ?_, ?_⟩ <;> decide +kernel
/-- The hypotheses of `EngineAnswersAndTables` can be met, part 2. -/
theorem witness_EngineAnswersAndTables_b :
    (let s : State := { tst [] [] with host := { dmas := [dma0] } }; let id : Nat := 0;
      let c : Cpl := { cpl0 with status := .ur }; let d := dma0; (s.host.dmas.find? fun x => x.id == id) = some d ∧
      (let a := c.addr.toNat; let n := c.data.length; c.status ≠ .sc)) ∧
    (let s : State := { tst [] [] with host := { dmas := [dma0] } }; let id : Nat := 0;
      let c : Cpl := { cpl0 with poisoned := true }; let d := dma0; (s.host.dmas.find? fun x => x.id == id) = some d ∧
      (let a := c.addr.toNat; let n := c.data.length; c.status = .sc ∧ c.poisoned = true)) ∧
    (let s : State := { tst [] [] with host := { dmas := [dma0] } }; let id : Nat := 0;
      let c : Cpl := { cpl0 with addr := 64 }; let d := dma0; (s.host.dmas.find? fun x => x.id == id) = some d ∧
      (let a := c.addr.toNat; let piece := d.reqs.find? fun r => r.1 == a && decide (r.1 < r.2); c.status = .sc ∧
      c.poisoned = false ∧ piece = none)) ∧
    (let s : State := { tst [] [] with host := { dmas := [dma0] } }; let id : Nat := 0;
      let c : Cpl := { cpl0 with data := [] }; let d := dma0; (s.host.dmas.find? fun x => x.id == id) = some d ∧
      (let a := c.addr.toNat; let n := c.data.length; let piece := d.reqs.find? fun r => r.1 == a && decide (r.1 < r.2);
      c.status = .sc ∧ c.poisoned = false ∧ ((piece).any (fun r => decide (¬(n ≠ 0 ∧ a + n ≤ r.2 ∧
      (a + n < r.2 → (a + n) % 64 = 0 ∧ c.last = false)))) = true))) ∧
    (let s : State := { tst [] [] with host := { dmas := [dma0] } }; let id : Nat := 0; let c : Cpl := cpl0;
      let d := dma0; (s.host.dmas.find? fun x => x.id == id) = some d ∧ (let a := c.addr.toNat; let n := c.data.length;
      let piece := d.reqs.find? fun r => r.1 == a && decide (r.1 < r.2); let cutOk := fun (r : Nat × Nat) => n ≠ 0 ∧
      a + n ≤ r.2 ∧ (a + n < r.2 → (a + n) % 64 = 0 ∧ c.last = false); c.status = .sc ∧ c.poisoned = false ∧
      ((piece).any (fun r => decide (cutOk r)) = true))) := by
  refine ⟨?_, ?_, ?_, ?_, ?_⟩ <;> decide +kernel
/-- The hypotheses of `DoorbellsAndMailboxes` can be met, part 1. -/
theorem witness_DoorbellsAndMailboxes_a :
    (let s : State := eb []; let p : Nat := 0; let who : Requester := .host 0; let seat : Nat := 0; let k : Nat := 7;
      let r : Req := { req0 with poisoned := true }; s.partEn (s.entryEpoch p) p = true ∧
      s.here (s.homeTile (s.entryEpoch p) p) = true ∧ (let e := s.entryEpoch p; r.poisoned = true)) ∧
    (let s : State := eb []; let p : Nat := 0; let who : Requester := .host 0; let seat : Nat := 4095;
      let k : Nat := 0; let r : Req := req0; s.partEn (s.entryEpoch p) p = true ∧
      s.here (s.homeTile (s.entryEpoch p) p) = true ∧ (let e := s.entryEpoch p; r.poisoned = false ∧
      s.onPage e p who seat r = false)) ∧
    (let s : State := eb []; let p : Nat := 0; let who : Requester := .host 0; let seat : Nat := 0; let k : Nat := 8;
      let r : Req := req0; s.partEn (s.entryEpoch p) p = true ∧ s.here (s.homeTile (s.entryEpoch p) p) = true ∧
      (let e := s.entryEpoch p; let n := s.homeTile e p; r.poisoned = false ∧ s.onPage e p who seat r = true ∧
      (let q := 8 * seat + k; ¬(r.kind = .memWrite ∧ r.data.length = 4 ∧ r.addr.toNat % 4 = 0 ∧ k < 8 ∧
      s.ringOwner e q = some seat ∧ s.takesDb n seat = true)))) ∧
    (let s : State := eb [(stMbxCtrl 0, 4)]; let p : Nat := 0; let who : Requester := .host 0; let seat : Nat := 0;
      let k : Nat := 0; let r : Req := req0; s.partEn (s.entryEpoch p) p = true ∧
      s.here (s.homeTile (s.entryEpoch p) p) = true ∧ (let e := s.entryEpoch p; let n := s.homeTile e p;
      r.poisoned = false ∧ s.onPage e p who seat r = true ∧ (let q := 8 * seat + k; (r.kind = .memWrite ∧
      r.data.length = 4 ∧ r.addr.toNat % 4 = 0 ∧ k < 8 ∧ s.ringOwner e q = some seat ∧ s.takesDb n seat = true)))) ∧
    (let s : State := eb []; let p : Nat := 0; let who : Requester := .host 0; let seat : Nat := 0;
      let r : Req := { req0 with poisoned := true }; s.partEn (s.entryEpoch p) p = true ∧
      s.here (s.homeTile (s.entryEpoch p) p) = true ∧ (let e := s.entryEpoch p; r.poisoned = true)) ∧
    (let s : State := eb []; let p : Nat := 0; let who : Requester := .host 0; let seat : Nat := 4095;
      let r : Req := req0; s.partEn (s.entryEpoch p) p = true ∧ s.here (s.homeTile (s.entryEpoch p) p) = true ∧
      (let e := s.entryEpoch p; r.poisoned = false ∧ s.onPage e p who seat r = false)) ∧
    (let s : State := eb []; let p : Nat := 0; let who : Requester := .host 0; let seat : Nat := 4095;
      let r : Req := { req0 with pasid := some 5 }; s.partEn (s.entryEpoch p) p = true ∧
      s.here (s.homeTile (s.entryEpoch p) p) = true ∧ (let e := s.entryEpoch p; let n := s.homeTile e p;
      r.poisoned = false ∧ s.onPage e p who seat r = true ∧ (let q := 32768 + ofBytes r.data / 65536 % 32768;
      ¬(r.kind = .memWrite ∧ r.data.length = 4 ∧ r.addr.toNat % 4 = 0 ∧ s.ringOwner e q = some seat ∧
      s.takesDb n seat = true)))) ∧
    (let s : State := { { eb [] with set0 := (eb []).set0 ++ [(0x00320000 + 4 * 32767, 0x1FFF)] } with host := { ring := [(65535, { oldOwner := some 1 })] } };
      let p : Nat := 0; let who : Requester := .host 0; let seat : Nat := 4095;
      let r : Req := { req0 with pasid := some 5, data := leBytes 4 0xFFFF0000 }; s.partEn (s.entryEpoch p) p = true ∧
      s.here (s.homeTile (s.entryEpoch p) p) = true ∧ (let e := s.entryEpoch p; let n := s.homeTile e p;
      r.poisoned = false ∧ s.onPage e p who seat r = true ∧ (let q := 32768 + ofBytes r.data / 65536 % 32768;
      (r.kind = .memWrite ∧ r.data.length = 4 ∧ r.addr.toNat % 4 = 0 ∧ s.ringOwner e q = some seat ∧
      s.takesDb n seat = true)))) ∧
    (let s : State := eb []; let p : Nat := 0; s.partEn (s.entryEpoch p) p = true ∧
      s.here (s.homeTile (s.entryEpoch p) p) = true) ∧
    (let s : State := eb []; let p : Nat := 0; let who : Requester := .host 0; let seat : Nat := 0;
      let off : Nat := 60; let r : Req := { req0 with poisoned := true }; s.partEn (s.entryEpoch p) p = true ∧
      s.here (s.homeTile (s.entryEpoch p) p) = true ∧ r.poisoned = true) ∧
    (let s : State := eb []; let p : Nat := 0; let who : Requester := .host 0; let seat : Nat := 4095;
      let off : Nat := 60; let r : Req := req0; s.partEn (s.entryEpoch p) p = true ∧
      s.here (s.homeTile (s.entryEpoch p) p) = true ∧ (let e := s.entryEpoch p; r.poisoned = false ∧
      s.onPage e p who seat r = false)) ∧
    (let s : State := eb []; let p : Nat := 0; let who : Requester := .host 0; let seat : Nat := 4095;
      let off : Nat := 0; let r : Req := { req0 with pasid := some 5 }; s.partEn (s.entryEpoch p) p = true ∧
      s.here (s.homeTile (s.entryEpoch p) p) = true ∧ (let e := s.entryEpoch p; r.poisoned = false ∧
      s.onPage e p who seat r = true ∧ s.t2mFull seat = false ∧ ((r.data.length = 4 ∨ r.data.length = 8) ∧
      off % r.data.length = 0 ∧ off + r.data.length ≤ 64))) := by
  refine ⟨?_, ?_, ?_, ?_, ?_, ?_, ?_, ?_, ?_, ?_, ?_, ?_⟩ <;> decide +kernel
/-- The hypotheses of `DoorbellsAndMailboxes` can be met, part 2. -/
theorem witness_DoorbellsAndMailboxes_b :
    (let s : State := eb [(stMbxCtrl 0, 1)]; let p : Nat := 0; let who : Requester := .host 0; let seat : Nat := 0;
      let off : Nat := 60; let r : Req := req0; s.partEn (s.entryEpoch p) p = true ∧
      s.here (s.homeTile (s.entryEpoch p) p) = true ∧ (let e := s.entryEpoch p; r.poisoned = false ∧
      s.onPage e p who seat r = true ∧ (s.t2mFull seat = true ∨ ¬((r.data.length = 4 ∨ r.data.length = 8) ∧
      off % r.data.length = 0 ∧ off + r.data.length ≤ 64)))) ∧
    (let s : State := eb []; let p : Nat := 0; let who : Requester := .host 0; let seat : Nat := 0;
      let r : Req := { req0 with poisoned := true }; s.partEn (s.entryEpoch p) p = true ∧
      s.here (s.homeTile (s.entryEpoch p) p) = true ∧ r.poisoned = true) ∧
    (let s : State := eb []; let p : Nat := 0; let who : Requester := .host 0; let seat : Nat := 4095;
      let r : Req := req0; s.partEn (s.entryEpoch p) p = true ∧ s.here (s.homeTile (s.entryEpoch p) p) = true ∧
      (let e := s.entryEpoch p; r.poisoned = false ∧ s.onPage e p who seat r = false)) ∧
    (let s : State := eb []; let p : Nat := 0; let who : Requester := .host 0; let seat : Nat := 4095;
      let r : Req := { req0 with pasid := some 5 }; s.partEn (s.entryEpoch p) p = true ∧
      s.here (s.homeTile (s.entryEpoch p) p) = true ∧ (let e := s.entryEpoch p; r.poisoned = false ∧
      s.onPage e p who seat r = true ∧ s.t2mFull seat = false)) ∧
    (let s : State := eb [(stMbxCtrl 0, 1)]; let p : Nat := 0; let who : Requester := .host 0; let seat : Nat := 0;
      let r : Req := req0; s.partEn (s.entryEpoch p) p = true ∧ s.here (s.homeTile (s.entryEpoch p) p) = true ∧
      (let e := s.entryEpoch p; r.poisoned = false ∧ s.onPage e p who seat r = true ∧ s.t2mFull seat = true)) ∧
    (let s : State := eb []; let p : Nat := 0; let who : Requester := .host 0; let seat : Nat := 0;
      let r : Req := { req0 with poisoned := true }; s.partEn (s.entryEpoch p) p = true ∧
      s.here (s.homeTile (s.entryEpoch p) p) = true ∧ r.poisoned = true) ∧
    (let s : State := eb []; let p : Nat := 0; let who : Requester := .host 0; let seat : Nat := 4095;
      let r : Req := req0; s.partEn (s.entryEpoch p) p = true ∧ s.here (s.homeTile (s.entryEpoch p) p) = true ∧
      (let e := s.entryEpoch p; r.poisoned = false ∧ s.onPage e p who seat r = false)) ∧
    (let s : State := eb []; let p : Nat := 0; let who : Requester := .host 0; let seat : Nat := 4095;
      let r : Req := { req0 with pasid := some 5 }; s.partEn (s.entryEpoch p) p = true ∧
      s.here (s.homeTile (s.entryEpoch p) p) = true ∧ (let e := s.entryEpoch p; r.poisoned = false ∧
      s.onPage e p who seat r = true)) ∧
    (let s : State := eb []; let via : Via := .bridge; let seat : Nat := 0; s.viaOpen via = true ∧
      s.here (s.mbxTile seat) = true) ∧
    (let s : State := eb []; let via : Via := .bridge; let seat : Nat := 0; let off : Nat := 60; s.viaOpen via = true ∧
      s.here (s.mbxTile seat) = true ∧ off % 4 = 0 ∧ off < 64) := by
  refine ⟨?_, ?_, ?_, ?_, ?_, ?_, ?_, ?_, ?_, ?_⟩ <;> decide +kernel
/-- The hypotheses of `SeatCommandsComplete` can be met. -/
theorem witness_SeatCommandsComplete :
    (let s : State := { tst [] [] with seats := [(4095, { st := 2 })] }; let via : Via := .command; let t : Nat := 7;
      let seat : Nat := 4095; s.viaOpen via = true ∧ s.here t = true ∧ seat < 4096 ∧
      (seat ≠ 0 ∨ via = .bridge ∨ via = .mgmtPort)) ∧
    (let s : State := { tst [] [] with seats := [(4095, { st := 2 })] }; let seat : Nat := 4095; (s.seatSt seat).st = 2) ∧
    (let s : State := { tst [] [] with seats := [(4095, { st := 2 })] }; let seat : Nat := 4095;
      let q := s.seatSt seat; (q.st = 2 ∨ q.st = 3) ∧ s.seatIdle seat = true) ∧
    (let s : State := { eb [] with host := { ring := [(65535, { oldOwner := some 1 })] } }; let r : Nat := 65535;
      let o := 1; (s.ringSt r).oldOwner = some o ∧ s.ringBusy r = false) ∧
    (let s : State := { eb [] with host := { ring := [(65535, { oldOwner := some 1, fetching := true })] } };
      let r : Nat := 65535; let o := 1; (s.ringSt r).oldOwner = some o ∧ s.ringBusy r = true) := by
  refine ⟨?_, ?_, ?_, ?_, ?_⟩ <;> decide +kernel
/-- The hypotheses of `ProtectionUnitCommands` can be met. -/
theorem witness_ProtectionUnitCommands :
    (let s : State := tst [(puCtrl 7 4095, 1)] []; let t : Nat := 7; s.here t = true) ∧
    (let s : State := tst [] []; let t : Nat := 7; s.here t = true) ∧
    (let s : State := { tst [] [] with pu := { held := [{ id := 0, tile := 7, seat := 0, item := .work 0 desc0 none }] } };
      let t : Nat := 7; s.here t = true) ∧
    (let s : State := { tst [] [] with pu := { held := [{ id := 0, tile := 7, seat := 0, item := .fence 0 (.host 0) req0 false }] } };
      let t : Nat := 7; let id : Nat := 0;
      ((s.pu.held.find? fun k => k.id == id && k.tile == t)).any (fun h => decide (let p : Nat := 0;
      let who : Requester := .host 0; let r : Req := req0; let e := false; h.item = .fence p who r e)) = true) ∧
    (let s : State := { tst [] [] with pu := { held := [{ id := 0, tile := 7, seat := 0, item := .work 0 desc0 none }] } };
      ∃ h, (s.pu.held.find? fun k => k.id == 0 && k.tile == 7) = some h ∧ (∀ p who r e, h.item ≠ .fence p who r e)) ∧
    (let s : State := tst [(puCtrl 7 0, 0), (tileBase 7 + 0x68014, 1)] []; let agent : Nat := 7; let t : Nat := 7;
      let v : Word := 0; let r := field v 11 0; let w := fun i => s.lv (puEditData agent t i);
      let res := s.puEditResult t r (puDecode w); s.here t = true ∧ res ≠ 0) ∧
    (let s : State := { tst [] [] with pu := { held := [{ id := 0, tile := 7, seat := 0, item := .work 0 desc0 none }] } };
      let agent : Nat := 0; let t : Nat := 7; let v : Word := 0; let r := field v 11 0;
      let w := fun i => s.lv (puEditData agent t i); s.here t = true ∧ s.puEditResult t r (puDecode w) = 0 ∧ (let i := 0;
      i < 5)) ∧
    (let s : State := tst [] []; let agent : Nat := 0; let t : Nat := 0; let v : Word := 0; let r := field v 11 0;
      let w := fun i => s.lv (puEditData agent t i); s.here t = true ∧ s.puEditResult t r (puDecode w) = 0) ∧
    (let s : State := tst [(puCtrl 7 4095, 1)] []; let t : Nat := 7; s.here t = true) ∧
    (let s : State := { tst [] [] with pu := { viol := [(puKey 7 4095, some { n := 0, space := 0, kind := 0, cause := 0, rule := 0, addr := 0, len := 4 })] } };
      let t : Nat := 7; let seat : Nat := 4095;
      let v := { n := 0, space := 0, kind := 0, cause := 0, rule := 0, addr := 0, len := 4 };
      tget none s.pu.viol (puKey t seat) = some v ∧ v.n = 0) ∧
    (let s : State := { tst [] [] with pu := { viol := [(puKey 7 4095, some { n := 1, space := 0, kind := 0, cause := 0, rule := 0, addr := 0, len := 4 })] } };
      let t : Nat := 7; let seat : Nat := 4095;
      let v := { n := 1, space := 0, kind := 0, cause := 0, rule := 0, addr := 0, len := 4 };
      tget none s.pu.viol (puKey t seat) = some v ∧ v.n ≠ 0) := by
  refine ⟨?_, ?_, ?_, ?_, ?_, ?_, ?_, ?_, ?_, ?_, ?_⟩
  · decide +kernel
  · decide +kernel
  · decide +kernel
  · decide +kernel
  · exact ⟨_, rfl, by intros; simp⟩
  · decide +kernel
  · decide +kernel
  · decide +kernel
  · decide +kernel
  · decide +kernel
  · decide +kernel
/-- The hypotheses of `SchedulingCommands` can be met. -/
theorem witness_SchedulingCommands :
    (let s : State := { eb [] with set0 := (eb []).set0 ++ [(scPort 0 1, 0x101)], sch := { missing := [(bucketKey 0 0, 2 ^ 60)] } };
      let t : Nat := 0; s.operates t = true) ∧
    (let s : State := tst [(scCtrl 63, 8)] []; let port : Nat := 0; s.portReady port = false) ∧
    (let s : State := { eb [] with pkts := [{ pkt0 with loc := .egress, ports := [0], mgmt := true }] };
      let port : Nat := 0; let mg := (s.portQueue port).find? fun p => p.mgmt && !s.stalls port p;
      s.portReady port = true ∧ (let p := { pkt0 with loc := .egress, ports := [0], mgmt := true }; mg = some p)) ∧
    (let s : State := { eb [] with set0 := (eb []).set0 ++ [(scPort 0 1, 0x101)], sch := { missing := [(bucketKey 0 0, 2 ^ 60)] } };
      let port : Nat := 0; let mg := (s.portQueue port).find? fun p => p.mgmt && !s.stalls port p;
      s.portReady port = true ∧ mg = none) ∧
    (let s : State := { eb [] with set0 := (eb []).set0 ++ [(scPort 0 1, 0x101)], sch := { missing := [(bucketKey 0 0, 2 ^ 60)] } };
      let pb : Nat := 0; s.here (pb / 8) = true) ∧
    (let s : State := tst [(scCtrl 63, 8)] []; let pb : Nat := 63; s.operates (pb / 8) = true ∧
      s.flag (scCtrl pb) 3 = true) ∧
    (let s : State := { eb [] with set0 := (eb []).set0 ++ [(scPort 0 1, 0x101)], sch := { missing := [(bucketKey 0 0, 2 ^ 60)] } };
      let t : Nat := 0; s.here t = true) ∧
    (let s : State := { eb [] with set0 := (eb []).set0 ++ [(scPort 0 1, 0x101)], sch := { missing := [(bucketKey 0 0, 2 ^ 60)] } };
      let t : Nat := 0; s.here t = true) := by
  refine ⟨?_, ?_, ?_, ?_, ?_, ?_, ?_, ?_⟩ <;> decide +kernel
/-- The hypotheses of `RingsComplete` can be met, part 1. -/
theorem witness_RingsComplete_a :
    (let s : State := { tst [] [] with ilulysReset := true }; let r : Nat := 0; r < 65536 ∧ s.ringEn r = false ∧
      s.ringBusy r = false) ∧
    (let s : State := { eb [(ringReg 0 0, 1), (ringReg 0 6, 0x10000)] with host := { ring := [] } }; let r : Nat := 0;
      r < 65536 ∧ s.ringEn r || s.ringBusy r) ∧
    (let s : State := { tst [] [] with ilulysReset := true }; let r : Nat := 0; r < 65536 ∧ s.ringEn r = false ∧
      s.ringBusy r = false) ∧
    (let s : State := { eb [(ringReg 0 0, 1), (ringReg 0 6, 0x10000)] with host := { ring := [] } }; let r : Nat := 0;
      r < 65536 ∧ s.ringEn r || s.ringBusy r) ∧
    (let s : State := { eb [(ringReg 0 0, 1), (ringReg 0 6, 0x10000)] with host := { ring := [] } }; let r : Nat := 0;
      let seat := 0; s.workOwner r = some seat ∧ (s.ringSt r).got = [] ∧ s.canFetch r seat = true ∧
      s.canIssue (s.seatPart s.leadEpoch seat) = true) ∧
    (let s : State := { eb [(ringReg 0 0, 1), (ringReg 0 6, 0x10000)] with hv := {} }; let r : Nat := 0; let seat := 0;
      s.workOwner r = some seat ∧ (s.ringSt r).got = [] ∧ s.canFetch r seat = true ∧
      s.canIssue (s.seatPart s.leadEpoch seat) = false) ∧
    (let s : State := { eb [(ringReg 0 0, 1), (ringReg 0 6, 0x10000)] with host := { ring := [(0, { got := [.command cmd0] })] } };
      let r : Nat := 0; let seat := 0; s.workOwner r = some seat ∧ (s.ringSt r).got ≠ []) ∧
    (let s : State := { eb [(ringReg 1 0, 3)] with host := { ring := [(1, { recs := [(0, [])] })] } };
      let r : Nat := 1; let seat := 0; s.workOwner r = some seat ∧ (s.ringSt r).got = [] ∧ s.canFetch r seat = false) ∧
    (let s : State := { eb [] with host := { ring := [(65535, { fetching := true, fetchN := 8 })] } };
      let r : Nat := 65535; (s.ringSt r).fetching = true) ∧
    (let s : State := { eb [] with host := { ring := [(65535, { fetching := true, fetchN := 8 })] } };
      let r : Nat := 65535; (s.ringSt r).fetching = true) ∧
    (let s : State := { eb [(ringReg 0 0, 1), (ringReg 0 6, 0x10000)] with host := { ring := [] } }; let r : Nat := 0;
      (s.ringSt r).fetching = false) ∧
    (let r : Nat := 0; r < 65536) := by
  refine ⟨?_, ?_, ?_, ?_, ?_, ?_, ?_, ?_, ?_, ?_, ?_, ?_⟩ <;> decide +kernel
/-- The hypotheses of `RingsComplete` can be met, part 2. -/
theorem witness_RingsComplete_b :
    (let s : State := { eb [(ringReg 1 0, 3)] with host := { ring := [(1, { recs := [(0, [])] })] } };
      let r : Nat := 1; let seat := 0; let b := (0, []); s.servedOwner r = some seat ∧ s.ringEn r = true ∧
      s.here (s.seatHome s.leadEpoch seat) = true ∧ s.ringType r = 1 ∧
      ((s.ringSt r).recs.find? fun x => x.1 == seat) = some b) ∧
    (let s : State := { eb [(ringReg 1 0, 5)] with host := { ring := [(1, { evs := [[]] })] } }; let r : Nat := 1;
      let seat := 0; let b := []; let bs := []; s.servedOwner r = some seat ∧ s.ringEn r = true ∧
      s.here (s.seatHome s.leadEpoch seat) = true ∧ s.ringType r = 2 ∧ (s.ringSt r).evs = b :: bs) ∧
    (let s : State := { eb [(ringReg 32767 0, 0x103)] with host := { ring := [(32767, { sinceSig := 1 })] } };
      let r : Nat := 32767; (s.servedOwner r = none ∨ s.ringEn r = false ∨ (s.ringType r = 1 ∧
      (s.ringSt r).recs = []) ∨ (s.ringType r = 2 ∧ (s.ringSt r).evs = []) ∨ (∃ seat, s.servedOwner r = some seat ∧
      s.here (s.seatHome s.leadEpoch seat) = false))) ∧
    (let s : State := { eb [(ringReg 32767 0, 0x203)] with host := { ring := [(32767, { shadowDue := true })] } };
      let r : Nat := 32767; let seat := 4095; s.servedOwner r = some seat ∧ s.here (s.seatHome s.leadEpoch seat) = true ∧
      s.flag (ringReg r 0) 9 = true ∧ (s.ringSt r).shadowDue = true) ∧
    (let s : State := { eb [(ringReg 0 0, 1), (ringReg 0 6, 0x10000)] with host := { ring := [] } }; let r : Nat := 0;
      (s.flag (ringReg r 0) 9 = false ∨ (s.ringSt r).shadowDue = false)) ∧
    (let s : State := { eb [(ringReg 32767 0, 0x103)] with host := { ring := [(32767, { sinceSig := 1 })] } };
      let r : Nat := 32767; let seat := 4095; s.servedOwner r = some seat ∧ s.here (s.seatHome s.leadEpoch seat) = true ∧
      s.irqRing r = true ∧ (s.ringSt r).sinceSig ≠ 0) ∧
    (let s : State := { eb [(ringReg 0 0, 1), (ringReg 0 6, 0x10000)] with host := { ring := [] } }; let r : Nat := 0;
      (s.irqRing r = false ∨ (s.ringSt r).sinceSig = 0)) := by
  refine ⟨?_, ?_, ?_, ?_, ?_, ?_, ?_⟩ <;> decide +kernel
/-- The hypotheses of `ManagementCommandsComplete` can be met, part 1. -/
theorem witness_ManagementCommandsComplete_a :
    (let s : State := eb [(ringReg 0 0, 7)]; let r : Nat := 0; let c : Cmd := cmd0; s.cmdRing r = true ∧
      s.host.cmds = [] ∧ c.offset.toNat % 4 = 0 ∧ c.offset.toNat < 0x10000000 ∧ s.lostReg c.offset.toNat = false) ∧
    (let s : State := eb [(ringReg 0 0, 7)]; let r : Nat := 0; let c : Cmd := cmd0; s.cmdRing r = true ∧
      s.host.cmds = [] ∧ c.offset.toNat % 4 = 0 ∧ c.offset.toNat < 0x10000000 ∧ s.lostReg c.offset.toNat = false) ∧
    (let s : State := eb [(ringReg 0 0, 7)]; let r : Nat := 0; let c : Cmd := { cmd0 with offset := 1 };
      s.cmdRing r = true ∧ s.host.cmds = [] ∧ (c.offset.toNat % 4 ≠ 0 ∨ 0x10000000 ≤ c.offset.toNat)) ∧
    (let s : State := { eb [(ringReg 0 0, 7)] with cont := { lost := [7] } }; let r : Nat := 0;
      let c : Cmd := { cmd0 with offset := 0x8000000 }; s.cmdRing r = true ∧ s.host.cmds = [] ∧ c.offset.toNat % 4 = 0 ∧
      c.offset.toNat < 0x10000000 ∧ s.lostReg c.offset.toNat = true) ∧
    (let s : State := eb [(ringReg 0 0, 7)]; let r : Nat := 0; let c : Cmd := { cmd0 with kind := 3 };
      s.cmdRing r = true ∧ s.host.cmds = [] ∧ c.kind % 4 = 3) ∧
    (let s : State := eb [(ringReg 0 0, 7)]; let r : Nat := 0; let c : Cmd := { cmd0 with kind := 2 };
      let d : Cmd := { c with opcode := 0x42 }; let u := s.taking r d; s.cmdRing r = true ∧ s.host.cmds = [] ∧
      c.kind % 4 ≠ 3 ∧ s.stopIgnored (c.kind % 4) (c.target % 4096) = true) ∧
    (let s : State := { eb [(ringReg 0 0, 7)] with cont := { lost := [7] } }; let r : Nat := 0;
      let c : Cmd := { cmd0 with offset := 0x8000000 }; let d : Cmd := { c with opcode := 0x42 }; let u := s.taking r d;
      s.cmdRing r = true ∧ s.host.cmds = [] ∧ c.kind % 4 ≠ 3 ∧ s.stopIgnored (c.kind % 4) (c.target % 4096) = false) ∧
    (let s : State := { eb [(ringReg 0 0, 7)] with cont := { lost := [7] } }; let r : Nat := 0;
      let c : Cmd := { cmd0 with offset := 0x8000000 }; s.cmdRing r = true ∧ s.host.cmds = []) ∧
    (let s : State := eb [(ringReg 0 0, 7)]; let r : Nat := 0; let c : Cmd := cmd0; s.cmdRing r = true ∧
      s.host.cmds = [] ∧ waitTime c ≤ s.tm.ft) ∧
    (let s : State := { eb [(ringReg 0 0, 7)] with cont := { lost := [7] } }; let r : Nat := 0;
      let c : Cmd := { cmd0 with offset := 0x8000000 }; s.cmdRing r = true ∧ s.host.cmds = [] ∧ s.tm.ft < waitTime c) ∧
    (let s : State := { eb [(ringReg 0 0, 7)] with host := { cmds := [{ id := 0, ring := 0, cmd := { cmd0 with opcode := 0x44 }, started := true }] } };
      let r : Nat := 0; let c := { id := 0, ring := 0, cmd := { cmd0 with opcode := 0x44 }, started := true };
      (s.host.cmds.find? fun c => c.ring == r && c.started && c.cmd.opcode == 0x44 && c.result.isNone) = some c) ∧
    (let s : State := { eb [(ringReg 0 0, 7)] with cont := { lost := [7] } }; let r : Nat := 0;
      (∀ c ∈ s.host.cmds, c.ring = r → c.started = true → c.cmd.opcode = 0x44 → c.result ≠ none)) := by
  refine ⟨?_, ?_, ?_, ?_, ?_, ?_, ?_, ?_, ?_, ?_, ?_, ?_⟩ <;> decide +kernel
/-- The hypotheses of `ManagementCommandsComplete` can be met, part 2. -/
theorem witness_ManagementCommandsComplete_b :
    (let s : State := { tst [] [] with ilulysReset := true }; let r : Nat := 0; s.cmdRing r = false) := by
  decide +kernel
/-- The hypotheses of `StopsBridgeAndManagementPort` can be met, part 1. -/
theorem witness_StopsBridgeAndManagementPort_a :
    (let s : State := { tst [] [] with host := { stops := [{ id := 0, kind := 2, num := 1, on := true, ft := 0, tile := 0, was := false, waiting := [7] }] } };
      let t : Nat := 7; let id : Nat := 0;
      let m := { id := 0, kind := 2, num := 1, on := true, ft := 0, tile := 0, was := false, waiting := [7] };
      (s.host.stops.find? fun m => m.id == id && m.waiting.contains t) = some m) ∧
    (let s : State := tst [] []; let t : Nat := 7; let id : Nat := 0;
      (s.host.stops.find? fun m => m.id == id && m.waiting.contains t) = none) ∧
    (let s : State := tst [] []; let o : Nat := 0xFFFFFFC; s.ilulysReset = false ∧ s.pwr.io = true ∧ o % 4 = 0 ∧
      o < 0x10000000) ∧
    (let s : State := tst [] []; let o : Nat := 0xFFFFFFC; let ok : Bool := false; s.ilulysReset = false ∧
      s.pwr.io = true ∧ (ok = false ∨ o % 4 ≠ 0 ∨ 0x10000000 ≤ o)) ∧
    (let s : State := tst [] []; let o : Nat := 0xFFFFFFC; s.ilulysReset = false ∧ s.pwr.io = true ∧ o % 4 = 0 ∧
      o < 0x10000000) ∧
    (let s : State := { tst [] [] with host := { stops := [{ id := 0, kind := 2, num := 1, on := true, ft := 0, tile := 0, was := false, waiting := [7] }] } };
      s.ilulysReset = false ∧ s.pwr.io = true) ∧
    (let s : State := tst [] []; s.ilulysReset = false) ∧
    (let s : State := { tst [] [] with host := { stops := [{ id := 0, kind := 2, num := 1, on := true, ft := 0, tile := 0, was := false, waiting := [7] }] } };
      s.ilulysReset = false ∧ s.pwr.io = true) ∧
    (let s : State := { tst [] [] with host := { stops := [{ id := 0, kind := 2, num := 1, on := true, ft := 0, tile := 0, was := false, waiting := [7] }] } };
      let b0 : Byte := 0; let b1 : Byte := 0; let b2 : Byte := 0; let b3 : Byte := 0; s.ilulysReset = false ∧
      s.pwr.io = true ∧ ofBytes [b0, b1, b2, b3] % 4 = 0 ∧ ofBytes [b0, b1, b2, b3] < 0x10000000) ∧
    (let s : State := { tst [] [] with host := { stops := [{ id := 0, kind := 2, num := 1, on := true, ft := 0, tile := 0, was := false, waiting := [7] }] } };
      s.ilulysReset = false ∧ s.pwr.io = true) ∧
    (let s : State := { tst [] [] with host := { bridge := { replyReady := true } } }; s.ilulysReset = false ∧
      s.pwr.io = true ∧ s.host.bridge.replyReady = true) ∧
    (let s : State := { tst [] [] with host := { bridge := { readOff := some 0 } } }; let o := 0;
      s.ilulysReset = false ∧ s.pwr.io = true ∧ s.host.bridge.replyReady = false ∧ s.host.bridge.readOff = some o) := by
  refine ⟨?_, ?_, ?_, ?_, ?_, ?_, ?_, ?_, ?_, ?_, ?_, ?_⟩ <;> decide +kernel
/-- The hypotheses of `StopsBridgeAndManagementPort` can be met, part 2. -/
theorem witness_StopsBridgeAndManagementPort_b :
    (let s : State := tst [] []; s.host.bridge.replyReady = false ∧ s.host.bridge.readOff = none) ∧
    (let s : State := { tst [] [] with host := { stops := [{ id := 0, kind := 2, num := 1, on := true, ft := 0, tile := 0, was := false, waiting := [7] }] } };
      s.ilulysReset = false ∧ s.pwr.io = true) ∧
    (let s : State := tst [] []; let o : Nat := 0xFFFFFFC; let len : Nat := 0; s.ilulysReset = false ∧
      (len ≠ 4 ∨ o % 4 ≠ 0 ∨ 0x10000000 ≤ o)) ∧
    (let s : State := tst [(tileBase 7 + 0x04, 1)] []; let o : Nat := tileBase 7; s.ilulysReset = false ∧ o % 4 = 0 ∧
      o < 0x10000000) ∧
    (let s : State := tst [] []; let o : Nat := 0; s.ilulysReset = false ∧ o % 4 = 0 ∧ o < 0x10000000) ∧
    (let s : State := { tst [] [] with ilulysReset := true }; s.ilulysReset = true) ∧
    (let s : State := { tst [] [] with pwr := {} }; s.pwr.io = false) := by
  refine ⟨?_, ?_, ?_, ?_, ?_, ?_, ?_⟩ <;> decide +kernel
/-- The hypotheses of `CountersAndTelemetry` can be met, part 1. -/
theorem witness_CountersAndTelemetry_a :
    (let s : State := { tst [] [] with tel := { counted := [(7, some ({ n := 1 }, true))] } }; let agent : Nat := 7;
      let c := ({ n := 1 }, true); s.agentHere agent = true ∧ tget none s.tel.counted agent = some c) ∧
    (let s : State := tst [] []; let agent : Nat := 0;
      (s.agentHere agent = false ∨ tget none s.tel.counted agent = none)) ∧
    (let s : State := { tst [] [] with tel := { wraps := [(1, 256)] } }; let block : Nat := 1; let i : Nat := 0;
      let x := (1, 256); (s.tel.wraps.find? fun x => x.2 == 256 * block + i) = some x) ∧
    (let s : State := { tst [] [] with tel := { counted := [(7, some ({ n := 1 }, true))] } }; let t : Nat := 0;
      let k : Nat := 0; s.here t = true ∧ k < 32) ∧
    (let s : State := tst [] []; let t : Nat := 0; let h : Nat := 0; s.here t = true ∧ h < 8) ∧
    (let s : State := tst [] []; let t : Nat := 7; let c : Nat := 0; s.here t = true ∧ c < 4) ∧
    (let s : State := { tst [(ctCap 7 3 0, 1)] [] with tel := { cap := [(31, { queue := [[]] })] } }; let t : Nat := 7;
      let c : Nat := 3; let b := []; let bs := []; (s.cap t c).queue = b :: bs ∧ s.here t = true ∧ c < 4 ∧
      s.partEn (s.tileEpoch t) (s.fld (ctCap t c 0) 28 21) = false) ∧
    (let s : State := { tst [] [(partCfg 0, 1)] with tel := { cap := [(31, { queue := [[]] })] } }; let t : Nat := 7;
      let c : Nat := 3; let bs := ([] : List (List Byte)); let e := s.tileEpoch t; let p := s.fld (ctCap t c 0) 28 21;
      let u := s.modCap t c fun k => { k with queue := bs }; (s.cap t c).queue ≠ [] ∧ s.here t = true ∧ c < 4 ∧
      u.partEn e p = true) ∧
    (let s : State := { tst [] [] with tel := { collecting := true } }; let t : Nat := 0; s.here t = true ∧
      markOf (s.tileFt t) ≤ s.tel.markAt ∧ s.tel.deferred = false ∧ s.tel.latchedTiles.contains t = false ∧
      s.tel.collecting = true) ∧
    (let s : State := { tst [] [] with tel := { latchedTiles := [7] } }; let t : Nat := 7; s.here t = true ∧
      markOf (s.tileFt t) ≤ s.tel.markAt ∧ s.tel.latchedTiles.contains t = true) ∧
    (let s : State := { tst [] [] with tel := { latchedTiles := [7] } }; let t : Nat := 7;
      s.tel.latchedTiles.contains t = true ∧ s.tel.gotTiles.contains t = false ∧ s.here t = true) ∧
    (let s : State := { tst [] [] with tel := { counted := [(7, some ({ n := 1 }, true))] } }; let t : Nat := 0;
      (s.tel.latchedTiles.contains t = false ∨ s.tel.gotTiles.contains t = true)) := by
  refine ⟨?_, ?_, ?_, ?_, ?_, ?_, ?_, ?_, ?_, ?_, ?_, ?_⟩ <;> decide +kernel
/-- The hypotheses of `CountersAndTelemetry` can be met, part 2. -/
theorem witness_CountersAndTelemetry_b :
    (let s : State := tst [] []; let t : Nat := 0; s.operates t = true) ∧
    (let s : State := tst [] []; let t : Nat := 8; s.operates t = false) ∧
    (let s : State := { tst [] [] with tel := { wraps := [(1, 256)] } }; let t : Nat := 0; s.here t = true) ∧
    (let s : State := { tst [] [] with tel := { counted := [(7, some ({ n := 1 }, true))] } }; let t : Nat := 0;
      s.here t = true) ∧
    (let s : State := tst [] []; let t : Nat := 8; s.here t = false) := by
  refine ⟨?_, ?_, ?_, ?_, ?_⟩ <;> decide +kernel
/-- The hypotheses of `TileLossAndRejoin` can be met. -/
theorem witness_TileLossAndRejoin :
    (let s : State := { tst [] [] with cont := { lost := [7] } }; let t : Nat := 7; s.here t = false) ∧
    (let s : State := eb []; let t : Nat := 0; s.here t = true) ∧
    (let s : State := { tst [(0x00020000, 4)] [] with cont := { lost := [7] } }; let t : Nat := 7;
      s.part.hasTile t = true ∧ s.cont.lost.contains t = true ∧ s.railsOk t = true ∧ s.pwr.hot.contains t = false ∧
      s.ilulysReset = false ∧ s.fld 0x00020000 3 0 = 4 ∧
      s.win.tbl.filter (fun x => s.winTile x.1 == t && x.2.state == 2) = []) ∧
    (let s : State := { tst [] [] with cont := { lost := [7] } }; let t : Nat := 7;
      (s.cont.lost.contains t = false ∨ s.railsOk t = false ∨ s.pwr.hot.contains t = true ∨ s.ilulysReset = true ∨ s.fld 0x00020000 3 0 ≠ 4)) ∧
    (let s : State := tst [] []; let t : Nat := 0; s.operates t = true ∧ s.headless t = false) ∧
    (let s : State := { tst [(0x00020000, 4)] [] with cont := { lost := [7] } }; let t : Nat := 7;
      (s.operates t = false ∨ s.headless t = true)) ∧
    (let s : State := tst [(tileBase 7 + 0x04, 1)] []; let t : Nat := 7; s.operates t = true ∧ s.headless t = true ∧
      s.ilulysReset = false ∧ s.fld bootStatus 3 0 ≠ 5) ∧
    (let s : State := { tst [] [] with cont := { lost := [7] } }; let t : Nat := 7;
      (s.operates t = false ∨ s.headless t = false ∨ s.ilulysReset = true)) := by
  refine ⟨?_, ?_, ?_, ?_, ?_, ?_, ?_, ?_⟩ <;> decide +kernel
/-- The hypotheses of `SlotPowerCommandsComplete` can be met, part 1. -/
theorem witness_SlotPowerCommandsComplete_a :
    (let s : State := tst [(spReg 127 0, 4)] []; let ch : Nat := 127; ch < 128 ∧ s.ilulysReset = false) ∧
    (let s : State := tst [] []; let ch : Nat := 127; ch < 128 ∧ s.ilulysReset = false) ∧
    (let s : State := tst [] [(slotCfg 1023, 0x1FF), (portCfg 1023, 1)]; let ch : Nat := 127; ch < 128 ∧
      s.ilulysReset = false ∧ (s.slotOf ch).isSome = true) ∧
    (let s : State := tst [] []; let ch : Nat := 127; ch < 128 ∧ s.ilulysReset = false ∧ s.slotOf ch = none) ∧
    (let s : State := tst [(spReg 127 0, 4)] []; let ch : Nat := 127; ch < 128 ∧ s.ilulysReset = false) ∧
    (let s : State := tst [] []; let ch : Nat := 127; ch < 128 ∧ s.ilulysReset = false) ∧
    (let s : State := { tst [(spStatus 127, 0), (spReg 127 8, 200), (spReg 127 0xC, 0x00400040), (spReg 127 0x10, 0x7D00)] [] with sp := [(127, { temp := 0 })] };
      let ch : Nat := 127; let vs : Nat := 0; let vo : Nat := 0; let vi : Nat := 0; let lim : Bool := false; ch < 128 ∧
      (let a := s.setLv (spReg ch 0x18) (BitVec.ofNat 32 (vs % 4096 + vo % 4096 * 65536));
      let b := (a.setLv (spVin ch) (BitVec.ofNat 32 (vi % 4096 + b2n (decide (a.fld 0x00802020 11 0 ≤ vi % 4096)) * 4096))).spTake ch;
      let on := b.gateOn ch; let c := b.stepModel ch (if on then vs % 4096 else 0) (vi % 4096 - vo % 4096);
      let d := (c.setLv (spReg ch 0x1C) (BitVec.ofNat 32 (lowBits 16 ((c.spSt ch).temp / 1024)))).setFlag (spStatus ch) 7 (on && lim);
      let ok := d.modSp ch fun k => { k with timer := 0 }; on = false)) ∧
    (let s : State := { tst [(spStatus 127, 2), (spReg 127 8, 200), (spReg 127 0xC, 0x00400040), (spReg 127 0x10, 0x7D00)] [] with sp := [(127, { temp := 0, latched := true })] };
      let ch : Nat := 127; let vs : Nat := 0; let vo : Nat := 0; let vi : Nat := 0; let lim : Bool := false; ch < 128 ∧
      (let a := s.setLv (spReg ch 0x18) (BitVec.ofNat 32 (vs % 4096 + vo % 4096 * 65536));
      let b := (a.setLv (spVin ch) (BitVec.ofNat 32 (vi % 4096 + b2n (decide (a.fld 0x00802020 11 0 ≤ vi % 4096)) * 4096))).spTake ch;
      let on := b.gateOn ch; let c := b.stepModel ch (if on then vs % 4096 else 0) (vi % 4096 - vo % 4096);
      let d := (c.setLv (spReg ch 0x1C) (BitVec.ofNat 32 (lowBits 16 ((c.spSt ch).temp / 1024)))).setFlag (spStatus ch) 7 (on && lim);
      let ok := d.modSp ch fun k => { k with timer := 0 }; on = true ∧ (d.spSt ch).latched = true)) ∧
    (let s : State := { tst [(spStatus 127, 2), (spReg 127 8, 200), (spReg 127 0xC, 0x00400040), (spReg 127 0x10, 0)] [] with sp := [(127, { temp := 0 })] };
      let ch : Nat := 127; let vs : Nat := 0; let vo : Nat := 0; let vi : Nat := 0; let lim : Bool := false; ch < 128 ∧
      (let a := s.setLv (spReg ch 0x18) (BitVec.ofNat 32 (vs % 4096 + vo % 4096 * 65536));
      let b := (a.setLv (spVin ch) (BitVec.ofNat 32 (vi % 4096 + b2n (decide (a.fld 0x00802020 11 0 ≤ vi % 4096)) * 4096))).spTake ch;
      let on := b.gateOn ch; let c := b.stepModel ch (if on then vs % 4096 else 0) (vi % 4096 - vo % 4096);
      let d := (c.setLv (spReg ch 0x1C) (BitVec.ofNat 32 (lowBits 16 ((c.spSt ch).temp / 1024)))).setFlag (spStatus ch) 7 (on && lim);
      let ok := d.modSp ch fun k => { k with timer := 0 }; on = true ∧ (d.spSt ch).latched = false ∧
      deg (d.ttrip ch) ≤ (d.spSt ch).temp)) ∧
    (let s : State := { tst [(spStatus 127, 2), (spReg 127 8, 200), (spReg 127 0xC, 0x00400040), (spReg 127 0x10, 0x7D00)] [] with sp := [(127, { temp := 0 })] };
      let ch : Nat := 127; let vs : Nat := 0; let vo : Nat := 0; let vi : Nat := 0; let lim : Bool := true; ch < 128 ∧
      (let a := s.setLv (spReg ch 0x18) (BitVec.ofNat 32 (vs % 4096 + vo % 4096 * 65536));
      let b := (a.setLv (spVin ch) (BitVec.ofNat 32 (vi % 4096 + b2n (decide (a.fld 0x00802020 11 0 ≤ vi % 4096)) * 4096))).spTake ch;
      let on := b.gateOn ch; let c := b.stepModel ch (if on then vs % 4096 else 0) (vi % 4096 - vo % 4096);
      let d := (c.setLv (spReg ch 0x1C) (BitVec.ofNat 32 (lowBits 16 ((c.spSt ch).temp / 1024)))).setFlag (spStatus ch) 7 (on && lim);
      let ok := d.modSp ch fun k => { k with timer := 0 }; on = true ∧ (d.spSt ch).latched = false ∧
      (d.spSt ch).temp < deg (d.ttrip ch) ∧ lim = true)) ∧
    (let s : State := { tst [(spStatus 127, 2), (spReg 127 8, 200), (spReg 127 0xC, 0x00400040), (spReg 127 0x10, 0x7D00)] [] with sp := [(127, { temp := 0 })] };
      let ch : Nat := 127; let vs : Nat := 0; let vo : Nat := 0; let vi : Nat := 0; let lim : Bool := false; ch < 128 ∧
      (let a := s.setLv (spReg ch 0x18) (BitVec.ofNat 32 (vs % 4096 + vo % 4096 * 65536));
      let b := (a.setLv (spVin ch) (BitVec.ofNat 32 (vi % 4096 + b2n (decide (a.fld 0x00802020 11 0 ≤ vi % 4096)) * 4096))).spTake ch;
      let on := b.gateOn ch; let c := b.stepModel ch (if on then vs % 4096 else 0) (vi % 4096 - vo % 4096);
      let d := (c.setLv (spReg ch 0x1C) (BitVec.ofNat 32 (lowBits 16 ((c.spSt ch).temp / 1024)))).setFlag (spStatus ch) 7 (on && lim);
      let ok := d.modSp ch fun k => { k with timer := 0 }; on = true ∧ (d.spSt ch).latched = false ∧
      (d.spSt ch).temp < deg (d.ttrip ch) ∧ lim = false)) ∧
    (let s : State := { tst [] [] with ilulysReset := true }; let ch : Nat := 127; let vs : Nat := 0;
      let vo : Nat := 0; let vi : Nat := 0; ch < 128 ∧ s.ilulysReset = true ∧
      (let a := s.setLv (spReg ch 0x18) (BitVec.ofNat 32 (vs % 4096 + vo % 4096 * 65536));
      let u := a.setLv (spVin ch) (BitVec.ofNat 32 (vi % 4096 + b2n (decide (a.fld 0x00802020 11 0 ≤ vi % 4096)) * 4096));
      u.gateOn ch = false)) := by
  refine ⟨?_, ?_, ?_, ?_, ?_, ?_, ?_, ?_, ?_, ?_, ?_, ?_⟩ <;> decide +kernel
/-- The hypotheses of `SlotPowerCommandsComplete` can be met, part 2. -/
theorem witness_SlotPowerCommandsComplete_b :
    (let s : State := tst [(spReg 127 0, 4)] []; let e : Nat := 0; e < 32 ∧ s.ilulysReset = false) ∧
    (let s : State := tst [(spSeq 31 3, 0x200)] []; let e : Nat := 31; e < 32 ∧ s.ilulysReset = false ∧
      s.flag (spSeq e 3) 9 = true) ∧
    (let s : State := tst [] [(slotCfg 1023, 0x1FF), (portCfg 1023, 1)]; let e : Nat := 0; s.flag (spSeq e 3) 9 = false) ∧
    (let s : State := { tst [] [] with ilulysReset := true }; s.ilulysReset = true) := by
  refine ⟨?_, ?_, ?_, ?_⟩ <;> decide +kernel
/-- The hypotheses of `SlotPowerTripsAndStarts` can be met, part 1. -/
theorem witness_SlotPowerTripsAndStarts_a :
    (let s : State := tst [(spStatus 127, 0x82)] []; let ch : Nat := 127; ch < 128 ∧ s.gateOn ch = true) ∧
    (let s : State := { tst [(spStatus 127, 2)] [] with sp := [(127, { latched := true })] }; let ch : Nat := 127;
      ch < 128 ∧ s.gateOn ch = true ∧ (s.spSt ch).latched = true) ∧
    (let s : State := tst [(spStatus 127, 0x82)] []; let ch : Nat := 127; (s.spSt ch).latched = false) ∧
    (let s : State := tst [(spStatus 127, 0x4000)] []; let ch : Nat := 127; s.gateOn ch = false) ∧
    (let s : State := tst [(spStatus 127, 0x82)] []; let ch : Nat := 127; ch < 128 ∧ s.gateOn ch = true) ∧
    (let s : State := tst [(spStatus 127, 0x82)] []; let ch : Nat := 127; ch < 128 ∧ s.gateOn ch = true) ∧
    (let s : State := tst [(spStatus 127, 5)] []; let ch : Nat := 127; ch < 128 ∧ s.spState ch = 5) ∧
    (let s : State := tst [(spStatus 127, 0x82)] []; let ch : Nat := 127; s.spState ch ≠ 5) ∧
    (let s : State := tst [(spStatus 127, 0x4000)] []; let ch : Nat := 127; ch < 128 ∧ s.spState ch = 0 ∧
      s.flag (spStatus ch) 14 = true ∧ s.ilulysReset = false) ∧
    (let s : State := tst [(spStatus 127, 0x82)] []; let ch : Nat := 127;
      (s.flag (spStatus ch) 14 = false ∨ s.ilulysReset = true)) ∧
    (let s : State := tst [(spStatus 127, 1), (spReg 127 0x18, 0xFFF0000)] []; let ch : Nat := 127; ch < 128 ∧
      (s.spState ch = 1 ∨ s.spState ch = 2) ∧ s.flag (spStatus ch) 7 = false ∧ s.pgTh ch ≤ s.fld (spReg ch 0x18) 27 16) ∧
    (let s : State := tst [(spStatus 127, 0x82)] []; let ch : Nat := 127;
      (s.flag (spStatus ch) 7 = true ∨ s.fld (spReg ch 0x18) 27 16 < s.pgTh ch)) := by
  refine ⟨?_, ?_, ?_, ?_, ?_, ?_, ?_, ?_, ?_, ?_, ?_, ?_⟩ <;> decide +kernel
/-- The hypotheses of `SlotPowerTripsAndStarts` can be met, part 2. -/
theorem witness_SlotPowerTripsAndStarts_b :
    (let ch : Nat := 127; ch < 128) ∧
    (let s : State := { tst [(spStatus 127, 3)] [] with sp := [(127, { temp := 0 })] }; let ch : Nat := 127; ch < 128 ∧
      s.spState ch = 3 ∧ s.ilulysReset = false) ∧
    (let s : State := tst [(spStatus 127, 0x82)] []; let ch : Nat := 127; (s.spState ch ≠ 3 ∨ s.ilulysReset = true)) ∧
    (let s : State := tst [(spStatus 127, 0x82)] []; let ch : Nat := 127; ch < 128 ∧ s.ilulysReset = false) ∧
    (let s : State := { tst [] [] with ilulysReset := true }; s.ilulysReset = true) := by
  refine ⟨?_, ?_, ?_, ?_, ?_⟩ <;> decide +kernel
/-- The hypotheses of `FusesAndAttestation` can be met, part 1. -/
theorem witness_FusesAndAttestation_a :
    (let s : State := tst [] []; s.ilulysReset = false) ∧
    (let s : State := { tst [] [] with boot := { fuseRead := true } }; s.boot.fuseRead = true ∧ s.ilulysReset = false) ∧
    (let s : State := tst [] []; s.boot.fuseRead = false) ∧
    (let s : State := { tst [(bootStatus, 4)] [] with boot := { fuseProgEn := true } }; let via : Via := .bridge;
      let v : Word := 0x800003F6; s.ilulysReset = false ∧ s.viaOpen via = true ∧
      (let u := (s.plainWrite fuseProg v).setFlag fuseProg 31 false; let n := 32 * field v 5 0 + field v 10 6;
      u.blowCode n = 0)) ∧
    (let s : State := tst [] []; let via : Via := .bridge; let v : Word := 0x80000000; s.ilulysReset = false ∧
      s.viaOpen via = true ∧ (let u := (s.plainWrite fuseProg v).setFlag fuseProg 31 false;
      let n := 32 * field v 5 0 + field v 10 6; let c := 1; u.blowCode n = c + 1)) ∧
    (let s : State := { tst [] [] with boot := { blows := [5] } }; let n := 5; let ns := []; s.boot.blows = n :: ns ∧
      (s.boot.blowReset = none ∨ ns ≠ [])) ∧
    (let s : State := { tst [] [] with boot := { blows := [5] } }; let n := 5; let ns := []; s.boot.blows = n :: ns ∧
      (s.boot.blowReset = none ∨ ns ≠ [])) ∧
    (let s : State := tst [] []; s.boot.blows = []) ∧
    (let s : State := tst [] []; s.ilulysReset = false) ∧
    (let s : State := { tst [] [] with boot := { attOp := some 0 } }; (s.boot.attOp).any (fun op => decide (op ≠ 1 ∧
      op ≠ 2 ∧ s.ilulysReset = false)) = true) ∧
    (let s : State := { tst [(bootStatus, 0x8000)] [] with boot := { attOp := some 1 } }; s.boot.attOp = some 1 ∧
      s.ilulysReset = false ∧ s.flag bootStatus 15 = true ∧ s.curtainState = 0) ∧
    (let s : State := { tst [(bootStatus, 0x8000)] [] with boot := { attOp := some 2 } }; s.boot.attOp = some 2 ∧
      s.ilulysReset = false ∧ s.flag bootStatus 15 = true) := by
  refine ⟨?_, ?_, ?_, ?_, ?_, ?_, ?_, ?_, ?_, ?_, ?_, ?_⟩ <;> decide +kernel
/-- The hypotheses of `FusesAndAttestation` can be met, part 2. -/
theorem witness_FusesAndAttestation_b :
    (let s : State := tst [] []; (s.boot.attOp = none ∨ ((s.boot.attOp = some 1 ∨ s.boot.attOp = some 2) ∧
      s.flag bootStatus 15 = false) ∨ (s.boot.attOp = some 1 ∧ s.curtainState ≠ 0))) ∧
    (let s : State := tst [] []; s.ilulysReset = false) ∧
    (let s : State := { tst [] [] with ilulysReset := true }; s.ilulysReset = true) := by
  refine ⟨?_, ?_, ?_⟩ <;> decide +kernel
/-- The hypotheses of `FlashAndTest` can be met. -/
theorem witness_FlashAndTest :
    (let s : State := { tst [] [] with boot := { flashOp := some (2, 0) } }; s.ilulysReset = false) ∧
    (let s : State := { tst [] [] with boot := { flashOp := some (2, 0) } }; s.ilulysReset = false) ∧
    (let s : State := { tst [] [] with boot := { flashOp := some (2, 0) } }; s.ilulysReset = false) ∧
    (let s : State := { tst [] [] with boot := { flashOp := some (2, 0) } }; let op := 2; let a := 0;
      s.boot.flashOp = some (op, a) ∧ s.ilulysReset = false ∧ s.pwr.io = true) ∧
    (let s : State := tst [] []; (s.boot.flashOp = none ∨ s.pwr.io = false)) ∧
    (let s : State := { tst [] [] with ilulysReset := true }; s.ilulysReset = true) := by
  refine ⟨?_, ?_, ?_, ?_, ?_, ?_⟩ <;> decide +kernel
/-- The hypotheses of `SuppliesAndClocks` can be met, part 1. -/
theorem witness_SuppliesAndClocks_a :
    (let s : State := { tst [] [] with pwr := { vauxA := true, vauxB := true } }; s.pwr.vauxA = true ∧
      s.pwr.vauxB = true) ∧
    (let s : State := tst [(clkStatus, 6), (clkCtrl, 3)] []; (s.pwr.vauxA = false ∨ s.pwr.vauxB = false)) ∧
    (let s : State := tst [(clkStatus, 7)] []; let b : Bool := true; s.refGood b = true) ∧
    (let s : State := { tst [] [] with pwr := { vauxA := true, vauxB := true } }; let b : Bool := false;
      s.refGood b = false) ∧
    (let s : State := tst [(clkStatus, 7)] []; let b : Bool := true; s.flag clkCtrl (if b then 4 else 3) = true) ∧
    (let s : State := tst [(clkStatus, 6), (clkCtrl, 3)] []; let b : Bool := false;
      s.flag clkCtrl (if b then 4 else 3) = false) ∧
    (let s : State := tst [(clkStatus, 7)] []; s.ilulysReset = false) ∧
    (let s : State := { tst [] [] with ilulysReset := true }; s.ilulysReset = true) ∧
    (let s : State := tst [(clkStatus, 7)] []; s.pwr.strap = none) ∧
    (let s : State := { tst [] [] with pwr := { strap := some 5 } }; let x := 5; s.pwr.strap = some x) ∧
    (let s : State := tst [(tlTemp 7, 0x19000)] []; let t : Nat := 7; let l : List Int := [80];
      s.part.hasTile t = true ∧ l ≠ [] ∧ s.operates t = true) ∧
    (let s : State := { tst [] [] with cont := { lost := [7] } }; let t : Nat := 7; let l : List Int := [-40];
      s.part.hasTile t = true ∧ l ≠ [] ∧ s.operates t = false) := by
  refine ⟨?_, ?_, ?_, ?_, ?_, ?_, ?_, ?_, ?_, ?_, ?_, ?_⟩ <;> decide +kernel
/-- The hypotheses of `SuppliesAndClocks` can be met, part 2. -/
theorem witness_SuppliesAndClocks_b :
    (let s : State := tst [(clkStatus, 7)] []; let t : Nat := 0; let l : List Int := [];
      (s.part.hasTile t = false ∨ l = [])) := by
  decide +kernel
/-- The hypotheses of `BootAndResets` can be met, part 1. -/
theorem witness_BootAndResets_a :
    (let s : State := { tst [] [] with pwr := { vauxA := true, due := some .boot } };
      (s.pwr.vauxA = true ∨ s.pwr.vauxB = true) ∧ s.pwr.due = some .boot) ∧
    (let s : State := { tst [] [] with pwr := { vauxA := true, due := some .restart } };
      (s.pwr.vauxA = true ∨ s.pwr.vauxB = true) ∧ s.pwr.due = some .restart) ∧
    (let s : State := { tst [] [] with pwr := { vauxA := true, due := some .rejoin } };
      (s.pwr.vauxA = true ∨ s.pwr.vauxB = true) ∧ s.pwr.due = some .rejoin) ∧
    (let s : State := { tst [] [] with pwr := { vauxA := true, due := none } };
      (s.pwr.vauxA = true ∨ s.pwr.vauxB = true) ∧ s.pwr.due = none) ∧
    (let s : State := { tst [] [] with pwr := { vauxA := false, vauxB := false } }; s.pwr.vauxA = false ∧
      s.pwr.vauxB = false) ∧
    (let o := 0; o ≠ resetCause) ∧
    (let s : State := tst [] []; let v : Word := 0xA5C30001; s.ilulysReset = false ∧ field v 31 16 = 0xA5C3) ∧
    (let s : State := tst [] []; let v : Word := 0xA5C30078; s.ilulysReset = false ∧ field v 31 16 = 0xA5C3) ∧
    (let s : State := { tst [] [] with pwr := { vauxA := true, due := some .restart } }; let v : Word := 0;
      s.ilulysReset = false ∧ field v 31 16 ≠ 0xA5C3) ∧
    (let s : State := tst [] []; let v : Word := 0xA5C30078; (s.ilulysReset = true ∨ field v 31 16 = 0xA5C3)) ∧
    (let s : State := { tst [] [] with pwr := { vauxA := true, due := some .restart } }; let c : Nat := 0; c < 16 ∧
      s.ilulysReset = false) ∧
    (let s : State := { tst [] [] with pwr := { vauxA := true, due := none } }; s.ilulysReset = false) := by
  refine ⟨?_, ?_, ?_, ?_, ?_, ?_, ?_, ?_, ?_, ?_, ?_, ?_⟩ <;> decide +kernel
/-- The hypotheses of `BootAndResets` can be met, part 2. -/
theorem witness_BootAndResets_b :
    (let s : State := { tst [] [] with ilulysReset := true }; s.ilulysReset = true) := by
  decide +kernel
/-- The hypotheses of `PortFramesAndBilling` can be met. -/
theorem witness_PortFramesAndBilling :
    (let s : State := eb []; let port : Nat := 16; s.pcieUp port = true) ∧
    (let s : State := tst [(portStatus 1023, 1)] []; let port : Nat := 1023; s.pcieUp port = true) ∧
    (let s : State := { tst [(portStatus 0, 1)] [] with ports := [(0, { limit := [(0, some (1, 1)), (2, some (1, 1))] })] };
      let port : Nat := 0; let kind : Nat := 4; s.pcieUp port = true ∧ 2 ≤ kind ∧ kind < 5) ∧
    (let s : State := tst [] []; let port : Nat := 0; let kind : Nat := 0; (s.pcieUp port = false ∨ 5 ≤ kind)) ∧
    (let s : State := { eb [] with pkts := [{ pkt0 with ports := [0, 1], onWire := [(0, 0)] }] }; let port : Nat := 0;
      let n : Nat := 0; let p := { pkt0 with ports := [0, 1], onWire := [(0, 0)] }; let w := (0, 0); s.pkt n = some p ∧
      (p.onWire.find? fun w => w.1 == port) = some w ∧ 2 ≤ p.ports.length) ∧
    (let s : State := { eb [] with pkts := [{ pkt0 with ports := [0], onWire := [(0, 0)], cls := .nonPosted }] };
      let p : Packet := { pkt0 with ports := [0], onWire := [(0, 0)], cls := .nonPosted }; s.pkt 0 = some p ∧
      (p.onWire.find? fun w => w.1 == 0) = some (0, 0) ∧ p.ports.length < 2 ∧
      (p.cls = .posted → ∀ id, p.purpose ≠ .issue id)) ∧
    (let s : State := { eb [] with pkts := [{ pkt0 with ports := [0], onWire := [(0, 0)] , purpose := .issue 3 }] };
      let port : Nat := 0; let n : Nat := 0;
      let p := { pkt0 with ports := [0], onWire := [(0, 0)] , purpose := .issue 3 }; let w := (0, 0); let id := 3;
      s.pkt n = some p ∧ (p.onWire.find? fun w => w.1 == port) = some w ∧ p.ports.length < 2 ∧ p.cls = .posted ∧
      p.purpose = .issue id) ∧
    (let s : State := { tst [(portStatus 0, 1)] [] with ports := [(0, { limit := [(0, some (1, 1)), (2, some (1, 1))] })] };
      let port : Nat := 0; let n : Nat := 0; (∀ p, s.pkt n = some p → (p.onWire.find? fun w => w.1 == port) = none)) := by
  refine ⟨?_, ?_, ?_, ?_, ?_, ?_, ?_, ?_⟩
  · decide +kernel
  · decide +kernel
  · decide +kernel
  · decide +kernel
  · decide +kernel
  · refine ⟨?_, ?_, ?_, ?_⟩ <;> first | decide +kernel | (intro h; cases h)
  · decide +kernel
  · decide +kernel
/-- The hypotheses of `IdleStepPassesANanosecond` can be met. -/
theorem witness_IdleStepPassesANanosecond :
    (let s : State := tst [] []; s.pending = [] ∧ s.links = [] ∧ s.ports = [] ∧
      s.running.filter (fun x => s.headless x) = []) ∧
    (let s : State := tst [] []; s.pending = [] ∧ s.tm.slew = 0 ∧ s.tm.ft + 1 < nsPerSec * 2 ^ 48) ∧
    (let s : State := tst [] []; s.pending = []) := by
  refine ⟨?_, ?_, ?_⟩ <;> decide +kernel
/-- The hypotheses of `StepKeepsWf` can be met. -/
theorem witness_StepKeepsWf :
    (let s : State := { tst [(tmStatus, 0x120)] [] with pending := [.trefClkPresent] }; s.Wf ∧ ∃ t, step s = .next t) := by
  refine ⟨⟨?_, ?_, ?_, ?_⟩, _, rfl⟩ <;> decide +kernel
/-- The hypotheses of `BlownFusesStayBlown` can be met. -/
theorem witness_BlownFusesStayBlown :
    (let s : State := { { tst [] [] with boot := { fuseA := 1, blows := [5] } } with pending := [.fuseBlowDone true] };
      ∃ t, step s = .next t) := by
  exact ⟨_, rfl⟩
/-- The hypotheses of `EveryCommandKeepsPartQueueAndLog` can be met. -/
theorem witness_EveryCommandKeepsPartQueueAndLog :
    (let s : State := tst [] []; ∃ t, exec (.partnerDetected 1023) s = .next t) := by
  exact ⟨_, rfl⟩
/-- The hypotheses of `IgnoredStopsHaveNoEffect` can be met. -/
theorem witness_IgnoredStopsHaveNoEffect :
    (let s : State := eb []; let agent : Nat := 8; let n : Nat := 7; let v : Word := 0x10; s.agentOpen agent n = true ∧
      (let k := field v 13 12; let x := field v 11 0; let p0 := s.seatPart s.leadEpoch 0; k ≠ 3 ∧ ((k = 2 ∧
      x = 0) ∨ (k = 1 ∧ s.bound s.leadEpoch 0 = true ∧ x = p0) ∨ (k = 0 ∧ s.bound s.leadEpoch 0 = true ∧
      x = s.upPort s.leadEpoch p0) ∨ (k = 0 ∧ ¬(x < 1024 ∧ s.part.hasTile (tileOf x) = true)) ∨ (k = 1 ∧ 256 ≤ x)))) ∧
    (let s : State := eb []; let p : Nat := 0; let d : Nat := 0; s.partEn s.leadEpoch p = true ∧
      s.vdpEn s.leadEpoch p d = true ∧ s.vdpDpc s.leadEpoch p d = true ∧ s.vdpLocal s.leadEpoch p d = true ∧
      s.slotOwner s.leadEpoch (s.vdpPort s.leadEpoch p d) = p ∧ s.operates (tileOf (s.vdpPort s.leadEpoch p d)) = true ∧
      tget false s.cont.dpc (s.vdpPort s.leadEpoch p d) = false) := by
  refine ⟨?_, ?_⟩ <;> decide +kernel
/-- The hypotheses of `ResetControlNeedsItsKey` can be met. -/
theorem witness_ResetControlNeedsItsKey :
    (let s : State := tst [] []; s.ilulysReset = false ∧ (let v : Word := 0; field v 31 16 ≠ 0xA5C3)) ∧
    (let s : State := { tst [] [] with boot := { blows := [5] } }; s.ilulysReset = false ∧ (let v : Word := 0xA5C30001;
      field v 31 16 = 0xA5C3 ∧ bit v 3 = false ∧ s.boot.blows ≠ [] ∧ bit v 1 = false)) ∧
    (let s : State := { tst [] [] with boot := { blows := [5] } }; s.ilulysReset = false ∧ (let v : Word := 0xA5C30001;
      field v 31 16 = 0xA5C3 ∧ bit v 3 = false ∧ s.boot.blows ≠ [])) ∧
    (let s : State := tst [] []; s.ilulysReset = false ∧ (let v : Word := 0xA5C30001; field v 31 16 = 0xA5C3 ∧
      bit v 3 = false ∧ s.boot.blows = [] ∧ bit v 1 = false)) ∧
    (let s : State := tst [] []; s.ilulysReset = false ∧ (let v : Word := 0xA5C30001; field v 31 16 = 0xA5C3 ∧
      bit v 3 = false ∧ s.boot.blows = [])) ∧
    (let s : State := { tst [] [] with boot := { blows := [5], blowReset := some true } }; s.ilulysReset = false ∧
      (let n := 5; let cold := true; s.boot.blows = [n] ∧ s.boot.blowReset = some cold)) ∧
    (let s : State := tst [] []; s.ilulysReset = false ∧ (let via : Via := .inband 7 1023; let v : Word := 0xA5C30078;
      field v 31 16 = 0xA5C3 ∧ bit v 0 = false ∧ bit v 1 = false ∧ bit v 2 = false ∧
      s.part.hasTile (field v 6 4) = true ∧ Via.onTile via (field v 6 4) = true)) ∧
    (let s : State := tst [] []; s.ilulysReset = false ∧ (let via : Via := .bridge; let v : Word := 0xA5C30078;
      field v 31 16 = 0xA5C3 ∧ bit v 0 = false ∧ bit v 1 = false ∧ bit v 2 = false ∧
      s.part.hasTile (field v 6 4) = true ∧ Via.onTile via (field v 6 4) = false)) := by
  refine ⟨?_, ?_, ?_, ?_, ?_, ?_, ?_, ?_⟩ <;> decide +kernel

end Sys2Proof.Tests
end

/-! Every command keeps what `Keeps` says of the operations, and what follows for the part, the queue, the numbers and the
log. -/

namespace Sys2Proof.Machine

/-- The retry of an admission, with the credits and arrivals that it lets go on (R125). -/
theorem execAdmissionRetry_next_keeps (t n : Nat) (s : State) :
    ∃ u, execAdmissionRetry t n s = .next u ∧ Keeps s u := by
  have ha : Keeps s (admissionRetry t n s) := admissionRetry_keeps t n s (.refl s)
  refine ⟨_, rfl, ?_⟩
  split
  · exact State.releaseArrivals_keeps _ (State.creditOut_keeps _ _ ha)
  · exact State.releaseArrivals_keeps _ ha

/-- Whatever the state, each command answers a next state and keeps, on the way to it, what its operations keep: for each arm
of `exec` the law of the command's meaning. -/
theorem exec_next_keeps (c : Instr) (s : State) : ∃ t, exec c s = .next t ∧ Keeps s t :=
  have hs : Keeps s s := .refl s
  match c with
  -- Fabric time, sets and the curtain (R23 to R48, R450)
  | .ppsEdge => ⟨_, rfl, ppsEdge_keeps s hs⟩
  | .ppsEdgeMissing => ⟨_, rfl, ppsEdgeMissing_keeps s hs⟩
  | .trefClkAbsent => ⟨_, rfl, trefClkAbsent_keeps s hs⟩
  | .todLoad v => ⟨_, rfl, todLoad_keeps v s hs⟩
  | .deferredTodApply => ⟨_, rfl, deferredTodApply_keeps s hs⟩
  | .syncFrame tile => ⟨_, rfl, syncFrame_keeps tile s hs⟩
  | .ftSnap => ⟨_, rfl, ftSnap_keeps s hs⟩
  | .ftSnapDone => ⟨_, rfl, ftSnapDone_keeps s hs⟩
  | .setFieldWrite via off v => ⟨_, rfl, setFieldWrite_keeps via off v s hs⟩
  | .understudyRead v => ⟨_, rfl, understudyRead_keeps v s hs⟩
  | .understudyReadDone => ⟨_, rfl, understudyReadDone_keeps s hs⟩
  | .consistencyCheck v => ⟨_, rfl, consistencyCheck_keeps v s hs⟩
  | .consistencyCheckDone => ⟨_, rfl, consistencyCheckDone_keeps s hs⟩
  | .curtainArm v => ⟨_, rfl, curtainArm_keeps v s hs⟩
  | .curtainPrepare tile => ⟨_, rfl, curtainPrepare_keeps tile s hs⟩
  | .curtainPrepareAck tile => ⟨_, rfl, curtainPrepareAck_keeps tile s hs⟩
  | .curtainCommit tile => ⟨_, rfl, curtainCommit_keeps tile s hs⟩
  | .curtainCommitAck tile => ⟨_, rfl, curtainCommitAck_keeps tile s hs⟩
  | .lastCall => ⟨_, rfl, lastCall_keeps s hs⟩
  | .curtainAbort v => ⟨_, rfl, curtainAbort_keeps v s hs⟩
  | .curtainQuery tile => ⟨_, rfl, curtainQuery_keeps tile s hs⟩
  | .curtainFall tile => ⟨_, rfl, curtainFall_keeps tile s hs⟩
  | .epochFlip tile => ⟨_, rfl, epochFlip_keeps tile s hs⟩
  | .oldDrainedReport tile => ⟨_, rfl, oldDrainedReport_keeps tile s hs⟩
  | .forcedRetirement => ⟨_, rfl, forcedRetirement_keeps s hs⟩
  | .copyForwardDone => ⟨_, rfl, copyForwardDone_keeps s hs⟩
  | .registerWrite via off v => ⟨_, rfl, registerWrite_keeps via off v s hs⟩
  -- Lanes (R49 to R72)
  | .partnerDetected port => ⟨_, rfl, partnerDetected_keeps port s hs⟩
  | .linkUp2g5 port width reversed polInv skews partnerVfl =>
    ⟨_, rfl, linkUp2g5_keeps port width reversed polInv skews partnerVfl s hs⟩
  | .vflConfirmTimeout port => ⟨_, rfl, vflConfirmTimeout_keeps port s hs⟩
  | .equalisationPhaseDone lane rate limitsOk reached converged =>
    ⟨_, rfl, equalisationPhaseDone_keeps lane rate limitsOk reached converged s hs⟩
  | .speedChangeDone port partner skews => ⟨_, rfl, speedChangeDone_keeps port partner.rate partner.flit skews s hs⟩
  | .eiExitDetect lane mv => ⟨_, rfl, eiExitDetect_keeps lane mv s hs⟩
  | .l0sEntry port => ⟨_, rfl, l0sEntry_keeps port s hs⟩
  | .l1Entry port pciPm => ⟨_, rfl, l1Entry_keeps port pciPm s hs⟩
  | .linkPowerExit port => ⟨_, rfl, linkPowerExit_keeps port s hs⟩
  | .losDetect e => ⟨_, rfl, losDetect_keeps e.lane e.mv e.ns e.eios s hs⟩
  | .laneLol lane => ⟨_, rfl, laneLol_keeps lane s hs⟩
  | .quadPllLol quad => ⟨_, rfl, quadPllLol_keeps quad s hs⟩
  | .quadPllRelock quad => ⟨_, rfl, quadPllRelock_keeps quad s hs⟩
  | .eiHoldRelease lane _ => ⟨_, rfl, .ite (State.laneCtrlAct_keeps s lane _ hs) hs⟩
  | .vflMarker lane marker => ⟨_, rfl, vflMarker_keeps lane marker s hs⟩
  | .markerLoss lane => ⟨_, rfl, markerLoss_keeps lane s hs⟩
  | .patternModeEnter lane _ | .patternModeExit lane _ | .injectOne lane _ | .cntClear lane _ =>
    ⟨_, rfl, .ite (State.testAct_keeps s lane _ hs) hs⟩
  | .checkerLock lane => ⟨_, rfl, checkerLock_keeps lane s hs⟩
  | .checkerUnlock lane => ⟨_, rfl, checkerUnlock_keeps lane s hs⟩
  | .laneMbxRead agent pb _ | .laneMbxWrite agent pb _ => ⟨_, rfl, .ite (State.laneMbxAct_keeps s agent pb _ hs) hs⟩
  | .laneMbxDone agent pb => ⟨_, rfl, laneMbxDone_keeps agent pb s hs⟩
  -- PCI Express ports and slots (R73 to R93, R306)
  | .replayNumRollover port => ⟨_, rfl, replayNumRollover_keeps port s hs⟩
  | .pcieLinkDown port => ⟨_, rfl, pcieLinkDown_keeps port s hs⟩
  | .dpcTrigger part vdp cause => ⟨_, rfl, dpcTrigger_keeps part vdp cause s hs⟩
  | .dpcTriggerStatusClear part vdp => ⟨_, rfl, dpcTriggerStatusClear_keeps part vdp s hs⟩
  | .slotPowerOn part vdp => ⟨_, rfl, slotPowerOn_keeps part vdp s hs⟩
  | .slotPowerOff part vdp => ⟨_, rfl, slotPowerOff_keeps part vdp s hs⟩
  | .slotIndicatorWrite part vdp attn pwr => ⟨_, rfl, slotIndicatorWrite_keeps part vdp attn pwr s hs⟩
  | .commandCompleted port => ⟨_, rfl, commandCompleted_keeps port s hs⟩
  | .slotSidebandMessage port => ⟨_, rfl, slotSidebandMessage_keeps port s hs⟩
  | .presenceSample port present => ⟨_, rfl, presenceSample_keeps port present s hs⟩
  | .attentionButton port => ⟨_, rfl, attentionButton_keeps port s hs⟩
  -- Vangolo Fabric Link and crossings (R94 to R121, R345)
  | .flitReceive link flit => ⟨_, rfl, flitReceive_keeps link flit s hs⟩
  | .packetItemAccept link => ⟨_, rfl, packetItemAccept_keeps link s hs⟩
  | .initSend port => ⟨_, rfl, initSend_keeps port s hs⟩
  | .initReceive port proto vcCount rxSeen fid bufs =>
    ⟨_, rfl, initReceive_keeps port proto vcCount rxSeen fid bufs s hs⟩
  | .initTimeout port => ⟨_, rfl, initTimeout_keeps port s hs⟩
  | .initMismatchRetry port => ⟨_, rfl, initMismatchRetry_keeps port s hs⟩
  | .ackDue link => ⟨_, rfl, ackDue_keeps link s hs⟩
  | .replayTimeout link => ⟨_, rfl, replayTimeout_keeps link s hs⟩
  | .linkRetrainDone link ok width => ⟨_, rfl, linkRetrainDone_keeps link ok width s hs⟩
  | .vflLinkDown port => ⟨_, rfl, vflLinkDown_keeps port s hs⟩
  | .routeHopRestore tile port => ⟨_, rfl, routeHopRestore_keeps tile port s hs⟩
  | .injectBadCrc port _ | .injectDropAck port _ | .injectStaleCredit port _ | .injectSkipSeq port _
  | .injectFecSym port _ => ⟨_, rfl, State.lkInject_keeps s port _ hs⟩
  | .wireFailure tile g wire => ⟨_, rfl, wireFailure_keeps tile g wire s hs⟩
  | .wireRepairDone tile g => ⟨_, rfl, wireRepairDone_keeps tile g s hs⟩
  | .crossingWireInject tile g v => ⟨_, rfl, .ite (State.xgCtrlAct_keeps s tile g v hs) hs⟩
  | .crossingBulkLoss x => ⟨_, rfl, crossingBulkLoss_keeps x s hs⟩
  | .crossingStateNotice tile x state => ⟨_, rfl, State.pump_keeps _ (crossingStateNotice_keeps tile x state s hs)⟩
  -- Switch core (R122 to R147)
  | .cellSlot tile => ⟨_, rfl, cellSlot_keeps tile s hs⟩
  | .admissionRetry tile pkt => execAdmissionRetry_next_keeps tile pkt s
  | .ticketReturn tile fromTile dest count => ⟨_, rfl, ticketReturn_keeps tile fromTile dest count s hs⟩
  | .sprayRecompute tile => ⟨_, rfl, sprayRecompute_keeps tile s hs⟩
  | .egressArrival tile pkt => ⟨_, rfl, egressArrival_keeps tile pkt s hs⟩
  | .voidNotice tile src dest seq => ⟨_, rfl, voidNotice_keeps tile src dest seq s hs⟩
  | .reorderGapTimeout tile src dest => ⟨_, rfl, reorderGapTimeout_keeps tile src dest s hs⟩
  | .ticketQuery agent tile v => ⟨_, rfl, ticketQuery_keeps agent tile v s hs⟩
  | .ticketQueryDone agent tile => ⟨_, rfl, ticketQueryDone_keeps agent tile s hs⟩
  -- Partitions and routing (R148 to R170)
  | .hostMemoryRequest port req =>
    ⟨_, rfl, State.tlpIn_keeps s _ _ _ _ hs fun u hu => hostMemoryRequest_keeps port req u hu⟩
  | .functionMemoryRequest port req =>
    ⟨_, rfl, State.tlpIn_keeps s _ _ _ _ hs fun u hu => functionMemoryRequest_keeps port req u hu⟩
  | .hostConfigRequest port req =>
    ⟨_, rfl, State.tlpIn_keeps s _ _ _ _ hs fun u hu => hostConfigRequest_keeps port req u hu⟩
  | .functionLevelReset part f rid tag vfs =>
    ⟨_, rfl, State.tlpIn_keeps s _ _ _ _ hs fun u hu => functionLevelReset_keeps part f rid tag vfs u hu⟩
  | .secondaryBusReset part vdp => ⟨_, rfl, secondaryBusReset_keeps part vdp s hs⟩
  | .partitionReset part => ⟨_, rfl, partitionReset_keeps part s hs⟩
  | .fabricFunctionPowerState part d3hot => ⟨_, rfl, fabricFunctionPowerState_keeps part d3hot s hs⟩
  | .intxControlChange part intDisable msixEnable =>
    ⟨_, rfl, intxControlChange_keeps part intDisable msixEnable s hs⟩
  | .msixUnmask part vector => ⟨_, rfl, msixUnmask_keeps part vector s hs⟩
  | .completionArrival port cpl =>
    ⟨_, rfl, State.tlpIn_keeps s _ _ _ _ hs fun u hu => completionArrival_keeps port cpl u hu⟩
  | .outstandingEntryAlloc port => ⟨_, rfl, outstandingEntryAlloc_keeps port s hs⟩
  | .completionTimeout tile entry => ⟨_, rfl, completionTimeout_keeps tile entry s hs⟩
  | .vflPacketArrival port pkt => ⟨_, rfl, vflPacketArrival_keeps port pkt s hs⟩
  | .intxMessage port hdr pin assert =>
    ⟨_, rfl, State.tlpIn_keeps s _ _ _ _ hs fun u hu => intxMessage_keeps port hdr.rid pin assert hdr.ecrcBad u hu⟩
  | .messageReceived port hdr msg =>
    ⟨_, rfl, State.tlpIn_keeps s _ _ _ _ hs fun u hu => messageReceived_keeps port hdr.rid msg hdr.data hdr.ecrcBad u hu⟩
  -- Apertures, write combining and fences (R173 to R193, R204)
  | .bar4Write part who req => ⟨_, rfl, bar4Write_keeps part who req s hs⟩
  | .bar4Read part who req => ⟨_, rfl, bar4Read_keeps part who req s hs⟩
  | .wcLineTimeout tile line => ⟨_, rfl, wcLineTimeout_keeps tile line s hs⟩
  | .wcFlushAdmit tile line => ⟨_, rfl, State.releaseArrivals_keeps _ (wcFlushAdmit_keeps tile line s hs)⟩
  | .fenceRead part who seat req => ⟨_, rfl, fenceRead_keeps part who seat req s hs⟩
  | .flushReadComplete tile fence stream status poisoned synthetic code =>
    ⟨_, rfl, flushReadComplete_keeps tile fence stream status poisoned synthetic code s hs⟩
  | .fenceTimeout tile fence => ⟨_, rfl, fenceTimeout_keeps tile fence s hs⟩
  | .apContReadState agent tile v => ⟨_, rfl, apContReadState_keeps agent tile v s hs⟩
  | .apContClear agent tile v => ⟨_, rfl, apContClear_keeps agent tile v s hs⟩
  | .apContContain agent tile v => ⟨_, rfl, apContContain_keeps agent tile v s hs⟩
  | .apContDone agent tile => ⟨_, rfl, apContDone_keeps agent tile s hs⟩
  -- Windows (R194 to R204)
  | .windowTableInit v => ⟨_, rfl, windowTableInit_keeps v s hs⟩
  | .windowTableInitDone => ⟨_, rfl, windowTableInitDone_keeps s hs⟩
  | .windowFetchDone tile index => ⟨_, rfl, windowFetchDone_keeps tile index s hs⟩
  | .revokeDrained tile index => ⟨_, rfl, revokeDrained_keeps tile index s hs⟩
  | .revokeFlushDone tile index => ⟨_, rfl, revokeFlushDone_keeps tile index s hs⟩
  | .windowViolationIntervalEnd tile index => ⟨_, rfl, windowViolationIntervalEnd_keeps tile index s hs⟩
  -- Remote-memory engine (R205 to R226)
  | .qpTableInit v => ⟨_, rfl, qpTableInit_keeps v s hs⟩
  | .qpTableInitDone => ⟨_, rfl, qpTableInitDone_keeps s hs⟩
  | .contextFetchDone tile qpn => ⟨_, rfl, contextFetchDone_keeps tile qpn s hs⟩
  | .nop ring _ | .write ring _ | .read ring _ | .send ring _ | .recvPost ring _ | .fetchAdd8 ring _
  | .cmpSwap8 ring _ | .cmpSwap16 ring _ | .fence ring _ | .countAdd ring _ | .winOpen ring _ | .winRevoke ring _
  | .qpCreate ring _ _ | .qpDestroy ring _ => ⟨_, rfl, State.engineTake_keeps' s ring _ _ hs⟩
  | .qpDestroyDone qpn => ⟨_, rfl, qpDestroyDone_keeps qpn s hs⟩
  | .workRequestStart wr => ⟨_, rfl, workRequestStart_keeps wr s hs⟩
  | .engineWritePacket _ data => ⟨_, rfl, State.arrivePkt_keeps s _ data 0 0 0 hs⟩
  | .readReq _ => ⟨_, rfl, State.arrivePkt_keeps s _ _ 0 0 0 hs⟩
  | .readResp hdr data => ⟨_, rfl, readResp_keeps hdr data s hs⟩
  | .sendPacket _ entryAddr entryLen entryWrId data =>
    ⟨_, rfl, State.arrivePkt_keeps s _ data entryAddr.toNat entryLen entryWrId hs⟩
  | .atomicReq _ data => ⟨_, rfl, State.arrivePkt_keeps s _ data 0 0 0 hs⟩
  | .atomicResp hdr data => ⟨_, rfl, atomicResp_keeps hdr data s hs⟩
  | .engineAck hdr => ⟨_, rfl, engineAck_keeps hdr s hs⟩
  | .notReady hdr => ⟨_, rfl, notReady_keeps hdr s hs⟩
  | .notReadyBackoff wr pkt => ⟨_, rfl, notReadyBackoff_keeps wr pkt s hs⟩
  | .notify _ => ⟨_, rfl, State.arrivePkt_keeps s _ _ 0 0 0 hs⟩
  | .workRequestTimeout wr => ⟨_, rfl, workRequestTimeout_keeps wr s hs⟩
  | .dmaReadCompletion dma cpl => ⟨_, rfl, dmaReadCompletion_keeps dma cpl s hs⟩
  -- Seats (R227 to R242)
  | .ringDoorbell part who seat k req => ⟨_, rfl, ringDoorbell_keeps part who seat k req s hs⟩
  | .poolDoorbell part who seat req => ⟨_, rfl, poolDoorbell_keeps part who seat req s hs⟩
  | .bar2Atomic part who seat req => ⟨_, rfl, bar2Atomic_keeps part who seat req s hs⟩
  | .mbxT2mWrite part who seat off req => ⟨_, rfl, mbxT2mWrite_keeps part who seat off req s hs⟩
  | .t2mPost part who seat req => ⟨_, rfl, t2mPost_keeps part who seat req s hs⟩
  | .t2mAck via seat v => ⟨_, rfl, t2mAck_keeps via seat v s hs⟩
  | .mbxM2tWrite via seat off v => ⟨_, rfl, mbxM2tWrite_keeps via seat off v s hs⟩
  | .m2tPost via seat v => ⟨_, rfl, m2tPost_keeps via seat v s hs⟩
  | .m2tAck part who seat req => ⟨_, rfl, m2tAck_keeps part who seat req s hs⟩
  | .seatReset via tile seat v => ⟨_, rfl, seatReset_keeps via tile seat v s hs⟩
  | .seatRemove via tile seat v => ⟨_, rfl, seatRemove_keeps via tile seat v s hs⟩
  | .seatEscalate via tile seat v => ⟨_, rfl, seatEscalate_keeps via tile seat v s hs⟩
  | .drainTimeout seat => ⟨_, rfl, drainTimeout_keeps seat s hs⟩
  | .seatResetDone seat => ⟨_, rfl, seatResetDone_keeps seat s hs⟩
  | .poolRingHandover ring => ⟨_, rfl, poolRingHandover_keeps ring s hs⟩
  | .seatStop via tile seat v => ⟨_, rfl, seatStop_keeps via tile seat v s hs⟩
  -- Protection units (R243 to R258)
  | .puDisable tile seat v => ⟨_, rfl, puDisable_keeps tile seat v s hs⟩
  | .puDisabled tile seat => ⟨_, rfl, puDisabled_keeps tile seat s hs⟩
  | .puEnable tile seat v => ⟨_, rfl, puEnable_keeps tile seat v s hs⟩
  | .puHoldTimeout tile held => ⟨_, rfl, puHoldTimeout_keeps tile held s hs⟩
  | .puEdit agent tile v => ⟨_, rfl, puEdit_keeps agent tile v s hs⟩
  | .puEditDone agent tile => ⟨_, rfl, puEditDone_keeps agent tile s hs⟩
  | .puViolationIntervalEnd tile seat => ⟨_, rfl, puViolationIntervalEnd_keeps tile seat s hs⟩
  -- Scheduling and policing (R259 to R278)
  | .schedulingRound tile => ⟨_, rfl, schedulingRound_keeps tile s hs⟩
  | .schedulePacketStart port => ⟨_, rfl, schedulePacketStart_keeps port s hs⟩
  | .takeoverArm pb _ | .takeoverCancel pb _ => ⟨_, rfl, .ite (State.takeoverAct_keeps s pb _ hs) hs⟩
  | .takeover pb => ⟨_, rfl, takeover_keeps pb s hs⟩
  | .backlogRead agent tile v => ⟨_, rfl, .ite (State.backlogAct_keeps s agent tile v hs) hs⟩
  | .backlogReadDone agent tile => ⟨_, rfl, backlogReadDone_keeps agent tile s hs⟩
  -- Rings, commands and management (R279 to R307, R451)
  | .ringEnable ring v => ⟨_, rfl, ringEnable_keeps ring v s hs⟩
  | .ringDisable ring v => ⟨_, rfl, ringDisable_keeps ring v s hs⟩
  | .ringFetch ring => ⟨_, rfl, ringFetch_keeps ring s hs⟩
  | .ringFetchComplete ring how entries => ⟨_, rfl, ringFetchComplete_keeps ring how entries s hs⟩
  | .ringFetchResume ring v => ⟨_, rfl, ringFetchResume_keeps ring v s hs⟩
  | .recordWrite ring => ⟨_, rfl, recordWrite_keeps ring s hs⟩
  | .shadowWrite ring => ⟨_, rfl, shadowWrite_keeps ring s hs⟩
  | .irqModTimeout ring => ⟨_, rfl, irqModTimeout_keeps ring s hs⟩
  | .regWrite ring c | .regRead ring c | .stop ring c | .barrier ring c | .waitFt ring c =>
    ⟨_, rfl, State.command_keeps s ring c _ hs⟩
  | .waitFtReached ring => ⟨_, rfl, waitFtReached_keeps ring s hs⟩
  | .tlStopApply agent tile v | .tlStopRelease agent tile v =>
    ⟨_, rfl, State.tlStopWrite_keeps s agent tile v _ hs⟩
  | .stopPropagate tile stopId => ⟨_, rfl, State.pump_keeps _ (stopPropagate_keeps tile stopId s hs)⟩
  | .bridgeWrite off v pecOk => ⟨_, rfl, bridgeWrite_keeps off v pecOk s hs⟩
  | .bridgeRead off pecOk => ⟨_, rfl, bridgeRead_keeps off pecOk s hs⟩
  | .bridgeStatus => ⟨_, rfl, bridgeStatus_keeps s hs⟩
  | .hkBridgeTimeout mgmt => ⟨_, rfl, hkBridgeTimeout_keeps mgmt s hs⟩
  | .i3cPrivateWrite bytes => ⟨_, rfl, i3cPrivateWrite_keeps bytes s hs⟩
  | .i3cPrivateRead ready => ⟨_, rfl, i3cPrivateRead_keeps ready s hs⟩
  | .entdaa addr => ⟨_, rfl, entdaa_keeps addr s hs⟩
  | .mgmtPortAccess off len wr => ⟨_, rfl, mgmtPortAccess_keeps off len wr s hs⟩
  -- Counters, telemetry and box-office meters (R308 to R328)
  | .counterRead agent v => ⟨_, rfl, counterRead_keeps agent v s hs⟩
  | .counterReadDone agent => ⟨_, rfl, counterReadDone_keeps agent s hs⟩
  | .counterWrap block index => ⟨_, rfl, counterWrap_keeps block index s hs⟩
  | .ctProgWrite tile k v => ⟨_, rfl, ctProgWrite_keeps tile k v s hs⟩
  | .snapshotArm _ => ⟨_, rfl, State.snapAct_keeps s _ hs⟩
  | .snapshot block => ⟨_, rfl, snapshot_keeps block s hs⟩
  | .snapshotDone => ⟨_, rfl, snapshotDone_keeps s hs⟩
  | .histogramClear tile h v => ⟨_, rfl, histogramClear_keeps tile h v s hs⟩
  | .captureEnable tile c v => ⟨_, rfl, captureEnable_keeps tile c v s hs⟩
  | .captureRecordWrite tile c => ⟨_, rfl, captureRecordWrite_keeps tile c s hs⟩
  | .minuteMarkLatch tile => ⟨_, rfl, minuteMarkLatch_keeps tile s hs⟩
  | .boContribution tile => ⟨_, rfl, boContribution_keeps tile s hs⟩
  | .boCollectDeadline => ⟨_, rfl, boCollectDeadline_keeps s hs⟩
  -- Containment (R329 to R352, R452)
  | .eccCorrectable tile => ⟨_, rfl, eccCorrectable_keeps tile s hs⟩
  | .eccUncorrectable tile store => ⟨_, rfl, eccUncorrectable_keeps tile store s hs⟩
  | .eccScrub tile => ⟨_, rfl, eccScrub_keeps tile s hs⟩
  | .injCell tile _ | .injTable tile _ => ⟨_, rfl, .ite (State.eccCtrlWrite_keeps s tile _ hs) hs⟩
  | .tileLoss tile => ⟨_, rfl, State.pump_keeps _ (tileLoss_keeps tile s hs)⟩
  | .tileRejoin tile => ⟨_, rfl, tileRejoin_keeps tile s hs⟩
  | .serviceLinkLoss tile => ⟨_, rfl, serviceLinkLoss_keeps tile s hs⟩
  | .serviceLinkReturn tile => ⟨_, rfl, serviceLinkReturn_keeps tile s hs⟩
  -- Slot power (R353 to R371)
  | .spEnable ch fromSlot | .spDisable ch fromSlot => ⟨_, rfl, State.spCommand_keeps s ch _ fromSlot hs⟩
  | .mgrOffSet ch _ | .mgrOffClear ch _ => ⟨_, rfl, .ite (State.spCtrlAct_keeps s ch _ hs) hs⟩
  | .slotPowerTick ch vsense vout vin inLimit => ⟨_, rfl, slotPowerTick_keeps ch vsense vout vin inLimit s hs⟩
  | .fastTripLatch ch => ⟨_, rfl, fastTripLatch_keeps ch s hs⟩
  | .fastTrip ch => ⟨_, rfl, fastTrip_keeps ch s hs⟩
  | .thermalTrip ch => ⟨_, rfl, thermalTrip_keeps ch s hs⟩
  | .faultTimerTrip ch => ⟨_, rfl, faultTimerTrip_keeps ch s hs⟩
  | .stoppingGateOff ch => ⟨_, rfl, stoppingGateOff_keeps ch s hs⟩
  | .vinStart ch => ⟨_, rfl, vinStart_keeps ch s hs⟩
  | .vinLowTimeout ch => ⟨_, rfl, vinLowTimeout_keeps ch s hs⟩
  | .powerGood ch => ⟨_, rfl, powerGood_keeps ch s hs⟩
  | .perstDeassert ch => ⟨_, rfl, perstDeassert_keeps ch s hs⟩
  | .retryStart ch => ⟨_, rfl, retryStart_keeps ch s hs⟩
  | .attemptsReset ch => ⟨_, rfl, attemptsReset_keeps ch s hs⟩
  | .spSeqArm e _ => ⟨_, rfl, .ite (State.seqAct_keeps s e _ hs) hs⟩
  | .spSeqFire e => ⟨_, rfl, spSeqFire_keeps e s hs⟩
  -- Boot, fuses and trust (R372 to R388)
  | .boot b => ⟨_, rfl, bootRun_keeps b s hs⟩
  | .fuseSelect v => ⟨_, rfl, .ite hs (State.fuseSelAct_keeps s v hs)⟩
  | .fuseSelectDone => ⟨_, rfl, fuseSelectDone_keeps s hs⟩
  | .fuseBlow via v => ⟨_, rfl, fuseBlow_keeps via v s hs⟩
  | .fuseBlowDone verified => ⟨_, rfl, fuseBlowDone_keeps verified s hs⟩
  | .attReadWord _ | .attFormReport _ | .attLoadModulus _ => ⟨_, rfl, State.attWrite_keeps s _ hs⟩
  | .attDone => ⟨_, rfl, attDone_keeps s hs⟩
  | .devkeyReady => ⟨_, rfl, devkeyReady_keeps s hs⟩
  | .flashRead _ | .flashProgram _ | .flashErase _ => ⟨_, rfl, State.flashWrite_keeps s _ hs⟩
  | .flashDone => ⟨_, rfl, flashDone_keeps s hs⟩
  | .jtagInstruction isPrivate code => ⟨_, rfl, jtagInstruction_keeps isPrivate code s hs⟩
  -- Supplies, clocks and reset (R389 to R405, R416, R436, R453)
  | .railGood rail => ⟨_, rfl, railGood_keeps rail s hs⟩
  | .railLost rail => ⟨_, rfl, railLost_keeps rail s hs⟩
  | .vauxInputLost b => ⟨_, rfl, vauxInputLost_keeps b s hs⟩
  | .vauxLoss => ⟨_, rfl, vauxLoss_keeps s hs⟩
  | .refclkBad b within300ppm => ⟨_, rfl, refclkBad_keeps b within300ppm s hs⟩
  | .refclkGood b spread => ⟨_, rfl, refclkGood_keeps b spread s hs⟩
  | .refclkRevert within300ppm => ⟨_, rfl, refclkRevert_keeps within300ppm s hs⟩
  | .refclkForce v within300ppm => ⟨_, rfl, refclkForce_keeps v within300ppm s hs⟩
  | .warmReset via v => ⟨_, rfl, warmReset_keeps via v s hs⟩
  | .coldReset via v => ⟨_, rfl, coldReset_keeps via v s hs⟩
  | .ilulysRestart cause => ⟨_, rfl, State.ilulysRestart_keeps s cause hs⟩
  | .tileReset via v => ⟨_, rfl, tileReset_keeps via v s hs⟩
  | .keyErr via v => ⟨_, rfl, keyErr_keeps via v s hs⟩
  | .sysReset => ⟨_, rfl, sysReset_keeps s hs⟩
  | .watchdogExpiry => ⟨_, rfl, State.ilulysRestart_keeps s 5 hs⟩
  | .strapSample vddIoGood addr0 addr1 => ⟨_, rfl, strapSample_keeps vddIoGood addr0 addr1 s hs⟩
  | .tempSample tile sensors => ⟨_, rfl, tempSample_keeps tile sensors s hs⟩
  | .tileOvertemp tile => ⟨_, rfl, tileOvertemp_keeps tile s hs⟩
  | .ilulysOvertemp => ⟨_, rfl, State.ilulysRestart_keeps s 8 hs⟩
  | .trefClkPresent => ⟨_, rfl, trefClkPresent_keeps s hs⟩
  | .l0pEntry port width => ⟨_, rfl, l0pEntry_keeps port width s hs⟩
  | .pcieRecoveryDone port link => ⟨_, rfl, pcieRecoveryDone_keeps port link.good link.skews s hs⟩
  | .dllpReceive port kind seq hdr dat => ⟨_, rfl, dllpReceive_keeps port kind seq hdr dat s hs⟩
  | .ptmRequest port => ⟨_, rfl, ptmRequest_keeps port s hs⟩
  | .egressPacketSent port pkt => ⟨_, rfl, egressPacketSent_keeps port pkt s hs⟩
  | .boIndexSwWrite v => ⟨_, rfl, State.boIndexAct_keeps s v hs⟩
  | .corePllRelock tile => ⟨_, rfl, corePllRelock_keeps tile s hs⟩

/-- What every operation keeps, every command keeps. -/
theorem exec_keeps {c : Instr} {s t : State} (h : exec c s = .next t) : Keeps s t := by
  obtain ⟨u, hu, hk⟩ := exec_next_keeps c s
  obtain rfl : u = t := Host.Outcome.next.inj (hu.symm.trans h)
  exact hk

/-- Settles O57: it holds of each operation that a command's meaning is made of. -/
theorem everyCommandKeepsPartQueueAndLog : Obligations.EveryCommandKeepsPartQueueAndLog := by
  intro c s t h
  obtain ⟨hpart, hpending, hid, hfree, hwire, -, -⟩ := exec_keeps h
  exact ⟨hpart, hpending, hid, hfree, hwire⟩

end Sys2Proof.Machine

/-! Which components of the state an operation can change. `Changes C z s` says that from `z` to `s` no component but those
of `C` changes. The laws `Changes.<operation>` continue it by one operation and add the components which that operation can
change, so that the frame of a command is read off its meaning, operation by operation. -/

namespace Sys2Proof.Machine

/-- The components of the state, one for each field of `State`. -/
inductive Comp
  | part | live | set0 | set1 | tm | cur | core | sch | arrivals | pkts | outs | idCtr | ilulysReset | hv | host | tel
  | cont | wc | win | eng | pu | seats | ports | lanes | sp | seqLate | slots | links | boot | pwr | wire | freeCtr | pending
  deriving DecidableEq

/-- The type of a component. -/
def Comp.Ty : Comp → Type
  | .part => Part | .live | .set0 | .set1 => NMap Word
  | .tm => TimeSt | .cur => CurtainSt | .core => CoreSt | .sch => SchedSt
  | .arrivals | .pending => List Instr | .pkts => List Packet | .outs => List OutEntry
  | .idCtr | .freeCtr => Nat | .ilulysReset => Bool | .hv => HostView | .host => HostSt | .tel => TelSt | .cont => ContSt
  | .wc => WcSt | .win => WinSt | .eng => EngSt | .pu => PuSt | .seats => NMap SeatSt | .ports => NMap PortSt
  | .lanes => NMap LaneSt | .sp => NMap SpSt | .seqLate => List Nat | .slots => NMap SlotSt | .links => NMap LinkSt
  | .boot => BootSt | .pwr => PwrSt | .wire => List Emission

/-- The content of a component. -/
def State.get (s : State) : (c : Comp) → c.Ty
  | .part => s.part | .live => s.live | .set0 => s.set0 | .set1 => s.set1 | .tm => s.tm | .cur => s.cur | .core => s.core
  | .sch => s.sch | .arrivals => s.arrivals | .pkts => s.pkts | .outs => s.outs | .idCtr => s.idCtr
  | .ilulysReset => s.ilulysReset | .hv => s.hv | .host => s.host | .tel => s.tel | .cont => s.cont | .wc => s.wc
  | .win => s.win | .eng => s.eng | .pu => s.pu | .seats => s.seats | .ports => s.ports | .lanes => s.lanes | .sp => s.sp
  | .seqLate => s.seqLate | .slots => s.slots | .links => s.links | .boot => s.boot | .pwr => s.pwr | .wire => s.wire
  | .freeCtr => s.freeCtr | .pending => s.pending

/-- Two states with the same components are one. -/
theorem State.ext_get {s t : State} (h : ∀ c, s.get c = t.get c) : s = t :=
  State.mk.injEq .. ▸ ⟨h .part, h .live, h .set0, h .set1, h .tm, h .cur, h .core, h .sch, h .arrivals, h .pkts, h .outs,
    h .idCtr, h .ilulysReset, h .hv, h .host, h .tel, h .cont, h .wc, h .win, h .eng, h .pu, h .seats, h .ports, h .lanes,
    h .sp, h .seqLate, h .slots, h .links, h .boot, h .pwr, h .wire, h .freeCtr, h .pending⟩

/-- The state `s` with the components of `C` as they are in `t`. -/
def State.graft (C : List Comp) (s t : State) : State :=
  { part := if .part ∈ C then t.part else s.part, live := if .live ∈ C then t.live else s.live
    set0 := if .set0 ∈ C then t.set0 else s.set0, set1 := if .set1 ∈ C then t.set1 else s.set1
    tm := if .tm ∈ C then t.tm else s.tm, cur := if .cur ∈ C then t.cur else s.cur
    core := if .core ∈ C then t.core else s.core, sch := if .sch ∈ C then t.sch else s.sch
    arrivals := if .arrivals ∈ C then t.arrivals else s.arrivals, pkts := if .pkts ∈ C then t.pkts else s.pkts
    outs := if .outs ∈ C then t.outs else s.outs, idCtr := if .idCtr ∈ C then t.idCtr else s.idCtr
    ilulysReset := if .ilulysReset ∈ C then t.ilulysReset else s.ilulysReset, hv := if .hv ∈ C then t.hv else s.hv
    host := if .host ∈ C then t.host else s.host, tel := if .tel ∈ C then t.tel else s.tel
    cont := if .cont ∈ C then t.cont else s.cont, wc := if .wc ∈ C then t.wc else s.wc
    win := if .win ∈ C then t.win else s.win, eng := if .eng ∈ C then t.eng else s.eng
    pu := if .pu ∈ C then t.pu else s.pu, seats := if .seats ∈ C then t.seats else s.seats
    ports := if .ports ∈ C then t.ports else s.ports, lanes := if .lanes ∈ C then t.lanes else s.lanes
    sp := if .sp ∈ C then t.sp else s.sp, seqLate := if .seqLate ∈ C then t.seqLate else s.seqLate
    slots := if .slots ∈ C then t.slots else s.slots, links := if .links ∈ C then t.links else s.links
    boot := if .boot ∈ C then t.boot else s.boot, pwr := if .pwr ∈ C then t.pwr else s.pwr
    wire := if .wire ∈ C then t.wire else s.wire, freeCtr := if .freeCtr ∈ C then t.freeCtr else s.freeCtr
    pending := if .pending ∈ C then t.pending else s.pending }

theorem State.get_graft (C : List Comp) (s t : State) (c : Comp) :
    (s.graft C t).get c = if c ∈ C then t.get c else s.get c := by
  cases c <;> rfl

/-- From `z` to `s` no component but those of `C` changes. -/
def Changes (C : List Comp) (z s : State) : Prop := ∀ c, c ∉ C → s.get c = z.get c

section
variable {C D : List Comp} {z s t u : State}

theorem Changes.refl : Changes [] z z := fun _ _ => rfl

theorem Changes.same : Changes C z z := fun _ _ => rfl

theorem Changes.within (hD : D ⊆ C) (h : Changes D z s) : Changes C z s := fun c hc => h c fun hd => hc (hD hd)

theorem Changes.andThen (h : Changes C z s) (k : Changes D s t) : Changes (D ++ C) z t := fun c hc =>
  (k c fun hd => hc (List.mem_append_left C hd)).trans (h c fun hd => hc (List.mem_append_right D hd))

theorem changes_iff_graft : Changes C s t ↔ s.graft C t = t := by
  constructor
  · intro h
    refine State.ext_get fun c => ?_
    rw [State.get_graft]
    split
    · rfl
    · exact (h c ‹_›).symm
  · intro h c hc
    rw [← h, State.get_graft, if_neg hc]

/-- An update of the components `D`. -/
theorem Changes.upd (h : Changes C z s) (D : List Comp) (ht : s.graft D t = t) : Changes (D ++ C) z t :=
  h.andThen (changes_iff_graft.mpr ht)

/-- The frame of a command whose meaning changes no component but those of `C`. -/
theorem Changes.frame (k : Changes C s u) (h : (.next u : Out) = .next t) : t = s.graft C t :=
  Host.Outcome.next.inj h ▸ (changes_iff_graft.mp k).symm

theorem Changes.ite {c : Prop} [Decidable c] (hs : Changes C z s) (ht : Changes D z t) :
    Changes (C ++ D) z (if c then s else t) := by
  split
  · exact hs.within (List.subset_append_left C D)
  · exact ht.within (List.subset_append_right C D)

theorem changes_each {α : Type} {l : List α} {f : State → α → State} (hf : ∀ v a, Changes D v (f v a)) (s : State) :
    Changes D s (s.each l f) := by
  induction l generalizing s with
  | nil => exact .same
  | cons a l ih => exact .within (by simp) ((hf s a).andThen (ih (f s a)))

theorem Changes.each {α : Type} {l : List α} {f : State → α → State} (h : Changes C z s)
    (hf : ∀ v a, Changes D v (f v a)) : Changes (D ++ C) z (s.each l f) :=
  h.andThen (changes_each hf s)

/-- A register word reads as before when neither the register file nor the part changes. -/
theorem Changes.lv_eq (h : Changes C z s) (hl : .live ∉ C) (hp : .part ∉ C) (o : Nat) : s.lv o = z.lv o := by
  have hlive : s.live = z.live := h .live hl
  have hpart : s.part = z.part := h .part hp
  rw [State.lv, State.lv, hlive, hpart]

/-! ### One component -/

theorem Changes.setLv (h : Changes C z s) {o v} : Changes (.live :: C) z (s.setLv o v) := h.upd [.live] rfl
theorem Changes.setFld (h : Changes C z s) {o hi lo n} : Changes (.live :: C) z (s.setFld o hi lo n) := h.setLv
theorem Changes.setFlag (h : Changes C z s) {o n b} : Changes (.live :: C) z (s.setFlag o n b) := h.setLv
theorem Changes.sticky (h : Changes C z s) {o n} : Changes (.live :: C) z (s.sticky o n) := h.setLv
theorem Changes.lkClean (h : Changes C z s) : Changes (.live :: C) z s.lkClean := h.upd [.live] rfl
theorem Changes.plainWrite (h : Changes C z s) {o v} : Changes (.live :: C) z (s.plainWrite o v) := by
  unfold State.plainWrite
  split
  · exact h.within (List.subset_cons_self _ _)
  · exact h.setLv

theorem Changes.used (h : Changes C z s) : Changes (.freeCtr :: C) z s.used := h.upd [.freeCtr] rfl
theorem Changes.emit (h : Changes C z s) {e} : Changes (.wire :: C) z (s.emit e) := h.upd [.wire] rfl
theorem Changes.modTm (h : Changes C z s) {f} : Changes (.tm :: C) z (s.modTm f) := h.upd [.tm] rfl
theorem Changes.modCur (h : Changes C z s) {f} : Changes (.cur :: C) z (s.modCur f) := h.upd [.cur] rfl
theorem Changes.modCore (h : Changes C z s) {f} : Changes (.core :: C) z (s.modCore f) := h.upd [.core] rfl
theorem Changes.modTel (h : Changes C z s) {f} : Changes (.tel :: C) z (s.modTel f) := h.upd [.tel] rfl
theorem Changes.modWin (h : Changes C z s) {f} : Changes (.win :: C) z (s.modWin f) := h.upd [.win] rfl
theorem Changes.modEng (h : Changes C z s) {f} : Changes (.eng :: C) z (s.modEng f) := h.upd [.eng] rfl
theorem Changes.modBoot (h : Changes C z s) {f} : Changes (.boot :: C) z (s.modBoot f) := h.upd [.boot] rfl
theorem Changes.modPwr (h : Changes C z s) {f} : Changes (.pwr :: C) z (s.modPwr f) := h.upd [.pwr] rfl
theorem Changes.modSeat (h : Changes C z s) {n f} : Changes (.seats :: C) z (s.modSeat n f) := h.upd [.seats] rfl
theorem Changes.modRing (h : Changes C z s) {r f} : Changes (.host :: C) z (s.modRing r f) := h.upd [.host] rfl
theorem Changes.modPort (h : Changes C z s) {p f} : Changes (.ports :: C) z (s.modPort p f) := h.upd [.ports] rfl
theorem Changes.modSlot (h : Changes C z s) {p f} : Changes (.slots :: C) z (s.modSlot p f) := h.upd [.slots] rfl
theorem Changes.modLink (h : Changes C z s) {l f} : Changes (.links :: C) z (s.modLink l f) := h.upd [.links] rfl
theorem Changes.modLane (h : Changes C z s) {l f} : Changes (.lanes :: C) z (s.modLane l f) := h.upd [.lanes] rfl
theorem Changes.modSp (h : Changes C z s) {n f} : Changes (.sp :: C) z (s.modSp n f) := h.upd [.sp] rfl
theorem Changes.setViol (h : Changes C z s) {k v} : Changes (.pu :: C) z (s.setViol k v) := h.upd [.pu] rfl
theorem Changes.sendSide (h : Changes C z s) {p n} : Changes (.host :: C) z (s.sendSide p n) := h.upd [.host] rfl
theorem Changes.bump (h : Changes C z s) {m n k} : Changes (.tel :: C) z (s.bump m n k) := h.upd [.tel] rfl
theorem Changes.countHk (h : Changes C z s) {i} : Changes (.tel :: C) z (s.countHk i) := h.bump

theorem Changes.setConf (h : Changes C z s) {e o v} : Changes ([Comp.set0, .set1] ++ C) z (s.setConf e o v) := by
  cases e
  · exact (h.upd [.set0] rfl).within (by simp)
  · exact (h.upd [.set1] rfl).within (by simp)

/-! ### Counters and event records (R288, R308) -/

theorem Changes.countN (h : Changes C z s) {t ev p q k} : Changes ([Comp.live, .tel] ++ C) z (s.countN t ev p q k) := by
  refine h.andThen ?_
  unfold State.countN
  extract_lets s1
  have marked : Changes [.live] s s1 := by
    unfold s1
    split
    · exact Changes.refl.sticky
    · exact .same
  exact .within (by decide) (.ite .refl (marked.bump.each fun _ _ => .ite Changes.refl.bump .refl))

theorem Changes.count (h : Changes C z s) {t ev p q} : Changes ([Comp.live, .tel] ++ C) z (s.count t ev p q) := h.countN

theorem Changes.countLink (h : Changes C z s) {l ev k} : Changes ([Comp.live, .tel] ++ C) z (s.countLink l ev k) := h.countN

theorem Changes.pushRec (h : Changes C z s) {r q b} : Changes ([Comp.host, .live] ++ C) z (s.pushRec r q b) :=
  h.andThen (.within (by decide) (.ite Changes.refl.modRing Changes.refl.modRing.sticky))

theorem Changes.pushEv (h : Changes C z s) {r b} : Changes (.host :: C) z (s.pushEv r b) := h.modRing

theorem Changes.flushLost (h : Changes C z s) {r o t} : Changes ([Comp.host, .live] ++ C) z (s.flushLost r o t) :=
  h.andThen (.within (by decide) (.ite .refl Changes.refl.pushEv.setFld))

theorem Changes.sendRecord (h : Changes C z s) {d t b} : Changes ([Comp.host, .live, .tel] ++ C) z (s.sendRecord d t b) := by
  refine h.andThen ?_
  unfold State.sendRecord
  split
  · exact Changes.refl.count.within (by decide)
  · exact .within (by decide) (.ite Changes.refl.flushLost.pushEv Changes.refl.flushLost.setFld)

theorem Changes.event (h : Changes C z s) {d ty c t b} : Changes ([Comp.host, .live, .tel] ++ C) z (s.event d ty c t b) :=
  h.sendRecord

theorem Changes.eventMgr (h : Changes C z s) {ty t b} : Changes ([Comp.host, .live, .tel] ++ C) z (s.eventMgr ty t b) :=
  h.andThen (.within (by decide) (.ite (Changes.refl.upd [.host] rfl) Changes.refl.event))

/-! ### Flits sent (R94 to R107) -/

theorem Changes.sendData (h : Changes C z s) {l q i r cs} : Changes ([Comp.links, .wire] ++ C) z (s.sendData l q i r cs) :=
  h.andThen (.within (by decide) (.ite Changes.refl.modLink Changes.refl.emit.modLink))

theorem Changes.syncFull (h : Changes C z s) {l} : Changes (.live :: C) z (s.syncFull l) := by
  cases l with
  | port p => exact h.setFlag
  | xing t g => exact h.within (List.subset_cons_self _ _)

theorem Changes.nextData (h : Changes C z s) {l} : Changes ([Comp.links, .live, .wire] ++ C) z (s.nextData l) :=
  h.andThen (.within (by decide) Changes.refl.sendData.modLink.syncFull)

theorem changes_sendFlits (l : Link) (least fuel : Nat) (s : State) :
    Changes [.links, .live, .wire] s (s.sendFlits l least fuel) := by
  induction fuel generalizing s with
  | zero => exact .same
  | succ fuel ih => exact .within (by decide) (.ite (Changes.refl.nextData.andThen (ih (s.nextData l))) .refl)

theorem Changes.sendFlits (h : Changes C z s) {l n k} : Changes ([Comp.links, .live, .wire] ++ C) z (s.sendFlits l n k) :=
  h.andThen (changes_sendFlits l n k s)

theorem Changes.resend (h : Changes C z s) {l} : Changes ([Comp.links, .live, .wire] ++ C) z (s.resend l) := by
  refine h.andThen ?_
  cases l with
  | port p => exact .within (by decide) Changes.refl.modLink.setFlag
  | xing t g => exact .within (by decide) (Changes.refl.each fun _ _ => Changes.refl.sendData)

theorem Changes.sendAck (h : Changes C z s) {l} : Changes ([Comp.links, .wire] ++ C) z (s.sendAck l) :=
  h.andThen (.within (by decide) Changes.refl.emit.modLink)

/-! ### Fabric time (R26 to R29) -/

theorem Changes.moveFt (h : Changes C z s) {v} : Changes ([Comp.live, .tm] ++ C) z (s.moveFt v) :=
  h.andThen (.within (by decide) Changes.refl.modTm.modTm.sticky)

theorem Changes.lockIfDue (h : Changes C z s) : Changes (.live :: C) z s.lockIfDue :=
  h.andThen (D := [.live]) (.within (by decide) (.ite Changes.refl.setFlag.setFlag .refl))

theorem Changes.applyTod (h : Changes C z s) {v} : Changes ([Comp.live, .tm] ++ C) z (s.applyTod v) :=
  h.andThen (.within (by decide) Changes.refl.moveFt.modTm.setFlag.lockIfDue)

theorem Changes.correct (h : Changes C z s) {e} : Changes ([Comp.live, .tm] ++ C) z (s.correct e) :=
  h.andThen (.within (by decide) (.ite Changes.refl.modTm (.ite Changes.refl.modTm Changes.refl.moveFt)))

theorem Changes.validEdge (h : Changes C z s) : Changes ([Comp.freeCtr, .live, .tm] ++ C) z s.validEdge := by
  refine h.andThen ?_
  unfold State.validEdge
  extract_lets err gap row s1 s2 s3 s4
  have locked : Changes _ s s4 := Changes.refl.used.modTm.setLv.setFlag.setLv.used.lockIfDue
  split
  · exact .within (by decide) (.ite locked.applyTod locked.correct)
  · exact locked.correct.within (by decide)

/-! ### Lanes and links in training (R53 to R64, R99, R118) -/

theorem Changes.setEi (h : Changes C z s) {ls} : Changes (.live :: C) z (s.setEi ls) :=
  h.each fun _ _ => Changes.refl.setFlag

theorem Changes.lanesDown (h : Changes C z s) {p} : Changes (.live :: C) z (s.lanesDown p) :=
  h.each (D := [.live]) fun _ _ => Changes.refl.setFld.setFlag.within (by decide)

theorem Changes.pllUp (h : Changes C z s) {p} : Changes (.live :: C) z (s.pllUp p) :=
  h.each (D := [.live]) fun _ _ => .within (by decide) (.ite Changes.refl.setFlag.setFlag .refl)

theorem Changes.toDetect (h : Changes C z s) {p b} : Changes ([Comp.links, .live, .ports] ++ C) z (s.toDetect p b) :=
  h.andThen (.within (by decide) Changes.refl.setFld.modLink.modPort.lanesDown)

theorem Changes.setStopped (h : Changes C z s) {l b} : Changes ([Comp.links, .live] ++ C) z (s.setStopped l b) := by
  refine h.andThen ?_
  cases l with
  | port p => exact .within (by decide) Changes.refl.modLink.setFlag.setFlag.setEi
  | xing t g => exact .within (by decide) Changes.refl.modLink

theorem Changes.advanceCounts (h : Changes C z s) {l} : Changes ([Comp.freeCtr, .lanes] ++ C) z (s.advanceCounts l) :=
  h.andThen (.within (by decide) (.ite .refl Changes.refl.used.modLane))

theorem Changes.unlock (h : Changes C z s) {l} : Changes ([Comp.freeCtr, .lanes, .live] ++ C) z (s.unlock l) :=
  h.andThen (.within (by decide) (.ite Changes.refl.advanceCounts.setFlag .refl))

theorem Changes.genChange (h : Changes C z s) {was l} : Changes (.wire :: C) z (s.genChange was l) :=
  h.andThen (D := [.wire]) (.within (by decide) (.ite .refl Changes.refl.emit))

theorem Changes.laneCtrlAct (h : Changes C z s) {l v} :
    Changes ([Comp.freeCtr, .lanes, .live, .wire] ++ C) z (s.laneCtrlAct l v) := by
  refine h.andThen ?_
  unfold State.laneCtrlAct
  extract_lets was z s1 s2 s3
  have stored : Changes _ s s1 := Changes.refl.advanceCounts.plainWrite
  have noted : Changes _ s s2 := .ite stored.setFlag stored
  have idle : Changes _ s s3 := .ite noted.setEi noted
  exact idle.genChange.within (by decide)

theorem Changes.linkPowerExit (h : Changes C z s) {p} : Changes ([Comp.live, .ports] ++ C) z (linkPowerExit p s) :=
  h.andThen (.within (by decide) (.ite .refl Changes.refl.pllUp.setFld.modPort.setEi))

/-! ### Work requests (R222 to R224) -/

theorem Changes.reapOne (h : Changes C z s) {w} : Changes ([Comp.eng, .host, .live] ++ C) z (s.reapOne w) := by
  refine h.andThen ?_
  unfold State.reapOne
  extract_lets s1 s2
  have taken : Changes [.eng] s s1 := Changes.refl.modEng
  have told : Changes [.eng, .host, .live] s s2 := by
    unfold s2
    split
    · split
      · exact taken.pushRec.within (by decide)
      · exact taken.within (by decide)
    · exact taken.within (by decide)
  exact .within (by decide) (.ite told.modEng told)

theorem Changes.reap (h : Changes C z s) : Changes ([Comp.eng, .host, .live] ++ C) z s.reap := by
  refine h.each fun u w => ?_
  split
  · exact .same
  · exact .within (by decide) (.ite Changes.refl.reapOne .refl)

theorem Changes.modWr (h : Changes C z s) {i f} : Changes (.eng :: C) z (s.modWr i f) := h.modEng

theorem Changes.modQp (h : Changes C z s) {n f} : Changes (.eng :: C) z (s.modQp n f) := h.modEng

theorem Changes.finishWr (h : Changes C z s) {i c} : Changes ([Comp.eng, .host, .live] ++ C) z (s.finishWr i c) := by
  refine h.andThen ?_
  unfold State.finishWr
  split
  · exact .same
  · extract_lets s1 bad
    have ended : Changes _ s s1 := Changes.refl.modWr
    exact .within (by decide) (.ite .refl ended.modEng.reap)

/-! ### Seats, protection units, slot power -/

theorem Changes.mbxCtrlWrite (h : Changes C z s) {n v} :
    Changes ([Comp.host, .live, .seats, .tel] ++ C) z (s.mbxCtrlWrite n v) := by
  refine h.andThen ?_
  unfold State.mbxCtrlWrite
  extract_lets s1 s2 s3
  have stored : Changes _ s s1 := Changes.refl.plainWrite
  have acked : Changes _ s s2 := .ite stored.setFlag.event stored
  exact .within (by decide) (.ite (.ite acked.sticky acked.modSeat.setFlag.event) acked)

theorem Changes.clearMbx (h : Changes C z s) {n} : Changes ([Comp.live, .seats] ++ C) z (s.clearMbx n) :=
  h.andThen (.within (by decide) (Changes.refl.each fun _ _ => Changes.refl.setLv).setFld.modSeat)

theorem Changes.resetRing (h : Changes C z s) {r} : Changes ([Comp.host, .live] ++ C) z (s.resetRing r) :=
  h.andThen (.within (by decide) Changes.refl.setLv.modRing)

theorem Changes.puReport (h : Changes C z s) {t n v} : Changes ([Comp.host, .live, .tel] ++ C) z (s.puReport t n v) :=
  h.andThen (.within (by decide) (.ite Changes.refl.event Changes.refl.event.event))

theorem Changes.puEditAct (h : Changes C z s) {a t v} : Changes ([Comp.live, .set0, .set1] ++ C) z (s.puEditAct a t v) :=
  h.andThen (.within (by decide)
    (.ite Changes.refl.setLv (Changes.refl.setLv.each fun _ _ => Changes.refl.setConf.setConf).setFld))

theorem Changes.setWrite (h : Changes C z s) {o v} : Changes ([Comp.live, .set0, .set1] ++ C) z (s.setWrite o v) :=
  h.andThen (.within (by decide) (.ite .refl (.ite Changes.refl.sticky Changes.refl.setConf.lkClean.setFld)))

theorem Changes.spMessage (h : Changes C z s) {n c} : Changes (.host :: C) z (s.spMessage n c) := by
  unfold State.spMessage
  split
  · exact h.sendSide
  · exact h.within (List.subset_cons_self _ _)

theorem Changes.startFail (h : Changes C z s) {n c i} : Changes ([Comp.host, .live, .tel] ++ C) z (s.startFail n c i) :=
  h.andThen (.within (by decide) Changes.refl.setFld.sticky.setFlag.countHk.spMessage.eventMgr)

theorem Changes.ramp (h : Changes C z s) {n} : Changes ([Comp.live, .sp] ++ C) z (s.ramp n) :=
  h.andThen (.within (by decide) Changes.refl.setFld.setFlag.modSp)

theorem Changes.pgGive (h : Changes C z s) {n} : Changes ([Comp.host, .live] ++ C) z (s.pgGive n) :=
  h.andThen (.within (by decide)
    (.ite .refl (.ite Changes.refl.setFlag.spMessage.setFld Changes.refl.setFlag.spMessage)))

/-! ### Counters, minute marks, fuses, service links, the mesh -/

theorem Changes.cntAct (h : Changes C z s) {a v} : Changes ([Comp.freeCtr, .live, .tel] ++ C) z (s.cntAct a v) :=
  h.andThen (.within (by decide) (.ite Changes.refl.used.setLv.modTel.modTel Changes.refl.used.setLv.modTel))

theorem Changes.newMark (h : Changes C z s) {m} : Changes ([Comp.live, .tel, .tm] ++ C) z (s.newMark m) :=
  h.andThen (.within (by decide)
    (.ite Changes.refl.modTel.setFld.sticky.modTel Changes.refl.modTel.setFld.modTel.modTm))

theorem Changes.fuseProgAct (h : Changes C z s) {v} : Changes ([Comp.boot, .live, .tel] ++ C) z (s.fuseProgAct v) := by
  refine h.andThen ?_
  unfold State.fuseProgAct
  extract_lets s1 n
  have stored : Changes _ s s1 := Changes.refl.plainWrite.setFlag
  split
  · exact stored.modBoot.within (by decide)
  · exact stored.setFld.setFlag.countHk.within (by decide)

theorem Changes.svcLost (h : Changes C z s) {t} : Changes ([Comp.live, .pwr, .tel] ++ C) z (s.svcLost t) := by
  refine h.andThen ?_
  unfold State.svcLost
  extract_lets q was pwr s1
  have noted : Changes [.pwr] s s1 := Changes.refl.upd [.pwr] rfl
  exact .within (by decide) (.ite .refl noted.setFlag.sticky.countHk.setFlag.setFlag)

theorem Changes.seeXg (h : Changes C z s) {t x st} : Changes (.live :: C) z (s.seeXg t x st) :=
  h.andThen (D := [.live]) (.within (by decide) Changes.refl.setFlag.setFlag)

theorem Changes.tileRecords (h : Changes C z s) {t lost} : Changes ([Comp.host, .live, .tel] ++ C) z (s.tileRecords t lost) :=
  h.each fun _ _ => Changes.refl.event
end

end Sys2Proof.Machine

/-! The components that each command of two and three units changes, and the frame of them all. -/

namespace Sys2Proof.Machine

section
variable (s : State)

theorem ppsEdge_changes : Changes [.freeCtr, .live, .tel, .tm] s (ppsEdge s) :=
  .within (by decide) (.ite .refl (.ite Changes.refl.validEdge Changes.refl.countHk))

theorem syncFrame_changes (t : Nat) : Changes [.freeCtr, .live, .tm] s (syncFrame t s) :=
  .within (by decide) (.ite .refl Changes.refl.used.modTm.setFld.setFlag.setFlag)

theorem setFieldWrite_changes (via : Via) (o : Nat) (v : Word) :
    Changes [.live, .set0, .set1] s (setFieldWrite via o v s) :=
  .within (by decide) (.ite Changes.refl.setWrite .refl)

theorem copyForwardDone_changes : Changes [.cur, .live, .set0, .set1] s (copyForwardDone s) := by
  unfold copyForwardDone
  extract_lets s1
  have copied : Changes _ s s1 := .ite (Changes.refl.upd [.set0] rfl) (Changes.refl.upd [.set1] rfl)
  exact .within (by decide) (.ite .refl copied.lkClean.setFlag.setFld.modCur)

theorem partnerDetected_changes (port : Nat) :
    Changes [.lanes, .live, .ports, .slots] s (partnerDetected port s) := by
  unfold partnerDetected
  extract_lets s1 s2
  have trained : Changes _ s s1 := Changes.refl.pllUp.modPort.each fun _ _ => Changes.refl.setFlag.setFld.modLane
  have idle : Changes _ s s2 := trained.setEi
  exact .within (by decide) (.ite .refl (.ite idle.modSlot idle))

theorem vflConfirmTimeout_changes (port : Nat) : Changes [.live, .ports, .tel] s (vflConfirmTimeout port s) :=
  .within (by decide) (.ite Changes.refl.modPort.setEi.count .refl)

theorem eiExitDetect_changes (lane mv : Nat) : Changes [.freeCtr, .live, .ports] s (eiExitDetect lane mv s) := by
  unfold eiExitDetect
  extract_lets found s1 s2
  have taken : Changes _ s s1 := Changes.refl.used
  have seen : Changes _ s s2 := taken.setFlag
  split
  · exact .same
  split
  · exact taken.within (by decide)
  split
  · exact .within (by decide) (.ite seen.linkPowerExit seen)
  · exact seen.within (by decide)

theorem eiHoldRelease_changes (lane : Nat) (v : Word) : Changes [.freeCtr, .lanes, .live, .wire] s
    (if s.laneHere lane then s.laneCtrlAct lane (putBit v 5 false) else s) :=
  .within (by decide) (.ite Changes.refl.laneCtrlAct .refl)

theorem checkerUnlock_changes (lane : Nat) : Changes [.freeCtr, .lanes, .live] s (checkerUnlock lane s) :=
  .within (by decide) (.ite Changes.refl.unlock .refl)

theorem laneMbxDone_changes (agent pb : Nat) :
    Changes [.freeCtr, .lanes, .live, .wire] s (laneMbxDone agent pb s) := by
  unfold laneMbxDone
  extract_lets v lane item d s1 d1 s2
  have captured : Changes _ s s1 := .ite Changes.refl.advanceCounts.modLane .refl
  have done : Changes _ s s2 :=
    .ite (.ite Changes.refl.modLane.genChange (.ite Changes.refl.modLane .refl)) captured.setLv.setLv
  exact .within (by decide) (.ite .refl done.setFlag)

theorem initSend_changes (port : Nat) : Changes [.links, .live, .wire] s (initSend port s) :=
  .within (by decide) (.ite .refl Changes.refl.setFld.modLink.emit)

theorem initReceive_changes (port proto n : Nat) (rxSeen : Bool) (fid : Nat) (bufs : List Nat) :
    Changes [.links, .live, .ports, .tel] s (initReceive port proto n rxSeen fid bufs s) := by
  unfold initReceive
  extract_lets e vcs s1 s2 s3 s4
  have up : Changes _ s s2 := Changes.refl.modLink.setFld.setFlag
  have sized : Changes _ s s3 := .ite up up.sticky
  exact .within (by decide) (.ite .refl
    (.ite Changes.refl.sticky.countLink.toDetect (.ite Changes.refl.modLink sized.setLv.setFlag)))

theorem initTimeout_changes (port : Nat) : Changes [.links, .live, .ports] s (initTimeout port s) :=
  .within (by decide) (.ite Changes.refl.toDetect .refl)

theorem ackDue_changes (l : Link) : Changes [.links, .live, .wire] s (ackDue l s) :=
  .within (by decide) (.ite .refl (.ite Changes.refl.sendFlits Changes.refl.sendAck))

theorem wireRepairDone_changes (t g : Nat) : Changes [.links, .live, .wire] s (wireRepairDone t g s) := by
  unfold wireRepairDone
  split
  · exact .same
  · exact .within (by decide) (Changes.refl.each fun _ _ => .ite Changes.refl.setStopped.resend .refl)

theorem windowViolationIntervalEnd_changes (t i : Nat) :
    Changes [.host, .live, .tel, .win] s (windowViolationIntervalEnd t i s) := by
  unfold windowViolationIntervalEnd
  split
  · exact .same
  split
  · exact .same
  · exact .within (by decide) (.ite Changes.refl.modWin Changes.refl.event.modWin)

theorem qpDestroyDone_changes (n : Nat) : Changes [.eng, .host, .live] s (qpDestroyDone n s) := by
  unfold qpDestroyDone
  split
  · exact .same
  · extract_lets d s1
    have emptied : Changes _ s s1 := Changes.refl.modQp
    cases d with
    | none => exact emptied.within (by decide)
    | some w => exact emptied.finishWr.within (by decide)

theorem workRequestTimeout_changes (id : Nat) : Changes [.eng, .host, .live] s (workRequestTimeout id s) := by
  unfold workRequestTimeout
  split
  · exact .same
  · exact .within (by decide) (.ite Changes.refl.finishWr .refl)

theorem t2mAck_changes (via : Via) (seat : Nat) (v : Word) :
    Changes [.host, .live, .seats, .tel] s (t2mAck via seat v s) :=
  .within (by decide) (.ite Changes.refl.mbxCtrlWrite .refl)

theorem m2tPost_changes (via : Via) (seat : Nat) (v : Word) :
    Changes [.host, .live, .seats, .tel] s (m2tPost via seat v s) :=
  .within (by decide) (.ite Changes.refl.mbxCtrlWrite .refl)

theorem seatResetDone_changes (seat : Nat) : Changes [.host, .live, .seats, .tel] s (seatResetDone seat s) := by
  unfold seatResetDone
  extract_lets q home s1 s2 fin s3 s4
  have rings : Changes _ s s1 := Changes.refl.each fun _ _ => Changes.refl.resetRing
  have cleared : Changes _ s s2 := .ite rings.clearMbx rings
  have shown : Changes _ s s4 := cleared.modSeat.each fun _ _ => Changes.refl.sticky
  exact .within (by decide) (.ite .refl shown.event)

theorem puEdit_changes (agent t : Nat) (v : Word) : Changes [.live, .set0, .set1] s (puEdit agent t v s) :=
  .within (by decide) (.ite Changes.refl.puEditAct .refl)

theorem puViolationIntervalEnd_changes (t seat : Nat) :
    Changes [.host, .live, .pu, .tel] s (puViolationIntervalEnd t seat s) := by
  unfold puViolationIntervalEnd
  split
  · exact .same
  · exact .within (by decide) (.ite Changes.refl.setViol Changes.refl.puReport.setViol)

theorem counterRead_changes (agent : Nat) (v : Word) : Changes [.freeCtr, .live, .tel] s (counterRead agent v s) :=
  .within (by decide) (.ite Changes.refl.cntAct .refl)

theorem counterWrap_changes (block i : Nat) : Changes [.host, .live, .tel] s (counterWrap block i s) := by
  unfold counterWrap
  split
  · exact .same
  · exact .within (by decide) Changes.refl.modTel.eventMgr

theorem minuteMarkLatch_changes (t : Nat) : Changes [.live, .tel, .tm] s (minuteMarkLatch t s) := by
  unfold minuteMarkLatch
  extract_lets m s1 unq
  have marked : Changes _ s s1 := .ite Changes.refl.newMark .refl
  exact .within (by decide) (.ite .refl (.ite marked marked.modTel))

theorem serviceLinkLoss_changes (t : Nat) : Changes [.live, .pwr, .tel] s (serviceLinkLoss t s) := Changes.refl.svcLost

theorem vinLowTimeout_changes (ch : Nat) : Changes [.host, .live, .tel] s (vinLowTimeout ch s) :=
  .within (by decide) (.ite Changes.refl.startFail .refl)

theorem powerGood_changes (ch : Nat) : Changes [.host, .live, .sp] s (powerGood ch s) :=
  .within (by decide) (.ite Changes.refl.modSp.pgGive .refl)

theorem retryStart_changes (ch : Nat) : Changes [.live, .sp, .tel] s (retryStart ch s) :=
  .within (by decide) (.ite Changes.refl.ramp.countHk .refl)

theorem fuseBlow_changes (via : Via) (v : Word) : Changes [.boot, .live, .tel] s (fuseBlow via v s) :=
  .within (by decide) (.ite .refl Changes.refl.fuseProgAct)

theorem attDone_changes : Changes [.boot, .freeCtr, .live, .tel] s (attDone s) := by
  unfold attDone
  extract_lets fin put
  have put_law {d} : Changes [.boot] s (put s d) := Changes.refl.modBoot
  have fin_law {C u} (h : Changes C s u) : Changes (.boot :: .live :: C) s (fin u) := h.setFlag.modBoot
  split
  · exact .same
  · exact .within (by decide) (.ite .refl
      (.ite (.ite .refl (fin_law put_law).modBoot.countHk)
        (.ite (.ite .refl (fin_law put_law)) (fin_law Changes.refl.used.setLv))))

theorem vauxInputLost_changes (b : Bool) : Changes [.live, .pwr, .tel] s (vauxInputLost b s) :=
  .within (by decide) (.ite .refl Changes.refl.modPwr.countHk.sticky)

theorem tempSample_changes (t : Nat) (sensors : List Int) :
    Changes [.host, .live, .pwr, .tel] s (tempSample t sensors s) := by
  unfold tempSample
  extract_lets x s1 s2 s3
  have measured : Changes _ s s1 := Changes.refl.modPwr
  have shown : Changes _ s s2 := measured.setFld
  have warned : Changes _ s s3 := shown.sticky.modPwr
  exact .within (by decide) (.ite .refl (.ite (.ite measured.modPwr measured)
    (.ite (.ite shown warned.eventMgr) (.ite shown.modPwr shown))))
end

/-- Settles O49, from what each of the commands can change. -/
theorem frameOfThreeUnitCommands : Obligations.FrameOfThreeUnitCommands := by
  intro s
  exact ⟨
    fun _ => (ppsEdge_changes s).frame,
    fun tile _ => (syncFrame_changes s tile).frame,
    fun via off v _ => (setFieldWrite_changes s via off v).frame,
    fun _ => (copyForwardDone_changes s).frame,
    fun port _ => (partnerDetected_changes s port).frame,
    fun port _ => (vflConfirmTimeout_changes s port).frame,
    fun lane mv _ => (eiExitDetect_changes s lane mv).frame,
    fun lane v _ => (eiHoldRelease_changes s lane v).frame,
    fun lane _ => (checkerUnlock_changes s lane).frame,
    fun agent pb _ => (laneMbxDone_changes s agent pb).frame,
    fun port _ => (initSend_changes s port).frame,
    fun port proto n rxSeen fid bufs _ => (initReceive_changes s port proto n rxSeen fid bufs).frame,
    fun port _ => (initTimeout_changes s port).frame,
    fun link _ => (ackDue_changes s link).frame,
    fun tile g _ => (wireRepairDone_changes s tile g).frame,
    fun tile i _ => (windowViolationIntervalEnd_changes s tile i).frame,
    fun qpn _ => (qpDestroyDone_changes s qpn).frame,
    fun wr _ => (workRequestTimeout_changes s wr).frame,
    fun via seat v _ => (t2mAck_changes s via seat v).frame,
    fun via seat v _ => (m2tPost_changes s via seat v).frame,
    fun seat _ => (seatResetDone_changes s seat).frame,
    fun agent tile v _ => (puEdit_changes s agent tile v).frame,
    fun tile seat _ => (puViolationIntervalEnd_changes s tile seat).frame,
    fun agent v _ => (counterRead_changes s agent v).frame,
    fun block i _ => (counterWrap_changes s block i).frame,
    fun tile _ => (minuteMarkLatch_changes s tile).frame,
    fun tile _ => (serviceLinkLoss_changes s tile).frame,
    fun ch _ => (vinLowTimeout_changes s ch).frame,
    fun ch _ => (powerGood_changes s ch).frame,
    fun ch _ => (retryStart_changes s ch).frame,
    fun via v _ => (fuseBlow_changes s via v).frame,
    fun _ => (attDone_changes s).frame,
    fun b _ => (vauxInputLost_changes s b).frame,
    fun tile sensors _ => (tempSample_changes s tile sensors).frame⟩

end Sys2Proof.Machine

/-! The loss and the rejoin of a tile, and the loss and the return of its service link. -/

namespace Sys2Proof.Machine

/-! ### Tables and register words -/

theorem tget_filter {α : Type} (d : α) (m : NMap α) {p : Nat × α → Bool} {k : Nat} (h : ∀ v, p (k, v) = true) :
    tget d (m.filter p) k = tget d m k := by
  induction m with
  | nil => rfl
  | cons e m ih =>
    obtain ⟨j, v⟩ := e
    by_cases hj : j = k
    · subst hj
      simp [tget, h]
    · by_cases hp : p (j, v) = true <;> simp [tget, hp, hj, ih]

theorem State.winTile_congr {s t : State} (h : t.lv 0x00140000 = s.lv 0x00140000) (i : Nat) : t.winTile i = s.winTile i := by
  simp only [State.winTile, State.winN, State.fld, h]

/-! ### The rejoin of a tile (R348) -/

/-- The state with tile `t` among neither the lost nor the cut-off tiles. -/
def State.unlost (s : State) (t : Nat) : State :=
  { s with cont := { s.cont with lost := s.cont.lost.filter (· != t), cut := s.cont.cut.filter (· != t) } }

theorem State.here_unlost (s : State) (t : Nat) : (s.unlost t).here t = s.part.hasTile t := by
  simp [State.here, State.unlost]

/-- The components in which a tile's own data, packets and links stand, with the counters and the records. -/
abbrev rejoinComps : List Comp :=
  [.live, .set0, .set1, .core, .arrivals, .pkts, .host, .tel, .win, .eng, .ports, .lanes, .links]

/-- Where a tile rejoins and no window of its own is being revoked, it is no more lost, and else no component but those of
`rejoinComps` changes. -/
theorem tileRejoin_changes {s : State} {t : Nat} (hpart : s.part.hasTile t = true) (hlost : s.cont.lost.contains t = true)
    (hrails : s.railsOk t = true) (hhot : s.pwr.hot.contains t = false) (hir : s.ilulysReset = false)
    (hboot : s.fld 0x00020000 3 0 = 4) (hwin : s.win.tbl.filter (fun x => s.winTile x.1 == t && x.2.state == 2) = []) :
    Changes rejoinComps (s.unlost t) (tileRejoin t s) := by
  unfold tileRejoin
  split
  case isTrue h =>
    rw [hpart, hlost, hrails, hhot, hir, hboot] at h
    exact absurd h (by decide)
  case isFalse =>
    extract_lets s1 notHere tel1 cont1 eng1 own settled drained cleared up seen sees
    have hwinN : own.lv 0x00140000 = s.lv 0x00140000 := by
      have h1 : s1.lv 0x00140000 = (s.stopTile t).lv 0x00140000 := State.lv_setFld_ne _ _ _ _ (by decide)
      have h2 : own.lv 0x00140000 = s1.lv 0x00140000 := tget_filter _ _ fun v => by
        simp [notHere, offTile]
      exact h2.trans h1
    have hnone : own.win.tbl.filter (fun x => own.winTile x.1 == t && x.2.state == 2) = [] := by
      simp only [State.winTile_congr hwinN]
      exact hwin
    have hsettled : settled = own := by
      simp only [settled, hnone, State.each, List.foldl_nil]
    have hown : Changes rejoinComps (s.unlost t) own := changes_iff_graft.mpr rfl
    have hcleared : Changes _ (s.unlost t) cleared := (hsettled ▸ hown).modWin.modCore
    have hup : Changes _ (s.unlost t) up := hcleared.each fun _ _ =>
      (Changes.refl.each fun _ _ => Changes.refl.setFld.modLink).each fun _ _ => Changes.refl.seeXg
    have hseen : Changes _ (s.unlost t) seen := hup.each fun _ _ => Changes.refl.setFlag.count
    have hsees : Changes _ (s.unlost t) sees := hseen.each fun _ _ => Changes.refl.setFlag
    exact hsees.sticky.setFlag.tileRecords.within (by decide)

theorem State.here_congr {s u : State} (hpart : u.part = s.part) (hcont : u.cont = s.cont) (t : Nat) :
    u.here t = s.here t := by
  rw [State.here, State.here, hpart, hcont]

theorem here_of_changes_unlost {s u : State} {t : Nat} (hpart : s.part.hasTile t = true)
    (h : Changes rejoinComps (s.unlost t) u) : u.here t = true :=
  calc u.here t
    _ = (s.unlost t).here t := State.here_congr (h .part (by decide)) (h .cont (by decide)) t
    _ = s.part.hasTile t := s.here_unlost t
    _ = true := hpart

theorem tileRejoin_of_refused {s : State} {t : Nat} (h : s.cont.lost.contains t = false ∨ s.railsOk t = false ∨
    s.pwr.hot.contains t = true ∨ s.ilulysReset = true ∨ s.fld 0x00020000 3 0 ≠ 4) : tileRejoin t s = s := by
  refine if_pos ?_
  rcases h with h | h | h | h | h <;> simp [h, -List.contains_eq_mem]

/-! ### The service link (R16, R30) -/

theorem serviceLinkLoss_of_idle {s : State} {t : Nat} (h : s.operates t = false ∨ s.headless t = true) :
    serviceLinkLoss t s = s := by
  refine if_pos ?_
  rcases h with h | h <;> simp [h]

theorem serviceLinkReturn_of_idle {s : State} {t : Nat}
    (h : s.operates t = false ∨ s.headless t = false ∨ s.ilulysReset = true) : serviceLinkReturn t s = s := by
  refine if_pos ?_
  rcases h with h | h | h <;> simp [h]

@[simp] theorem State.lv_countHk (s : State) (i o : Nat) : (s.countHk i).lv o = s.lv o :=
  (Changes.refl.countHk : Changes [.tel] s _).lv_eq (by decide) (by decide) o

theorem slaveStatus_ne_tlStatus (t : Nat) : slaveStatus t ≠ tlStatus t := by
  simp [slaveStatus, tlStatus]

theorem State.lv_setPwr (s : State) (p : PwrSt) (o : Nat) : ({ s with pwr := p } : State).lv o = s.lv o := rfl

/-- What a lost service link writes: QUALIFIED and HOLDOVER of the slave, HEADLESS and its sticky bit of the tile. -/
theorem serviceLinkLoss_lv {s : State} {t : Nat} (hop : s.operates t = true) (hh : s.headless t = false) (o : Nat) :
    (serviceLinkLoss t s).lv o =
      if o = slaveStatus t then putBit (putBit (s.lv o) 8 false) 9 true
      else if o = tlStatus t then putBit (putBit (s.lv o) 0 true) 3 true else s.lv o := by
  have hne := slaveStatus_ne_tlStatus t
  unfold serviceLinkLoss State.svcLost
  rw [hop, hh]
  by_cases hs : o = slaveStatus t
  · subst hs
    simp [hne, State.lv_setPwr]
  · by_cases ht : o = tlStatus t
    · subst ht
      simp [hs, State.lv_setPwr]
    · simp [hs, ht, State.lv_setPwr]

theorem serviceLinkLoss_pwr {s : State} {t : Nat} (hop : s.operates t = true) (hh : s.headless t = false) :
    (serviceLinkLoss t s).pwr.qualAtLoss =
      (if s.flag (slaveStatus t) 8 then s.pwr.qualAtLoss.filter (· != t) ++ [t] else s.pwr.qualAtLoss.filter (· != t)) := by
  unfold serviceLinkLoss State.svcLost
  rw [hop, hh]
  rfl

/-- Settles O38: the two losses and the idle cases are branches of the meanings; the rejoin leaves only the tile's own data and
the records changed, and the loss of a service link only two register words, the counters and the supplies. -/
theorem tileLossAndRejoin : Obligations.TileLossAndRejoin := by
  intro s
  refine ⟨?loseAbsent, ?losePresent, ?rejoin, ?refused, ?loss, ?noLoss, ?back, ?noReturn⟩
  case loseAbsent =>
    intro t h
    exact congrArg (fun u : State => Host.Outcome.next u.pump) (if_neg (by simp [h]))
  case losePresent =>
    intro t h
    exact congrArg (fun u : State => Host.Outcome.next u.pump) (if_pos h)
  case rejoin =>
    intro t hpart hlost hrails hhot hir hboot hwin
    exact ⟨_, rfl, here_of_changes_unlost hpart (tileRejoin_changes hpart hlost hrails hhot hir hboot hwin)⟩
  case refused =>
    intro t h
    exact congrArg Host.Outcome.next (tileRejoin_of_refused h)
  case loss =>
    intro t hop hh
    have hlv := serviceLinkLoss_lv hop hh
    have hchg := serviceLinkLoss_changes s t
    refine ⟨_, rfl, ?_, ?_, ?_, ?_, ?_, ?_, ⟨hchg .set0 (by decide), hchg .set1 (by decide)⟩, hchg .pkts (by decide)⟩
    · simp [State.flag, hlv, (slaveStatus_ne_tlStatus t).symm, bit_putBit_ne]
    · simp [State.flag, hlv, (slaveStatus_ne_tlStatus t).symm]
    · simp [State.flag, hlv, bit_putBit_ne]
    · simp [State.flag, hlv]
    · rw [serviceLinkLoss_pwr hop hh]
      cases s.flag (slaveStatus t) 8 <;> simp
    · intro o ho
      obtain ⟨htl, hslave⟩ : o ≠ tlStatus t ∧ o ≠ slaveStatus t := by simpa using ho
      rw [hlv, if_neg hslave, if_neg htl]
  case noLoss =>
    intro t h
    exact congrArg Host.Outcome.next (serviceLinkLoss_of_idle h)
  case back =>
    intro t hop hh hir hboot
    exact congrArg Host.Outcome.next (if_neg (by simp [hop, hh, hir, hboot]))
  case noReturn =>
    intro t h
    exact congrArg Host.Outcome.next (serviceLinkReturn_of_idle h)

end Sys2Proof.Machine

/-! What a register bit or field reads after the operations on register words, and which words and set copies a composed
operation leaves as they are. -/

namespace Sys2Proof.Machine

/-! ### Bits and fields of a register word -/

@[simp] theorem State.flag_setFlag (s : State) (o i m : Nat) {n : Nat} (b : Bool) (hn : n < 32) :
    (s.setFlag o n b).flag i m = if i = o ∧ m = n then b else s.flag i m := by
  by_cases hi : i = o
  · by_cases hm : m = n
    · simp [State.flag, hi, hm, hn]
    · simp [State.flag, hi, hm, bit_putBit_ne _ _ hn hm]
  · simp [State.flag, hi]

@[simp] theorem State.flag_sticky (s : State) (o i m : Nat) {n : Nat} (hn : n < 32) :
    (s.sticky o n).flag i m = if i = o ∧ m = n then true else s.flag i m := s.flag_setFlag o i m true hn

theorem State.flag_setFld_of_outside (s : State) {o i m hi lo : Nat} (n : Nat) (hlo : lo ≤ hi) (hhi : hi < 32)
    (h : i ≠ o ∨ m < lo ∨ hi < m) : (s.setFld o hi lo n).flag i m = s.flag i m := by
  by_cases hi : i = o
  · simp [State.flag, hi, bit_putField_ne _ n hlo hhi (h.resolve_left (not_not_intro hi))]
  · simp [State.flag, hi]

theorem State.fld_setFlag_of_outside (s : State) {o i n hi lo : Nat} (b : Bool) (hn : n < 32)
    (h : i ≠ o ∨ hi < n ∨ n < lo) : (s.setFlag o n b).fld i hi lo = s.fld i hi lo := by
  by_cases hi : i = o
  · simp [State.fld, hi, field_putBit_ne _ b hn (h.resolve_left (not_not_intro hi))]
  · simp [State.fld, hi]

theorem State.flag_setLv (s : State) (o i n : Nat) (v : Word) :
    (s.setLv o v).flag i n = if i = o then bit v n else s.flag i n := by
  rw [State.flag, State.lv_setLv, apply_ite (bit · n), State.flag]

/-- A register bit reads as before when neither the register file nor the part changes. -/
theorem Changes.flag_eq {C : List Comp} {s t : State} (h : Changes C s t) (hl : .live ∉ C) (hp : .part ∉ C) (o n : Nat) :
    t.flag o n = s.flag o n := congrArg (bit · n) (h.lv_eq hl hp o)

@[simp] theorem State.flag_modCur (s : State) (f : CurtainSt → CurtainSt) (o n : Nat) : (s.modCur f).flag o n = s.flag o n := (rfl)
@[simp] theorem State.flag_modTm (s : State) (f : TimeSt → TimeSt) (o n : Nat) : (s.modTm f).flag o n = s.flag o n := (rfl)
@[simp] theorem State.fld_modCur (s : State) (f : CurtainSt → CurtainSt) (o hi lo : Nat) :
    (s.modCur f).fld o hi lo = s.fld o hi lo := (rfl)
@[simp] theorem State.flag_used (s : State) (o n : Nat) : s.used.flag o n = s.flag o n := (rfl)

/-! ### The words and the set copies left as they are -/

section
variable {s t u : State} {l : List Nat}

theorem Changes.setsKept {C : List Comp} (h : Changes C s t) (h0 : .set0 ∉ C) (h1 : .set1 ∉ C) :
    s.setsKept t := ⟨h .set0 h0, h .set1 h1⟩

theorem State.regsKept.refl : s.regsKept s l := fun _ _ => rfl

theorem State.regsKept.setLv (h : s.regsKept t l) {o : Nat} {v : Word} (ho : o ∈ l := by simp) :
    s.regsKept (t.setLv o v) l := fun i hi =>
  (t.lv_setLv_ne v (ne_of_mem_of_not_mem ho hi).symm).trans (h i hi)

theorem State.regsKept.setFld (h : s.regsKept t l) {o hi lo n : Nat} (ho : o ∈ l := by simp) :
    s.regsKept (t.setFld o hi lo n) l := h.setLv ho

theorem State.regsKept.setFlag (h : s.regsKept t l) {o n : Nat} {b : Bool} (ho : o ∈ l := by simp) :
    s.regsKept (t.setFlag o n b) l := h.setLv ho

theorem State.regsKept.sticky (h : s.regsKept t l) {o n : Nat} (ho : o ∈ l := by simp) :
    s.regsKept (t.sticky o n) l := h.setLv ho

theorem State.regsKept.plainWrite (h : s.regsKept t l) {o : Nat} {v : Word} (ho : o ∈ l := by simp) :
    s.regsKept (t.plainWrite o v) l := fun i hi =>
  (t.lv_plainWrite_ne v (ne_of_mem_of_not_mem ho hi).symm).trans (h i hi)

theorem State.regsKept.modTm (h : s.regsKept t l) {f : TimeSt → TimeSt} : s.regsKept (t.modTm f) l := h
theorem State.regsKept.modCur (h : s.regsKept t l) {f : CurtainSt → CurtainSt} : s.regsKept (t.modCur f) l := h
theorem State.regsKept.used (h : s.regsKept t l) : s.regsKept t.used l := h

theorem State.regsKept.ite {c : Prop} [Decidable c] (h : s.regsKept t l) (k : s.regsKept u l) :
    s.regsKept (if c then t else u) l := by
  split
  · exact h
  · exact k
end

end Sys2Proof.Machine

/-! A write of a set field, the read back of the understudy copy, and the abort of an arming. -/

namespace Sys2Proof.Machine

/-! ### Writes of set fields (R36) -/

theorem State.setWrite_of_closed {s : State} {o : Nat} {v : Word}
    (h : setMask o = 0 ∨ s.wordHere o = false ∨ s.locked o = true) : s.setWrite o v = s := by
  refine if_pos ?_
  rcases h with h | h | h <;> simp [h]

theorem State.setWrite_of_dropped {s : State} {o : Nat} {v : Word} (hm : setMask o ≠ 0) (hw : s.wordHere o = true)
    (hl : s.locked o = false) (h : s.curtainState ≠ 0 ∨ s.flag tmStatus 8 = false) :
    s.setWrite o v = s.sticky tmStatus 9 := by
  refine (if_neg (by rw [decide_eq_false hm, hw, hl]; decide)).trans (if_pos ?_)
  rcases h with h | h <;> simp [h]

/-- The state after an accepted write of the set fields of the word at `o`. -/
def State.setWritten (s : State) (o : Nat) (v : Word) : State :=
  (s.setConf (!s.leadEpoch) o ((s.conf (!s.leadEpoch) o &&& ~~~setMask o) ||| (v &&& setMask o))).lkClean.setFld 0x00030040 1 0 0

theorem State.setWrite_of_accepted {s : State} {o : Nat} {v : Word} (hm : setMask o ≠ 0) (hw : s.wordHere o = true)
    (hl : s.locked o = false) (hc : s.curtainState = 0) (hr : s.flag tmStatus 8 = true) :
    s.setWrite o v = s.setWritten o v :=
  (if_neg (by rw [decide_eq_false hm, hw, hl]; decide)).trans (if_neg (by simp [hc, hr]))

theorem State.setWrite_cases (s : State) (o : Nat) (v : Word) :
    s.setWrite o v = s ∨ s.setWrite o v = s.sticky tmStatus 9 ∨ s.setWrite o v = s.setWritten o v := by
  unfold State.setWrite
  split
  · exact .inl rfl
  split
  · exact .inr (.inl rfl)
  · exact .inr (.inr rfl)

/-- The registers outside the tiles stand in no LK_ block. -/
theorem State.lv_lkClean (s : State) {o : Nat} (h : o < 0x01000000) : s.lkClean.lv o = s.lv o :=
  tget_filter _ _ fun v => by simp [h]

theorem State.setWritten_conf (s : State) (o : Nat) (v : Word) (e : Bool) (i : Nat) :
    (s.setWritten o v).conf e i = if e = (!s.leadEpoch) ∧ i = o then
      (s.conf (!s.leadEpoch) o &&& ~~~setMask o) ||| (v &&& setMask o) else s.conf e i :=
  s.conf_setConf _ e o i _

theorem State.setWritten_leadEpoch (s : State) (o : Nat) (v : Word) : (s.setWritten o v).leadEpoch = s.leadEpoch := by
  unfold State.setWritten State.leadEpoch
  rw [State.flag_setFld_of_outside _ _ (by decide) (by decide) (.inl (by decide)), State.flag,
    State.lv_lkClean _ (by decide), State.lv_setConf, State.flag]

theorem State.setWrite_leadEpoch (s : State) (o : Nat) (v : Word) : (s.setWrite o v).leadEpoch = s.leadEpoch := by
  rcases s.setWrite_cases o v with h | h | h <;> rw [h]
  · exact (s.flag_sticky _ _ _ (by decide)).trans (if_neg (by decide))
  · exact s.setWritten_leadEpoch o v

theorem State.setWrite_conf_lead (s : State) (o : Nat) (v : Word) (i : Nat) :
    (s.setWrite o v).conf s.leadEpoch i = s.conf s.leadEpoch i := by
  rcases s.setWrite_cases o v with h | h | h <;> rw [h]
  · exact s.setLv_conf ..
  · rw [State.setWritten_conf, if_neg (by simp)]

/-- Settles O4: a write is dropped, or goes to the copy that does not lead. -/
theorem setWriteNeverTouchesTheLead : Obligations.SetWriteNeverTouchesTheLead := by
  intro s t via o v h
  obtain rfl : setFieldWrite via o v s = t := Host.Outcome.next.inj h
  unfold setFieldWrite
  split
  · exact ⟨s.setWrite_leadEpoch o v, s.setWrite_conf_lead o v⟩
  · exact ⟨rfl, fun _ => rfl⟩

theorem setFieldWrite_of_open {s : State} {via : Via} {o : Nat} {v : Word} (h : s.viaOpen via = true) :
    setFieldWrite via o v s = s.setWrite o v := if_pos h

theorem setFieldWrite_of_closed {s : State} {via : Via} {o : Nat} {v : Word} (h : s.viaOpen via = false) :
    setFieldWrite via o v s = s := if_neg (by simp [h])

/-- Settles O3: the three branches of a set write, on an open path. -/
theorem setFieldWriteCompletes : Obligations.SetFieldWriteCompletes := by
  intro s
  refine ⟨?accepted, ?dropped, ?noSetField, ?closedPath⟩
  case accepted =>
    intro via o v hvia hm hw hl hc hr
    have hx : setFieldWrite via o v s = s.setWritten o v :=
      (setFieldWrite_of_open hvia).trans (State.setWrite_of_accepted hm hw hl hc hr)
    refine ⟨_, congrArg Host.Outcome.next hx, fun i => ?_, fun i => ?_, ?_, ?_, ?_⟩
    · simp [State.setWritten_conf]
    · simp [State.setWritten_conf]
    · exact State.fld_setFld_self _ _ _ (by decide) (by decide)
    · exact (Changes.refl.setConf.lkClean.setFld : Changes _ s (s.setWritten o v)) .pkts (by decide)
    · exact (Changes.refl.setConf.lkClean.setFld : Changes _ s (s.setWritten o v)) .boot (by decide)
  case dropped =>
    intro via o v hvia hm hw hl h
    exact congrArg Host.Outcome.next ((setFieldWrite_of_open hvia).trans (State.setWrite_of_dropped hm hw hl h))
  case noSetField =>
    intro via o v h
    refine congrArg Host.Outcome.next ?_
    unfold setFieldWrite
    rw [State.setWrite_of_closed h, ite_self]
  case closedPath =>
    intro via o v h
    exact congrArg Host.Outcome.next (setFieldWrite_of_closed h)

/-! ### Reading the understudy back (R37) -/

theorem understudyAddress_toNat (v : Word) : (v &&& 0x0FFFFFFC#32).toNat = v.toNat % 2 ^ 28 / 4 * 4 := by
  have hmask : (0x0FFFFFFC#32).toNat = (2 ^ 26 - 1) * 2 ^ 2 := by decide
  apply Nat.eq_of_testBit_eq
  intro i
  have hquarter : v.toNat % 2 ^ 28 / 4 * 4 = v.toNat % 2 ^ 28 / 2 ^ 2 * 2 ^ 2 := rfl
  rw [BitVec.toNat_and, hmask, Nat.testBit_and, Nat.testBit_mul_two_pow, Nat.testBit_two_pow_sub_one, hquarter,
    Nat.testBit_mul_two_pow, Nat.testBit_div_two_pow, Nat.testBit_mod_two_pow]
  by_cases h : 2 ≤ i
  · have : i - 2 + 2 = i := by omega
    by_cases h' : i < 28
    · have : i - 2 < 26 := by omega
      simp [*]
    · have : ¬ i - 2 < 26 := by omega
      simp [*]
  · simp [h]

/-- The bits VALID and NOT_SET below a word-aligned address. -/
theorem bit_address_or (a : Nat) (x : Word) {n : Nat} (hn : n < 2) : bit (BitVec.ofNat 32 (a / 4 * 4) ||| x) n = bit x n := by
  have h4 : a / 4 * 4 = a / 4 * 2 ^ 2 := rfl
  have hlow : ¬ 2 ≤ n := by omega
  rw [bit, BitVec.getLsbD_or, BitVec.getLsbD_ofNat, h4, Nat.testBit_mul_two_pow, bit]
  simp [hlow]

/-- Whether the word at `o` holds set fields and exists now. -/
def State.isSetWord (s : State) (o : Nat) : Bool := setMask o ≠ 0 && s.wordHere o

theorem State.isSetWord_iff (s : State) (o : Nat) : s.isSetWord o = true ↔ setMask o ≠ 0 ∧ s.wordHere o = true := by
  rw [State.isSetWord, Bool.and_eq_true, decide_eq_true_iff]

/-- The state in which the read of the word at `o` is done: value, address, VALID and NOT_SET. -/
def State.understudyShown (s : State) (o : Nat) : State :=
  ((s.setLv 0x0003004C (if s.isSetWord o then s.conf (!s.leadEpoch) o &&& setMask o else 0)).setLv 0x00030048
    (BitVec.ofNat 32 (o / 4 * 4) ||| if s.isSetWord o then 1 else 3)).modCur fun c => { c with usRead := false }

theorem understudyReadDone_of_waiting {s : State} {o : Nat} (hw : s.cur.usRead = true) (hi : s.ilulysReset = false)
    (ho : (s.lv 0x00030048).toNat / 4 % 2 ^ 26 * 4 = o) : understudyReadDone s = s.understudyShown o := by
  have hdiv : o / 4 * 4 = o := by omega
  unfold State.understudyShown
  rw [hdiv]
  subst ho
  exact if_neg (by simp [hw, hi])

theorem State.understudyShown_flag (s : State) (o : Nat) {n : Nat} (hn : n < 2) :
    (s.understudyShown o).flag 0x00030048 n = bit (if s.isSetWord o then 1 else 3) n := by
  unfold State.understudyShown
  rw [State.flag_modCur, State.flag_setLv, if_pos rfl, bit_address_or _ _ hn]

theorem State.understudyShown_data (s : State) (o : Nat) : (s.understudyShown o).lv 0x0003004C =
    if s.isSetWord o then s.conf (!s.leadEpoch) o &&& setMask o else 0 :=
  (State.lv_setLv_ne _ _ (by decide)).trans (s.lv_setLv_self _ _)

/-- The state in which a read of the understudy waits. -/
def State.understudyAsked (s : State) (v : Word) : State :=
  (s.setLv 0x00030048 (v &&& 0x0FFFFFFC#32)).modCur fun c => { c with usRead := true }

theorem State.understudyAsked_address (s : State) (v : Word) :
    ((s.understudyAsked v).lv 0x00030048).toNat = v.toNat % 2 ^ 28 / 4 * 4 :=
  (congrArg BitVec.toNat (s.lv_setLv_self _ _)).trans (understudyAddress_toNat v)

theorem State.understudyAsked_leadEpoch (s : State) (v : Word) : (s.understudyAsked v).leadEpoch = s.leadEpoch :=
  congrArg (bit · 5) (s.lv_setLv_ne _ (by decide))

theorem State.understudyAsked_isSetWord (s : State) (v : Word) (o : Nat) :
    (s.understudyAsked v).isSetWord o = s.isSetWord o := rfl

/-- Settles O5: the read done finds the offset that the write of the address left, and shows value and flags. -/
theorem understudyReadReturnsTheSetValue : Obligations.UnderstudyReadReturnsTheSetValue := by
  intro s v hi
  have hasked : understudyRead v s = s.understudyAsked v := if_neg (by simp [hi])
  have hdone : understudyReadDone (s.understudyAsked v) = (s.understudyAsked v).understudyShown (v.toNat % 2 ^ 28 / 4 * 4) :=
    understudyReadDone_of_waiting rfl hi (by rw [s.understudyAsked_address]; omega)
  have hflag := (s.understudyAsked v).understudyShown_flag (v.toNat % 2 ^ 28 / 4 * 4) (n := 1) (by decide)
  have hdata := (s.understudyAsked v).understudyShown_data (v.toNat % 2 ^ 28 / 4 * 4)
  rw [State.understudyAsked_isSetWord] at hflag hdata
  refine ⟨_, _, congrArg Host.Outcome.next hasked, ?_, congrArg Host.Outcome.next hdone, ?_, ?_, ⟨rfl, rfl⟩, fun hset => ?_,
    fun hset => ?_⟩
  · have h0 : (s.understudyAsked v).lv 0x00030048 = v &&& 0x0FFFFFFC#32 := s.lv_setLv_self _ _
    rw [State.flag, h0]
    simp [bit]
  · rw [State.understudyShown_flag _ _ (by decide)]
    split <;> decide
  · exact State.regsKept.refl.setLv.modCur.setLv.setLv.modCur
  · rw [if_pos ((s.isSetWord_iff _).mpr hset)] at hflag hdata
    exact ⟨hflag, hdata.trans (by rw [s.understudyAsked_leadEpoch]; rfl)⟩
  · rw [if_neg (mt (s.isSetWord_iff _).mp hset)] at hflag hdata
    exact ⟨hflag, hdata⟩

/-! ### The abort of an arming (R43) -/

theorem tmStatus_ne_slaveStatus (n : Nat) : tmStatus ≠ slaveStatus n := by
  unfold tmStatus slaveStatus tileBase
  omega

theorem State.mem_running_of_mem_present {s : State} {n : Nat} (h : n ∈ s.present) : n ∈ s.running := by
  obtain ⟨htile, hhere⟩ := List.mem_filter.mp h
  exact List.mem_filter.mpr ⟨htile, by simp [State.operates, hhere]⟩

/-- PREPARED and COMMITTED of a tile are cleared. -/
def State.dropAt (s : State) (n : Nat) : State := (s.setFlag (slaveStatus n) 11 false).setFlag (slaveStatus n) 12 false

theorem State.dropAt_flag (s : State) (n o i : Nat) :
    (s.dropAt n).flag o i = if o = slaveStatus n ∧ (i = 11 ∨ i = 12) then false else s.flag o i := by
  unfold State.dropAt
  by_cases ho : o = slaveStatus n
  · by_cases h12 : i = 12 <;> by_cases h11 : i = 11 <;> simp [ho, h11, h12]
  · simp [ho]

theorem State.dropCurtain_eq (s : State) : s.dropCurtain = s.each s.running State.dropAt := rfl

/-- Dropping the curtain at some tiles clears the bit at each of them and leaves every other bit as it is. -/
theorem State.each_dropAt_flag (l : List Nat) (s : State) (o i : Nat) :
    (s.each l State.dropAt).flag o i = if (∃ n ∈ l, o = slaveStatus n) ∧ (i = 11 ∨ i = 12) then false else s.flag o i := by
  induction l generalizing s with
  | nil => simp [State.each]
  | cons n l ih =>
    refine (ih (s.dropAt n)).trans ?_
    rw [State.dropAt_flag]
    by_cases hi : i = 11 ∨ i = 12
    · by_cases hn : o = slaveStatus n <;> simp [hi, hn]
    · simp [hi]

theorem State.abortCurtain_flag_slave {s : State} {n i : Nat} (hn : n ∈ s.running) (hi : i = 11 ∨ i = 12) :
    s.abortCurtain.flag (slaveStatus n) i = false := by
  unfold State.abortCurtain State.setCurtain
  have hne := (tmStatus_ne_slaveStatus n).symm
  rw [State.flag_modCur, State.flag_sticky _ _ _ _ (by decide), if_neg (by simp [hne]),
    State.flag_setFld_of_outside _ _ (by decide) (by decide) (.inl hne), State.dropCurtain_eq, State.each_dropAt_flag,
    if_pos ⟨⟨n, hn, rfl⟩, hi⟩]

theorem State.abortCurtain_aborted (s : State) : s.abortCurtain.flag tmStatus 12 = true := by
  unfold State.abortCurtain
  rw [State.flag_modCur, State.flag_sticky _ _ _ _ (by decide), if_pos ⟨rfl, rfl⟩]

theorem State.abortCurtain_curtainState (s : State) : s.abortCurtain.curtainState = 0 := by
  unfold State.abortCurtain State.curtainState State.sticky State.setCurtain tmStatus
  rw [State.fld_modCur, State.fld_setFlag_of_outside _ _ (by decide) (by decide),
    State.fld_setFld_self _ _ _ (by decide) (by decide), Nat.zero_mod]

theorem Changes.abortCurtain {C : List Comp} {z s : State} (h : Changes C z s) :
    Changes ([Comp.cur, .live] ++ C) z s.abortCurtain :=
  h.andThen (.within (by decide) (Changes.refl.each fun _ _ => Changes.refl.setFlag.setFlag).setFld.sticky.modCur)

theorem curtainAbort_of_abort {s : State} {v : Word} (hi : s.ilulysReset = false) (hv : bit v 2 = true) :
    curtainAbort v s = (s.tmFields v).abortAct := (if_neg (by simp [hi])).trans (if_pos hv)

theorem Changes.tmFields {C : List Comp} {z s : State} (h : Changes C z s) {v : Word} :
    Changes (.live :: C) z (s.tmFields v) := h.plainWrite

theorem State.tmFields_regsKept (s : State) (v : Word) : s.regsKept (s.tmFields v) [tmCtrl] :=
  State.regsKept.refl.plainWrite

theorem State.tmFields_curtainState (s : State) (v : Word) : (s.tmFields v).curtainState = s.curtainState :=
  congrArg (field · 7 6) (s.tmFields_regsKept v tmStatus (by decide))

theorem State.tmFields_cur (s : State) (v : Word) : (s.tmFields v).cur = s.cur :=
  Changes.refl.tmFields .cur (by decide)

theorem State.tmFields_part (s : State) (v : Word) : (s.tmFields v).part = s.part :=
  Changes.refl.tmFields .part (by decide)

theorem State.tmFields_cont (s : State) (v : Word) : (s.tmFields v).cont = s.cont :=
  Changes.refl.tmFields .cont (by decide)

theorem State.tmFields_present (s : State) (v : Word) : (s.tmFields v).present = s.present := by
  unfold State.present State.here
  rw [State.tmFields_part, State.tmFields_cont]

theorem State.abortAct_of_arming {s : State} (hc : s.curtainState = 1 ∨ s.curtainState = 2) (hl : s.cur.lastCall = false) :
    s.abortAct = s.abortCurtain := by
  unfold State.abortAct
  rcases hc with hc | hc <;> simp [hc, hl]

theorem State.abortAct_of_late {s : State} (h : s.curtainState = 3 ∨ (s.curtainState ≠ 0 ∧ s.cur.lastCall = true)) :
    s.abortAct = s.sticky tmStatus 13 := by
  unfold State.abortAct
  rcases h with hc | ⟨hc, hl⟩
  · simp [hc]
  · simp [hc, hl]

/-- Settles O7: the three branches of an abort, by CURTAIN_STATE and last call, which the write of TM_CTRL leaves. -/
theorem abortEndsAnArming : Obligations.AbortEndsAnArming := by
  intro s v hi hv
  have hx := curtainAbort_of_abort hi hv
  refine ⟨fun hc hl => ?_, fun h => ?_, fun hc => ?_⟩
  · rw [← s.tmFields_curtainState v] at hc
    rw [← s.tmFields_cur v] at hl
    have hchg : Changes _ s (s.tmFields v).abortCurtain := Changes.refl.tmFields.abortCurtain
    refine ⟨_, congrArg Host.Outcome.next (hx.trans (State.abortAct_of_arming hc hl)), State.abortCurtain_curtainState _,
      State.abortCurtain_aborted _, fun n hn => ?_, hchg.setsKept (by decide) (by decide), rfl, rfl⟩
    have hrun : n ∈ (s.tmFields v).running :=
      State.mem_running_of_mem_present ((s.tmFields_present v).symm ▸ hn)
    exact ⟨State.abortCurtain_flag_slave hrun (.inl rfl), State.abortCurtain_flag_slave hrun (.inr rfl)⟩
  · rw [← s.tmFields_curtainState v, ← s.tmFields_cur v] at h
    exact congrArg Host.Outcome.next (hx.trans (State.abortAct_of_late h))
  · rw [← s.tmFields_curtainState v] at hc
    exact congrArg Host.Outcome.next (hx.trans (if_pos hc))

end Sys2Proof.Machine

/-! The arming of a curtain in its phases, its fall, the flips, and the retirement of the old set. -/

namespace Sys2Proof.Machine

/-! ### The check of the understudy set (R38, R39) -/

theorem consistencyCheckDone_of_pass {s : State} (hi : s.ilulysReset = false) (hc : s.checkState = 1)
    (h : s.checkSet (!s.leadEpoch) = none) : consistencyCheckDone s = s.setLv checkStatus 2 := by
  unfold consistencyCheckDone
  rw [if_neg (by simp [hi, hc]), h]

theorem consistencyCheckDone_of_fail {s : State} {code tile d : Nat} (hi : s.ilulysReset = false) (hc : s.checkState = 1)
    (h : s.checkSet (!s.leadEpoch) = some (code, tile, d)) : consistencyCheckDone s =
      (((s.setFld checkStatus 1 0 3).setFld checkStatus 15 8 code).setFld checkStatus 19 16 tile).setLv 0x00030044
        (BitVec.ofNat 32 (d % 2 ^ 24)) := by
  unfold consistencyCheckDone
  rw [if_neg (by simp [hi, hc]), h]

/-! ### The arming (R40, R41) -/

theorem State.setCurtain_curtainState (s : State) {n : Nat} (hn : n < 4) : (s.setCurtain n).curtainState = n :=
  (s.fld_setFld_self _ n (by decide) (by decide)).trans (Nat.mod_eq_of_lt hn)

theorem State.curtainState_modCur (s : State) (f : CurtainSt → CurtainSt) : (s.modCur f).curtainState = s.curtainState := (rfl)

/-- The state with an accepted arming begun: prepares sent, nothing acknowledged. -/
def State.armed (s : State) : State :=
  (s.setCurtain 1).modCur fun c => { c with
      tc := s.ftWords 0x00030030, prepSent := s.present, prepAckSent := [], prepAcks := [], commitSent := [],
      commitAckSent := [], commitAcks := [], lastCall := false, held := [], flipped := [], drained := [],
      retired := false }

theorem State.armed_curtainState (s : State) : s.armed.curtainState = 1 := by
  unfold State.armed
  rw [State.curtainState_modCur, State.setCurtain_curtainState _ (by decide)]

theorem State.armAct_of_noCause {s : State} (h : s.armCause = 0) : s.armAct = s.armed := by
  unfold State.armAct
  rw [h]
  rfl

theorem State.armAct_of_cause {s : State} {k : Nat} (h : s.armCause = k) (h0 : k ≠ 0) (h6 : k ≠ 6) :
    s.armAct = (s.setFld tmStatus 16 14 k).sticky tmStatus 12 := by
  unfold State.armAct
  split
  case h_1 heq => exact absurd (h.symm.trans heq) h0
  case h_2 heq => exact absurd (h.symm.trans heq) h6
  case h_3 => rw [h]

theorem State.armAct_of_inCurtain {s : State} (h : s.armCause = 6) :
    s.armAct = (s.setFld tmStatus 16 14 6).sticky tmStatus 17 := by
  unfold State.armAct
  rw [h]
  rfl

theorem curtainArm_of_arm {s : State} {v : Word} (hi : s.ilulysReset = false) (hv : bit v 1 = true) :
    curtainArm v s = (s.tmFields v).armAct := (if_neg (by simp [hi])).trans (if_pos hv)

/-! ### The acknowledgements of the two phases (R41) -/

/-- The acknowledgement of a prepare is taken. -/
def State.prepAcked (s : State) (n : Nat) : State :=
  s.modCur fun c => { c with prepAckSent := c.prepAckSent.erase n, prepAcks := c.prepAcks ++ [n] }

/-- The acknowledgement of a commit is taken. -/
def State.commitAcked (s : State) (n : Nat) : State :=
  s.modCur fun c => { c with commitAckSent := c.commitAckSent.erase n, commitAcks := c.commitAcks ++ [n] }

theorem curtainPrepareAck_of_sent {s : State} {n : Nat} (hi : s.ilulysReset = false) (hn : n ∈ s.cur.prepAckSent) :
    curtainPrepareAck n s = (s.prepAcked n).commitIfReady := if_neg (by simp [hi, hn])

theorem curtainCommitAck_of_sent {s : State} {n : Nat} (hi : s.ilulysReset = false) (hn : n ∈ s.cur.commitAckSent) :
    curtainCommitAck n s = (s.commitAcked n).armedIfReady := if_neg (by simp [hi, hn])

theorem State.commitIfReady_of_complete {s : State} (hc : s.curtainState = 1) (h1 : s.cur.commitSent = [])
    (h2 : s.cur.commitAckSent = []) (h3 : s.cur.commitAcks = []) (hall : ∀ u ∈ s.present, u ∈ s.cur.prepAcks) :
    s.commitIfReady = s.modCur fun c => { c with commitSent := s.present } :=
  if_pos (by simpa [hc, h1, h2, h3] using hall)

theorem State.commitIfReady_of_missing {s : State} {u : Nat} (hu : u ∈ s.present) (hn : u ∉ s.cur.prepAcks) :
    s.commitIfReady = s :=
  if_neg fun h => hn (by simp only [Bool.and_eq_true, List.all_eq_true] at h; simpa using h.2 u hu)

theorem State.armedIfReady_of_complete {s : State} (hc : s.curtainState = 1) (hne : s.cur.commitAcks ≠ [])
    (hall : ∀ u ∈ s.present, u ∈ s.cur.commitAcks) : s.armedIfReady = s.setCurtain 2 :=
  if_pos (by simpa [hc, hne] using hall)

theorem State.armedIfReady_of_missing {s : State} {u : Nat} (hu : u ∈ s.present) (hn : u ∉ s.cur.commitAcks) :
    s.armedIfReady = s :=
  if_neg fun h => hn (by simp only [Bool.and_eq_true, List.all_eq_true] at h; simpa using h.2 u hu)

/-- Settles O6: one branch of the meanings for each clause. -/
theorem curtainArmingPhases : Obligations.CurtainArmingPhases := by
  intro s
  refine ⟨?check, ?pass, ?fail, ?arm, ?refused, ?inCurtain, ?prepare, ?lastPrepareAck, ?prepareAck, ?commit,
    ?lastCommitAck, ?commitAck⟩
  case check =>
    intro hi v hv hc
    exact congrArg Host.Outcome.next (((if_neg (by simp [hi])).trans (if_pos hv)).trans (if_pos hc))
  case pass =>
    intro hi hc h
    refine ⟨_, congrArg Host.Outcome.next (consistencyCheckDone_of_pass hi hc h), ?_,
      State.regsKept.refl.setLv (by decide), ⟨rfl, rfl⟩⟩
    exact congrArg (field · 1 0) (s.lv_setLv_self _ _)
  case fail =>
    intro hi hc code tile d h
    exact congrArg Host.Outcome.next (consistencyCheckDone_of_fail hi hc h)
  case arm =>
    intro hi v hv hcause
    have hchg : Changes _ s (s.tmFields v).armed := Changes.refl.tmFields.setFld.modCur
    exact ⟨_, congrArg Host.Outcome.next ((curtainArm_of_arm hi hv).trans (State.armAct_of_noCause hcause)),
      State.armed_curtainState _, rfl, rfl, State.regsKept.refl.plainWrite.setFld.modCur,
      hchg.setsKept (by decide) (by decide)⟩
  case refused =>
    intro hi v k hv hk h0 h6
    exact congrArg Host.Outcome.next ((curtainArm_of_arm hi hv).trans (State.armAct_of_cause hk h0 h6))
  case inCurtain =>
    intro hi v hv hk
    exact congrArg Host.Outcome.next ((curtainArm_of_arm hi hv).trans (State.armAct_of_inCurtain hk))
  case prepare =>
    intro hi n hhere hh hc hn
    exact congrArg Host.Outcome.next (if_neg (by simp [hi, hhere, hh, hc, hn]))
  case lastPrepareAck =>
    intro hi n hn hc h1 h2 h3 hall
    exact congrArg Host.Outcome.next ((curtainPrepareAck_of_sent hi hn).trans
      (State.commitIfReady_of_complete (s := s.prepAcked n) hc h1 h2 h3 hall))
  case prepareAck =>
    intro hi n u hn hu hmiss
    exact congrArg Host.Outcome.next ((curtainPrepareAck_of_sent hi hn).trans
      (State.commitIfReady_of_missing (s := s.prepAcked n) hu hmiss))
  case commit =>
    intro hi n hhere hh hc hn
    exact congrArg Host.Outcome.next (if_neg (by simp [hi, hhere, hh, hc, hn]))
  case lastCommitAck =>
    intro hi n hn hc hall
    exact congrArg Host.Outcome.next ((curtainCommitAck_of_sent hi hn).trans
      (State.armedIfReady_of_complete (s := s.commitAcked n) hc (by simp [State.commitAcked]) hall))
  case commitAck =>
    intro hi n u hn hu hmiss
    exact congrArg Host.Outcome.next ((curtainCommitAck_of_sent hi hn).trans
      (State.armedIfReady_of_missing (s := s.commitAcked n) hu hmiss))

/-! ### Last call and the fall (R41, R42, R44) -/

theorem lastCall_of_arming {s : State} (hi : s.ilulysReset = false) (hc : s.curtainState = 1 ∨ s.curtainState = 2) :
    lastCall s = if (s.reach (·.tm.ft) (s.cur.tc - 10000)).armComplete then
        (s.reach (·.tm.ft) (s.cur.tc - 10000)).modCur fun c => { c with lastCall := true }
      else (s.reach (·.tm.ft) (s.cur.tc - 10000)).abortCurtain.setFld tmStatus 16 14 4 :=
  if_neg (by rcases hc with hc | hc <;> simp [hi, hc])

/-- What a flip from epoch `e` leaves at its tile: the stamping epoch, the dropped curtain, the list of the flipped. -/
def State.flipMarked (s : State) (e : Bool) (n : Nat) : State :=
  (((s.setFlag (slaveStatus n) 10 (!e)).setFlag (slaveStatus n) 11 false).setFlag (slaveStatus n) 12 false).modCur fun c =>
    { c with flipped := c.flipped ++ [n] }

/-- The end of a flip: what it leaves at its tile, and OLD_DRAINED where the old set has residents there. -/
def State.flipEnd (s : State) (e : Bool) (n : Nat) : State :=
  if (s.flipMarked e n).oldResident n then (s.flipMarked e n).setFlag (slaveStatus n) 13 false else s.flipMarked e n

theorem State.flipTile_eq_flipEnd (s : State) (e : Bool) (n : Nat) : ∃ w : State, s.flipTile e n = w.flipEnd e n := ⟨_, rfl⟩

theorem State.flipEnd_flipped (s : State) (e : Bool) (n : Nat) : n ∈ (s.flipEnd e n).cur.flipped := by
  unfold State.flipEnd
  split <;> exact List.mem_append_right _ (List.mem_singleton_self n)

theorem State.flipEnd_flag (s : State) (e : Bool) (n : Nat) {i : Nat} (hi : i ≠ 13) :
    (s.flipEnd e n).flag (slaveStatus n) i = (s.flipMarked e n).flag (slaveStatus n) i := by
  unfold State.flipEnd
  split
  · simp [hi]
  · rfl

theorem State.flipMarked_flag (s : State) (e : Bool) (n i : Nat) : (s.flipMarked e n).flag (slaveStatus n) i =
    if i = 12 ∨ i = 11 then false else if i = 10 then !e else s.flag (slaveStatus n) i := by
  unfold State.flipMarked
  by_cases h12 : i = 12
  · simp [h12]
  · by_cases h11 : i = 11 <;> simp [h12, h11]

/-! ### The retirement of the old set (R44, R47) -/

theorem State.each_setFlag_slave_flag (l : List Nat) (s : State) {o i n : Nat} (b : Bool) (hn : n < 32)
    (h : ∀ t ∈ l, o ≠ slaveStatus t) : (s.each l fun s t => s.setFlag (slaveStatus t) n b).flag o i = s.flag o i := by
  induction l generalizing s with
  | nil => rfl
  | cons t l ih =>
    refine (ih _ fun u hu => h u (by simp [hu])).trans ?_
    rw [State.flag_setFlag _ _ _ _ _ hn, if_neg fun hx => h t (by simp) hx.1]

/-- The end of a forced retirement: it is counted, the set is retired, and every present tile is among the reported. -/
def State.forceEnd (s : State) : State := (s.countHk 1).modCur fun c => { c with retired := true, drained := s.present }

theorem State.forceEnd_drained (s : State) : s.forceEnd.cur.drained = s.forceEnd.present := rfl

theorem State.forceEnd_flag (s : State) (o n : Nat) : s.forceEnd.flag o n = s.flag o n :=
  congrArg (bit · n) (s.lv_countHk 1 o)

theorem State.forceRetire_eq_forceEnd (s : State) (e : Bool) :
    ∃ w : State, s.forceRetire e = w.forceEnd ∧ w.flag tmStatus 10 = true := by
  refine ⟨_, rfl, ?_⟩
  refine (State.each_setFlag_slave_flag _ _ true (by decide) fun t _ => tmStatus_ne_slaveStatus t).trans ?_
  rw [State.flag_sticky _ _ _ _ (by decide), if_pos ⟨rfl, rfl⟩]

theorem forcedRetirement_of_held {s : State} (hr : s.cur.retired = false) (hf : s.cur.flipped ≠ [])
    (hheld : ∀ n ∈ s.cur.held, n ∈ s.cur.flipped ∨ s.operates n = false) : forcedRetirement s =
      ((s.reach (·.tm.ft) (s.cur.tc + 50000)).forceRetire (!s.leadEpoch)).releaseArrivals :=
  if_neg (by simpa [hr, hf, or_iff_not_imp_left] using hheld)

/-- The state with both copies equal to the lead copy. -/
def State.forwarded (s : State) : State := if s.leadEpoch then { s with set0 := s.set1 } else { s with set1 := s.set0 }

theorem State.forwarded_sets (s : State) :
    s.forwarded.set0 = s.copyOf s.leadEpoch ∧ s.forwarded.set1 = s.copyOf s.leadEpoch := by
  unfold State.forwarded
  cases s.leadEpoch <;> exact ⟨rfl, rfl⟩

/-- The state after the copy-forward: the understudy accepts writes, and the curtain is idle. -/
def State.copied (s : State) : State :=
  ((s.forwarded.lkClean.setFlag tmStatus 8 true).setCurtain 0).modCur fun c => { c with
      retired := false, held := [], flipped := [], drained := [], lastCall := false }

theorem State.copied_curtainState (s : State) : s.copied.curtainState = 0 := by
  unfold State.copied
  rw [State.curtainState_modCur, State.setCurtain_curtainState _ (by decide)]

theorem copyForwardDone_of_retired {s : State} (h : s.cur.retired = true) : copyForwardDone s = s.copied := by
  unfold copyForwardDone
  rw [if_neg (by simp [h])]
  rfl

theorem State.copied_ready (s : State) : s.copied.flag tmStatus 8 = true := by
  unfold State.copied State.setCurtain
  rw [State.flag_modCur, State.flag_setFld_of_outside _ _ (by decide) (by decide) (.inr (.inr (by decide))),
    State.flag_setFlag _ _ _ _ _ (by decide), if_pos ⟨rfl, rfl⟩]

/-- Settles O8: one branch of the meanings for each clause; what the flip, the forced retirement and the copy-forward leave in
the sequencer and the status words is read off their last updates. -/
theorem curtainFallsAndEnds : Obligations.CurtainFallsAndEnds := by
  intro s
  refine ⟨?complete, ?incomplete, ?query, ?fall, ?flip, ?drained, ?forced, ?copied⟩
  case complete =>
    intro hi hc h
    exact congrArg Host.Outcome.next ((lastCall_of_arming hi hc).trans (if_pos h))
  case incomplete =>
    intro hi hc h
    exact congrArg Host.Outcome.next ((lastCall_of_arming hi hc).trans (if_neg (by simp [h])))
  case query =>
    intro n hhere hh hp
    exact congrArg Host.Outcome.next (if_neg (by simp [hhere, hh, hp]))
  case fall =>
    intro n hop hc hn
    exact congrArg Host.Outcome.next (if_neg (by simp [hop, hc, hn]))
  case flip =>
    intro n hop hheld hn
    obtain ⟨w, hw⟩ := s.flipTile_eq_flipEnd (s.tileEpoch n) n
    refine ⟨s.flipTile (s.tileEpoch n) n, congrArg Host.Outcome.next (if_neg (by simp [hop, hheld, hn])), ?_⟩
    rw [hw]
    have hflag {i : Nat} (hi : i ≠ 13) := (w.flipEnd_flag (s.tileEpoch n) n hi).trans (w.flipMarked_flag (s.tileEpoch n) n i)
    exact ⟨w.flipEnd_flipped _ n, hflag (by decide), hflag (by decide), hflag (by decide)⟩
  case drained =>
    intro n hhere hf hd ho
    exact congrArg Host.Outcome.next (if_neg (by simp [hhere, hf, hd, ho]))
  case forced =>
    intro hr hf hheld
    obtain ⟨w, hw, hforced⟩ := (s.reach (·.tm.ft) (s.cur.tc + 50000)).forceRetire_eq_forceEnd (!s.leadEpoch)
    refine ⟨_, rfl, congrArg Host.Outcome.next (forcedRetirement_of_held hr hf hheld), ?_⟩
    rw [hw]
    exact ⟨rfl, w.forceEnd_drained, (w.forceEnd_flag _ _).trans hforced⟩
  case copied =>
    intro hr
    obtain ⟨h0, h1⟩ := s.forwarded_sets
    have hpkts : s.forwarded.pkts = s.pkts := by
      unfold State.forwarded
      split <;> rfl
    exact ⟨s.copied, congrArg Host.Outcome.next (copyForwardDone_of_retired hr), h0, h1,
      s.copied_curtainState, s.copied_ready, rfl, hpkts⟩

end Sys2Proof.Machine

/-! The events of fabric time: the reference clock and its edges, the slaves' frames, loads of the time of day, and snapshots. -/

namespace Sys2Proof.Machine

/-! ### What a step, a load and the lock leave (R25 to R28) -/

theorem State.lockIfDue_tm (s : State) : s.lockIfDue.tm = s.tm := Changes.refl.lockIfDue .tm (by decide)

theorem State.lockIfDue_flag (s : State) {n : Nat} (h0 : n ≠ 0) (h1 : n ≠ 1) :
    s.lockIfDue.flag tmStatus n = s.flag tmStatus n := by
  unfold State.lockIfDue
  split
  · simp [h0, h1]
  · rfl

section
variable {s t : State} {l : List Nat}

theorem State.regsKept.lockIfDue (h : s.regsKept t l) (hl : tmStatus ∈ l := by simp) : s.regsKept t.lockIfDue l :=
  ((h.setFlag hl).setFlag hl).ite h

theorem State.regsKept.moveFt (h : s.regsKept t l) {v : Nat} (hl : tmStatus ∈ l := by simp) :
    s.regsKept (t.moveFt v) l := h.modTm.modTm.sticky hl

theorem State.regsKept.applyTod (h : s.regsKept t l) {v : Nat} (hl : tmStatus ∈ l := by simp) :
    s.regsKept (t.applyTod v) l := (((h.moveFt hl).modTm).setFlag hl).lockIfDue hl
end

theorem State.moveFt_flag (s : State) (v n : Nat) :
    (s.moveFt v).flag tmStatus n = if n = 11 then true else s.flag tmStatus n := by
  unfold State.moveFt State.shiftSlaves
  simp

theorem State.applyTod_tm (s : State) (v : Nat) : (s.applyTod v).tm = { (s.moveFt v).tm with tod := none } :=
  State.lockIfDue_tm _

theorem State.moveFt_ft (s : State) (v : Nat) : (s.moveFt v).tm.ft = v := (rfl)
theorem State.moveFt_lastEdge (s : State) (v : Nat) : (s.moveFt v).tm.lastEdge = s.tm.lastEdge := (rfl)
theorem State.moveFt_misses (s : State) (v : Nat) : (s.moveFt v).tm.misses = s.tm.misses := (rfl)

/-- A load sets TOD_VALID and STEPPED, and besides them at most the two bits of the discipline state. -/
theorem State.applyTod_flag (s : State) (v : Nat) {n : Nat} (h0 : n ≠ 0) (h1 : n ≠ 1) :
    (s.applyTod v).flag tmStatus n = if n = 2 ∨ n = 11 then true else s.flag tmStatus n := by
  unfold State.applyTod
  rw [State.lockIfDue_flag _ h0 h1, State.flag_setFlag _ _ _ _ _ (by decide), State.flag_modTm, State.moveFt_flag]
  by_cases h2 : n = 2 <;> simp [h2]

/-! ### The edges of the reference (R25, R26) -/

/-- A measured error is removed by a slew or by a step. -/
theorem State.correct_cases (s : State) (e : Int) :
    s.correct e = s.modTm (fun m => { m with slew := e }) ∨ ∃ v, s.correct e = s.moveFt v := by
  unfold State.correct
  split
  · exact .inl rfl
  split
  · exact .inl rfl
  · exact .inr ⟨_, rfl⟩

theorem State.correct_edge (s : State) (e : Int) : (s.correct e).tm.lastEdge = s.tm.lastEdge ∧
    (s.correct e).tm.misses = s.tm.misses ∧ (s.correct e).flag tmStatus 3 = s.flag tmStatus 3 := by
  rcases s.correct_cases e with h | ⟨v, h⟩ <;> rw [h]
  · exact ⟨rfl, rfl, rfl⟩
  · exact ⟨rfl, rfl, s.moveFt_flag v 3⟩

theorem State.applyTod_edge (s : State) (v : Nat) : (s.applyTod v).tm.lastEdge = s.tm.lastEdge ∧
    (s.applyTod v).tm.misses = s.tm.misses ∧ (s.applyTod v).flag tmStatus 3 = s.flag tmStatus 3 := by
  rw [State.applyTod_tm]
  exact ⟨s.moveFt_lastEdge v, s.moveFt_misses v, s.applyTod_flag v (by decide) (by decide)⟩

/-- The state with an edge taken and measured, before it corrects or loads. -/
def State.edgeTaken (s : State) (row : Nat) : State :=
  let s1 := s.used.modTm fun m => { m with lastEdge := some m.now, misses := 0, inRow := min 4 row }
  let s2 := (s1.setLv 0x00030028 (BitVec.ofInt 32 s.phaseErr)).setFlag tmStatus 3 true
  (s2.setLv 0x00030024 s2.freeW).used.lockIfDue

theorem State.edgeTaken_edge (s : State) (row : Nat) : (s.edgeTaken row).tm.lastEdge = some s.tm.now ∧
    (s.edgeTaken row).tm.misses = 0 ∧ (s.edgeTaken row).flag tmStatus 3 = true := by
  unfold State.edgeTaken
  extract_lets s1 s2
  rw [State.lockIfDue_tm, State.lockIfDue_flag _ (by decide) (by decide)]
  refine ⟨rfl, rfl, ?_⟩
  have hother : (s2.setLv 0x00030024 s2.freeW).used.flag tmStatus 3 = s2.flag tmStatus 3 :=
    congrArg (bit · 3) (s2.lv_setLv_ne _ (by decide))
  rw [hother, State.flag_setFlag _ _ _ _ _ (by decide), if_pos ⟨rfl, rfl⟩]

theorem State.validEdge_cases (s : State) : ∃ row, s.validEdge = (s.edgeTaken row).correct s.phaseErr ∨
    ∃ v, s.validEdge = (s.edgeTaken row).applyTod v := by
  refine ⟨if s.phaseErr.natAbs ≤ 50 then
    (if s.tm.lastEdge.isNone || decide (2 ≤ s.tm.misses) then 1 else s.tm.inRow + 1) else 0, ?_⟩
  unfold State.validEdge
  extract_lets err gap row s1 s2 s3 s4
  split
  · split
    · exact .inr ⟨_, rfl⟩
    · exact .inl rfl
  · exact .inl rfl

theorem State.validEdge_edge (s : State) : s.validEdge.tm.lastEdge = some s.tm.now ∧ s.validEdge.tm.misses = 0 ∧
    s.validEdge.flag tmStatus 3 = true := by
  obtain ⟨row, h | ⟨v, h⟩⟩ := s.validEdge_cases
  · obtain ⟨h1, h2, h3⟩ := (s.edgeTaken row).correct_edge s.phaseErr
    rw [h, h1, h2, h3]
    exact s.edgeTaken_edge row
  · obtain ⟨h1, h2, h3⟩ := (s.edgeTaken row).applyTod_edge v
    rw [h, h1, h2, h3]
    exact s.edgeTaken_edge row

/-- The state after a miss. -/
def State.missed (s : State) (n : Nat) : State :=
  (s.modTm fun m => { m with misses := n, inRow := 0 }).setFlag tmStatus 3 false

theorem ppsEdgeMissing_of_counted {s : State} {n : Nat} (hi : s.ilulysReset = false) (he : s.tm.lastEdge.isSome = true)
    (hm : s.tm.misses = n) (hn : n < 2) : ppsEdgeMissing s = if n + 1 = 2 ∧ s.qualified = true then
      ((s.missed (n + 1)).setFlag tmStatus 0 false).setFlag tmStatus 1 true else s.missed (n + 1) := by
  have hq : (s.missed (n + 1)).qualified = s.qualified := by
    unfold State.missed State.qualified
    rw [State.flag_setFlag _ _ _ _ _ (by decide), if_neg (by decide), State.flag_modTm]
  subst hm
  unfold ppsEdgeMissing
  rw [if_neg (by simp [hi, Option.isSome_iff_ne_none.mp he, hn])]
  simp only [← hq, Bool.and_eq_true, decide_eq_true_iff]
  rfl

theorem State.missed_lost_flag (s : State) (n i : Nat) :
    (((s.missed n).setFlag tmStatus 0 false).setFlag tmStatus 1 true).flag tmStatus i =
      if i = 1 then true else if i = 0 ∨ i = 3 then false else s.flag tmStatus i := by
  unfold State.missed
  by_cases h1 : i = 1
  · simp [h1]
  · by_cases h0 : i = 0 <;> simp [h1, h0]

/-! ### The frames of the slaves (R29) -/

/-- The slave of tile `n` after a frame. -/
def State.framed (s : State) (n : Nat) : State :=
  let nxt := s.slaveNext n
  let near := decide (nxt.natAbs ≤ 20)
  let s1 := s.used.modTm fun m => { m with
    slaveOff := tset 0 m.slaveOff n nxt, slewing := if near then tset false m.slewing n false else m.slewing }
  let s2 := s1.setFld (slaveStatus n) 7 0 (lowBits 8 (clampInt (-127) 127 ((tget 0 s.tm.slaveOff n - nxt).tdiv 10)))
  (s2.setFlag (slaveStatus n) 8 (near && s2.qualified)).setFlag (slaveStatus n) 9 false

theorem syncFrame_of_linked {s : State} {n : Nat} (hi : s.ilulysReset = false) (hop : s.operates n = true)
    (hh : s.headless n = false) : syncFrame n s = s.framed n := if_neg (by simp [hi, hop, hh])

theorem State.qualified_eq (s : State) : s.qualified = s.flag tmStatus 0 := (rfl)

theorem State.framed_ft (s : State) (n : Nat) : (s.framed n).tm.ft = s.tm.ft := by
  simp only [State.framed, State.setFlag_tm, State.setFld_tm, State.modTm_tm, State.used_tm]

theorem State.framed_qualified (s : State) (n : Nat) : (s.framed n).flag (slaveStatus n) 8 =
    (decide ((tget 0 (s.framed n).tm.slaveOff n).natAbs ≤ 20) && s.qualified) := by
  have hoff : tget 0 (s.framed n).tm.slaveOff n = s.slaveNext n := tget_tset_self ..
  rw [hoff]
  unfold State.framed
  extract_lets nxt near s1 s2
  have hq : s2.qualified = s.qualified := by
    rw [State.qualified_eq, State.qualified_eq]
    unfold s2 s1
    rw [State.flag_setFld_of_outside _ _ (by decide) (by decide) (.inl (tmStatus_ne_slaveStatus n)), State.flag_modTm,
      State.flag_used]
  rw [State.flag_setFlag _ _ _ _ _ (by decide), if_neg (by simp), State.flag_setFlag _ _ _ _ _ (by decide), if_pos ⟨rfl, rfl⟩, hq]

/-- Settles O1: each event takes one branch of its meaning; the last edge, the misses and PPS_PRESENT are read off the edge before
the correction, which leaves them. -/
theorem timeReferenceEvents : Obligations.TimeReferenceEvents := by
  intro s hi
  refine ⟨congrArg Host.Outcome.next (if_neg (by simp [hi])), congrArg Host.Outcome.next (if_neg (by simp [hi])),
    ?validEdge, ?strayEdge, ?firstMiss, ?secondMiss, ?frame⟩
  case validEdge =>
    intro hio hen hv
    have hx : ppsEdge s = s.validEdge := (if_neg (by simp [hi, hio, hen])).trans (if_pos hv)
    have hchg : Changes _ s s.validEdge := Changes.refl.validEdge
    obtain ⟨hlast, hmisses, hpresent⟩ := s.validEdge_edge
    exact ⟨_, congrArg Host.Outcome.next hx, hlast, hmisses, hpresent, hchg.setsKept (by decide) (by decide),
      hchg .pkts (by decide)⟩
  case strayEdge =>
    intro hio hen hv
    exact congrArg Host.Outcome.next ((if_neg (by simp [hi, hio, hen])).trans (if_neg (by simp [hv])))
  case firstMiss =>
    intro he hm
    exact congrArg Host.Outcome.next ((ppsEdgeMissing_of_counted hi he hm (by decide)).trans (if_neg (by simp)))
  case secondMiss =>
    intro he hm hq
    refine ⟨_, congrArg Host.Outcome.next ((ppsEdgeMissing_of_counted hi he hm (by decide)).trans (if_pos ⟨rfl, hq⟩)), rfl,
      s.missed_lost_flag _ 0, s.missed_lost_flag _ 1, s.missed_lost_flag _ 3, ?_, ⟨rfl, rfl⟩⟩
    exact State.regsKept.refl.modTm.setFlag.setFlag.setFlag
  case frame =>
    intro n hop hh
    have hchg : Changes _ s (s.framed n) := Changes.refl.used.modTm.setFld.setFlag.setFlag
    exact ⟨_, congrArg Host.Outcome.next (syncFrame_of_linked hi hop hh), s.framed_ft n, s.framed_qualified n,
      State.regsKept.refl.used.modTm.setFld.setFlag.setFlag, hchg.setsKept (by decide) (by decide), hchg .pkts (by decide)⟩

/-! ### Loads of the time of day (R28) -/

theorem regDef_tmCtrl : regDef tmCtrl = some { reset := 0xC0, rwM := 0x1F0 } := by decide

theorem State.tmFields_todNow (s : State) (v : Word) : (s.tmFields v).flag tmCtrl 4 = bit v 4 := by
  unfold State.flag State.tmFields
  rw [s.lv_plainWrite v regDef_tmCtrl]
  simp [bit]

theorem State.tmFields_ftWords (s : State) (v : Word) {o : Nat} (h : tmCtrl < o) : (s.tmFields v).ftWords o = s.ftWords o := by
  have hlv (i : Nat) (hi : tmCtrl < i) : (s.tmFields v).lv i = s.lv i := s.lv_plainWrite_ne v (by omega)
  unfold State.ftWords
  rw [hlv o h, hlv (o + 4) (by omega), hlv (o + 8) (by omega)]

theorem todLoad_of_load {s : State} {v : Word} (hi : s.ilulysReset = false) (hv : bit v 3 = true) :
    todLoad v s = (s.tmFields v).todLoadAct := (if_neg (by simp [hi])).trans (if_pos hv)

/-- The state with a load of the time of day latched. -/
def State.todLatched (s : State) (v : Nat) (now later : Bool) : State :=
  s.modTm fun m => { m with tod := some { value := v, atOnce := now, deferred := later } }

theorem todLoad_of_now {s : State} {v : Word} (hi : s.ilulysReset = false) (hv : bit v 3 = true) (hnow : bit v 4 = true)
    (hc : s.curtainState = 0) : todLoad v s = (s.tmFields v).applyTod (s.ftWords 0x00030018) := by
  rw [todLoad_of_load hi hv, ← s.tmFields_ftWords v (by decide)]
  exact if_pos (by simp [s.tmFields_todNow v, hnow, s.tmFields_curtainState, hc])

theorem todLoad_of_deferred {s : State} {v : Word} (hi : s.ilulysReset = false) (hv : bit v 3 = true)
    (h : ¬(bit v 4 = true ∧ s.curtainState = 0)) : todLoad v s =
      (s.tmFields v).todLatched (s.ftWords 0x00030018) (bit v 4) (decide (s.curtainState ≠ 0)) := by
  rw [todLoad_of_load hi hv, ← s.tmFields_ftWords v (by decide), ← s.tmFields_todNow v, ← s.tmFields_curtainState v]
  refine if_neg fun hx => h ?_
  simpa [s.tmFields_todNow v, s.tmFields_curtainState] using hx

theorem State.tmFields_tm (s : State) (v : Word) : (s.tmFields v).tm = s.tm := s.plainWrite_tm tmCtrl v

theorem State.todLatched_ft (s : State) (v : Nat) (now later : Bool) : (s.todLatched v now later).tm.ft = s.tm.ft := (rfl)

theorem deferredTodApply_of_due {s : State} {q : TodPending} (hi : s.ilulysReset = false) (hq : s.tm.tod = some q)
    (hnow : q.atOnce = true) (hc : s.curtainState = 0) : deferredTodApply s = s.applyTod q.value := by
  unfold deferredTodApply
  rw [hq]
  exact if_pos (by simp [hnow, hc, hi])

theorem deferredTodApply_of_notDue {s : State}
    (h : ∀ q, s.tm.tod = some q → q.atOnce = false ∨ s.curtainState ≠ 0) : deferredTodApply s = s := by
  unfold deferredTodApply
  split
  case h_1 q hq => exact if_neg (by rcases h q hq with h | h <;> simp [h])
  case h_2 => rfl

theorem State.applyTod_loaded (s : State) (v : Nat) : (s.applyTod v).tm.ft = v ∧ (s.applyTod v).tm.tod = none ∧
    (s.applyTod v).flag tmStatus 2 = true ∧ (s.applyTod v).flag tmStatus 11 = true := by
  refine ⟨?_, ?_, s.applyTod_flag v (by decide) (by decide), s.applyTod_flag v (by decide) (by decide)⟩
  · rw [State.applyTod_tm]
    exact s.moveFt_ft v
  · rw [State.applyTod_tm]

/-! ### Snapshots (R34) -/

/-- The state with the captured instant `n` in the three words. -/
def State.snapped (s : State) (n : Nat) : State :=
  ((((s.setLv 0x0003000C (BitVec.ofNat 32 (n / nsPerSec / 2 ^ 32))).setLv 0x00030010 (BitVec.ofNat 32 (n / nsPerSec))).setLv
    0x00030014 (BitVec.ofNat 32 (n % nsPerSec))).setFlag 0x00030008 0 true).modTm fun m => { m with snap := none }

theorem ftSnapDone_of_captured {s : State} {n : Nat} (h : s.tm.snap = some n) : ftSnapDone s = s.snapped n := by
  unfold ftSnapDone
  rw [h]
  rfl

theorem ftSnapDone_of_idle {s : State} (h : s.tm.snap = none) : ftSnapDone s = s := by
  unfold ftSnapDone
  rw [h]

/-- Settles O2: a load applies at once, is latched or is due by TOD_NOW and the curtain; what it sets is read off `applyTod`. -/
theorem timeLoadsAndSnapshots : Obligations.TimeLoadsAndSnapshots := by
  intro s hi
  refine ⟨?now, ?deferred, ?due, ?notDue, ?snap, ?snapDone, fun h => congrArg Host.Outcome.next (ftSnapDone_of_idle h)⟩
  case now =>
    intro v hv hnow hc
    have hchg : Changes _ s ((s.tmFields v).applyTod (s.ftWords 0x00030018)) := Changes.refl.tmFields.applyTod
    obtain ⟨hft, htod, hvalid, hstepped⟩ := (s.tmFields v).applyTod_loaded (s.ftWords 0x00030018)
    exact ⟨_, congrArg Host.Outcome.next (todLoad_of_now hi hv hnow hc), hft, htod, hvalid, hstepped,
      State.regsKept.refl.plainWrite.applyTod, hchg.setsKept (by decide) (by decide)⟩
  case deferred =>
    intro v hv h
    have hchg : Changes _ s ((s.tmFields v).todLatched (s.ftWords 0x00030018) (bit v 4) (decide (s.curtainState ≠ 0))) :=
      Changes.refl.tmFields.modTm
    exact ⟨_, congrArg Host.Outcome.next (todLoad_of_deferred hi hv h),
      ((s.tmFields v).todLatched_ft _ _ _).trans (congrArg TimeSt.ft (s.tmFields_tm v)),
      State.regsKept.refl.plainWrite.modTm, hchg.setsKept (by decide) (by decide), rfl⟩
  case due =>
    intro q hq hnow hc
    have hchg : Changes _ s (s.applyTod q.value) := Changes.refl.applyTod
    obtain ⟨hft, htod, hvalid, hstepped⟩ := s.applyTod_loaded q.value
    exact ⟨_, congrArg Host.Outcome.next (deferredTodApply_of_due hi hq hnow hc), hft, htod, hvalid, hstepped,
      State.regsKept.refl.applyTod, hchg.setsKept (by decide) (by decide)⟩
  case notDue =>
    intro h
    exact congrArg Host.Outcome.next (deferredTodApply_of_notDue h)
  case snap =>
    refine ⟨_, congrArg Host.Outcome.next (if_neg (by simp [hi])), rfl, ?_, State.regsKept.refl.setFlag.modTm, ⟨rfl, rfl⟩⟩
    simp
  case snapDone =>
    intro n hn
    refine ⟨_, congrArg Host.Outcome.next (ftSnapDone_of_captured hn), rfl, ?_, ?_, ?_, ?_,
      State.regsKept.refl.setLv.setLv.setLv.setFlag.modTm, ⟨rfl, rfl⟩⟩ <;> simp [State.snapped]

end Sys2Proof.Machine

/-! The frames of the commands that change register words only, one unit of the state, or registers and one unit. -/

namespace Sys2Proof.Machine

/-! ### Commands that write register words only -/

/-- From `z` to `s` only the live words at the offsets `l` change. -/
def Writes (l : List Nat) (z s : State) : Prop := Changes [.live] z s ∧ z.regsKept s l

section
variable {l : List Nat} {z s t u : State}

theorem Writes.refl : Writes l z z := ⟨.same, .refl⟩

theorem Writes.setLv (h : Writes l z s) {o : Nat} {v : Word} (ho : o ∈ l := by simp) : Writes l z (s.setLv o v) :=
  ⟨h.1.setLv.within (by decide), h.2.setLv ho⟩

theorem Writes.setFld (h : Writes l z s) {o hi lo n : Nat} (ho : o ∈ l := by simp) : Writes l z (s.setFld o hi lo n) :=
  h.setLv ho

theorem Writes.setFlag (h : Writes l z s) {o n : Nat} {b : Bool} (ho : o ∈ l := by simp) : Writes l z (s.setFlag o n b) :=
  h.setLv ho

theorem Writes.sticky (h : Writes l z s) {o n : Nat} (ho : o ∈ l := by simp) : Writes l z (s.sticky o n) := h.setLv ho

theorem Writes.plainWrite (h : Writes l z s) {o : Nat} {v : Word} (ho : o ∈ l := by simp) :
    Writes l z (s.plainWrite o v) := ⟨h.1.plainWrite.within (by decide), h.2.plainWrite ho⟩

theorem Writes.ite {c : Prop} [Decidable c] (hs : Writes l z s) (ht : Writes l z t) : Writes l z (if c then s else t) := by
  split
  · exact hs
  · exact ht

/-- The frame of a command whose meaning writes only the words at `l`. -/
theorem Writes.frame (k : Writes l s u) (h : (.next u : Out) = .next t) :
    t = { s with live := t.live } ∧ s.regsKept t l :=
  ⟨k.1.frame h, Host.Outcome.next.inj h ▸ k.2⟩
end

theorem windowTableInit_writes (v : Word) (s : State) : Writes [0x00140000, 0x0014000C] s (windowTableInit v s) :=
  .ite Writes.refl.sticky (.ite (.ite Writes.refl.plainWrite.sticky Writes.refl.plainWrite.setFlag) Writes.refl.plainWrite)

theorem qpTableInit_writes (v : Word) (s : State) : Writes [0x00140010, 0x0014001C] s (qpTableInit v s) :=
  .ite Writes.refl.sticky (.ite Writes.refl.plainWrite.setFlag Writes.refl.plainWrite)

/-- Settles O46: each meaning writes the words named for it, or nothing. -/
theorem frameOfRegisterCommands : Obligations.FrameOfRegisterCommands := by
  intro s
  exact ⟨
    fun _ => (Writes.ite .refl Writes.refl.setFlag).frame,
    fun _ => (Writes.ite .refl Writes.refl.setFlag).frame,
    fun _ _ => (Writes.ite .refl (.ite .refl Writes.refl.setFlag.setFlag)).frame,
    fun _ _ => (Writes.ite Writes.refl.setFlag .refl).frame,
    fun _ _ _ => (Writes.ite .refl Writes.refl.setLv.setFlag).frame,
    fun _ _ _ => (Writes.ite Writes.refl.setFlag.setFlag .refl).frame,
    fun v _ => (windowTableInit_writes v s).frame,
    fun v _ => (qpTableInit_writes v s).frame,
    fun _ _ _ => (Writes.ite Writes.refl.setFlag .refl).frame,
    fun _ _ _ => (Writes.ite Writes.refl.setFlag .refl).frame,
    fun _ _ _ _ => (Writes.ite Writes.refl.setLv .refl).frame,
    fun _ _ _ => (Writes.ite .refl Writes.refl.setLv.setFlag).frame,
    fun _ => (Writes.ite Writes.refl.setFlag.setFlag .refl).frame,
    fun _ _ => (Writes.ite Writes.refl.setFlag .refl).frame,
    fun _ _ => (Writes.ite Writes.refl.setFld .refl).frame,
    fun _ => (Writes.ite .refl Writes.refl.setFlag).frame⟩

/-! ### What the shared operations change -/

section
variable {C : List Comp} {z s : State}

theorem Changes.modSch (h : Changes C z s) {f} : Changes (.sch :: C) z (s.modSch f) := h.upd [.sch] rfl
theorem Changes.modBridge (h : Changes C z s) {f} : Changes (.host :: C) z (s.modBridge f) := h.upd [.host] rfl
theorem Changes.modCap (h : Changes C z s) {t c f} : Changes (.tel :: C) z (s.modCap t c f) := h.upd [.tel] rfl

theorem Changes.setHops (h : Changes C z s) {t p b} : Changes (.live :: C) z (s.setHops t p b) :=
  h.each (D := [.live]) fun _ _ => .within (by decide) (Changes.refl.each fun _ _ => .ite Changes.refl.setFlag.sticky .refl)

theorem Changes.pllDown (h : Changes C z s) {p} : Changes (.live :: C) z (s.pllDown p) :=
  h.each (D := [.live]) fun _ _ => .within (by decide) (.ite Changes.refl.setFlag.setFlag .refl)

theorem Changes.slotSignal (h : Changes C z s) {p c} : Changes (.slots :: C) z (s.slotSignal p c) := by
  unfold State.slotSignal
  split
  · exact h.modSlot
  · exact h.modSlot
  · exact h.modSlot
  · exact h.modSlot
  · exact h.within (List.subset_cons_self _ _)

theorem Changes.lkInject (h : Changes C z s) {p v} : Changes (.links :: C) z (s.lkInject p v) :=
  h.andThen (D := [.links]) (.within (by decide) (.ite .refl Changes.refl.modLink))

theorem Changes.eqStart (h : Changes C z s) {n k b} : Changes (.lanes :: C) z (s.eqStart n k b) := h.modLane

theorem Changes.takeoverAct (h : Changes C z s) {p v} : Changes ([Comp.live, .sch] ++ C) z (s.takeoverAct p v) := by
  refine h.andThen ?_
  unfold State.takeoverAct
  extract_lets s1 late s2
  have armed : Changes _ s s2 := .ite Changes.refl.plainWrite.setFlag.modSch Changes.refl.plainWrite
  exact .within (by decide) (.ite armed.setFlag.modSch armed)

theorem Changes.ringOn (h : Changes C z s) {r} : Changes ([Comp.host, .live] ++ C) z (s.ringOn r) :=
  h.andThen (.within (by decide) (.ite Changes.refl.setFlag.setLv.setFlag.modRing Changes.refl.setFlag))

theorem Changes.ringOff (h : Changes C z s) {r} : Changes ([Comp.host, .live] ++ C) z (s.ringOff r) :=
  h.andThen (.within (by decide) (.ite Changes.refl.setFlag Changes.refl.setFlag.setFld.modRing))

theorem Changes.ringWord0 (h : Changes C z s) {r v} : Changes ([Comp.host, .live] ++ C) z (s.ringWord0 r v) := by
  refine h.andThen ?_
  unfold State.ringWord0
  extract_lets o isOpen free m s1 s2
  have stored : Changes _ s s2 := (Changes.ite Changes.refl.sticky .refl : Changes _ s s1).setLv
  exact .within (by decide) (.ite (.ite stored stored.ringOn) (.ite stored.ringOff stored))

theorem Changes.ringWrite (h : Changes C z s) {r w v} : Changes ([Comp.host, .live] ++ C) z (s.ringWrite r w v) :=
  h.andThen (.within (by decide) (.ite .refl (.ite Changes.refl.ringWord0
    (.ite (.ite Changes.refl.sticky Changes.refl.plainWrite) Changes.refl.plainWrite))))

theorem Changes.progAct (h : Changes C z s) {t k v} : Changes ([Comp.live, .tel] ++ C) z (s.progAct t k v) :=
  h.andThen (.within (by decide) (.ite Changes.refl.plainWrite Changes.refl.plainWrite.modTel))

theorem Changes.snapAct (h : Changes C z s) {v} : Changes ([Comp.live, .tel] ++ C) z (s.snapAct v) :=
  h.andThen (.within (by decide)
    (.ite Changes.refl.plainWrite.setFlag.setFlag.modTel Changes.refl.plainWrite))

theorem Changes.histAct (h : Changes C z s) {t k v} : Changes ([Comp.live, .tel] ++ C) z (s.histAct t k v) :=
  h.andThen (.within (by decide) (.ite Changes.refl.plainWrite.modTel Changes.refl.plainWrite))

theorem Changes.capAct (h : Changes C z s) {t c v} : Changes ([Comp.live, .tel] ++ C) z (s.capAct t c v) :=
  h.andThen (.within (by decide) (.ite Changes.refl.plainWrite.setFld.modCap Changes.refl.plainWrite))

theorem Changes.injCell (h : Changes C z s) {t} : Changes (.cont :: C) z (injCell t s) :=
  h.andThen (D := [.cont]) (.within (by decide) (.ite (Changes.refl.upd [.cont] rfl) .refl))

theorem Changes.injTable (h : Changes C z s) {t} : Changes (.cont :: C) z (injTable t s) :=
  h.andThen (D := [.cont]) (.within (by decide) (.ite (Changes.refl.upd [.cont] rfl) .refl))

theorem Changes.eccCtrlWrite (h : Changes C z s) {t v} : Changes ([Comp.cont, .live] ++ C) z (s.eccCtrlWrite t v) := by
  refine h.andThen ?_
  unfold State.eccCtrlWrite
  extract_lets s1 s2
  have cell : Changes _ s s2 := .ite Changes.refl.plainWrite.injCell Changes.refl.plainWrite
  exact .within (by decide) (.ite cell.injTable cell)

theorem Changes.spAccept (h : Changes C z s) {n k b} : Changes (.sp :: C) z (s.spAccept n k b) := h.modSp

theorem Changes.spCtrlAct (h : Changes C z s) {n v} : Changes ([Comp.live, .sp] ++ C) z (s.spCtrlAct n v) := by
  refine h.andThen ?_
  unfold State.spCtrlAct
  extract_lets was s1 s2 s3
  have enabled : Changes _ s s2 := .ite Changes.refl.plainWrite.spAccept Changes.refl.plainWrite
  have disabled : Changes _ s s3 := .ite enabled.spAccept enabled
  exact .within (by decide) (.ite disabled.spAccept (.ite disabled.spAccept disabled))

theorem Changes.seqAct (h : Changes C z s) {e v} : Changes ([Comp.live, .seqLate] ++ C) z (s.seqAct e v) :=
  h.andThen (.within (by decide) (Changes.refl.plainWrite.upd [.seqLate] rfl))

theorem Changes.attWrite (h : Changes C z s) {v} : Changes ([Comp.boot, .live] ++ C) z (s.attWrite v) :=
  h.andThen (.within (by decide) (.ite .refl Changes.refl.plainWrite.setFlag.modBoot))

theorem Changes.flashWrite (h : Changes C z s) {v} : Changes ([Comp.boot, .live] ++ C) z (s.flashWrite v) :=
  h.andThen (.within (by decide) (.ite .refl
    (.ite Changes.refl.plainWrite.setFlag.modBoot Changes.refl.plainWrite.setFlag.sticky)))

theorem Changes.flashProgram (h : Changes C z s) {a} : Changes (.boot :: C) z (s.flashProgram a) :=
  h.each (D := [.boot]) fun _ _ => Changes.refl.modBoot

theorem Changes.flashErase (h : Changes C z s) {a} : Changes (.boot :: C) z (s.flashErase a) :=
  h.each (D := [.boot]) fun _ _ => Changes.refl.modBoot

theorem Changes.flashRead (h : Changes C z s) {a} : Changes (.live :: C) z (s.flashRead a) :=
  h.each (D := [.live]) fun _ _ => Changes.refl.setLv

theorem Changes.serdesUp (h : Changes C z s) {t} : Changes (.live :: C) z (s.serdesUp t) :=
  h.andThen (D := [.live]) (.within (by decide) (.ite Changes.refl.setFlag .refl))

theorem Changes.refSwitch (h : Changes C z s) {b} : Changes ([Comp.live, .pwr] ++ C) z (s.refSwitch b) := by
  refine h.andThen ?_
  unfold State.refSwitch
  extract_lets hit s1 s2
  have switched : Changes _ s s2 := Changes.refl.setFlag.sticky.setFlag.setFld
  exact .within (by decide) (.ite switched switched.modPwr)
end

/-! ### One unit of the state -/

section
variable (s : State)

theorem consistencyCheck_changes (v : Word) : Changes [.live] s (consistencyCheck v s) :=
  .within (by decide) (.ite .refl (.ite (.ite Changes.refl.tmFields.setFld Changes.refl.tmFields) Changes.refl.tmFields))

theorem consistencyCheckDone_changes : Changes [.live] s (consistencyCheckDone s) := by
  unfold consistencyCheckDone
  split
  · exact .same
  split
  · exact Changes.refl.setLv
  · exact Changes.refl.setFld.setFld.setFld.setLv.within (by decide)

theorem curtainPrepareAck_changes (n : Nat) : Changes [.cur] s (curtainPrepareAck n s) :=
  .within (by decide) (.ite .refl (.ite Changes.refl.modCur.modCur Changes.refl.modCur))

theorem l0sEntry_changes (port : Nat) : Changes [.live] s (l0sEntry port s) :=
  .within (by decide) (.ite Changes.refl.setFlag.setEi .refl)

theorem l1Entry_changes (port : Nat) (pm : Bool) : Changes [.live] s (l1Entry port pm s) :=
  .within (by decide) (.ite Changes.refl.setFlag.setFlag.pllDown.setEi .refl)

theorem laneMbxAct_changes (agent pb : Nat) (v : Word) :
    Changes [.live] s (if pb < 64 && s.here (pb / 8) then s.laneMbxAct agent pb v else s) :=
  .within (by decide) (.ite Changes.refl.setLv .refl)

theorem commandCompleted_changes (port : Nat) : Changes [.slots] s (commandCompleted port s) :=
  .within (by decide) (.ite Changes.refl.modSlot .refl)

theorem attentionButton_changes (port : Nat) : Changes [.host] s (attentionButton port s) :=
  .within (by decide) (.ite .refl Changes.refl.sendSide)

theorem packetItemAccept_changes (l : Link) : Changes [.links] s (packetItemAccept l s) := by
  unfold packetItemAccept
  extract_lets ok
  split
  · exact .same
  · exact Changes.refl.modLink

theorem initMismatchRetry_changes (port : Nat) : Changes [.links] s (initMismatchRetry port s) :=
  .within (by decide) (.ite Changes.refl.modLink .refl)

theorem routeHopRestore_changes (n port : Nat) : Changes [.live] s (routeHopRestore n port s) :=
  .within (by decide) (.ite Changes.refl.setHops .refl)

theorem ticketReturn_changes (n u d k : Nat) : Changes [.core] s (ticketReturn n u d k s) :=
  .within (by decide) (.ite .refl Changes.refl.modCore)

theorem sprayRecompute_changes (n : Nat) : Changes [.core] s (sprayRecompute n s) :=
  .within (by decide) (.ite .refl
    (Changes.refl.each fun _ _ => Changes.refl.each fun _ _ => Changes.refl.modCore))

theorem ticketQuery_changes (agent n : Nat) (v : Word) : Changes [.live] s (ticketQuery agent n v s) :=
  .within (by decide) (.ite Changes.refl.setLv .refl)

theorem mbxM2tWrite_changes (via : Via) (seat off : Nat) (v : Word) : Changes [.live] s (mbxM2tWrite via seat off v s) :=
  .within (by decide) (.ite (.ite .refl (.ite Changes.refl.sticky Changes.refl.setLv)) .refl)

theorem bridgeStatus_changes : Changes [.wire] s (bridgeStatus s) := .within (by decide) (.ite Changes.refl.emit .refl)

theorem entdaa_changes (a : Nat) : Changes [.host] s (entdaa a s) := .within (by decide) (.ite Changes.refl.modBridge .refl)

theorem fastTripLatch_changes (ch : Nat) : Changes [.sp] s (fastTripLatch ch s) :=
  .within (by decide) (.ite Changes.refl.modSp .refl)

theorem jtagInstruction_changes (isPrivate : Bool) (code : Nat) : Changes [.boot] s (jtagInstruction isPrivate code s) :=
  .within (by decide) (.ite .refl Changes.refl.modBoot)

theorem strapSample_changes (good a0 a1 : Bool) : Changes [.pwr] s (strapSample good a0 a1 s) :=
  .within (by decide) (.ite .refl Changes.refl.modPwr)

theorem ptmRequest_changes (port : Nat) : Changes [.wire] s (ptmRequest port s) :=
  .within (by decide) (.ite Changes.refl.emit .refl)

theorem corePllRelock_changes (n : Nat) : Changes [.pwr] s (corePllRelock n s) := Changes.refl.modPwr
end

/-- Settles O47, from what each of the commands can change. -/
theorem frameOfOneUnitCommands : Obligations.FrameOfOneUnitCommands := by
  intro s
  exact ⟨
    fun v _ => (consistencyCheck_changes s v).frame,
    fun _ => (consistencyCheckDone_changes s).frame,
    fun tile _ => (curtainPrepareAck_changes s tile).frame,
    fun port _ => (l0sEntry_changes s port).frame,
    fun port pm _ => (l1Entry_changes s port pm).frame,
    fun agent pb v _ => (laneMbxAct_changes s agent pb (putBit v 16 false)).frame,
    fun agent pb v _ => (laneMbxAct_changes s agent pb (putBit v 16 true)).frame,
    fun port _ => (commandCompleted_changes s port).frame,
    fun port _ => (attentionButton_changes s port).frame,
    fun link _ => (packetItemAccept_changes s link).frame,
    fun port _ => (initMismatchRetry_changes s port).frame,
    fun tile port _ => (routeHopRestore_changes s tile port).frame,
    fun _ _ _ => Changes.refl.lkInject.frame,
    fun _ _ _ => Changes.refl.lkInject.frame,
    fun _ _ _ => Changes.refl.lkInject.frame,
    fun _ _ _ => Changes.refl.lkInject.frame,
    fun _ _ _ => Changes.refl.lkInject.frame,
    fun tile fromTile dest n _ => (ticketReturn_changes s tile fromTile dest n).frame,
    fun tile _ => (sprayRecompute_changes s tile).frame,
    fun agent tile v _ => (ticketQuery_changes s agent tile v).frame,
    fun via seat off v _ => (mbxM2tWrite_changes s via seat off v).frame,
    fun _ => (bridgeStatus_changes s).frame,
    fun addr _ => (entdaa_changes s addr).frame,
    fun _ _ => Changes.refl.frame,
    fun ch _ => (fastTripLatch_changes s ch).frame,
    fun isPrivate code _ => (jtagInstruction_changes s isPrivate code).frame,
    fun good a0 a1 _ => (strapSample_changes s good a0 a1).frame,
    fun port _ => (ptmRequest_changes s port).frame,
    fun tile _ => (corePllRelock_changes s tile).frame⟩

/-! ### Register words and one unit, or two units -/

section
variable (s : State)

theorem ppsEdgeMissing_changes : Changes [.live, .tm] s (ppsEdgeMissing s) :=
  .within (by decide) (.ite .refl (.ite Changes.refl.modTm.setFlag.setFlag.setFlag Changes.refl.modTm.setFlag))

theorem todLoad_changes (v : Word) : Changes [.live, .tm] s (todLoad v s) :=
  .within (by decide) (.ite .refl
    (.ite (.ite Changes.refl.tmFields.applyTod Changes.refl.tmFields.modTm) Changes.refl.tmFields))

theorem deferredTodApply_changes : Changes [.live, .tm] s (deferredTodApply s) := by
  unfold deferredTodApply
  split
  · exact .within (by decide) (.ite Changes.refl.applyTod .refl)
  · exact .same

theorem ftSnap_changes : Changes [.live, .tm] s (ftSnap s) :=
  .within (by decide) (.ite .refl Changes.refl.setFlag.modTm)

theorem ftSnapDone_changes : Changes [.live, .tm] s (ftSnapDone s) := by
  unfold ftSnapDone
  split
  · exact .same
  · exact .within (by decide) Changes.refl.setLv.setLv.setLv.setFlag.modTm

theorem understudyRead_changes (v : Word) : Changes [.cur, .live] s (understudyRead v s) :=
  .within (by decide) (.ite .refl Changes.refl.setLv.modCur)

theorem understudyReadDone_changes : Changes [.cur, .live] s (understudyReadDone s) :=
  .within (by decide) (.ite .refl Changes.refl.setLv.setLv.modCur)

theorem armAct_changes : Changes [.cur, .live] s s.armAct := by
  unfold State.armAct
  split
  · exact .within (by decide) Changes.refl.setFld.modCur
  · exact .within (by decide) Changes.refl.setFld.sticky
  · exact .within (by decide) Changes.refl.setFld.sticky

theorem curtainArm_changes (v : Word) : Changes [.cur, .live] s (curtainArm v s) :=
  .within (by decide) (.ite .refl
    (.ite (Changes.refl.tmFields.andThen (armAct_changes (s.tmFields v))) Changes.refl.tmFields))

theorem curtainPrepare_changes (n : Nat) : Changes [.cur, .live] s (curtainPrepare n s) :=
  .within (by decide) (.ite .refl Changes.refl.setFlag.modCur)

theorem curtainCommit_changes (n : Nat) : Changes [.cur, .live] s (curtainCommit n s) :=
  .within (by decide) (.ite .refl Changes.refl.setFlag.modCur)

theorem curtainCommitAck_changes (n : Nat) : Changes [.cur, .live] s (curtainCommitAck n s) :=
  .within (by decide) (.ite .refl (.ite Changes.refl.modCur.setFld Changes.refl.modCur))

theorem curtainAbort_changes (v : Word) : Changes [.cur, .live] s (curtainAbort v s) :=
  .within (by decide) (.ite .refl (.ite (.ite Changes.refl.tmFields
    (.ite Changes.refl.tmFields.sticky Changes.refl.tmFields.abortCurtain)) Changes.refl.tmFields))

theorem oldDrainedReport_changes (n : Nat) : Changes [.cur, .live] s (oldDrainedReport n s) :=
  .within (by decide) (.ite .refl
    (.ite Changes.refl.setFlag.modCur.setLv.modCur Changes.refl.setFlag.modCur))

theorem equalisationPhaseDone_changes (lane rate : Nat) (limitsOk reached : Bool) (conv : BitVec 64) :
    Changes [.lanes, .live] s (equalisationPhaseDone lane rate limitsOk reached conv s) := by
  unfold equalisationPhaseDone
  extract_lets k ok s1 s2 new s3 s4
  have noted : Changes _ s s2 := .ite Changes.refl.setFlag.sticky Changes.refl.setFlag
  have saved : Changes _ s s4 := .ite noted.modLane.modLane noted.modLane
  exact .within (by decide) (.ite .refl saved.eqStart)

theorem linkPowerExit_changes (port : Nat) : Changes [.live, .ports] s (linkPowerExit port s) :=
  Changes.refl.linkPowerExit.within (by decide)

theorem quadPllRelock_changes (quad : Nat) : Changes [.lanes, .live] s (quadPllRelock quad s) :=
  .within (by decide) (.ite .refl Changes.refl.setFlag.setFld.modLane.setEi)

theorem slotSidebandMessage_changes (port : Nat) : Changes [.host, .slots] s (slotSidebandMessage port s) := by
  unfold slotSidebandMessage
  split
  · exact .same
  split
  · exact .same
  · exact .within (by decide) (Changes.refl.upd [.host] rfl).slotSignal

theorem presenceSample_changes (port : Nat) (present : Bool) : Changes [.host, .slots] s (presenceSample port present s) :=
  .within (by decide) (.ite .refl Changes.refl.modSlot.sendSide)

theorem windowTableInitDone_changes : Changes [.live, .win] s (windowTableInitDone s) :=
  .within (by decide) (.ite .refl Changes.refl.modWin.setFlag.setFlag)

theorem qpTableInitDone_changes : Changes [.eng, .live] s (qpTableInitDone s) :=
  .within (by decide) (.ite .refl Changes.refl.modEng.setFlag.setFlag)

theorem takeoverAct_changes (pb : Nat) (v : Word) :
    Changes [.live, .sch] s (if s.here (pb / 8) then s.takeoverAct pb v else s) :=
  .within (by decide) (.ite Changes.refl.takeoverAct .refl)

theorem ringWrite_changes (r w : Nat) (v : Word) : Changes [.host, .live] s (s.ringWrite r w v) :=
  Changes.refl.ringWrite.within (by decide)

theorem bridgeRead_changes (o : Nat) (ok : Bool) : Changes [.freeCtr, .wire] s (bridgeRead o ok s) :=
  .within (by decide) (.ite .refl (.ite Changes.refl.emit Changes.refl.used.emit))

theorem counterReadDone_changes (agent : Nat) : Changes [.live, .tel] s (counterReadDone agent s) := by
  unfold counterReadDone
  split
  · exact .same
  · exact .within (by decide) (.ite .refl Changes.refl.setLv.setLv.setFlag.modTel)

theorem ctProgWrite_changes (n k : Nat) (v : Word) : Changes [.live, .tel] s (ctProgWrite n k v s) :=
  .within (by decide) (.ite Changes.refl.progAct .refl)

theorem snapAct_changes (v : Word) : Changes [.live, .tel] s (s.snapAct v) := Changes.refl.snapAct.within (by decide)

theorem histogramClear_changes (n h : Nat) (v : Word) : Changes [.live, .tel] s (histogramClear n h v s) :=
  .within (by decide) (.ite Changes.refl.histAct .refl)

theorem captureEnable_changes (n c : Nat) (v : Word) : Changes [.live, .tel] s (captureEnable n c v s) :=
  .within (by decide) (.ite Changes.refl.capAct .refl)

theorem eccCorrectable_changes (n : Nat) : Changes [.live, .tel] s (eccCorrectable n s) := Changes.refl.count

theorem eccCtrlWrite_changes (n : Nat) (v : Word) : Changes [.cont, .live] s (if s.here n then s.eccCtrlWrite n v else s) :=
  .within (by decide) (.ite Changes.refl.eccCtrlWrite .refl)

theorem spCtrlAct_changes (ch : Nat) (v : Word) :
    Changes [.live, .sp] s (if ch < 128 && !s.ilulysReset then s.spCtrlAct ch v else s) :=
  .within (by decide) (.ite Changes.refl.spCtrlAct .refl)

theorem vinStart_changes (ch : Nat) : Changes [.live, .sp] s (vinStart ch s) :=
  .within (by decide) (.ite Changes.refl.ramp .refl)

theorem seqAct_changes (e : Nat) (v : Word) :
    Changes [.live, .seqLate] s (if e < 32 && !s.ilulysReset then s.seqAct e v else s) :=
  .within (by decide) (.ite Changes.refl.seqAct .refl)

theorem fuseSelAct_changes (v : Word) : Changes [.boot, .live] s (if s.ilulysReset then s else s.fuseSelAct v) :=
  .within (by decide) (.ite .refl Changes.refl.plainWrite.setFlag.modBoot)

theorem fuseSelectDone_changes : Changes [.boot, .live] s (fuseSelectDone s) :=
  .within (by decide) (.ite .refl Changes.refl.setLv.setFlag.modBoot)

theorem attWrite_changes (v : Word) : Changes [.boot, .live] s (s.attWrite v) := Changes.refl.attWrite.within (by decide)

theorem flashWrite_changes (v : Word) : Changes [.boot, .live] s (s.flashWrite v) :=
  Changes.refl.flashWrite.within (by decide)

theorem flashDone_changes : Changes [.boot, .live] s (flashDone s) := by
  unfold flashDone
  split
  · exact .same
  case h_2 op a _ =>
    have acted : Changes _ s (if op = 1 then s.flashProgram a else if op = 2 then s.flashErase a else s.flashRead a) :=
      .ite Changes.refl.flashProgram (.ite Changes.refl.flashErase Changes.refl.flashRead)
    exact .within (by decide) (.ite .refl acted.setFlag.modBoot)

theorem railGood_changes (r : Rail) : Changes [.live, .pwr] s (railGood r s) := by
  cases r with
  | core n => exact Changes.refl.modPwr.within (by decide)
  | sda n => exact Changes.refl.modPwr.serdesUp.within (by decide)
  | sdh n => exact Changes.refl.modPwr.serdesUp.within (by decide)
  | io => exact Changes.refl.modPwr.within (by decide)
  | vauxA => exact Changes.refl.modPwr.within (by decide)
  | vauxB => exact Changes.refl.modPwr.within (by decide)

theorem refclkGood_changes (b spread : Bool) : Changes [.live, .pwr] s (refclkGood b spread s) := by
  unfold refclkGood
  extract_lets s1
  have seen : Changes _ s s1 := Changes.refl.setFlag.setFlag
  exact .within (by decide) (.ite .refl (.ite (.ite seen.setFlag seen)
    (.ite seen (.ite seen.setFlag.refSwitch seen.setFlag))))

theorem refclkRevert_changes (within : Bool) : Changes [.live, .pwr] s (refclkRevert within s) :=
  .within (by decide) (.ite .refl Changes.refl.refSwitch)

theorem l0pEntry_changes (port width : Nat) : Changes [.live, .ports] s (l0pEntry port width s) :=
  .within (by decide) (.ite Changes.refl.setFlag.modPort.setEi .refl)

theorem dllpReceive_changes (port kind n hdr dat : Nat) : Changes [.ports, .wire] s (dllpReceive port kind n hdr dat s) :=
  .within (by decide) (.ite .refl (.ite
    (.ite (Changes.refl.modPort.each fun _ _ => Changes.refl.emit) Changes.refl.modPort) (.ite Changes.refl.modPort .refl)))
end

/-- Settles O48, from what each of the commands can change. -/
theorem frameOfTwoUnitCommands : Obligations.FrameOfTwoUnitCommands := by
  intro s
  exact ⟨
    fun _ => (ppsEdgeMissing_changes s).frame,
    fun v _ => (todLoad_changes s v).frame,
    fun _ => (deferredTodApply_changes s).frame,
    fun _ => (ftSnap_changes s).frame,
    fun _ => (ftSnapDone_changes s).frame,
    fun v _ => (understudyRead_changes s v).frame,
    fun _ => (understudyReadDone_changes s).frame,
    fun v _ => (curtainArm_changes s v).frame,
    fun tile _ => (curtainPrepare_changes s tile).frame,
    fun tile _ => (curtainCommit_changes s tile).frame,
    fun tile _ => (curtainCommitAck_changes s tile).frame,
    fun v _ => (curtainAbort_changes s v).frame,
    fun tile _ => (oldDrainedReport_changes s tile).frame,
    fun lane rate limitsOk reached conv _ => (equalisationPhaseDone_changes s lane rate limitsOk reached conv).frame,
    fun port _ => (linkPowerExit_changes s port).frame,
    fun quad _ => (quadPllRelock_changes s quad).frame,
    fun port _ => (slotSidebandMessage_changes s port).frame,
    fun port present _ => (presenceSample_changes s port present).frame,
    fun _ => (windowTableInitDone_changes s).frame,
    fun _ => (qpTableInitDone_changes s).frame,
    fun pb v _ => (takeoverAct_changes s pb (v ||| 2)).frame,
    fun pb v _ => (takeoverAct_changes s pb (v ||| 4)).frame,
    fun ring v _ => (ringWrite_changes s ring 0 (putBit v 0 true)).frame,
    fun ring v _ => (ringWrite_changes s ring 0 (putBit v 0 false)).frame,
    fun ring v _ => (ringWrite_changes s ring 7 (putBit v 2 true)).frame,
    fun off pecOk _ => (bridgeRead_changes s off pecOk).frame,
    fun agent _ => (counterReadDone_changes s agent).frame,
    fun tile k v _ => (ctProgWrite_changes s tile k v).frame,
    fun v _ => (snapAct_changes s (v ||| 1)).frame,
    fun tile h v _ => (histogramClear_changes s tile h v).frame,
    fun tile c v _ => (captureEnable_changes s tile c v).frame,
    fun tile _ => (eccCorrectable_changes s tile).frame,
    fun tile v _ => (eccCtrlWrite_changes s tile (putBit v 1 true)).frame,
    fun tile v _ => (eccCtrlWrite_changes s tile (putBit v 2 true)).frame,
    fun ch v _ => (spCtrlAct_changes s ch (v ||| 4)).frame,
    fun ch v _ => (spCtrlAct_changes s ch (v &&& 3)).frame,
    fun ch _ => (vinStart_changes s ch).frame,
    fun e v _ => (seqAct_changes s e (v ||| 0x200)).frame,
    fun v _ => (fuseSelAct_changes s v).frame,
    fun _ => (fuseSelectDone_changes s).frame,
    fun v _ => (attWrite_changes s (if field v 9 8 = 3 then v else putField v 9 8 0)).frame,
    fun v _ => (attWrite_changes s (putField v 9 8 1)).frame,
    fun v _ => (attWrite_changes s (putField v 9 8 2)).frame,
    fun v _ => (flashWrite_changes s (if field v 1 0 = 3 then v else putField v 1 0 0)).frame,
    fun v _ => (flashWrite_changes s (putField v 1 0 1)).frame,
    fun v _ => (flashWrite_changes s (putField v 1 0 2)).frame,
    fun _ => (flashDone_changes s).frame,
    fun rail _ => (railGood_changes s rail).frame,
    fun b spread _ => (refclkGood_changes s b spread).frame,
    fun within300ppm _ => (refclkRevert_changes s within300ppm).frame,
    fun port width _ => (l0pEntry_changes s port width).frame,
    fun port kind seq hdr dat _ => (dllpReceive_changes s port kind seq hdr dat).frame⟩

end Sys2Proof.Machine

/-! The step of the machine: the command at the front of the queue, and the idle nanosecond. -/

namespace Sys2Proof.Machine

/-- Settles O50: it is the branch of `step` for a queue that is not empty. -/
theorem stepRunsTheFrontCommand : Obligations.StepRunsTheFrontCommand := by
  intro c cs s
  rfl

/-- Settles O52: no row of the table has bits, so no word spells a command, and `withFetchWord` takes its branch for none. -/
theorem noWordSpellsACommand : Obligations.NoWordSpellsACommand := by
  intro s nbits w
  exact ⟨rfl, rfl⟩

/-- A VFL port of four lanes at 64 GT/s, 7 ns into its first flit slot, with the last flit of a replay to resend: LK_STATUS
shows the port up and REPLAYING. -/
def State.endingReplay : State :=
  { live := [(portStatus 0, 0x56#32), (lkStatus 0, 0x5#32)]
    links := [(0, { cap := 8, nextSeq := 1, outst := [{ seqNo := 0 }], resend := [0] })]
    tm := { now := 7, ft := 7 } }

theorem State.endingReplay_replaying : State.endingReplay.flag (lkStatus 0) 2 = true := by decide

/-- The nanosecond that completes the slot resends the flit, and REPLAYING clears (R106). -/
theorem tick_endingReplay_notReplaying : (tick State.endingReplay).flag (lkStatus 0) 2 = false := by decide

/-- Refutes O51: the flit slots that pass in an idle nanosecond also write LK_STATUS. As the last flit of a replay goes out,
REPLAYING clears, so that the register file differs besides the components named. -/
theorem not_idleStepPassesANanosecond : ¬ Obligations.IdleStepPassesANanosecond := by
  intro h
  obtain ⟨t, hstep, hframe, -⟩ := h State.endingReplay rfl
  have htick : tick State.endingReplay = t := Host.Outcome.next.inj hstep
  have hchg : Changes [.tm, .links, .ports, .wire, .freeCtr] State.endingReplay t := changes_iff_graft.mpr hframe.symm
  have hsame := hchg.flag_eq (by decide) (by decide) (lkStatus 0) 2
  rw [← htick, tick_endingReplay_notReplaying, State.endingReplay_replaying] at hsame
  exact Bool.noConfusion hsame

end Sys2Proof.Machine

/-! Completions, time-outs, packets from VFL and messages as they arrive at a port. -/

namespace Sys2Proof.Machine

/-! ### Completions (R158, R161, R164) -/

section
variable {u : State} {port : Nat} {c : Cpl}

theorem completionArrival_of_live (hl : u.live? port = true) (hv : u.isVfl (u.tileEpoch (tileOf port)) port = false)
    (hh : u.ingressHeld port = false) : completionArrival port c u = u.completionIn port none none c :=
  (if_neg (by simp [hl, hv])).trans (if_neg (by simp [hh]))

theorem State.completionIn_of_tooLong (h : u.portMps (u.tileEpoch (tileOf port)) port < c.data.length) :
    u.completionIn port none none c = (u.count (tileOf port) .malformed (some port)).logAer
      (u.seenAt (u.tileEpoch (tileOf port)) port).1 (u.seenAt (u.tileEpoch (tileOf port)) port).2 .malformedTlp :=
  if_pos (by simp [h])

theorem State.completionIn_of_badEcrc (hlen : c.data.length ≤ u.portMps (u.tileEpoch (tileOf port)) port)
    (h : u.ecrcFails (u.tileEpoch (tileOf port)) port c.ecrcBad = true) :
    u.completionIn port none none c = (u.count (tileOf port) .ecrcErr (some port)).logAer
      (u.seenAt (u.tileEpoch (tileOf port)) port).1 (u.seenAt (u.tileEpoch (tileOf port)) port).2 .ecrc :=
  (if_neg (by simp [hlen])).trans (if_pos (by simp [h]))

/-- What becomes of a sound completion whose outstanding request is `o`. -/
def State.cplOf (u : State) (port : Nat) (c : Cpl) (o : OutEntry) : State :=
  if o.injected then State.unexpected (eccUncorrectable o.tile (.outstanding o.id) u) port
  else if u.placed (u.tileEpoch (tileOf port)) o = false then
    State.unexpected { u with outs := u.outs.filter fun k => k.id != o.id } port
  else if o.purpose = .forward then
    (if c.poisoned then u.notePoison port (u.seenAt (u.tileEpoch (tileOf port)) port).1
      (u.seenAt (u.tileEpoch (tileOf port)) port).2 true else u).forwardCpl port none o c
  else u.ownCpl o c

theorem State.completionIn_of_unmatched (hlen : c.data.length ≤ u.portMps (u.tileEpoch (tileOf port)) port)
    (h : u.ecrcFails (u.tileEpoch (tileOf port)) port c.ecrcBad = false) (ho : u.outFor port none c = none) :
    u.completionIn port none none c = u.unexpected port := by
  unfold State.completionIn
  rw [if_neg (by simp [hlen]), if_neg (by simp [h]), ho]

theorem State.completionIn_of_matched {o : OutEntry} (hlen : c.data.length ≤ u.portMps (u.tileEpoch (tileOf port)) port)
    (h : u.ecrcFails (u.tileEpoch (tileOf port)) port c.ecrcBad = false) (ho : u.outFor port none c = some o) :
    u.completionIn port none none c = u.cplOf port c o := by
  unfold State.completionIn State.cplOf
  rw [if_neg (by simp [hlen]), if_neg (by simp [h]), ho]
  refine if_congr .rfl rfl (if_congr (by simp) rfl ?_)
  split
  case h_1 hp =>
    rw [if_pos hp]
    cases c.poisoned <;> rfl
  case h_2 hp => exact (if_neg hp).symm

end

theorem outstandingEntryAlloc_of_ready {s : State} {port : Nat} {p : Packet}
    (hp : (((s.pkts.filter fun q => q.npWait && q.ports.contains port).find? (·.mgmt)).orElse fun _ =>
      (s.pkts.filter fun q => q.npWait && q.ports.contains port).head?) = some p)
    (hr : s.portReady port = true) (he : s.entryFree port p = true) (hl : s.canLeave port p = true) :
    outstandingEntryAlloc port s = (s.chargeStart port p).depart port p := by
  unfold outstandingEntryAlloc
  extract_lets ws
  have hws : ((ws.find? (·.mgmt)).orElse fun _ => ws.head?) = some p := hp
  rw [hws]
  exact if_pos (by simp [hr, he, hl])

theorem completionTimeout_of_found {s : State} {n id : Nat} {o : OutEntry}
    (ho : (s.outs.find? fun k => k.id == id && k.tile == n) = some o) (hop : s.operates n = true) :
    completionTimeout n id s = s.expireOut o := by
  unfold completionTimeout
  rw [ho]
  exact if_pos hop

/-! ### Packets from VFL (R46, R306, R344) -/

theorem vflPacketArrival_of_moved {s : State} {port : Nat} {k : VflPkt} {x : RxItem} {xs : List RxItem}
    (h : (s.linkSt (.port port)).moved = x :: xs) : vflPacketArrival port k s =
      vflArrive port (s.fromItem port x k) (s.modLink (.port port) fun q => { q with moved := xs }) := by
  unfold vflPacketArrival
  rw [h]

theorem vflPacketArrival_of_none {s : State} {port : Nat} {k : VflPkt} (h : (s.linkSt (.port port)).moved = [])
    (hl : s.live? port = true) : vflPacketArrival port k s = vflArrive port k s := by
  unfold vflPacketArrival
  rw [h]
  exact if_pos hl

theorem State.operates_of_live {s : State} {port : Nat} (h : s.live? port = true) : s.operates (tileOf port) = true := by
  simp only [State.live?, Bool.and_eq_true] at h
  exact h.1.1

/-- Where a VFL packet of a defined kind goes. -/
def State.vflRoute (s : State) (port : Nat) (k : VflPkt) : State :=
  if k.kind = 3 then s.fabricCast port k (s.vflBody port k)
  else if fidSw k.dst = s.switchNum (s.tileEpoch (tileOf port)) then s.vflLocal port k (s.vflBody port k)
  else match k.body with
    | .cpl c =>
      if (s.outFor port (some k.src) c).isSome then s.completionIn port (some k.src) (some (s.vflBody port k).ordered) c
      else s.sendFar port (s.vflBody port k) k.dst
    | _ => s.sendFar port (s.vflBody port k) k.dst

theorem vflArrive_of_open {s : State} {port : Nat} {k : VflPkt} (hl : s.live? port = true)
    (hv : s.isVfl (s.tileEpoch (tileOf port)) port = true) (hh : s.ingressHeld port = false) : vflArrive port k s =
      if 4 ≤ k.kind ∨ (k.kind = 2 ∧ k.mgmtVc = false) then s.count (tileOf port) .lkBadKind (some port)
      else s.vflRoute port k := by
  refine (if_neg (by simp [State.operates_of_live hl, hv])).trans ((if_neg (by simp [hh])).trans ?_)
  exact if_congr (by simp) rfl rfl

/-! ### Messages (R161) -/

/-- The packet of an INTx message from behind a port. -/
def State.intxPacket (u : State) (port rid pin : Nat) (a : Bool) : Packet :=
  { id := 0, cls := .posted, body := .intx pin a, origin := .port port
    rRid := u.portRid (u.tileEpoch (tileOf port)) port rid, epoch := u.tileEpoch (tileOf port) }

/-- Where an INTx message of function `f` goes: to its pin here, or to its switch. -/
def State.intxRoute (u : State) (port rid pin : Nat) (a : Bool) (f : Nat) : State :=
  let e := u.tileEpoch (tileOf port)
  if u.bindSw e f = u.switchNum e then u.fnPin port e f pin a
  else u.sendFar port (u.intxPacket port rid pin a) (fidOf (u.bindSw e f) (u.bindUp e f))

section
variable {u : State} {port rid pin : Nat} {a bad : Bool} (hl : u.live? port = true)
  (hv : u.isVfl (u.tileEpoch (tileOf port)) port = false) (hp : u.partOfUp (u.tileEpoch (tileOf port)) port = none)
  (hh : u.ingressHeld port = false)
include hl hv hp hh

theorem intxMessage_of_badEcrc (h : u.ecrcFails (u.tileEpoch (tileOf port)) port bad = true) :
    intxMessage port rid pin a bad u = u.badEcrc port (u.tileEpoch (tileOf port)) :=
  (if_neg (by simp [hl, hv, hp])).trans ((if_neg (by simp [hh])).trans (if_pos h))

theorem intxMessage_of_noSource (h : u.ecrcFails (u.tileEpoch (tileOf port)) port bad = false)
    (hf : u.srcFunc (u.tileEpoch (tileOf port)) port rid = none) :
    intxMessage port rid pin a bad u = u.srcInvalid port (u.intxPacket port rid pin a) := by
  unfold intxMessage
  rw [if_neg (by simp [hl, hv, hp]), if_neg (by simp [hh]), if_neg (by simp [h]), hf]
  rfl

theorem intxMessage_of_source {f : Nat} (h : u.ecrcFails (u.tileEpoch (tileOf port)) port bad = false)
    (hf : u.srcFunc (u.tileEpoch (tileOf port)) port rid = some f) :
    intxMessage port rid pin a bad u = u.intxRoute port rid pin a f := by
  unfold intxMessage
  rw [if_neg (by simp [hl, hv, hp]), if_neg (by simp [hh]), if_neg (by simp [h]), hf]
  rfl
end

section
variable {u : State} {port rid : Nat} {m : MsgKind} {d : List Byte} {bad : Bool} (hl : u.live? port = true)
  (hv : u.isVfl (u.tileEpoch (tileOf port)) port = false) (hh : u.ingressHeld port = false)
include hl hv hh

theorem messageReceived_of_badEcrc (h : u.ecrcFails (u.tileEpoch (tileOf port)) port bad = true) :
    messageReceived port rid m d bad u = u.badEcrc port (u.tileEpoch (tileOf port)) :=
  (if_neg (by simp [hl, hv])).trans ((if_neg (by simp [hh])).trans (if_pos h))

theorem messageReceived_of_host {p : Nat} (h : u.ecrcFails (u.tileEpoch (tileOf port)) port bad = false)
    (hp : u.partOfUp (u.tileEpoch (tileOf port)) port = some p) :
    messageReceived port rid m d bad u = u.hostMessage port p m d := by
  unfold messageReceived
  rw [if_neg (by simp [hl, hv]), if_neg (by simp [hh]), if_neg (by simp [h]), hp]

theorem messageReceived_of_port (h : u.ecrcFails (u.tileEpoch (tileOf port)) port bad = false)
    (hp : u.partOfUp (u.tileEpoch (tileOf port)) port = none) :
    messageReceived port rid m d bad u = u.portMessage port rid m d := by
  unfold messageReceived
  rw [if_neg (by simp [hl, hv]), if_neg (by simp [hh]), if_neg (by simp [h]), hp]
end

/-- What arrives at a PCI Express port is acknowledged first, and its credit goes back after its effect (R81). -/
theorem tlpIn_next {s u : State} {port cls n : Nat} {f : State → State} (h : f (s.rxTlp port cls n) = u) :
    (.next (s.tlpIn port cls n f) : Out) = .next (u.creditOut port) :=
  congrArg (fun w : State => Host.Outcome.next (w.creditOut port)) h

/-- Settles O21: for each command the branches of its meaning, on the state in which the arrival is acknowledged. -/
theorem completionsAndMessages : Obligations.CompletionsAndMessages := by
  intro s
  refine ⟨?completion, ?alloc, ?timeout, ?moved, ?vfl, ?intx, ?message⟩
  case completion =>
    intro port c u e hl hv hh a gives
    have hx := completionArrival_of_live (c := c) hl hv hh
    refine ⟨fun hlen => tlpIn_next (hx.trans (State.completionIn_of_tooLong hlen)),
      fun hlen hbad => tlpIn_next (hx.trans (State.completionIn_of_badEcrc hlen hbad)),
      fun hlen hgood => ⟨fun ho => tlpIn_next (hx.trans (State.completionIn_of_unmatched hlen hgood ho)), fun o ho => ?_⟩⟩
    have hof : ∀ w, u.cplOf port c o = w → gives w := fun w hw =>
      tlpIn_next ((hx.trans (State.completionIn_of_matched hlen hgood ho)).trans hw)
    refine ⟨fun hi => hof _ (if_pos hi), fun hi hp => hof _ ?_, fun hi hp => ⟨fun hf => hof _ ?_, fun hf => hof _ ?_⟩⟩
    · exact (if_neg (by simp [hi])).trans (if_pos hp)
    · exact (if_neg (by simp [hi])).trans ((if_neg (by simp [e, hp])).trans (if_pos hf))
    · exact (if_neg (by simp [hi])).trans ((if_neg (by simp [e, hp])).trans (if_neg hf))
  case alloc =>
    intro port p ws hp hr he hleave
    exact congrArg Host.Outcome.next (outstandingEntryAlloc_of_ready hp hr he hleave)
  case timeout =>
    intro n id o ho hop u
    refine congrArg Host.Outcome.next ((completionTimeout_of_found ho hop).trans ?_)
    unfold State.expireOut
    cases o.purpose <;> rfl
  case moved =>
    intro port k x xs h
    exact congrArg Host.Outcome.next (vflPacketArrival_of_moved h)
  case vfl =>
    intro port k hm hl hv hh e p undefinedKind gives
    have hx := (vflPacketArrival_of_none (k := k) hm hl).trans (vflArrive_of_open hl hv hh)
    have hroute (hk : ¬undefinedKind) := hx.trans (if_neg hk)
    refine ⟨fun hk => congrArg Host.Outcome.next (hx.trans (if_pos hk)), fun hk h3 => ?_, fun hk h3 hsw => ?_, fun hk h3 hsw => ?_⟩
    · exact congrArg Host.Outcome.next ((hroute hk).trans (if_pos h3))
    · exact congrArg Host.Outcome.next ((hroute hk).trans ((if_neg h3).trans (if_pos hsw)))
    · exact congrArg Host.Outcome.next ((hroute hk).trans ((if_neg h3).trans (if_neg hsw)))
  case intx =>
    intro port rid d pin a bad u e hl hv hp hh q gives
    exact ⟨fun hbad => tlpIn_next (intxMessage_of_badEcrc hl hv hp hh hbad),
      fun hgood hf => tlpIn_next (intxMessage_of_noSource hl hv hp hh hgood hf),
      fun hgood f hf => tlpIn_next (intxMessage_of_source hl hv hp hh hgood hf)⟩
  case message =>
    intro port rid m d bad u e hl hv hh gives
    exact ⟨fun hbad => tlpIn_next (messageReceived_of_badEcrc hl hv hh hbad),
      fun hgood p hp => tlpIn_next (messageReceived_of_host hl hv hh hgood hp),
      fun hgood hp => tlpIn_next (messageReceived_of_port hl hv hh hgood hp)⟩

end Sys2Proof.Machine

/-! The frames of a PCI Express port, the last byte of a packet on the wire, and the index of the billing ring. -/

namespace Sys2Proof.Machine

/-! ### DLLPs (R81) -/

/-- The packets that an ACK or a NAK of `n` covers leave the replay buffer of a port. -/
def State.acked (s : State) (port n : Nat) : State :=
  s.modPort port fun k => { k with
    unacked := afterAck (s.portSt port).unacked n
    rolls := if (afterAck (s.portSt port).unacked n).length < (s.portSt port).unacked.length then 0 else k.rolls }

section
variable {s : State} {port kind n hdr dat : Nat}

theorem dllpReceive_ack (h : s.pcieUp port = true) : dllpReceive port 0 n hdr dat s = s.acked port n :=
  (if_neg (by simp [h])).trans ((if_pos (by decide)).trans (if_neg (by decide)))

theorem dllpReceive_nak (h : s.pcieUp port = true) : dllpReceive port 1 n hdr dat s =
    (s.acked port n).each (afterAck (s.portSt port).unacked n) fun v x => v.emit (.tlp port x.2 (v.ecrcOut x.2.epoch port)) :=
  (if_neg (by simp [h])).trans ((if_pos (by decide)).trans (if_pos rfl))

theorem dllpReceive_of_idle (h : s.pcieUp port = false ∨ 5 ≤ kind) : dllpReceive port kind n hdr dat s = s := by
  rcases h with h | h
  · exact if_pos (by simp [h])
  · unfold dllpReceive
    rw [if_neg (show ¬kind < 2 by omega), if_neg (show ¬kind < 5 by omega), ite_self]
end

/-! ### The last byte of a packet on the wire (R128) -/

section
variable {s : State} {port n : Nat} {p : Packet} {w : Nat × Nat} (hp : s.pkt n = some p)
  (hw : (p.onWire.find? fun w => w.1 == port) = some w)
include hp hw

theorem egressPacketSent_of_more (h : 2 ≤ p.ports.length) : egressPacketSent port n s =
    ((s.measure port p w.2).sendAll (.port port)).modPkt n fun q =>
      { q with ports := q.ports.filter (· != port), onWire := q.onWire.filter fun w => w.1 != port } := by
  unfold egressPacketSent
  rw [hp]
  dsimp only
  rw [hw]
  exact if_pos h

theorem egressPacketSent_of_last (h : p.ports.length < 2) (hi : p.cls = .posted → ∀ id, p.purpose ≠ .issue id) :
    egressPacketSent port n s = (((s.measure port p w.2).sendAll (.port port)).settle p 0).retire p := by
  unfold egressPacketSent
  rw [hp]
  dsimp only
  rw [hw]
  refine (if_neg (by omega)).trans ?_
  split
  case h_1 id hcls hpur => exact absurd hpur (hi hcls id)
  case h_2 => rfl

theorem egressPacketSent_of_issue {id : Nat} (h : p.ports.length < 2) (hcls : p.cls = .posted) (hpur : p.purpose = .issue id) :
    egressPacketSent port n s = ((((s.measure port p w.2).sendAll (.port port)).settle p 0).retire p).issued id 0 := by
  unfold egressPacketSent
  rw [hp]
  dsimp only
  rw [hw]
  refine (if_neg (by omega)).trans ?_
  rw [hcls, hpur]
end

theorem egressPacketSent_of_absent {s : State} {port n : Nat}
    (h : ∀ p, s.pkt n = some p → (p.onWire.find? fun w => w.1 == port) = none) : egressPacketSent port n s = s := by
  unfold egressPacketSent
  split
  case h_1 => rfl
  case h_2 p hp => rw [h p hp]

/-- Settles O45: the branches of the meanings by the kind of DLLP, and by the ports and the purpose of the packet sent. -/
theorem portFramesAndBilling : Obligations.PortFramesAndBilling := by
  intro s
  refine ⟨?ack, ?nak, ?credits, ?other, fun _ => rfl, ?more, ?last, ?issue, ?absent, fun _ => rfl⟩
  case ack =>
    intro port n hdr dat hup
    exact congrArg Host.Outcome.next (dllpReceive_ack hup)
  case nak =>
    intro port n hdr dat hup
    exact congrArg Host.Outcome.next (dllpReceive_nak hup)
  case credits =>
    intro port kind n hdr dat hup h2 h5
    exact congrArg Host.Outcome.next ((if_neg (by simp [hup])).trans ((if_neg (by omega)).trans (if_pos h5)))
  case other =>
    intro port kind n hdr dat h
    exact congrArg Host.Outcome.next (dllpReceive_of_idle h)
  case more =>
    intro port n p w hp hw h
    exact congrArg Host.Outcome.next (egressPacketSent_of_more hp hw h)
  case last =>
    intro port n p w hp hw h hi
    exact congrArg Host.Outcome.next (egressPacketSent_of_last hp hw h hi)
  case issue =>
    intro port n p w id hp hw h hcls hpur
    exact congrArg Host.Outcome.next (egressPacketSent_of_issue hp hw h hcls hpur)
  case absent =>
    intro port n h
    exact congrArg Host.Outcome.next (egressPacketSent_of_absent h)

end Sys2Proof.Machine

/-! Register writes of any path, direct stops, the bridge in its SMBus and I3C forms, and the management port. -/

namespace Sys2Proof.Machine

/-! ### The bridge and the offsets it serves (R301, R305, R392) -/

theorem bridgeOfs_iff (o : Nat) : bridgeOfs o = true ↔ o % 4 = 0 ∧ o < 0x10000000 := by
  simp [bridgeOfs]

theorem bridgeOfs_eq_false {o : Nat} (h : o % 4 ≠ 0 ∨ 0x10000000 ≤ o) : bridgeOfs o = false := by
  rw [← Bool.not_eq_true, bridgeOfs_iff]
  omega

section
variable {s : State}

theorem State.bridgeUp_of_running (hi : s.ilulysReset = false) (hio : s.pwr.io = true) : s.bridgeUp = true := by
  simp [State.bridgeUp, State.viaOpen, hi, hio]

theorem State.bridgeUp_of_reset (hi : s.ilulysReset = true) : s.bridgeUp = false := by
  simp [State.bridgeUp, State.viaOpen, hi]

theorem State.bridgeUp_of_ioLost (hio : s.pwr.io = false) : s.bridgeUp = false := by
  simp [State.bridgeUp, State.viaOpen, hio]

section
variable (h : s.bridgeUp = false)
include h

theorem bridgeWrite_of_down (o : Nat) (v : Word) (ok : Bool) : bridgeWrite o v ok s = s := if_pos (by simp [h])
theorem bridgeRead_of_down (o : Nat) (ok : Bool) : bridgeRead o ok s = s := if_pos (by simp [h])
theorem bridgeStatus_of_down : bridgeStatus s = s := if_neg (by simp [h])
theorem hkBridgeTimeout_of_down : hkBridgeTimeout false s = s := if_pos (by simpa [State.bridgeUp] using h)
theorem i3cPrivateWrite_of_down (l : List Byte) : i3cPrivateWrite l s = s := if_pos (by simp [h])
theorem i3cPrivateRead_of_down (rd : Bool) : i3cPrivateRead rd s = s := if_pos (by simp [h])
theorem entdaa_of_down (a : Nat) : entdaa a s = s := if_neg (by simp [h])
end

/-! ### SMBus and I3C transactions (R301 to R303) -/

section
variable (h : s.bridgeUp = true)
include h

theorem bridgeWrite_of_good {o : Nat} {v : Word} (ho : bridgeOfs o = true) : bridgeWrite o v true s =
    if s.linkDead o then s.modBridge fun b => { b with status := 2 }
    else (s.regWrite .bridge o v).pump.modBridge fun b => { b with status := 0 } :=
  (if_neg (by simp [h])).trans (if_neg (by simp [ho]))

theorem bridgeWrite_of_bad {o : Nat} {v : Word} {ok : Bool} (hbad : ok = false ∨ bridgeOfs o = false) :
    bridgeWrite o v ok s = s.emit .bridgeNack :=
  (if_neg (by simp [h])).trans (if_pos (by simpa using hbad))

theorem bridgeRead_of_bad {o : Nat} {ok : Bool} (hbad : ok = false ∨ bridgeOfs o = false) :
    bridgeRead o ok s = s.emit .bridgeNack :=
  (if_neg (by simp [h])).trans (if_pos (by simpa using hbad))

theorem bridgeRead_of_good {o : Nat} (ho : bridgeOfs o = true) :
    bridgeRead o true s = s.used.emit (.bridgeReply (s.bridgeData o)) :=
  (if_neg (by simp [h])).trans (if_neg (by simp [ho]))

theorem hkBridgeTimeout_of_up : hkBridgeTimeout false s =
    if s.host.bridge.readOff.isSome then
      (s.countHk 8).modBridge fun b => { b with readOff := none, reply := lateReply, replyReady := true }
    else (s.countHk 8).emit (.bridgeReply lateReply) :=
  if_neg (by simpa [State.bridgeUp] using h)

theorem i3cPrivateWrite_write (b0 b1 b2 b3 v0 v1 v2 v3 : Byte) :
    i3cPrivateWrite [0xB1, 8, b0, b1, b2, b3, v0, v1, v2, v3] s = if bridgeOfs (ofBytes [b0, b1, b2, b3]) then
      bridgeWrite (ofBytes [b0, b1, b2, b3]) (BitVec.ofNat 32 (ofBytes [v0, v1, v2, v3])) true s else s :=
  if_neg (by simp [h])

theorem i3cPrivateWrite_read {b0 b1 b2 b3 : Byte} (ho : bridgeOfs (ofBytes [b0, b1, b2, b3]) = true) :
    i3cPrivateWrite [0xB2, 4, b0, b1, b2, b3] s = s.modBridge fun b =>
      { b with readOff := some (ofBytes [b0, b1, b2, b3]), replyReady := false, reply := [] } :=
  (if_neg (by simp [h])).trans (if_pos ho)

theorem i3cPrivateWrite_status : i3cPrivateWrite [0xB4] s = s.modBridge fun b =>
    { b with readOff := none, reply := leBytes 1 b.status, replyReady := true } :=
  if_neg (by simp [h])

theorem i3cPrivateRead_of_ready (rd : Bool) (hr : s.host.bridge.replyReady = true) : i3cPrivateRead rd s =
    (s.emit (.bridgeReply s.host.bridge.reply)).modBridge fun b => { b with replyReady := false, reply := [] } :=
  (if_neg (by simp [h])).trans (if_pos hr)

theorem i3cPrivateRead_of_waiting {o : Nat} (rd : Bool) (hr : s.host.bridge.replyReady = false)
    (ho : s.host.bridge.readOff = some o) : i3cPrivateRead rd s =
      if rd then (s.used.emit (.bridgeReply (s.bridgeData o))).modBridge fun b => { b with readOff := none }
      else s.emit (.bridgeReply (leBytes 1 0x04)) := by
  unfold i3cPrivateRead
  extract_lets b
  rw [if_neg (by simp [h]), if_neg (by simp [b, hr])]
  simp only [b, ho]
end

theorem i3cPrivateRead_of_empty (rd : Bool) (hr : s.host.bridge.replyReady = false) (ho : s.host.bridge.readOff = none) :
    i3cPrivateRead rd s = s := by
  unfold i3cPrivateRead
  extract_lets b
  rw [if_neg (show ¬b.replyReady = true by simp [b, hr])]
  simp only [b, ho, ite_self]

/-! ### The management port (R304) -/

theorem hkBridgeTimeout_mgmt (hi : s.ilulysReset = false) : hkBridgeTimeout true s =
    (s.countHk 8).modBridge fun b => { b with mgmtReply := some 0xFFFFFFFF#32 } :=
  if_neg (by simp [State.viaOpen, hi])

theorem hkBridgeTimeout_mgmt_of_reset (hi : s.ilulysReset = true) : hkBridgeTimeout true s = s :=
  if_pos (by simp [State.viaOpen, hi])

theorem mgmtPortAccess_of_reset {o len : Nat} {wr : Option Word} (hi : s.ilulysReset = true) :
    mgmtPortAccess o len wr s = s := if_pos (by simp [State.viaOpen, hi])

theorem mgmtPortAccess_of_bad {o len : Nat} {wr : Option Word} (hi : s.ilulysReset = false)
    (h : len ≠ 4 ∨ bridgeOfs o = false) : mgmtPortAccess o len wr s = s.modBridge fun b => { b with mgmtReply := none } :=
  (if_neg (by simp [State.viaOpen, hi])).trans (if_pos (by simpa using h))

theorem mgmtPortAccess_write {o : Nat} {v : Word} (hi : s.ilulysReset = false) (ho : bridgeOfs o = true) :
    mgmtPortAccess o 4 (some v) s = if s.linkDead o then s else (s.regWrite .mgmtPort o v).pump :=
  (if_neg (by simp [State.viaOpen, hi])).trans (if_neg (by simp [ho]))

theorem mgmtPortAccess_read {o : Nat} (hi : s.ilulysReset = false) (ho : bridgeOfs o = true) :
    mgmtPortAccess o 4 none s = if s.linkDead o then hkBridgeTimeout true s
      else s.modBridge fun b => { b with mgmtReply := some (s.regRead .mgmtPort o) } :=
  (if_neg (by simp [State.viaOpen, hi])).trans (if_neg (by simp [ho]))
end

/-- Settles O36: the branches of the meanings, by what runs, by the offset, and by the state of the link and of the reply. -/
theorem stopsBridgeAndManagementPort : Obligations.StopsBridgeAndManagementPort := by
  intro s
  refine ⟨?regWrite, fun _ _ _ => rfl, fun _ _ _ => rfl, ?stop, ?noStop, ?write, ?nack, ?read, ?status, ?mgmtTimeout, ?timeout,
    ?i3cWrite, ?i3cRead, ?i3cStatus, ?replyHeld, ?replyDue, ?noReply, ?entdaa, ?mgmtBad, ?mgmtWrite, ?mgmtRead, ?inReset, ?ioLost⟩
  case regWrite =>
    intro via o v
    exact congrArg Host.Outcome.next (if_congr (by simp) rfl rfl)
  case stop =>
    intro t id m hm
    refine congrArg (fun u : State => Host.Outcome.next u.pump) ?_
    unfold stopPropagate
    rw [hm]
  case noStop =>
    intro t id hm
    refine congrArg (fun u : State => Host.Outcome.next u.pump) ?_
    unfold stopPropagate
    rw [hm]
  case write =>
    intro o v hi hio h4 hlt
    exact congrArg Host.Outcome.next
      (bridgeWrite_of_good (State.bridgeUp_of_running hi hio) ((bridgeOfs_iff o).mpr ⟨h4, hlt⟩))
  case nack =>
    intro o v ok hi hio h
    have hbad : ok = false ∨ bridgeOfs o = false := h.imp_right bridgeOfs_eq_false
    have hup := State.bridgeUp_of_running hi hio
    exact ⟨congrArg Host.Outcome.next (bridgeWrite_of_bad hup hbad), congrArg Host.Outcome.next (bridgeRead_of_bad hup hbad)⟩
  case read =>
    intro o hi hio h4 hlt
    exact congrArg Host.Outcome.next
      (bridgeRead_of_good (State.bridgeUp_of_running hi hio) ((bridgeOfs_iff o).mpr ⟨h4, hlt⟩))
  case status =>
    intro hi hio
    exact congrArg Host.Outcome.next (if_pos (State.bridgeUp_of_running hi hio))
  case mgmtTimeout =>
    intro hi
    exact congrArg Host.Outcome.next (hkBridgeTimeout_mgmt hi)
  case timeout =>
    intro hi hio
    refine congrArg Host.Outcome.next ((hkBridgeTimeout_of_up (State.bridgeUp_of_running hi hio)).trans ?_)
    cases s.host.bridge.readOff <;> rfl
  case i3cWrite =>
    intro b0 b1 b2 b3 v0 v1 v2 v3
    cases hup : s.bridgeUp with
    | true =>
      refine (congrArg Host.Outcome.next (i3cPrivateWrite_write hup b0 b1 b2 b3 v0 v1 v2 v3)).trans ?_
      exact (apply_ite Host.Outcome.next _ _ _).trans (if_congr (bridgeOfs_iff _) rfl rfl)
    | false =>
      have hw : exec (.bridgeWrite (ofBytes [b0, b1, b2, b3]) (BitVec.ofNat 32 (ofBytes [v0, v1, v2, v3])) true) s = .next s :=
        congrArg Host.Outcome.next (bridgeWrite_of_down hup _ _ _)
      rw [hw, ite_self]
      exact congrArg Host.Outcome.next (i3cPrivateWrite_of_down hup _)
  case i3cRead =>
    intro b0 b1 b2 b3 hi hio h4 hlt
    exact congrArg Host.Outcome.next
      (i3cPrivateWrite_read (State.bridgeUp_of_running hi hio) ((bridgeOfs_iff _).mpr ⟨h4, hlt⟩))
  case i3cStatus =>
    intro hi hio
    exact congrArg Host.Outcome.next (i3cPrivateWrite_status (State.bridgeUp_of_running hi hio))
  case replyHeld =>
    intro rd hi hio hr
    exact congrArg Host.Outcome.next (i3cPrivateRead_of_ready (State.bridgeUp_of_running hi hio) rd hr)
  case replyDue =>
    intro o hi hio hr ho
    have hx (rd : Bool) := i3cPrivateRead_of_waiting (State.bridgeUp_of_running hi hio) rd hr ho
    exact ⟨congrArg Host.Outcome.next ((hx true).trans (if_pos rfl)),
      congrArg Host.Outcome.next ((hx false).trans (if_neg Bool.false_ne_true))⟩
  case noReply =>
    intro rd hr ho
    exact congrArg Host.Outcome.next (i3cPrivateRead_of_empty rd hr ho)
  case entdaa =>
    intro a hi hio
    exact congrArg Host.Outcome.next (if_pos (State.bridgeUp_of_running hi hio))
  case mgmtBad =>
    intro o len wr hi h
    exact congrArg Host.Outcome.next (mgmtPortAccess_of_bad hi (h.imp_right bridgeOfs_eq_false))
  case mgmtWrite =>
    intro o v hi h4 hlt
    exact congrArg Host.Outcome.next (mgmtPortAccess_write hi ((bridgeOfs_iff o).mpr ⟨h4, hlt⟩))
  case mgmtRead =>
    intro o hi h4 hlt
    refine congrArg Host.Outcome.next ((mgmtPortAccess_read hi ((bridgeOfs_iff o).mpr ⟨h4, hlt⟩)).trans ?_)
    rw [hkBridgeTimeout_mgmt hi]
  case inReset =>
    intro o len v wr ok rd m l a hi
    have hdown := State.bridgeUp_of_reset hi
    refine ⟨congrArg Host.Outcome.next (bridgeWrite_of_down hdown o v ok),
      congrArg Host.Outcome.next (bridgeRead_of_down hdown o ok), congrArg Host.Outcome.next (bridgeStatus_of_down hdown),
      congrArg Host.Outcome.next ?_, congrArg Host.Outcome.next (i3cPrivateWrite_of_down hdown l),
      congrArg Host.Outcome.next (i3cPrivateRead_of_down hdown rd), congrArg Host.Outcome.next (entdaa_of_down hdown a),
      congrArg Host.Outcome.next (mgmtPortAccess_of_reset hi)⟩
    cases m with
    | false => exact hkBridgeTimeout_of_down hdown
    | true => exact hkBridgeTimeout_mgmt_of_reset hi
  case ioLost =>
    intro o v ok rd l a hio
    have hdown := State.bridgeUp_of_ioLost hio
    exact ⟨congrArg Host.Outcome.next (bridgeWrite_of_down hdown o v ok),
      congrArg Host.Outcome.next (bridgeRead_of_down hdown o ok), congrArg Host.Outcome.next (bridgeStatus_of_down hdown),
      congrArg Host.Outcome.next (hkBridgeTimeout_of_down hdown),
      congrArg Host.Outcome.next (i3cPrivateWrite_of_down hdown l),
      congrArg Host.Outcome.next (i3cPrivateRead_of_down hdown rd), congrArg Host.Outcome.next (entdaa_of_down hdown a)⟩

end Sys2Proof.Machine

/-! What a port, a lane and a register read after the operations of the lanes and their ports. -/

namespace Sys2Proof.Machine

/-! ### What an operation run for each element of a list leaves as it is -/

/-- A reading that no single run changes reads the same after all of them. -/
theorem State.each_eq {α β : Type} (g : State → β) {f : State → α → State} (hf : ∀ v a, g (f v a) = g v) (s : State)
    (l : List α) : g (s.each l f) = g s := by
  induction l generalizing s with
  | nil => rfl
  | cons a l ih => exact (ih (f s a)).trans (hf s a)

@[simp] theorem State.flag_modLane (s : State) (l : Nat) (f : LaneSt → LaneSt) (o n : Nat) :
    (s.modLane l f).flag o n = s.flag o n := (rfl)
@[simp] theorem State.flag_modPort (s : State) (p : Nat) (f : PortSt → PortSt) (o n : Nat) :
    (s.modPort p f).flag o n = s.flag o n := (rfl)
@[simp] theorem State.fld_modPort (s : State) (p : Nat) (f : PortSt → PortSt) (o hi lo : Nat) :
    (s.modPort p f).fld o hi lo = s.fld o hi lo := (rfl)
@[simp] theorem State.laneSt_modLane_self (s : State) (l : Nat) (f : LaneSt → LaneSt) :
    (s.modLane l f).laneSt l = f (s.laneSt l) := tget_tmod_self ..
@[simp] theorem State.portSt_modPort_self (s : State) (p : Nat) (f : PortSt → PortSt) :
    (s.modPort p f).portSt p = f (s.portSt p) := tget_tmod_self ..

/-- IN_EI is bit 14 of a word: `setEi` leaves every other bit. -/
theorem State.flag_setEi (s : State) (ls : List Nat) (o : Nat) {n : Nat} (hn : n ≠ 14) :
    (s.setEi ls).flag o n = s.flag o n :=
  State.each_eq (·.flag o n) (fun _ _ => by simp [hn]) s ls

theorem State.fld_setEi (s : State) (ls : List Nat) (o : Nat) {hi lo : Nat} (h : hi < 14) :
    (s.setEi ls).fld o hi lo = s.fld o hi lo :=
  State.each_eq (·.fld o hi lo) (fun v _ => v.fld_setFlag_of_outside _ (by decide) (.inr (.inl h))) s ls

theorem State.fld_setFld_of_outside (s : State) {o i hi lo hi' lo' : Nat} (n : Nat) (hlo : lo ≤ hi) (hhi : hi < 32)
    (h : i ≠ o ∨ hi' < lo ∨ hi < lo') : (s.setFld o hi lo n).fld i hi' lo' = s.fld i hi' lo' := by
  by_cases hi : i = o
  · simp [State.fld, hi, field_putField_ne _ n hlo hhi (h.resolve_left (not_not_intro hi))]
  · simp [State.fld, hi]

/-- The state of a port is its entry among the ports. -/
theorem Changes.portSt_eq {C : List Comp} {z s : State} (h : Changes C z s) (hC : .ports ∉ C) (p : Nat) :
    s.portSt p = z.portSt p := by
  have hports : s.ports = z.ports := h .ports hC
  rw [State.portSt, State.portSt, hports]

/-- The state of a lane is its entry among the lanes. -/
theorem Changes.laneSt_eq {C : List Comp} {z s : State} (h : Changes C z s) (hC : .lanes ∉ C) (l : Nat) :
    s.laneSt l = z.laneSt l := by
  have hlanes : s.lanes = z.lanes := h .lanes hC
  rw [State.laneSt, State.laneSt, hlanes]

/-- A register field reads as before when neither the register file nor the part changes. -/
theorem Changes.fld_eq {C : List Comp} {z s : State} (h : Changes C z s) (hl : .live ∉ C) (hp : .part ∉ C)
    (o hi lo : Nat) : s.fld o hi lo = z.fld o hi lo := congrArg (field · hi lo) (h.lv_eq hl hp o)

end Sys2Proof.Machine

/-! Entry to and exit from the low-power states of a link, and the detection of an exit from electrical idle. -/

namespace Sys2Proof.Machine

/-! ### L0s, L1 and L0p (R84, R85) -/

section
variable {s : State} {port : Nat}

theorem l0sEntry_of_permitted (ht : s.txIdle port = true) (hr : s.fld (portStatus port) 6 4 < 5)
    (ha : s.aspm port % 2 = 1) :
    l0sEntry port s = (s.setFlag (portStatus port) 8 true).setEi (s.lanesOf port) := if_pos (by simp [ht, hr, ha])

theorem l0sEntry_of_barred (h : s.txIdle port = false ∨ 5 ≤ s.fld (portStatus port) 6 4 ∨ s.aspm port % 2 = 0) :
    l0sEntry port s = s :=
  if_neg (by rcases h with h | h | h <;> simp [h])

theorem l1Entry_of_permitted {pm : Bool} (ht : s.txIdle port = true) (h : pm = true ∨ s.aspm port / 2 % 2 = 1) :
    l1Entry port pm s =
      (((s.setFlag (portStatus port) 9 true).setFlag (portStatus port) 8 false).pllDown port).setEi (s.lanesOf port) :=
  if_pos (by simp [ht, h])

theorem l1Entry_of_barred {pm : Bool} (h : s.txIdle port = false ∨ (pm = false ∧ s.aspm port / 2 % 2 = 0)) :
    l1Entry port pm s = s :=
  if_neg (by rcases h with h | h <;> simp [h])

theorem l0pEntry_of_permitted {width : Nat} (ho : s.operates (tileOf port) = true) (hd : s.dlActive port = true)
    (hf : s.flag (portStatus port) 7 = true) (hv : s.vflNow port = false) (h1 : 1 ≤ width)
    (hw : width < s.fld (portStatus port) 3 1) : l0pEntry port width s =
      ((s.setFlag (portStatus port) 10 true).modPort port fun k => { k with l0pWidth := width }).setEi (s.lanesOf port) :=
  if_pos (by simp [ho, hd, hf, hv, h1, hw])

theorem l0pEntry_of_barred {width : Nat} (h : s.operates (tileOf port) = false ∨ s.dlActive port = false ∨
    s.flag (portStatus port) 7 = false ∨ s.vflNow port = true ∨ width = 0 ∨ s.fld (portStatus port) 3 1 ≤ width) :
    l0pEntry port width s = s :=
  if_neg (by rcases h with h | h | h | h | h | h <;> simp [h])

theorem linkPowerExit_of_low (ho : s.operates (tileOf port) = true) (h : s.fld (portStatus port) 10 8 ≠ 0) :
    linkPowerExit port s = (((s.pllUp port).setFld (portStatus port) 10 8 0).modPort port fun k =>
      { k with l0pWidth := 0 }).setEi (s.lanesOf port) :=
  if_neg (by simp [ho, h])

theorem linkPowerExit_of_awake (h : s.operates (tileOf port) = false ∨ s.fld (portStatus port) 10 8 = 0) :
    linkPowerExit port s = s :=
  if_pos (by rcases h with h | h <;> simp [h])
end

/-! ### The detection of an exit (R60) -/

/-- What an exit detected on a lane does to its port: one in L1 leaves it. -/
def State.exitSeen (s : State) (lane : Nat) : State :=
  match s.portOfLane lane with
  | some p => if s.flag (portStatus p) 9 then linkPowerExit p s else s
  | none => s

theorem State.exitSeen_of_l1 {s : State} {lane p : Nat} (hp : s.portOfLane lane = some p)
    (h : s.flag (portStatus p) 9 = true) : s.exitSeen lane = linkPowerExit p s := by
  unfold State.exitSeen
  rw [hp]
  exact if_pos h

theorem State.exitSeen_of_awake {s : State} {lane : Nat}
    (h : ∀ p, s.portOfLane lane = some p → s.flag (portStatus p) 9 = false) : s.exitSeen lane = s := by
  unfold State.exitSeen
  split
  · exact if_neg (by simp [h _ ‹_›])
  · rfl

section
variable {s : State} {lane mv : Nat} (hl : s.laneHere lane = true)
include hl

theorem eiExitDetect_of_found (h : 175 < mv ∨ (65 ≤ mv ∧ s.freeBelow 2 = 1)) :
    eiExitDetect lane mv s = (s.used.setFlag (laneStatus lane) 5 false).exitSeen lane :=
  (if_neg (by simp [hl])).trans (if_neg fun hx => by simp at hx; omega)

theorem eiExitDetect_of_missed (hmv : mv ≤ 175) (h : mv < 65 ∨ s.freeBelow 2 ≠ 1) : eiExitDetect lane mv s = s.used :=
  (if_neg (by simp [hl])).trans (if_pos (by rcases h with h | h <;> simp [h, hmv]))
end

/-- Settles O10: the branches of the entries and of the exit, and of the detection by its level and the free value. -/
theorem linkPowerStates : Obligations.LinkPowerStates := by
  intro s
  refine ⟨?l0s, ?l0sBarred, ?l1, ?l1Barred, ?powerExit, ?powerExitAwake, ?l0p, ?l0pBarred, ?found, ?missed⟩
  case l0s => exact fun port ht hr ha => congrArg Host.Outcome.next (l0sEntry_of_permitted ht hr ha)
  case l0sBarred => exact fun port h => congrArg Host.Outcome.next (l0sEntry_of_barred h)
  case l1 => exact fun port pm ht h => congrArg Host.Outcome.next (l1Entry_of_permitted ht h)
  case l1Barred => exact fun port pm h => congrArg Host.Outcome.next (l1Entry_of_barred h)
  case powerExit => exact fun port ho h => congrArg Host.Outcome.next (linkPowerExit_of_low ho h)
  case powerExitAwake => exact fun port h => congrArg Host.Outcome.next (linkPowerExit_of_awake h)
  case l0p => exact fun port w ho hd hf hv h1 hw => congrArg Host.Outcome.next (l0pEntry_of_permitted ho hd hf hv h1 hw)
  case l0pBarred => exact fun port w h => congrArg Host.Outcome.next (l0pEntry_of_barred h)
  case found =>
    intro lane mv hl h u
    have hx : eiExitDetect lane mv s = u.exitSeen lane := eiExitDetect_of_found hl h
    exact ⟨fun p hp h9 => congrArg Host.Outcome.next (hx.trans (State.exitSeen_of_l1 hp h9)),
      fun hawake => congrArg Host.Outcome.next (hx.trans (State.exitSeen_of_awake hawake))⟩
  case missed => exact fun lane mv hl hmv h => congrArg Host.Outcome.next (eiExitDetect_of_missed hl hmv h)

end Sys2Proof.Machine

/-! Loss of signal, of lock and of markers, the quad PLLs, and the release of a held lane. -/

namespace Sys2Proof.Machine

/-! ### Loss of signal and of lock (R62 to R64) -/

/-- What a fault of a lane leads to: in a pattern mode its checker unlocks, otherwise it is lost to its port. -/
def State.laneFault (s : State) (lane : Nat) : State := if s.inPattern lane then s.unlock lane else s.laneLost lane

section
variable {s : State} {lane : Nat}

theorem losDetect_of_low {mv ns : Nat} (hl : s.laneHere lane = true) (he : s.flag (laneCtrl lane) 3 = true)
    (hx : s.expected lane = true) (hmv : mv < s.losMv lane) (hns : s.losTime lane ≤ ns) :
    losDetect lane mv ns false s = (((s.setFlag (laneStatus lane) 5 true).sticky (laneStatus lane) 6).count (tileOf lane)
      .pbLos (some lane)).laneFault lane :=
  if_neg (by simp [hl, he, hx, hmv, hns])

theorem losDetect_of_masked {mv ns : Nat} {eios : Bool} (h : eios = true ∨ s.expected lane = false) :
    losDetect lane mv ns eios s = s :=
  if_pos (by rcases h with h | h <;> simp [h])

theorem laneLol_of_enabled (hl : s.laneHere lane = true) (he : s.flag (laneCtrl lane) 4 = true) :
    laneLol lane s = (((s.setFlag (laneStatus lane) 4 false).sticky (laneStatus lane) 7).count (tileOf lane)
      .pbLol (some lane)).laneFault lane :=
  if_neg (by simp [hl, he])
end

/-! ### Quad PLLs (R63, R64) -/

section
variable {s : State} {q : Nat} (hq : q < 256) (ho : s.operates (tileOf (4 * q)) = true)
  (h2 : s.flag (quadStatus q) 2 = false)
include hq ho h2

theorem quadPllLol_of_running :
    let ls := (List.range 4).map (4 * q + ·)
    let w := ((s.setFlag (quadStatus q) 0 false).sticky (quadStatus q) 1).count (tileOf (4 * q)) .pbQuadLol (some (4 * q))
    let u := (w.modLane (4 * q) fun k => { k with pllLost := true }).setEi ls
    quadPllLol q s = u.each (ls.filterMap fun l => u.portOfLane l).eraseDups fun v p =>
      if v.fld (portStatus p) 3 1 = 0 then v else v.startRetrain p :=
  if_neg (by simp [hq, ho, h2])

/-- A quad locks, with `n` losses counted. -/
def State.quadLocked (s : State) (q n : Nat) : State :=
  (((s.setFlag (quadStatus q) 0 true).setFld (quadStatus q) 15 8 n).modLane (4 * q) fun k =>
    { k with pllLost := false }).setEi ((List.range 4).map (4 * q + ·))

theorem quadPllRelock_of_unlocked (hc : s.flag 0x00020808 5 = false) (h0 : s.flag (quadStatus q) 0 = false) :
    ∃ n, quadPllRelock q s = s.quadLocked q n :=
  ⟨_, if_neg (by simp [hq, ho, h2, hc, h0])⟩
end

theorem State.quadLocked_locked (s : State) (q n : Nat) : (s.quadLocked q n).flag (quadStatus q) 0 = true := by
  unfold State.quadLocked
  rw [State.flag_setEi _ _ _ (by decide), State.flag_modLane,
    State.flag_setFld_of_outside _ _ (by decide) (by decide) (.inr (.inl (by decide))),
    State.flag_setFlag_self _ _ _ (by decide)]

/-! ### Markers (R66) -/

section
variable {s : State} {lane : Nat}

theorem vflMarker_of_good {m : BitVec 128} {p : Nat} (hl : s.laneHere lane = true)
    (hcheck : m.toNat / 2 ^ 48 % 65536 = (crc16 (leBytes 6 m.toNat)).toNat) (hsync : m.toNat % 2 ^ 32 = markSync)
    (hp : s.portOfLane lane = some p) (hv : s.isVfl (s.tileEpoch (tileOf p)) p = true) :
    vflMarker lane m s = ((s.modLane lane fun k =>
      { k with marker := some (m.toNat / 2 ^ 40 % 256), markAt := s.tm.now }).setFlag (laneStatus lane) 9
        (decide (m.toNat / 2 ^ 32 % 256 ≠ lane - p))).align p := by
  unfold vflMarker
  extract_lets n
  have hgood : ¬(!s.laneHere lane || n / 2 ^ 48 % 65536 ≠ (crc16 (leBytes 6 n)).toNat || n % 2 ^ 32 ≠ markSync) = true := by
    rw [hl, decide_eq_false (not_not_intro hcheck), decide_eq_false (not_not_intro hsync)]
    decide
  rw [if_neg hgood, hp]
  exact if_pos hv

theorem vflMarker_of_bad {m : BitVec 128}
    (h : m.toNat / 2 ^ 48 % 65536 ≠ (crc16 (leBytes 6 m.toNat)).toNat ∨ m.toNat % 2 ^ 32 ≠ markSync) :
    vflMarker lane m s = s :=
  if_pos (by
    rw [Bool.or_assoc, Bool.or_eq_true, Bool.or_eq_true, decide_eq_true_iff, decide_eq_true_iff]
    exact .inr h)

theorem markerLoss_of_linked {p : Nat} (hl : s.laneHere lane = true) (hp : s.portOfLane lane = some p)
    (hv : s.vflNow p = true) (ht : s.inPattern lane = false) :
    markerLoss lane s = (s.modLane lane fun k => { k with marker := none }).laneLost lane := by
  unfold markerLoss
  rw [hp]
  exact if_pos (by simp [hl, hv, ht])
end

/-! ### EI_HOLD (R64) -/

theorem State.laneCtrlAct_of_release {s : State} {lane : Nat} {v : Word} (hv : bit v 5 = false)
    (h : s.flag (laneCtrl lane) 5 = true) : s.laneCtrlAct lane v =
      ((((s.advanceCounts lane).plainWrite (laneCtrl lane) v).setFlag (laneStatus lane) 10 false).setEi [lane]).genChange
        s lane := by
  unfold State.laneCtrlAct
  extract_lets was z s1 s2 s3
  have hwas : was = true := h
  have hs2 : s2 = s1.setFlag (laneStatus lane) 10 false := if_pos (by simp [hv, hwas])
  have hs3 : s3 = s2.setEi [lane] := if_pos (by simp [hv, hwas])
  rw [hs3, hs2]

/-- Settles O11: one branch of a meaning for each clause; the lock of a quad is read off its status word. -/
theorem laneFaultsAndHolds : Obligations.LaneFaultsAndHolds := by
  intro s
  refine ⟨?los, ?losMasked, ?lol, ?pllLost, ?pllLocked, ?marker, ?badMarker, ?markersLost, ?released⟩
  case los => exact fun lane mv ns hl he hx hmv hns => congrArg Host.Outcome.next (losDetect_of_low hl he hx hmv hns)
  case losMasked => exact fun lane mv ns eios h => congrArg Host.Outcome.next (losDetect_of_masked h)
  case lol => exact fun lane hl he => congrArg Host.Outcome.next (laneLol_of_enabled hl he)
  case pllLost => exact fun q hq ho h2 => congrArg Host.Outcome.next (quadPllLol_of_running hq ho h2)
  case pllLocked =>
    intro q hq hc ho h0 h2
    obtain ⟨n, hx⟩ := quadPllRelock_of_unlocked hq ho h2 hc h0
    have hchg := quadPllRelock_changes s q
    rw [hx] at hchg
    exact ⟨_, congrArg Host.Outcome.next hx, s.quadLocked_locked q n, hchg .pkts (by decide), hchg .ports (by decide),
      hchg.setsKept (by decide) (by decide)⟩
  case marker =>
    exact fun lane m p hl hcheck hsync hp hv => congrArg Host.Outcome.next (vflMarker_of_good hl hcheck hsync hp hv)
  case badMarker => exact fun lane m h => congrArg Host.Outcome.next (vflMarker_of_bad h)
  case markersLost => exact fun lane p hl hp hv ht => congrArg Host.Outcome.next (markerLoss_of_linked hl hp hv ht)
  case released =>
    intro lane v hl h
    exact congrArg Host.Outcome.next ((if_pos hl).trans (State.laneCtrlAct_of_release (bit_putBit_self v _ (by decide)) h))

end Sys2Proof.Machine

/-! The test hardware of a lane and its mailbox. -/

namespace Sys2Proof.Machine

/-! ### The checker's lock (R68) -/

section
variable {s : State} {lane : Nat}

theorem checkerLock_of_checking (hl : s.laneHere lane = true) (ht : s.inPattern lane = true)
    (hc : s.flag (testCtrl lane) 5 = true) : checkerLock lane s = s.setFlag (testCtrl lane) 6 true :=
  if_pos (by simp [hl, ht, hc])

theorem checkerLock_of_idle (h : s.inPattern lane = false ∨ s.flag (testCtrl lane) 5 = false) : checkerLock lane s = s :=
  if_neg (by rcases h with h | h <;> simp [h])

theorem checkerUnlock_of_locked (hl : s.laneHere lane = true) (h : s.flag (testCtrl lane) 6 = true) :
    checkerUnlock lane s = (s.advanceCounts lane).setFlag (testCtrl lane) 6 false :=
  (if_pos hl).trans (if_pos h)

theorem checkerUnlock_of_unlocked (h : s.flag (testCtrl lane) 6 = false) : checkerUnlock lane s = s := by
  have hx : s.unlock lane = s := if_neg (by simp [h])
  unfold checkerUnlock
  rw [hx, ite_self]
end

/-! ### The lane mailbox (R72) -/

/-- A mailbox write of an item of a lane. -/
def State.laneItemPut (s : State) (lane item d : Nat) : State :=
  if item = 2 then (s.modLane lane fun k => { k with user := d }).genChange s lane
  else if 3 ≤ item ∧ item ≤ 6 then s.modLane lane fun k => { k with saved := tset 0 k.saved (item - 1) d }
  else s

/-- A mailbox read of an item of a lane, into the data words of the mailbox at `o`. -/
def State.laneItemShow (s : State) (o lane item : Nat) : State :=
  let u := if item = 0 then (s.advanceCounts lane).modLane lane fun k => { k with capErrs := k.errs } else s
  (u.setLv (o + 4) (BitVec.ofNat 32 (u.laneItem lane item))).setLv (o + 8) (BitVec.ofNat 32 (u.laneItem lane item / 2 ^ 32))

theorem State.laneItemPut_saved (s : State) (lane : Nat) {item : Nat} (d : Nat) (h3 : 3 ≤ item) (h6 : item ≤ 6) :
    tget 0 ((s.laneItemPut lane item d).laneSt lane).saved (item - 1) = d := by
  have hx : s.laneItemPut lane item d = s.modLane lane fun k => { k with saved := tset 0 k.saved (item - 1) d } :=
    (if_neg (by omega)).trans (if_pos ⟨h3, h6⟩)
  rw [hx, State.laneSt_modLane_self, tget_tset_self]

theorem State.laneItemShow_data (s : State) (o lane : Nat) {item : Nat} (h : item ≠ 0) :
    (s.laneItemShow o lane item).lv (o + 4) = BitVec.ofNat 32 (s.laneItem lane item) ∧
      (s.laneItemShow o lane item).lv (o + 8) = BitVec.ofNat 32 (s.laneItem lane item / 2 ^ 32) := by
  unfold State.laneItemShow
  rw [if_neg h]
  exact ⟨(State.lv_setLv_ne _ _ (by omega)).trans (State.lv_setLv_self ..), State.lv_setLv_self ..⟩

/-- The mailbox at `o` has served what was asked of it there, of a lane of port block `pb`: a write where bit 16 is set. -/
def State.laneMbxServed (s : State) (o pb : Nat) : State :=
  if bit (s.lv o) 16 then s.laneItemPut (16 * pb + field (s.lv o) 3 0) (field (s.lv o) 11 8)
    ((s.lv (o + 4)).toNat + (s.lv (o + 8)).toNat * 2 ^ 32)
  else s.laneItemShow o (16 * pb + field (s.lv o) 3 0) (field (s.lv o) 11 8)

theorem State.laneMbxServed_of_write {s : State} {o : Nat} (pb : Nat) (h : bit (s.lv o) 16 = true) :
    s.laneMbxServed o pb = s.laneItemPut (16 * pb + field (s.lv o) 3 0) (field (s.lv o) 11 8)
      ((s.lv (o + 4)).toNat + (s.lv (o + 8)).toNat * 2 ^ 32) := if_pos h

theorem State.laneMbxServed_of_read {s : State} {o : Nat} (pb : Nat) (h : bit (s.lv o) 16 = false) :
    s.laneMbxServed o pb = s.laneItemShow o (16 * pb + field (s.lv o) 3 0) (field (s.lv o) 11 8) := if_neg (by simp [h])

theorem laneMbxDone_of_here {s : State} {agent pb : Nat} (hpb : pb < 64) (hh : s.here (pb / 8) = true) :
    laneMbxDone agent pb s = (s.laneMbxServed (laneSel agent pb) pb).setFlag (laneSel agent pb) 31 true :=
  if_neg (by simp [hpb, hh])

/-- Settles O12: the mailbox serves a write or a read and then sets VALID, which stands apart from the lanes and from the data
words; the other clauses are branches of the meanings. -/
theorem laneTestHardware : Obligations.LaneTestHardware := by
  intro s
  refine ⟨?enter, ?exit, ?inject, ?clear, ?locked, ?notChecking, ?unlocked, ?wasUnlocked, ?mbxRead, ?mbxWrite, ?mbxDone⟩
  case enter => exact fun lane v hl => congrArg Host.Outcome.next (if_pos hl)
  case exit => exact fun lane v hl => congrArg Host.Outcome.next (if_pos hl)
  case inject => exact fun lane v hl => congrArg Host.Outcome.next (if_pos hl)
  case clear => exact fun lane v hl => congrArg Host.Outcome.next (if_pos hl)
  case locked => exact fun lane hl ht hc => congrArg Host.Outcome.next (checkerLock_of_checking hl ht hc)
  case notChecking => exact fun lane h => congrArg Host.Outcome.next (checkerLock_of_idle h)
  case unlocked => exact fun lane hl h => congrArg Host.Outcome.next (checkerUnlock_of_locked hl h)
  case wasUnlocked => exact fun lane h => congrArg Host.Outcome.next (checkerUnlock_of_unlocked h)
  case mbxRead => exact fun agent pb v hpb hh => congrArg Host.Outcome.next (if_pos (by simp [hpb, hh]))
  case mbxWrite => exact fun agent pb v hpb hh => congrArg Host.Outcome.next (if_pos (by simp [hpb, hh]))
  case mbxDone =>
    intro agent pb hpb hh v lane
    have hx := laneMbxDone_of_here (agent := agent) hpb hh
    have hchg := laneMbxDone_changes s agent pb
    rw [hx] at hchg
    refine ⟨_, congrArg Host.Outcome.next hx, State.flag_setFlag_self _ _ _ (by decide),
      hchg.setsKept (by decide) (by decide), hchg .pkts (by decide), fun hw h3 h6 => ?_, fun hr h0 => ?_⟩
    · rw [State.laneMbxServed_of_write pb hw]
      exact s.laneItemPut_saved lane _ h3 h6
    · rw [State.laneMbxServed_of_read pb hr, State.lv_setFlag_ne _ _ _ (by omega), State.lv_setFlag_ne _ _ _ (by omega)]
      exact s.laneItemShow_data (laneSel agent pb) lane h0

end Sys2Proof.Machine

/-! Replay roll-over, link-down and Recovery of a PCI Express port, and DPC. -/

namespace Sys2Proof.Machine

/-! ### Replay and link-down (R82, R83) -/

@[simp] theorem State.downAfter_modPort (s : State) (p : Nat) (f : PortSt → PortSt) (port : Nat) :
    (s.modPort p f).downAfter port = s.downAfter port := (rfl)

section
variable {s : State} {port : Nat} (h : s.pcieUp port = true)
include h

theorem replayNumRollover_of_few (hn : s.downAfter port = 0 ∨ (s.portSt port).rolls + 1 < s.downAfter port) :
    replayNumRollover port s =
      s.modPort port fun k => { k with rolls := (s.portSt port).rolls + 1, recovering := true } := by
  refine (if_neg (by simp [h])).trans (if_neg ?_)
  rcases hn with hn | hn <;> simp [hn]

theorem replayNumRollover_of_many (h0 : s.downAfter port ≠ 0) (hn : s.downAfter port ≤ (s.portSt port).rolls + 1) :
    let u := s.modPort port fun k => { k with rolls := (s.portSt port).rolls + 1, recovering := true }
    replayNumRollover port s = State.portDown
      (((u.sticky (portStatus port) 14).count (tileOf port) .pbReplayDown (some port)).ownerAer port .replayRollover)
      port .portDown :=
  (if_neg (by simp [h])).trans (if_pos (by simp [h0, hn]))

theorem pcieLinkDown_of_up : pcieLinkDown port s = s.portDown port .portDown := if_pos h
end

/-! ### DPC (R86, R87) -/

/-- The trigger reason that DPC Status shows for a host's cause, and its extension. -/
def dpcReasonOf : DpcCause → Nat × Nat
  | .software => (3, 1)
  | .uncorrectable => (0, 0)
  | .errNonfatalMsg => (1, 0)
  | .errFatalMsg => (2, 0)

/-- The port of a virtual port is in DPC, or no longer. -/
def State.dpcOn (s : State) (port : Nat) (on : Bool) : State :=
  { s with cont := { s.cont with dpc := tset false s.cont.dpc port on } }

/-- A port enters blackout by DPC: on its own tile, then on every present one, with its records. -/
def State.dpcEnter (s : State) (port : Nat) (r : Nat × Nat) : State :=
  let w := s.portEnter port r.1 r.2
  (w.each w.present fun x n => x.portDark n port).darkRecords 0 port true 1 (tileOf port) (tileOf port)

section
variable {s : State} {p d : Nat} {cause : DpcCause}

section
variable (hpart : s.partEn s.leadEpoch p = true) (hport : s.vdpEn s.leadEpoch p d = true)
  (hdpc : s.vdpDpc s.leadEpoch p d = true)
include hpart hport hdpc

theorem dpcTrigger_of_owned (hl : s.vdpLocal s.leadEpoch p d = true)
    (ho : s.slotOwner s.leadEpoch (s.vdpPort s.leadEpoch p d) = p)
    (hop : s.operates (tileOf (s.vdpPort s.leadEpoch p d)) = true)
    (hc : tget false s.cont.dpc (s.vdpPort s.leadEpoch p d) = false) :
    let port := s.vdpPort s.leadEpoch p d
    let r := dpcReasonOf cause
    let u := (s.setDpc p d r.1 r.2).dpcOn port true
    dpcTrigger p d cause s = if s.portBlack port then u else u.dpcEnter port r :=
  (if_neg (by simp [hpart, hport, hdpc])).trans <| (if_pos (by simp [hl, ho])).trans <|
    (if_neg (by simp [hop])).trans (if_neg (by simp [hc]))

theorem dpcTrigger_of_foreign
    (h : s.vdpLocal s.leadEpoch p d = false ∨ s.slotOwner s.leadEpoch (s.vdpPort s.leadEpoch p d) ≠ p) :
    let r := dpcReasonOf cause
    dpcTrigger p d cause s = (s.setDpc p d r.1 r.2).dpcPair s.leadEpoch p d :=
  (if_neg (by simp [hpart, hport, hdpc])).trans (if_neg (by rcases h with h | h <;> simp [h]))
end

/-- DPC Status of a virtual port is clear. -/
def State.dpcClear (s : State) (p d : Nat) : State :=
  s.modVport p d fun v => { v with dpcStatus := false, dpcReason := 0, dpcExt := 0 }

variable (hpart : s.partEn s.leadEpoch p = true) (hport : s.vdpEn s.leadEpoch p d = true)
include hpart hport

theorem dpcTriggerStatusClear_of_owned (hl : s.vdpLocal s.leadEpoch p d = true)
    (ho : s.slotOwner s.leadEpoch (s.vdpPort s.leadEpoch p d) = p)
    (hm : s.mgrHolds (tileOf (s.vdpPort s.leadEpoch p d)) 0 (s.vdpPort s.leadEpoch p d) = false) :
    let port := s.vdpPort s.leadEpoch p d
    let u := (s.dpcClear p d).dpcOn port false
    dpcTriggerStatusClear p d s =
      if s.portBlack port then u.darkRecords 0 port false 1 (tileOf port) (tileOf port) else u :=
  (if_neg (by simp [hpart, hport])).trans <| (if_pos (by simp [hl, ho])).trans (if_neg (by simp [hm]))

theorem dpcTriggerStatusClear_of_managed (hl : s.vdpLocal s.leadEpoch p d = true)
    (ho : s.slotOwner s.leadEpoch (s.vdpPort s.leadEpoch p d) = p)
    (hm : s.mgrHolds (tileOf (s.vdpPort s.leadEpoch p d)) 0 (s.vdpPort s.leadEpoch p d) = true) :
    dpcTriggerStatusClear p d s = s.dpcOn (s.vdpPort s.leadEpoch p d) true :=
  (if_neg (by simp [hpart, hport])).trans <| (if_pos (by simp [hl, ho])).trans (if_pos hm)

theorem dpcTriggerStatusClear_of_foreign
    (h : s.vdpLocal s.leadEpoch p d = false ∨ s.slotOwner s.leadEpoch (s.vdpPort s.leadEpoch p d) ≠ p) :
    dpcTriggerStatusClear p d s = s.dpcClear p d :=
  (if_neg (by simp [hpart, hport])).trans (if_neg (by rcases h with h | h <;> simp [h]))
end

/-- Settles O13: the branches of the meanings, by the count of roll-overs, the lanes that a Recovery finds good, and the
partition that owns the slot. -/
theorem pciExpressLinkEvents : Obligations.PciExpressLinkEvents := by
  intro s
  refine ⟨?few, ?many, ?linkDown, ?recovery, ?trigger, ?clear⟩
  case few => exact fun port h hn => congrArg Host.Outcome.next (replayNumRollover_of_few h hn)
  case many => exact fun port h h0 hn => congrArg Host.Outcome.next (replayNumRollover_of_many h h0 hn)
  case linkDown => exact fun port h => congrArg Host.Outcome.next (pcieLinkDown_of_up h)
  case recovery =>
    intro port gl sk ho hd hv hr lanes good lost w no r u
    have hx : pcieRecoveryDone port gl sk s = if w = 0 || (lost && !s.flag (phyCfg port) 18) then s.portDown port .portDown
        else u.skewIn ((lanes.take (widthLanes w)).zip sk) :=
      if_neg (by simp [ho, hd, hv, hr])
    have hno : (w = 0 || (lost && !s.flag (phyCfg port) 18)) = true ↔ no := by simp [no]
    exact ⟨fun h => congrArg Host.Outcome.next (hx.trans (if_pos (hno.mpr h))),
      fun h => congrArg Host.Outcome.next (hx.trans (if_neg (mt hno.mp h)))⟩
  case trigger =>
    intro p d cause hpart hport hdpc port r m u w
    have hreason : r = dpcReasonOf cause := by cases cause <;> rfl
    refine ⟨fun hl ho hop hc => congrArg Host.Outcome.next ?_, fun h => congrArg Host.Outcome.next ?_⟩
    · simp only [w, u, m, hreason]
      exact dpcTrigger_of_owned hpart hport hdpc hl ho hop hc
    · simp only [m, hreason]
      exact dpcTrigger_of_foreign hpart hport hdpc h
  case clear =>
    intro p d hpart hport port m u
    exact ⟨fun hl ho hm => congrArg Host.Outcome.next (dpcTriggerStatusClear_of_owned hpart hport hl ho hm),
      fun hl ho hm => congrArg Host.Outcome.next (dpcTriggerStatusClear_of_managed hpart hport hl ho hm),
      fun h => congrArg Host.Outcome.next (dpcTriggerStatusClear_of_foreign hpart hport h)⟩

end Sys2Proof.Machine

/-! The steps of the training of a port: detection, the link at 2.5 GT/s, equalisation, the change of speed. -/

namespace Sys2Proof.Machine

/-! ### Detect and Polling (R55, R56) -/

section
variable {s : State} {port : Nat}

/-- A port that takes up its training goes to Polling: neither its lanes nor its slot have a say in that. -/
theorem partnerDetected_train (hm : s.mayTrain port = true) (ht : (s.portSt port).train = 0)
    (hh : s.flag (laneCtrl port) 5 = false) : ((partnerDetected port s).portSt port).train = 1 := by
  unfold partnerDetected
  extract_lets s1 s2
  have idle : Changes _ ((s.pllUp port).modPort port fun k => { k with train := 1 }) s2 :=
    (Changes.refl.each fun _ _ => Changes.refl.setFlag.setFld.modLane).setEi
  rw [if_neg (by simp [hm, ht, hh])]
  split
  · rw [idle.modSlot.portSt_eq (by decide), State.portSt_modPort_self]
  · rw [idle.portSt_eq (by decide), State.portSt_modPort_self]

theorem partnerDetected_of_barred
    (h : s.mayTrain port = false ∨ (s.portSt port).train ≠ 0 ∨ s.flag (laneCtrl port) 5 = true) :
    partnerDetected port s = s :=
  if_pos (by rcases h with h | h | h <;> simp [h])

theorem vflConfirmTimeout_of_polling (hl : s.laneHere port = true) (hv : s.isVfl (s.tileEpoch (tileOf port)) port = true)
    (ht : (s.portSt port).train = 1) : vflConfirmTimeout port s =
      ((s.modPort port fun _ => {}).setEi (s.lanesOf port)).count (tileOf port) .pbModeMismatch (some port) :=
  if_pos (by simp [hl, hv, ht])

theorem linkUp2g5_of_mismatch {width : Nat} {rev pv : Bool} {pol sk : List Nat}
    (h : s.isVfl (s.tileEpoch (tileOf port)) port ≠ pv) : linkUp2g5 port width rev pol sk pv s = s :=
  if_pos (by simp [h])
end

/-! ### Equalisation (R57 to R59) -/

theorem eqCtrl_ne_laneStatus (lane : Nat) : eqCtrl lane ≠ laneStatus lane := by
  unfold eqCtrl laneStatus pbReg
  omega

/-- Whether the equalisation of a lane at a rate used the saved set that it read at its start. -/
def State.eqUsed (s : State) (lane rate : Nat) (lim ok : Bool) : Bool :=
  (s.laneSt lane).eqUse && setValid (tget 0 (s.laneSt lane).eqSaved rate) rate (s.laneSt lane).eqTag && lim && ok

/-- PB_LANE_STATUS of a lane shows whether the saved set was used, or was rejected. -/
def State.eqShown (s : State) (lane : Nat) (used : Bool) : State :=
  if (s.laneSt lane).eqUse && !used then (s.setFlag (laneStatus lane) 12 used).sticky (laneStatus lane) 13
  else s.setFlag (laneStatus lane) 12 used

/-- The converged set of a lane is in force, and is saved where EQ asks. -/
def State.eqTaken (s : State) (lane rate new : Nat) : State :=
  if s.flag (eqCtrl lane) 1 then
    (s.modLane lane fun k => { k with inForce := new }).modLane lane fun k => { k with saved := tset 0 k.saved rate new }
  else s.modLane lane fun k => { k with inForce := new }

/-- The end of a lane's equalisation at a rate, the saved set used or not, with the set `new` converged. -/
def State.eqDone (s : State) (lane rate : Nat) (used : Bool) (new : Nat) : State :=
  ((s.eqShown lane used).eqTaken lane rate new).eqStart lane rate
    ((s.laneSt lane).eqSkip || ((s.laneSt lane).eqLast == 0 && rate != 2))

section
variable (s : State) (lane rate : Nat) (used skip : Bool) (new : Nat)

theorem State.eqShown_changes : Changes [.live] s (s.eqShown lane used) :=
  .within (by decide) (.ite Changes.refl.setFlag.sticky Changes.refl.setFlag)

theorem State.eqShown_regsKept : s.regsKept (s.eqShown lane used) [laneStatus lane] :=
  .ite State.regsKept.refl.setFlag.sticky State.regsKept.refl.setFlag

theorem State.eqShown_eqCtrl : (s.eqShown lane used).lv (eqCtrl lane) = s.lv (eqCtrl lane) :=
  s.eqShown_regsKept lane used _ (by simp [eqCtrl_ne_laneStatus])

theorem State.eqShown_used : (s.eqShown lane used).flag (laneStatus lane) 12 = used := by
  unfold State.eqShown
  split <;> simp

theorem State.eqTaken_changes : Changes [.lanes] s (s.eqTaken lane rate new) :=
  .within (by decide) (.ite Changes.refl.modLane.modLane Changes.refl.modLane)

theorem State.eqTaken_inForce : ((s.eqTaken lane rate new).laneSt lane).inForce = new := by
  unfold State.eqTaken
  split <;> simp

theorem State.eqTaken_saved : tget 0 ((s.eqTaken lane rate new).laneSt lane).saved rate =
    if s.flag (eqCtrl lane) 1 then new else tget 0 (s.laneSt lane).saved rate := by
  unfold State.eqTaken
  split <;> simp

theorem State.eqStart_inForce : ((s.eqStart lane rate skip).laneSt lane).inForce = (s.laneSt lane).inForce := by
  unfold State.eqStart
  rw [State.laneSt_modLane_self]

theorem State.eqStart_saved : ((s.eqStart lane rate skip).laneSt lane).saved = (s.laneSt lane).saved := by
  unfold State.eqStart
  rw [State.laneSt_modLane_self]

/-- After PB_LANE_STATUS is written, only the state of lanes changes. -/
theorem State.eqDone_changes : Changes [.lanes] (s.eqShown lane used) (s.eqDone lane rate used new) :=
  ((State.eqTaken_changes _ lane rate new).andThen Changes.refl.eqStart).within (by decide)

theorem State.eqDone_regsKept : s.regsKept (s.eqDone lane rate used new) [laneStatus lane] := fun o ho =>
  ((s.eqDone_changes lane rate used new).lv_eq (by decide) (by decide) o).trans (s.eqShown_regsKept lane used o ho)

theorem State.eqDone_used : (s.eqDone lane rate used new).flag (laneStatus lane) 12 = used :=
  ((s.eqDone_changes lane rate used new).flag_eq (by decide) (by decide) _ _).trans (s.eqShown_used lane used)

theorem State.eqDone_inForce : ((s.eqDone lane rate used new).laneSt lane).inForce = new :=
  (State.eqStart_inForce ..).trans (State.eqTaken_inForce ..)

theorem State.eqDone_saved : tget 0 ((s.eqDone lane rate used new).laneSt lane).saved rate =
    if s.flag (eqCtrl lane) 1 then new else tget 0 (s.laneSt lane).saved rate := by
  unfold State.eqDone
  rw [State.eqStart_saved, State.eqTaken_saved, State.flag, State.eqShown_eqCtrl,
    (s.eqShown_changes lane used).laneSt_eq (by decide), State.flag]
end

section
variable {s : State} {lane rate : Nat} {lim ok : Bool} {conv : BitVec 64}

theorem equalisationPhaseDone_of_turn (hl : s.laneHere lane = true) (h : s.eqTurn lane rate = true) :
    equalisationPhaseDone lane rate lim ok conv s =
      s.eqDone lane rate (s.eqUsed lane rate lim ok) (mkSet conv.toNat rate (s.fld (eqCtrl lane) 15 8)) := by
  have hx : equalisationPhaseDone lane rate lim ok conv s = s.eqDone lane rate (s.eqUsed lane rate lim ok)
      (mkSet conv.toNat rate ((s.eqShown lane (s.eqUsed lane rate lim ok)).fld (eqCtrl lane) 15 8)) :=
    if_neg (by simp [hl, h])
  rw [hx, State.fld, State.eqShown_eqCtrl, State.fld]

theorem equalisationPhaseDone_of_off (h : s.eqTurn lane rate = false) :
    equalisationPhaseDone lane rate lim ok conv s = s :=
  if_pos (by simp [h])
end

/-! ### The change of speed (R54, R55, R75) -/

theorem Changes.advertise {C : List Comp} {z s : State} (h : Changes C z s) {p : Nat} :
    Changes ([Comp.ports, .wire] ++ C) z (s.advertise p) :=
  h.andThen (.within (by decide)
    (Changes.refl.modPort.each fun _ _ => .ite Changes.refl.emit.emit Changes.refl.emit))

theorem State.advertise_train (s : State) (port : Nat) :
    ((s.advertise port).portSt port).train = (s.portSt port).train := by
  unfold State.advertise
  extract_lets flit scaled adv s1
  refine (State.each_eq (fun v => (v.portSt port).train) (fun v c => ?_) s1 _).trans ?_
  · split <;> rfl
  · rw [State.portSt_modPort_self]

section
variable (s : State) (port partner : Nat) (flit : Bool)

/-- Whether a port and its partner run in flit mode after a change of speed. -/
def State.newFlit : Bool :=
  !s.isVfl (s.tileEpoch (tileOf port)) port && s.cflag (s.tileEpoch (tileOf port)) (portCfg port) 8 && flit

/-- The rate that a port and its partner change to. -/
def State.newRate : Nat :=
  if s.isVfl (s.tileEpoch (tileOf port)) port then (if 5 ≤ min (s.rateCap port) partner then 5 else 4)
  else if s.newFlit port flit then min (s.rateCap port) partner else min 4 (min (s.rateCap port) partner)

/-- The width of a port that changes its speed. -/
def State.newWidth : Nat :=
  if s.isVfl (s.tileEpoch (tileOf port)) port then (s.portSt port).trainWidth else s.fld (portStatus port) 3 1

/-- The lanes of that width. -/
def State.newLanes : List Nat := (s.logical port).take (widthLanes (s.newWidth port))

theorem State.newRate_lt : s.newRate port partner flit < 8 := by
  have hcap : s.rateCap port ≤ 5 := (min_le_right _ _).trans (by split <;> decide)
  unfold State.newRate
  split
  · split <;> decide
  · split <;> omega

/-- PB_PORT_STATUS of a port shows its rate, flit mode and width, and its training ends. -/
def State.rateShown (rate : Nat) (fm : Bool) (w : Nat) : State :=
  let u := ((s.setFld (portStatus port) 6 4 rate).setFlag (portStatus port) 7 fm).setFld (portStatus port) 3 1 w
  u.modPort port fun k => { k with train := 3, upAt := u.tm.now, marks := 0 }

theorem State.rateShown_train (rate w : Nat) (fm : Bool) : ((s.rateShown port rate fm w).portSt port).train = 3 := by
  unfold State.rateShown
  rw [State.portSt_modPort_self]

theorem State.rateShown_rate (rate w : Nat) (fm : Bool) :
    (s.rateShown port rate fm w).fld (portStatus port) 6 4 = rate % 8 := by
  unfold State.rateShown
  rw [State.fld_modPort, State.fld_setFld_of_outside _ _ (by decide) (by decide) (.inr (.inr (by decide))),
    State.fld_setFlag_of_outside _ _ (by decide) (.inr (.inl (by decide)))]
  exact s.fld_setFld_self _ rate (by decide) (by decide)

theorem State.rateShown_flit (rate w : Nat) (fm : Bool) : (s.rateShown port rate fm w).flag (portStatus port) 7 = fm := by
  unfold State.rateShown
  rw [State.flag_modPort, State.flag_setFld_of_outside _ _ (by decide) (by decide) (.inr (.inr (by decide))),
    State.flag_setFlag_self _ _ _ (by decide)]

/-- The lanes of a port show its rate, those outside its width that they are not linked, and then its status does. -/
def State.rated : State :=
  (s.each (s.lanesOf port) fun s' l =>
    if (s.newLanes port).contains l then
      (s'.setFld (laneStatus l) 2 0 (s.newRate port partner flit)).setFlag (laneStatus l) 3 (s.newRate port partner flit == 5)
    else s'.setFld (laneStatus l) 4 0 7).rateShown port (s.newRate port partner flit) (s.newFlit port flit) (s.newWidth port)

/-- A PCI Express port whose speed has changed advertises its credits. -/
def State.ratedUp : State :=
  if s.isVfl (s.tileEpoch (tileOf port)) port then s.rated port partner flit
  else (s.rated port partner flit).advertise port

/-- A port runs at its new speed, the skew of its lanes not yet measured. -/
def State.speedChanged : State :=
  (s.ratedUp port partner flit).setEi ((s.ratedUp port partner flit).lanesOf port)

theorem State.rated_changes : Changes [.live, .ports] s (s.rated port partner flit) :=
  (Changes.refl.each fun _ _ => .ite Changes.refl.setFld.setFlag Changes.refl.setFld).setFld.setFlag.setFld.modPort.within
    (by decide)

theorem State.ratedUp_changes : Changes [.ports, .wire] (s.rated port partner flit) (s.ratedUp port partner flit) :=
  .within (by decide) (.ite .refl Changes.refl.advertise)

theorem State.speedChanged_changes : Changes [.live, .ports, .wire] s (s.speedChanged port partner flit) :=
  ((s.rated_changes port partner flit).andThen (s.ratedUp_changes port partner flit)).setEi.within (by decide)

theorem State.ratedUp_train : ((s.ratedUp port partner flit).portSt port).train = 3 := by
  unfold State.ratedUp
  split
  · exact State.rateShown_train ..
  · rw [State.advertise_train]
    exact State.rateShown_train ..

theorem State.speedChanged_train : ((s.speedChanged port partner flit).portSt port).train = 3 := by
  have idle : Changes _ (s.ratedUp port partner flit) (s.speedChanged port partner flit) := Changes.refl.setEi
  rw [idle.portSt_eq (by decide), State.ratedUp_train]

theorem State.speedChanged_rate :
    (s.speedChanged port partner flit).fld (portStatus port) 6 4 = s.newRate port partner flit := by
  unfold State.speedChanged
  rw [State.fld_setEi _ _ _ (by decide), (s.ratedUp_changes port partner flit).fld_eq (by decide) (by decide),
    State.rated, State.rateShown_rate, Nat.mod_eq_of_lt (s.newRate_lt port partner flit)]

theorem State.speedChanged_flit : (s.speedChanged port partner flit).flag (portStatus port) 7 = s.newFlit port flit := by
  unfold State.speedChanged
  rw [State.flag_setEi _ _ _ (by decide), (s.ratedUp_changes port partner flit).flag_eq (by decide) (by decide),
    State.rated, State.rateShown_flit]
end

theorem speedChangeDone_of_reached {s : State} {port partner : Nat} {flit : Bool} {skews : List Nat}
    (hl : s.laneHere port = true) (ht : 2 ≤ (s.portSt port).train) (hh : s.linkHeld port = false)
    (he : s.eqReached (s.newLanes port) (s.newRate port partner flit) = true) :
    speedChangeDone port partner flit skews s =
      (s.speedChanged port partner flit).skewIn ((s.newLanes port).zip skews) :=
  if_neg (by
    rw [hl, hh, decide_eq_false (Nat.not_lt.mpr ht), Bool.not_true, Bool.false_or, Bool.false_or, Bool.false_or]
    exact ne_true_of_eq_false (congrArg not he))

/-- Settles O9: the branches of the meanings; what a training step leaves in the port, the lane and their status words is
read off the updates that it makes of them. -/
theorem laneTrainingSteps : Obligations.LaneTrainingSteps := by
  intro s
  refine ⟨?detected, ?barred, ?linkUp, ?mismatch, ?confirmTimeout, ?equalised, ?notInTurn, ?speedChanged⟩
  case detected =>
    intro port hm ht hh
    have hchg := partnerDetected_changes s port
    exact ⟨_, rfl, partnerDetected_train hm ht hh, hchg.setsKept (by decide) (by decide), hchg .pkts (by decide)⟩
  case barred => exact fun port h => congrArg Host.Outcome.next (partnerDetected_of_barred h)
  case linkUp =>
    intro port width rev pol sk pv hm ht hpv noRev r top lanes held bad w x v no
    have hx : linkUp2g5 port width rev pol sk pv s =
        if w = 0 || ((lanes.take (widthLanes top)).any bad && !x.flag (phyCfg port) 18) ||
          (x.isVfl (s.tileEpoch (tileOf port)) port && w < 3) then x.modPort port fun _ => {}
        else if v.isVfl (s.tileEpoch (tileOf port)) port then v
        else (((v.setFld (portStatus port) 3 1 w).setFld (portStatus port) 6 4 0).advertise port).linkActive port :=
      if_neg (by simp [hm, ht, hpv])
    have hno : (w = 0 || ((lanes.take (widthLanes top)).any bad && !x.flag (phyCfg port) 18) ||
        (x.isVfl (s.tileEpoch (tileOf port)) port && w < 3)) = true ↔ no := by
      simp only [no, Bool.or_eq_true, Bool.and_eq_true, Bool.not_eq_true', decide_eq_true_iff, or_assoc]
    exact ⟨fun h => congrArg Host.Outcome.next (hx.trans (if_pos (hno.mpr h))),
      fun h hv => congrArg Host.Outcome.next (hx.trans ((if_neg (mt hno.mp h)).trans (if_pos hv))),
      fun h hv => congrArg Host.Outcome.next (hx.trans ((if_neg (mt hno.mp h)).trans (if_neg (by simp [hv]))))⟩
  case mismatch => exact fun port width rev pol sk pv h => congrArg Host.Outcome.next (linkUp2g5_of_mismatch h)
  case confirmTimeout => exact fun port hl hv ht => congrArg Host.Outcome.next (vflConfirmTimeout_of_polling hl hv ht)
  case equalised =>
    intro lane rate lim ok conv hl h k new
    have hx := equalisationPhaseDone_of_turn (lim := lim) (ok := ok) (conv := conv) hl h
    have hchg := equalisationPhaseDone_changes s lane rate lim ok conv
    rw [hx] at hchg
    exact ⟨_, congrArg Host.Outcome.next hx, State.eqDone_inForce .., State.eqDone_used .., State.eqDone_saved ..,
      s.eqDone_regsKept lane rate _ _, hchg.setsKept (by decide) (by decide), hchg .pkts (by decide)⟩
  case notInTurn => exact fun lane rate lim ok conv h => congrArg Host.Outcome.next (equalisationPhaseDone_of_off h)
  case speedChanged =>
    intro port partner flit skews hl ht hh e vfl fm top rate lanes he
    have hchg := s.speedChanged_changes port partner flit
    exact ⟨_, congrArg Host.Outcome.next (speedChangeDone_of_reached hl ht hh he), State.speedChanged_train ..,
      State.speedChanged_rate .., State.speedChanged_flit .., hchg.setsKept (by decide) (by decide), hchg .pkts (by decide)⟩

end Sys2Proof.Machine

/-! The commands of a slot's controller and the signals of a slot (R89 to R91, R306). -/

namespace Sys2Proof.Machine

/-! ### The commands of Slot Control (R90, R91) -/

section
variable {s : State} {p d port : Nat} (hslot : s.slotAt p d = some port)
include hslot

theorem slotPowerOn_of_off (hchan : (s.slotChan port).isSome = true) (hoff : (s.slotSt port).off = true) :
    slotPowerOn p d s = (s.modSlot port fun k => { k with off := false }).slotCommand port 1 := by
  unfold slotPowerOn
  rw [hslot]
  exact if_pos (by simp [hchan, hoff])

theorem slotPowerOn_of_settled (h : (s.slotChan port).isSome = false ∨ (s.slotSt port).off = false) :
    slotPowerOn p d s = s := by
  unfold slotPowerOn
  rw [hslot]
  exact if_neg (by rcases h with h | h <;> simp [h])

theorem slotPowerOff_of_on (hchan : (s.slotChan port).isSome = true) (hoff : (s.slotSt port).off = false) :
    slotPowerOff p d s = (s.modSlot port fun k => { k with off := true }).slotCommand port 0 := by
  unfold slotPowerOff
  rw [hslot]
  exact if_pos (by simp [hchan, hoff])

theorem slotPowerOff_of_settled (h : (s.slotChan port).isSome = false ∨ (s.slotSt port).off = true) :
    slotPowerOff p d s = s := by
  unfold slotPowerOff
  rw [hslot]
  exact if_neg (by rcases h with h | h <;> simp [h])

theorem slotIndicatorWrite_of_fitted (attn pwr : Nat)
    (h : s.cflag s.leadEpoch (slotCfg port) 10 = true ∨ s.cflag s.leadEpoch (slotCfg port) 11 = true) :
    slotIndicatorWrite p d attn pwr s = (s.modSlot port fun k => { k with
      attn := if s.cflag s.leadEpoch (slotCfg port) 10 then attn % 4 else k.attn
      pwr := if s.cflag s.leadEpoch (slotCfg port) 11 then pwr % 4 else k.pwr }).slotCommand port 2 := by
  unfold slotIndicatorWrite
  rw [hslot]
  exact if_neg (by rcases h with h | h <;> simp [h])

theorem slotIndicatorWrite_of_unfitted (attn pwr : Nat) (hattn : s.cflag s.leadEpoch (slotCfg port) 10 = false)
    (hpwr : s.cflag s.leadEpoch (slotCfg port) 11 = false) : slotIndicatorWrite p d attn pwr s = s := by
  unfold slotIndicatorWrite
  rw [hslot]
  exact if_pos (by simp [hattn, hpwr])
end

section
variable {s : State} {p d : Nat} (hslot : s.slotAt p d = none)
include hslot

theorem slotPowerOn_of_noSlot : slotPowerOn p d s = s := by
  unfold slotPowerOn
  rw [hslot]

theorem slotPowerOff_of_noSlot : slotPowerOff p d s = s := by
  unfold slotPowerOff
  rw [hslot]

theorem slotIndicatorWrite_of_noSlot (attn pwr : Nat) : slotIndicatorWrite p d attn pwr s = s := by
  unfold slotIndicatorWrite
  rw [hslot]
end

/-! ### The signals of a slot (R90, R306) -/

section
variable {s : State} {port : Nat}

theorem commandCompleted_of_waiting (h : (s.slotSt port).waiting = true) :
    commandCompleted port s = s.modSlot port fun k => { k with waiting := false, cmdDone := true } := if_pos h

theorem commandCompleted_of_idle (h : (s.slotSt port).waiting = false) : commandCompleted port s = s :=
  if_neg (ne_true_of_eq_false h)

theorem slotSidebandMessage_of_waiting {c : Nat} {cs : List Nat} (hop : s.operates (tileOf port) = true)
    (hlink : s.headless (tileOf port) = false) (hi : s.ilulysReset = false)
    (hc : tget [] s.host.sideband port = c :: cs) : slotSidebandMessage port s =
      State.slotSignal { s with host := { s.host with sideband := tset [] s.host.sideband port cs } } port c := by
  unfold slotSidebandMessage
  rw [if_neg (by simp [hop, hlink, hi]), hc]

theorem presenceSample_of_same {b : Bool} (h : (s.slotSt port).sampled = b) : presenceSample port b s = s :=
  if_pos (by simp [h])

section
variable (hi : s.ilulysReset = false) (hio : s.pwr.io = true) (hen : s.portEn s.leadEpoch port = true)
  (hslot : s.cflag s.leadEpoch (slotCfg port) 0 = true)
include hi hio hen hslot

theorem presenceSample_of_changed {b : Bool} (hband : s.cflag s.leadEpoch (slotCfg port) 13 = false)
    (h : (s.slotSt port).sampled ≠ b) :
    presenceSample port b s = (s.modSlot port fun k => { k with sampled := b }).sendSide port (b2n b) :=
  if_neg (by simp [hi, hio, hen, hslot, hband, h])

theorem attentionButton_of_fitted (hbutton : s.cflag s.leadEpoch (slotCfg port) 9 = true) :
    attentionButton port s = s.sendSide port 2 :=
  if_neg (by simp [hi, hio, hen, hslot, hbutton])
end
end

/-- Settles O14: the branches of the meanings, by the virtual port's slot, by what the slot is fitted with, and by what its
state already shows. -/
theorem hotPlugSlots : Obligations.HotPlugSlots := by
  intro s
  refine ⟨?powerOn, ?powerOff, ?alreadyOn, ?alreadyOff, ?indicators, ?noSlot, ?completed, ?notWaiting, ?sideband, ?presence,
    ?samePresence, ?button⟩
  case powerOn => exact fun p d port hs hc ho => congrArg Host.Outcome.next (slotPowerOn_of_off hs hc ho)
  case powerOff => exact fun p d port hs hc ho => congrArg Host.Outcome.next (slotPowerOff_of_on hs hc ho)
  case alreadyOn => exact fun p d port hs h => congrArg Host.Outcome.next (slotPowerOn_of_settled hs h)
  case alreadyOff => exact fun p d port hs h => congrArg Host.Outcome.next (slotPowerOff_of_settled hs h)
  case indicators =>
    exact fun p d port a w hs => ⟨fun h => congrArg Host.Outcome.next (slotIndicatorWrite_of_fitted hs a w h),
      fun ha hp => congrArg Host.Outcome.next (slotIndicatorWrite_of_unfitted hs a w ha hp)⟩
  case noSlot =>
    exact fun p d a w hs => ⟨congrArg Host.Outcome.next (slotPowerOn_of_noSlot hs),
      congrArg Host.Outcome.next (slotPowerOff_of_noSlot hs),
      congrArg Host.Outcome.next (slotIndicatorWrite_of_noSlot hs a w)⟩
  case completed => exact fun port h => congrArg Host.Outcome.next (commandCompleted_of_waiting h)
  case notWaiting => exact fun port h => congrArg Host.Outcome.next (commandCompleted_of_idle h)
  case sideband =>
    exact fun port c cs hop hl hi hc => congrArg Host.Outcome.next (slotSidebandMessage_of_waiting hop hl hi hc)
  case presence =>
    exact fun port b hi hio hen hs hb h => congrArg Host.Outcome.next (presenceSample_of_changed hi hio hen hs hb h)
  case samePresence => exact fun port b h => congrArg Host.Outcome.next (presenceSample_of_same h)
  case button =>
    exact fun port hi hio hen hs hb => congrArg Host.Outcome.next (attentionButton_of_fitted hi hio hen hs hb)

end Sys2Proof.Machine

/-! The INIT exchange of a VFL port, its link-down and its next hops. -/

namespace Sys2Proof.Machine

/-! ### What a link's state reads -/

@[simp] theorem State.linkSt_modLink_self (s : State) (l : Link) (f : LinkSt → LinkSt) :
    (s.modLink l f).linkSt l = f (s.linkSt l) := tget_tmod_self ..

@[simp] theorem State.linkSt_setFld (s : State) (o hi lo n : Nat) (l : Link) :
    (s.setFld o hi lo n).linkSt l = s.linkSt l := (rfl)
@[simp] theorem State.linkSt_setFlag (s : State) (o n : Nat) (b : Bool) (l : Link) :
    (s.setFlag o n b).linkSt l = s.linkSt l := (rfl)

/-- The state of a link is its entry among the links. -/
theorem Changes.linkSt_eq {C : List Comp} {z s : State} (h : Changes C z s) (hC : .links ∉ C) (l : Link) :
    s.linkSt l = z.linkSt l := by
  have hlinks : s.links = z.links := h .links hC
  rw [State.linkSt, State.linkSt, hlinks]

theorem lkReg_ne_portStatus (port o : Nat) : lkReg port o ≠ portStatus port := by
  simp only [lkReg, portStatus, pbReg]
  omega

/-! ### The INIT phase (R99) -/

section
variable {s : State} {port : Nat}

section
variable (hphase : s.initPhase port = true)
include hphase

theorem initSend_of_phase :
    let e := s.tileEpoch (tileOf port)
    let n := s.cfgVcs e port
    let u := (s.setFld (lkStatus port) 7 6 (s.cfld e (lkReg port 0) 1 0)).modLink (.port port) fun k =>
      { k with initSent := true }
    initSend port s = u.emit (.linkFlit (.port port) (flitWords { ftype := 3 } (initChunks n
      (u.linkSt (.port port)).seenInit (fidOf (u.switchNum e) port) ((List.range 8).map fun v => u.divided port n v)) false)
        0) :=
  if_neg (by simp [hphase])

theorem initReceive_of_mismatch {n fid : Nat} {rx : Bool} {bufs : List Nat}
    (hn : n ≠ s.cfgVcs (s.tileEpoch (tileOf port)) port) : initReceive port 1 n rx fid bufs s =
      ((s.sticky (lkStatus port) 4).countLink (.port port) .lkInitMismatch).toDetect port true :=
  (if_neg (by simp [hphase])).trans (if_pos hn)

theorem initReceive_of_unseen {fid : Nat} {bufs : List Nat} :
    initReceive port 1 (s.cfgVcs (s.tileEpoch (tileOf port)) port) false fid bufs s =
      s.modLink (.port port) fun k => { k with seenInit := true } :=
  (if_neg (by simp [hphase])).trans <| (if_neg (not_not_intro rfl)).trans (if_pos rfl)
end

/-! ### Link-up (R99, R102, R109) -/

/-- The link of a VFL port runs: its own state starts with what the two INIT flits carried, and LK_STATUS shows it. -/
def State.vflLinked (s : State) (port fid : Nat) (bufs : List Nat) : State :=
  let e := s.tileEpoch (tileOf port)
  let n := s.cfgVcs e port
  let u := s.modLink (.port port) fun k => { k.dropped with
    seenInit := true, peer := some fid, bufs := (List.range n).map fun v => s.divided port n v
    limit := (List.range n).foldl (fun m v => tset 0 m v (bufs.getD v 0 % 65536)) []
    cap := s.replayBuf port, base := s.tm.now }
  (u.setFld (lkStatus port) 7 6 (u.cfld e (lkReg port 0) 1 0)).setFlag (lkStatus port) 0 true

/-- LK_STATUS notes that LK_VC_BUF does not divide the buffer of `n` VCs as R109 asks. -/
def State.bufChecked (s : State) (port n : Nat) : State :=
  if s.bufOk port n || s.bufZero port n then s else s.sticky (lkStatus port) 5

/-- A VFL port is up and active, with its peer in LK_PEER. -/
def State.vflUp (s : State) (port fid : Nat) (bufs : List Nat) : State :=
  (((s.vflLinked port fid bufs).bufChecked port (s.cfgVcs (s.tileEpoch (tileOf port)) port)).setLv (lkReg port 0x1C)
    (BitVec.ofNat 32 (fid % 65536 + 65536))).setFlag (portStatus port) 0 true

theorem initReceive_of_seen (hphase : s.initPhase port = true) (fid : Nat) (bufs : List Nat) :
    initReceive port 1 (s.cfgVcs (s.tileEpoch (tileOf port)) port) true fid bufs s = s.vflUp port fid bufs :=
  (if_neg (by simp [hphase])).trans <| (if_neg (not_not_intro rfl)).trans (if_neg (by decide))

theorem State.vflLinked_changes (s : State) (port fid : Nat) (bufs : List Nat) :
    Changes [.links, .live] s (s.vflLinked port fid bufs) :=
  Changes.refl.modLink.setFld.setFlag.within (by decide)

theorem State.bufChecked_changes (s : State) (port n : Nat) : Changes [.live] s (s.bufChecked port n) :=
  .within (by decide) (.ite .refl Changes.refl.sticky)

theorem State.vflUp_changes (s : State) (port fid : Nat) (bufs : List Nat) :
    Changes [.links, .live] s (s.vflUp port fid bufs) :=
  ((s.vflLinked_changes port fid bufs).andThen (State.bufChecked_changes _ port _)).setLv.setFlag.within (by decide)

/-- Past `vflLinked`, link-up writes register words only. -/
theorem State.vflUp_linkSt (fid : Nat) (bufs : List Nat) :
    (s.vflUp port fid bufs).linkSt (.port port) = (s.vflLinked port fid bufs).linkSt (.port port) :=
  (State.bufChecked_changes (s.vflLinked port fid bufs) port _).setLv.setFlag.linkSt_eq (by decide) _

theorem State.vflLinked_peer (fid : Nat) (bufs : List Nat) :
    ((s.vflLinked port fid bufs).linkSt (.port port)).peer = some fid := by
  simp [State.vflLinked]

theorem State.vflLinked_seenInit (fid : Nat) (bufs : List Nat) :
    ((s.vflLinked port fid bufs).linkSt (.port port)).seenInit = true := by
  simp [State.vflLinked]

theorem State.bufChecked_flag (s : State) (port n : Nat) {m : Nat} (hm : m ≠ 5) (o : Nat) :
    (s.bufChecked port n).flag o m = s.flag o m := by
  unfold State.bufChecked
  split
  · rfl
  · simp [hm]

theorem State.vflUp_dlActive (fid : Nat) (bufs : List Nat) : (s.vflUp port fid bufs).flag (portStatus port) 0 = true :=
  State.flag_setFlag_self _ _ _ (by decide)

theorem State.vflUp_linkUp (fid : Nat) (bufs : List Nat) : (s.vflUp port fid bufs).flag (lkStatus port) 0 = true := by
  have hne : lkStatus port ≠ lkReg port 0x1C := by simp [lkStatus, lkReg]
  unfold State.vflUp
  rw [State.flag_setFlag _ _ _ _ _ (by decide), if_neg (by simp [lkStatus, lkReg_ne_portStatus]), State.flag_setLv,
    if_neg hne, State.bufChecked_flag _ _ _ (by decide)]
  exact State.flag_setFlag_self _ _ _ (by decide)

theorem State.vflUp_lkPeer (fid : Nat) (bufs : List Nat) :
    (s.vflUp port fid bufs).lv (lkReg port 0x1C) = BitVec.ofNat 32 (fid % 65536 + 65536) :=
  (State.lv_setFlag_ne _ _ _ (lkReg_ne_portStatus port 0x1C)).trans (State.lv_setLv_self ..)

theorem initReceive_of_ignored {proto n fid : Nat} {rx : Bool} {bufs : List Nat}
    (h : proto ≠ 1 ∨ s.initPhase port = false) : initReceive port proto n rx fid bufs s = s :=
  if_pos (by rcases h with h | h <;> simp [h])

theorem initTimeout_of_sent (hphase : s.initPhase port = true) (hsent : (s.linkSt (.port port)).initSent = true) :
    initTimeout port s = s.toDetect port false :=
  if_pos (by simp [hphase, hsent])

theorem vflLinkDown_of_active (ho : s.operates (tileOf port) = true)
    (hv : s.isVfl (s.tileEpoch (tileOf port)) port = true) (ha : s.dlActive port = true) :
    vflLinkDown port s = s.portDown port .vflDown :=
  if_pos (by simp [ho, hv, ha])

theorem routeHopRestore_of_up {n : Nat} (hn : s.sees n (tileOf port) = true) (hu : s.portUp port = true) :
    routeHopRestore n port s = s.setHops n port true :=
  if_pos (by simp [hn, hu])
end

/-- Settles O15: the branches of the meanings; link-up writes the link's own state, LK_STATUS, LK_PEER and DL_ACTIVE, whose
words stand apart. -/
theorem vflInitialisation : Obligations.VflInitialisation := by
  intro s
  refine ⟨?send, ?mismatch, ?unseen, ?linkUp, ?ignored, ?timeout, ?retry, ?linkDown, ?hops⟩
  case send => exact fun port h => congrArg Host.Outcome.next (initSend_of_phase h)
  case mismatch => exact fun port n rx fid bufs h hn => congrArg Host.Outcome.next (initReceive_of_mismatch h hn)
  case unseen => exact fun port fid bufs h => congrArg Host.Outcome.next (initReceive_of_unseen h)
  case linkUp =>
    intro port fid bufs h
    have hchg := s.vflUp_changes port fid bufs
    refine ⟨s.vflUp port fid bufs, congrArg Host.Outcome.next (initReceive_of_seen h fid bufs), ?_, ?_,
      State.vflUp_dlActive fid bufs, State.vflUp_linkUp fid bufs, State.vflUp_lkPeer fid bufs,
      hchg.setsKept (by decide) (by decide), hchg .pkts (by decide)⟩
    · rw [State.vflUp_linkSt, State.vflLinked_peer]
    · rw [State.vflUp_linkSt, State.vflLinked_seenInit]
  case ignored => exact fun port proto n rx fid bufs h => congrArg Host.Outcome.next (initReceive_of_ignored h)
  case timeout => exact fun port h hs => congrArg Host.Outcome.next (initTimeout_of_sent h hs)
  case retry => exact fun port h => congrArg Host.Outcome.next (if_pos h)
  case linkDown => exact fun port ho hv ha => congrArg Host.Outcome.next (vflLinkDown_of_active ho hv ha)
  case hops => exact fun n port hn hu => congrArg Host.Outcome.next (routeHopRestore_of_up hn hu)

end Sys2Proof.Machine

/-! The flits of a link as they come in, its acknowledgements, its replays and its retrains. -/

namespace Sys2Proof.Machine

/-! ### Receiving (R97, R98, R103 to R105) -/

/-- The state in which a flit that came on a link is judged: the symbols corrected are counted, and on a crossing the wires
that erred. -/
def State.flitCounted (s : State) (l : Link) (f : Flit) : State :=
  match l with
  | .xing t g => (s.countLink (.xing t g) .lkFecCorr (flitFixed f)).each f.wires fun z w => z.wireError t g w
  | .port p => s.countLink (.port p) .lkFecCorr (flitFixed f)

section
variable {s : State} {l : Link} {f : Flit}

theorem flitReceive_of_deaf (h : s.hears l = false) : flitReceive l f s = s := if_pos (by simp [h])

section
variable (hears : s.hears l = true)
include hears

theorem flitReceive_of_bad (hg : flitGood f = false) :
    flitReceive l f s = (s.flitCounted l f).countLink l .lkCrcErr := by
  cases l <;> exact (if_neg (by simp [hears])).trans (if_pos (by simp [hg]))

theorem flitReceive_of_reserved (hg : flitGood f = true) (ht : 4 ≤ (flitHead f).ftype) :
    flitReceive l f s = (s.flitCounted l f).countLink l .lkBadFtype := by
  cases l <;> exact (if_neg (by simp [hears])).trans <| (if_neg (by simp [hg])).trans (if_pos ht)

theorem flitReceive_of_up (hg : flitGood f = true) (ht : (flitHead f).ftype < 4)
    (hu : (s.flitCounted l f).linkUp l = true) : flitReceive l f s = (s.flitCounted l f).flitIn l f := by
  cases l <;> exact (if_neg (by simp [hears])).trans <| (if_neg (by simp [hg])).trans <|
    (if_neg (Nat.not_le.mpr ht)).trans (if_pos hu)
end

theorem flitReceive_of_training {p : Nat} (hears : s.hears (.port p) = true) (hg : flitGood f = true)
    (ht : (flitHead f).ftype < 4) (hu : (s.flitCounted (.port p) f).linkUp (.port p) = false) :
    flitReceive (.port p) f s = (s.flitCounted (.port p) f).initIn p f :=
  (if_neg (by simp [hears])).trans <| (if_neg (by simp [hg])).trans <| (if_neg (Nat.not_le.mpr ht)).trans
    (if_neg (ne_true_of_eq_false hu))

/-! ### Packet items and acknowledgements (R100, R104, R110) -/

/-- Whether an item of a link's receive buffer may move into the cell buffer (R125). -/
def State.rxFree (s : State) (l : Link) (x : RxItem) : Bool := x.vc + 1 == s.vcs l || !s.rxHeld l

theorem packetItemAccept_of_found {x : RxItem} (h : (s.linkSt l).items.find? (s.rxFree l) = some x) :
    packetItemAccept l s = s.modLink l fun k => { k with
      items := k.items.eraseP (s.rxFree l), moved := k.moved ++ [x]
      inUse := tmod 0 k.inUse x.vc (· - x.blocks), freed := tmod 0 k.freed x.vc (· + x.blocks) } := by
  unfold packetItemAccept
  extract_lets ok
  rw [show ok = s.rxFree l from rfl, h]

theorem packetItemAccept_of_none (h : (s.linkSt l).items.find? (s.rxFree l) = none) : packetItemAccept l s = s := by
  unfold packetItemAccept
  extract_lets ok
  rw [show ok = s.rxFree l from rfl, h]

theorem ackDue_of_owed (hu : s.linkUp l = true) (hs : (s.linkSt l).stopped = false)
    (ho : s.operates (linkTile l) = true) (ha : s.ackOwed l = true) : ackDue l s =
      if s.canSendData l = true ∧ (s.linkSt l).waiting ≠ 0 then s.sendFlits l 1 1 else s.sendAck l := by
  unfold ackDue
  rw [if_neg (by simp [hu, hs, ho, ha])]
  simp only [Bool.and_eq_true, bne_iff_ne]

/-! ### Replay and escalation (R106, R107) -/

theorem replayTimeout_of_outstanding (hu : s.linkUp l = true) (hs : (s.linkSt l).stopped = false)
    (hn : (s.linkSt l).outst ≠ []) (ho : s.operates (linkTile l) = true) :
    let u := s.countLink l .lkTimeout
    let n := u.timeouts l + 1
    replayTimeout l s = if n < 4 then (u.setEsc l n (u.retrains l)).resend l
      else if u.retrains l < 3 then
        ((u.setEsc l 0 (u.retrains l + 1)).setStopped l true).modLink l fun k => { k with idleEsc := true }
      else u.linkFail l :=
  if_neg (by simp [hu, hs, hn, ho])

/-! ### The end of a retrain (R64, R107) -/

theorem linkRetrainDone_of_failed (hu : s.linkUp l = true) (hs : (s.linkSt l).stopped = true) (width : Nat) :
    linkRetrainDone l false width s = s.linkFail l :=
  (if_neg (by simp [hu, hs])).trans (if_pos rfl)

theorem linkRetrainDone_xing {n g : Nat} (hu : s.linkUp (.xing n g) = true) (hs : (s.linkSt (.xing n g)).stopped = true)
    (width : Nat) : linkRetrainDone (.xing n g) true width s = (s.setStopped (.xing n g) false).resend (.xing n g) :=
  (if_neg (by simp [hu, hs])).trans (if_neg (by decide))

theorem linkRetrainDone_port {p : Nat} (hu : s.linkUp (.port p) = true) (hs : (s.linkSt (.port p)).stopped = true)
    (width : Nat) : linkRetrainDone (.port p) true width s = s.portRetrained p width :=
  (if_neg (by simp [hu, hs])).trans (if_neg (by decide))
end

/-- Settles O16: the branches of the meanings, by what a flit is and whether its link is up, by the count of time-outs, and
by the lanes that a retrain finds good. -/
theorem vflLinkLayer : Obligations.VflLinkLayer := by
  intro s
  refine ⟨?receive, ?deaf, ?item, ?ack, ?replay, ?failed, ?crossing, ?port⟩
  case receive =>
    intro l f hl a u h b c
    have hu : s.flitCounted l f = u := by cases l <;> rfl
    have hc : u.flitIn l f = if h.ftype = 2 then c.each (ackCounts (flitBody f)) fun z x => z.creditIn l x.1 x.2
        else if h.ftype = 1 then c.dataIn l h.seq (flitBody f) else c := rfl
    rw [← hc, ← hu]
    refine ⟨fun hg => congrArg Host.Outcome.next (flitReceive_of_bad hl hg),
      fun hg ht => congrArg Host.Outcome.next (flitReceive_of_reserved hl hg ht),
      fun hg ht hup => congrArg Host.Outcome.next (flitReceive_of_up hl hg ht hup), ?_⟩
    rintro p rfl hg ht hup
    exact congrArg Host.Outcome.next (flitReceive_of_training hl hg ht hup)
  case deaf => exact fun l f h => congrArg Host.Outcome.next (flitReceive_of_deaf h)
  case item =>
    exact fun l => ⟨fun x h => congrArg Host.Outcome.next (packetItemAccept_of_found h),
      fun h => congrArg Host.Outcome.next (packetItemAccept_of_none h)⟩
  case ack => exact fun l hu hs ho ha => congrArg Host.Outcome.next (ackDue_of_owed hu hs ho ha)
  case replay =>
    intro l hu hs hn ho u n
    have hx := replayTimeout_of_outstanding hu hs hn ho
    exact ⟨fun h4 => congrArg Host.Outcome.next (hx.trans (if_pos h4)),
      fun h4 h3 => congrArg Host.Outcome.next (hx.trans ((if_neg (Nat.not_lt.mpr h4)).trans (if_pos h3))),
      fun h4 h3 => congrArg Host.Outcome.next (hx.trans ((if_neg (Nat.not_lt.mpr h4)).trans (if_neg (Nat.not_lt.mpr h3))))⟩
  case failed => exact fun l width hu hs => congrArg Host.Outcome.next (linkRetrainDone_of_failed hu hs width)
  case crossing => exact fun n g width hu hs => congrArg Host.Outcome.next (linkRetrainDone_xing hu hs width)
  case port =>
    intro p width hu hs lanes good w no
    have hx := linkRetrainDone_port hu hs width
    have hno : (w < 3 || ((lanes.take (widthLanes (s.fld (portStatus p) 3 1))).any (fun l => !good l) &&
        !s.flag (pbBase (pbOf p) + 0x1090) 18)) = true ↔ no := by
      simp only [no, Bool.or_eq_true, Bool.and_eq_true, Bool.not_eq_true', decide_eq_true_iff]
    exact ⟨fun h => congrArg Host.Outcome.next (hx.trans (if_pos (hno.mpr h))),
      fun h => congrArg Host.Outcome.next (hx.trans (if_neg (mt hno.mp h)))⟩

end Sys2Proof.Machine

/-! The injections of LK_INJECT, the wires of a crossing, and the crossings that go down. -/

namespace Sys2Proof.Machine

/-! ### Injection (R121) -/

section
variable {s : State} {port : Nat}

theorem State.lkInject_of_down (v : Word) (h : s.linkUp (.port port) = false) : s.lkInject port v = s :=
  if_pos (by simp [h])

section
variable (hup : s.linkUp (.port port) = true)
include hup

theorem State.lkInject_of_up (v : Word) : s.lkInject port v = s.modLink (.port port) fun k => { k with
    badCrc := k.badCrc || bit v 0, dropAck := k.dropAck || bit v 1, staleCredit := k.staleCredit || bit v 2
    skipSeq := k.skipSeq || bit v 3, fecSym := if field v 6 4 = 0 then k.fecSym else field v 6 4 } :=
  if_neg (by simp [hup])

theorem State.lkInject_links (v : Word) : s.lkInject port v = { s with links := (s.lkInject port v).links } := by
  rw [State.lkInject_of_up hup]
  rfl

theorem State.linkSt_lkInject (v : Word) : (s.lkInject port v).linkSt (.port port) =
    let k := s.linkSt (.port port)
    { k with
      badCrc := k.badCrc || bit v 0, dropAck := k.dropAck || bit v 1, staleCredit := k.staleCredit || bit v 2
      skipSeq := k.skipSeq || bit v 3, fecSym := if field v 6 4 = 0 then k.fecSym else field v 6 4 } := by
  rw [State.lkInject_of_up hup, State.linkSt_modLink_self]
end
end

/-! ### Wires of a crossing (R118, R119) -/

/-- Both ends of a crossing retrain. -/
def State.endsRetrain (s : State) (n g u : Nat) : State :=
  (s.otherRetrain (.xing n g)).otherRetrain (.xing u (xgGroup u n))

/-- A crossing runs on half its wires: HALF on both ends, seen by both tiles, with its record. -/
def State.xgHalved (s : State) (n g u x : Nat) : State :=
  ((((s.setFlag (xgStatus n g) 1 true).setFlag (xgStatus u (xgGroup u n)) 1 true).seeXg n x 1).seeXg u x 1).xgRecord x 1

section
variable {s : State} {n g u : Nat} (hpeer : xgPeer n g = some u)
include hpeer

theorem wireFailure_of_used {x w : Nat} (hx : s.part.xgOf n g = some x) (hup : s.xgUp x = true) (hn : s.here n = true)
    (hw : w < 672) (hused : (s.linkSt (.xing n g)).wireUsed w = true) :
    let v := s.mapWire n g u w
    wireFailure n g w s =
      if s.fld (xgStatus n g) 13 8 < 32 then (v.countLink (.xing n g) .xgWireRepair).endsRetrain n g u
      else if !v.mayHalve n g then v.crossingDown x
      else if v.flag (xgStatus n g) 1 then v.endsRetrain n g u
      else (v.xgHalved n g u x).endsRetrain n g u := by
  unfold wireFailure State.wireFails
  rw [hpeer, hx]
  refine (if_neg (by simp [hup, hn, hw, hused])).trans ?_
  simp only [decide_eq_true_iff]
  rfl

theorem wireRepairDone_of_peer : wireRepairDone n g s =
    s.each [Link.xing n g, Link.xing u (xgGroup u n)] fun z l =>
      if z.linkUp l && (z.linkSt l).stopped then (z.setStopped l false).resend l else z := by
  unfold wireRepairDone
  rw [hpeer]

theorem State.xgCtrlAct_of_peer (v : Word) : s.xgCtrlAct n g v =
    let w := s.plainWrite (xgCtrl n g) v
    if bit v 26 then w.wireFails u (xgGroup u n) (field v 25 16) else w := by
  unfold State.xgCtrlAct
  rw [hpeer]
end

/-! ### A crossing that goes down (R113, R345) -/

theorem xgGroup_le_two (t u : Nat) : xgGroup t u ≤ 2 := by
  unfold xgGroup
  split
  · exact le_rfl
  · split <;> omega

theorem endGroup_le_two (x t : Nat) : endGroup x t ≤ 2 := by
  unfold endGroup
  split <;> exact xgGroup_le_two ..

/-- The status word of an end of a crossing. -/
abbrev endStatus (x t : Nat) : Nat := xgStatus t (endGroup x t)

theorem endStatus_ne_meshStatus (x n t : Nat) : endStatus x n ≠ meshStatus t := by
  have := endGroup_le_two x n
  simp only [xgStatus, xgCtrl, meshStatus, tileBase]
  omega

theorem State.lt_ten_of_xgThere {s : State} {x : Nat} (h : s.xgThere x = true) : x < 10 := by
  simp only [State.xgThere, Bool.and_eq_true, decide_eq_true_iff] at h
  exact h.1.1

theorem State.flag_seeXg (s : State) {t x st o : Nat} (hx : x < 10) (h : o ≠ meshStatus t) (m : Nat) :
    (s.seeXg t x st).flag o m = s.flag o m := by
  unfold State.seeXg
  rw [State.flag_setFlag _ _ _ _ _ (by omega), State.flag_setFlag _ _ _ _ _ (by omega)]
  simp [h]

/-- One end of a crossing goes down. -/
def State.endDown (s : State) (x t : Nat) : State :=
  ((((s.setFlag (endStatus x t) 0 false).setFld (endStatus x t) 18 14 0).sticky (endStatus x t) 19).modLink
    (.xing t (endGroup x t)) fun k => { wires := k.wires }).seeXg t x 2

theorem State.endDown_changes (s : State) (x t : Nat) : Changes [.links, .live] s (s.endDown x t) :=
  Changes.refl.setFlag.setFld.sticky.modLink.seeXg.within (by decide)

@[simp] theorem State.flag_modLink (s : State) (l : Link) (f : LinkSt → LinkSt) (o m : Nat) :
    (s.modLink l f).flag o m = s.flag o m := (rfl)

theorem State.flag_endDown (s : State) {x t o m : Nat} (hx : x < 10) (ho : o ≠ meshStatus t) (hm : m < 14 ∨ 18 < m) :
    (s.endDown x t).flag o m =
      if o = endStatus x t ∧ m = 19 then true else if o = endStatus x t ∧ m = 0 then false else s.flag o m := by
  unfold State.endDown
  rw [State.flag_seeXg _ hx ho, State.flag_modLink, State.flag_sticky _ _ _ _ (by decide),
    State.flag_setFld_of_outside _ _ (by decide) (by decide) (.inr hm), State.flag_setFlag _ _ _ _ _ (by decide)]

/-- An end of a crossing is down: UP is clear, and the sticky down bit is set. -/
def State.endIsDown (s : State) (x t : Nat) : Prop :=
  s.flag (endStatus x t) 0 = false ∧ s.flag (endStatus x t) 19 = true

theorem State.endDown_endIsDown (s : State) {x : Nat} (hx : x < 10) (t : Nat) : (s.endDown x t).endIsDown x t := by
  have hne := endStatus_ne_meshStatus x t t
  constructor
  · simp [s.flag_endDown hx hne]
  · simp [s.flag_endDown hx hne]

theorem State.endIsDown.endDown {s : State} {x n : Nat} (hx : x < 10) (h : s.endIsDown x n) (t : Nat) :
    (s.endDown x t).endIsDown x n := by
  have hne := endStatus_ne_meshStatus x n t
  obtain ⟨hup, hdown⟩ := h
  constructor
  · simp [s.flag_endDown hx hne, hup]
  · simp [s.flag_endDown hx hne, hdown]

/-- Both ends of a crossing go down. -/
def State.endsDown (s : State) (x : Nat) : State := (s.endDown x (xgEnds x).1).endDown x (xgEnds x).2

theorem State.endsDown_changes (s : State) (x : Nat) : Changes [.links, .live] s (s.endsDown x) :=
  ((s.endDown_changes x _).andThen (State.endDown_changes _ x _)).within (by decide)

theorem State.endsDown_isDown (s : State) {x : Nat} (hx : x < 10) {n : Nat} (h : n ∈ [(xgEnds x).1, (xgEnds x).2]) :
    (s.endsDown x).endIsDown x n := by
  rcases List.mem_pair.mp h with rfl | rfl
  · exact (s.endDown_endIsDown hx _).endDown hx _
  · exact State.endDown_endIsDown _ hx _

theorem Changes.core_eq {C : List Comp} {z s : State} (h : Changes C z s) (hC : .core ∉ C) : s.core = z.core := h .core hC

theorem State.modCore_of_same {s : State} {f : CoreSt → CoreSt} (h : f s.core = s.core) : s.modCore f = s := by
  unfold State.modCore
  rw [h]

/-- With no packet on it, a crossing that goes down ends no packet. -/
theorem State.crossingDown_of_empty {s : State} {x : Nat} (hthere : s.xgThere x = true) (hup : s.xgUp x = true)
    (hlocks : s.core.locks = []) : s.crossingDown x = (s.endsDown x).xgRecord x 2 := by
  unfold State.crossingDown
  rw [if_neg (by simp [hthere, hup])]
  extract_lets u cut v
  have hu : u = s.endsDown x := rfl
  have hlocksDown : u.core.locks = [] := by
    rw [hu, (s.endsDown_changes x).core_eq (by decide), hlocks]
  have hcut : cut = [] := by simp only [cut, hlocksDown, List.filter_nil]
  have hv : v = u := by simp only [v, hcut, State.each, List.foldl_nil]
  rw [hv, State.modCore_of_same, hu]
  simp only [hcut, List.contains_nil, Bool.not_false, List.filter_true]

theorem crossingStateNotice_of_present {s : State} {n x : Nat} (hn : s.here n = true) (hthere : s.xgThere x = true)
    (st : Nat) :
    let v := s.seeXg n x (min st 2)
    crossingStateNotice n x st s = v.each (v.present.filter (· != n)) fun z u =>
      if z.flag (meshStatus n) u && !(z.xgsOf u).isEmpty && (z.xgsOf u).all fun y => !z.flag (meshStatus n) (8 + y) then
        z.loseTileAs u (z.railsOk u)
      else z :=
  if_neg (by simp [hn, hthere])

/-- Settles O17: the branches of the meanings; an injection is read off the one update of the link that a write of LK_INJECT
makes, and a crossing with no packet on it goes down at its two ends only. -/
theorem vflInjectionsAndWires : Obligations.VflInjectionsAndWires := by
  intro s
  refine ⟨?badCrc, ?dropAck, ?staleCredit, ?skipSeq, ?fecSym, ?linkDown, ?wire, ?repaired, ?wireInject, ?bulkLoss,
    ?bulkLossAny, ?notice⟩
  case badCrc =>
    exact fun port v h => ⟨_, rfl, by simp [State.linkSt_lkInject h, bit], State.lkInject_links h _⟩
  case dropAck =>
    exact fun port v h => ⟨_, rfl, by simp [State.linkSt_lkInject h, bit], State.lkInject_links h _⟩
  case staleCredit =>
    exact fun port v h => ⟨_, rfl, by simp [State.linkSt_lkInject h, bit], State.lkInject_links h _⟩
  case skipSeq =>
    exact fun port v h => ⟨_, rfl, by simp [State.linkSt_lkInject h, bit], State.lkInject_links h _⟩
  case fecSym =>
    exact fun port v h => ⟨_, rfl, by rw [State.linkSt_lkInject h], State.lkInject_links h _⟩
  case linkDown =>
    intro port v h
    have idle (w : Word) : (.next (s.lkInject port w) : Out) = .next s :=
      congrArg Host.Outcome.next (s.lkInject_of_down w h)
    exact ⟨idle _, idle _, idle _, idle _, idle _⟩
  case wire =>
    intro n g w u x hpeer hx hup hn hw hused h v both b
    have hfail := wireFailure_of_used hpeer hx hup hn hw hused
    have spent (h32 : 32 ≤ s.fld (xgStatus n g) 13 8) := hfail.trans (if_neg (Nat.not_lt.mpr h32))
    have halves (h32 : 32 ≤ s.fld (xgStatus n g) 13 8) (hm : v.mayHalve n g = true) :=
      (spent h32).trans (if_neg (ne_true_of_eq_false (congrArg not hm)))
    exact ⟨fun h32 => congrArg Host.Outcome.next (hfail.trans (if_pos h32)),
      fun h32 hm => congrArg Host.Outcome.next ((spent h32).trans (if_pos (congrArg not hm))),
      fun h32 hm hh => congrArg Host.Outcome.next ((halves h32 hm).trans (if_pos hh)),
      fun h32 hm hh => congrArg Host.Outcome.next ((halves h32 hm).trans (if_neg (ne_true_of_eq_false hh)))⟩
  case repaired => exact fun n g u hpeer => congrArg Host.Outcome.next (wireRepairDone_of_peer hpeer)
  case wireInject =>
    intro n g v u hn hx hpeer
    exact congrArg Host.Outcome.next ((if_pos (by simp [hn, hx])).trans (State.xgCtrlAct_of_peer hpeer v))
  case bulkLoss =>
    intro x hthere hup hlocks
    have hx := State.lt_ten_of_xgThere hthere
    have hchg := s.endsDown_changes x
    exact ⟨_, congrArg Host.Outcome.next (State.crossingDown_of_empty hthere hup hlocks),
      fun n h => s.endsDown_isDown hx h, hchg .pkts (by decide), hchg.setsKept (by decide) (by decide)⟩
  case bulkLossAny => exact fun x => rfl
  case notice =>
    exact fun n x st hn hthere =>
      congrArg (fun z : State => (.next z.pump : Out)) (crossingStateNotice_of_present hn hthere st)

end Sys2Proof.Machine

/-! The switch core: cell slots, admissions, tickets and path weights, numbers at egress, and the ticket mailbox. -/

namespace Sys2Proof.Machine

/-! ### Admission and tickets (R125, R128) -/

section
variable {s : State} {n k : Nat} {p : Packet}

theorem admissionRetry_of_found (hp : s.pkt k = some p) (ht : p.tile = n) (ho : s.operates n = true) :
    admissionRetry n k s = if s.admissible p then (s.admitPkt p).resumePieces n else s := by
  simp only [admissionRetry, hp]
  by_cases hadm : s.admissible p = true
  · rw [if_neg (by simp [ht, ho, hadm]), if_pos hadm]
  · rw [if_pos (by simp [hadm]), if_neg hadm]

theorem execAdmissionRetry_of_port {port : Nat} (hp : s.pkt k = some p) (hin : p.inPort = some port) :
    execAdmissionRetry n k s = .next ((admissionRetry n k s).creditOut port).releaseArrivals := by
  simp [execAdmissionRetry, hp, hin]

theorem execAdmissionRetry_of_noPort (hp : s.pkt k = some p) (hin : p.inPort = none) :
    execAdmissionRetry n k s = .next (admissionRetry n k s).releaseArrivals := by
  simp [execAdmissionRetry, hp, hin]

theorem ticketReturn_of_ahead {u d count got : Nat} (hn : s.here n = true) (hu : s.here u = true) (hd : destTile d = u)
    (hne : n ≠ u) (hgot : modSub (2 ^ 24) count (tget 0 s.core.acceptedCount (destKey n d)) = got) (hpos : 0 < got)
    (hhalf : got < 2 ^ 23) : ticketReturn n u d count s = s.modCore fun c => { c with
      spent := tmod 0 c.spent (destKey n d) (· - got)
      acceptedCount := tset 0 c.acceptedCount (destKey n d) (count % 2 ^ 24) } := by
  simp only [ticketReturn, hgot]
  exact if_neg (by simpa [hn, hu, hd, hne, hpos.ne'] using hhalf)

theorem ticketReturn_of_notAhead (u : Nat) {d count got : Nat}
    (hgot : modSub (2 ^ 24) count (tget 0 s.core.acceptedCount (destKey n d)) = got) (h : got = 0 ∨ 2 ^ 23 ≤ got) :
    ticketReturn n u d count s = s := by
  simp only [ticketReturn, hgot]
  rcases h with h0 | hhalf
  · exact if_pos (by simp [h0])
  · exact if_pos (by simpa using .inr hhalf)

end

/-! ### Numbers at egress (R138, R140) -/

section
variable {s : State} {n src d k : Nat}

theorem egressArrival_of_arriving {p : Packet} (hp : s.pkt k = some p) (ht : p.tile = n) (hl : p.loc = .arriving)
    (ho : s.operates n = true) :
    egressArrival n k s =
      ((s.modPkt k fun q => { q with loc := .egress, held := q.seqs.map (·.1) }).toEnd k).each p.seqs fun v x =>
        v.arriveOne p x.1 x.2 := by
  simp only [egressArrival, hp]
  exact if_neg (by simp [ht, hl, ho])

theorem voidNotice_of_inFlight (ho : s.operates n = true) (hd : destTile d = n)
    (hfl : (s.core.flights.any fun f => f.stream == src && f.dest == d && f.seqNo == k) = true)
    (hpk : (s.pkts.any fun p => p.src == src && p.seqs.contains (d, k)) = false) :
    voidNotice n src d k s = ((s.endFlight src d k true).sticky (tileBase n + 0x6018) 18).numberHere src d k :=
  if_neg (by simp only [ho, hd, hfl, hpk]; simp)

theorem reorderGapTimeout_of_waiting (ho : s.operates n = true) (hd : destTile d = n)
    (hw : tget [] s.core.arrived (streamKey src d) ≠ []) :
    let x := tget 0 s.core.expected (streamKey src d)
    reorderGapTimeout n src d s =
      (((s.endFlight src d x true).sticky (tileBase n + 0x6018) 17).count n .tlReorderGap).numberHere src d x :=
  if_neg (by simp [ho, hd, hw])

end

/-! ### The ticket mailbox (R147) -/

theorem ticketQueryDone_of_here {s : State} (agent : Nat) {n : Nat} (hn : s.here n = true) :
    ticketQueryDone agent n s = (s.setLv (ticketSel agent n + 4) (BitVec.ofNat 32
      (s.ticketsLeft n (field (s.lv (ticketSel agent n)) 2 0) (field (s.lv (ticketSel agent n)) 6 3)))).setFlag
        (ticketSel agent n) 31 true := if_neg (by simp [hn])

/-- Settles O18: the branches of the meanings; the answer to a ticket query is the next word of the mailbox, apart from its
VALID. -/
theorem switchCoreSteps : Obligations.SwitchCoreSteps := by
  intro s
  refine ⟨?slot, ?retry, ?returned, ?notAhead, ?spray, ?noSpray, ?arrival, ?voided, ?gap, ?query, ?queryDone⟩
  case slot => exact fun n ho => congrArg Host.Outcome.next (if_neg (by simp [ho]))
  case retry =>
    intro n k p hp ht ho a
    have ha : admissionRetry n k s = a := admissionRetry_of_found hp ht ho
    cases hin : p.inPort with
    | some port =>
      exact (execAdmissionRetry_of_port hp hin).trans
        (congrArg (fun v : State => (.next (v.creditOut port).releaseArrivals : Out)) ha)
    | none =>
      exact (execAdmissionRetry_of_noPort hp hin).trans
        (congrArg (fun v : State => (.next v.releaseArrivals : Out)) ha)
  case returned =>
    exact fun n u d k hn hu hd hne hpos hhalf =>
      congrArg Host.Outcome.next (ticketReturn_of_ahead hn hu hd hne rfl hpos hhalf)
  case notAhead => exact fun n u d k h => congrArg Host.Outcome.next (ticketReturn_of_notAhead u rfl h)
  case spray => exact fun n hn hf => congrArg Host.Outcome.next (if_neg (by simp [hn, hf]))
  case noSpray => exact fun n hf => congrArg Host.Outcome.next (if_pos (by simp [hf]))
  case arrival => exact fun n k p hp ht hl ho => congrArg Host.Outcome.next (egressArrival_of_arriving hp ht hl ho)
  case voided =>
    exact fun n src d k ho hd hfl hpk => congrArg Host.Outcome.next (voidNotice_of_inFlight ho hd hfl hpk)
  case gap => exact fun n src d ho hd hw => congrArg Host.Outcome.next (reorderGapTimeout_of_waiting ho hd hw)
  case query => exact fun agent n v hn => congrArg Host.Outcome.next (if_pos hn)
  case queryDone =>
    intro agent n hn
    exact ⟨_, congrArg Host.Outcome.next (ticketQueryDone_of_here agent hn), State.flag_setFlag_self _ _ _ (by decide),
      (State.lv_setFlag_ne _ _ _ (by omega)).trans (State.lv_setLv_self ..), State.regsKept.refl.setLv.setFlag, ⟨rfl, rfl⟩,
      rfl, rfl⟩

end Sys2Proof.Machine

/-! Requests that enter a port: of a host, of a bound function, and for the configuration of a partition. -/

namespace Sys2Proof.Machine

/-! ### A port on which nothing can arrive (R81) -/

theorem State.rxTlp_of_dead {s : State} {port : Nat} (h : s.live? port = false) (cls n : Nat) : s.rxTlp port cls n = s :=
  if_pos (by simp [h])

theorem State.creditOut_of_dead {s : State} {port : Nat} (h : s.live? port = false) : s.creditOut port = s :=
  if_pos (by simp [h])

theorem State.tlpIn_of_dead {s : State} {port : Nat} {f : State → State} (h : s.live? port = false) (hf : f s = s)
    (cls n : Nat) : s.tlpIn port cls n f = s := by
  rw [State.tlpIn, State.rxTlp_of_dead h, hf, State.creditOut_of_dead h]

/-! ### A host's memory request (R160) -/

section
variable {u : State} {port p : Nat} {r : Req}

theorem hostMemoryRequest_of_dead (h : u.live? port = false) : hostMemoryRequest port r u = u :=
  if_pos (by simp [h])

theorem hostMemoryRequest_of_held (hl : u.live? port = true) (hh : u.ingressHeld port = true) :
    hostMemoryRequest port r u = u.hold (.hostMemoryRequest port r) :=
  (if_neg (by simp [hl])).trans (if_pos hh)

theorem hostMemoryRequest_of_live (hl : u.live? port = true) (hh : u.ingressHeld port = false)
    (hp : u.partOfUp (u.tileEpoch (tileOf port)) port = some p) :
    hostMemoryRequest port r u = u.hostRequest port p r := by
  unfold hostMemoryRequest
  rw [if_neg (by simp [hl]), if_neg (by simp [hh]), hp]

/-- The packet of a memory request of partition `p`'s host. -/
def State.hostPacket (u : State) (port p : Nat) (r : Req) : Packet :=
  let e := u.tileEpoch (tileOf port)
  reqPacket e r (.host p) (some p) (u.seatOf e p (.host r.rid) r.pasid) (reqOwed r (u.partRo e p))

/-- The BAR that a host's memory request hits: a multicast write hits none. -/
def State.hostBar (u : State) (port p : Nat) (r : Req) : Option Nat :=
  if r.mc.isSome && r.kind == .memWrite then none else u.barOf (u.tileEpoch (tileOf port)) p r.addr.toNat

/-- Whether the partition or the seat of a host's memory request is in blackout. -/
def State.hostAskDark (u : State) (port p : Nat) (r : Req) : Bool :=
  u.partBlack (tileOf port) p ||
    (u.seatOf (u.tileEpoch (tileOf port)) p (.host r.rid) r.pasid).any fun k => u.seatBlack (tileOf port) k

/-- Where a host's memory request goes that hits no BAR: `u` is the state in which it entered, `v` the one in which its
poison is noted. -/
def State.hostRoute (u v : State) (port p : Nat) (r : Req) : State :=
  let t := tileOf port
  let e := u.tileEpoch t
  let q := u.hostPacket port p r
  if u.hostAskDark port p r then v.endHere port { q with ports := v.leavesBy e p r.addr.toNat } .blackout
  else match (if r.kind == .memWrite then r.mc else none), v.amapHit e p r.addr.toNat with
    | some g, _ => v.multicast port p 32 g q
    | none, some x => v.toFunction port
        { q with body := .req { noEcrc r with addr := BitVec.ofNat 64 (v.amapTo e x r.addr.toNat) } } (v.amapFunc e x)
    | none, none => ((v.count t .tlUnrouted (some port)
        (u.seatOf e p (.host r.rid) r.pasid)).logAer p 32 .unsupportedRequest).unsupported port q

theorem State.hostRequest_of_bad {b : State} (hb : u.badTlp port p 32 r (u.mps p) = some b) :
    u.hostRequest port p r = b := by
  unfold State.hostRequest
  rw [hb]

section
variable (hb : u.badTlp port p 32 r (u.mps p) = none)
include hb

theorem State.hostRequest_of_io (hk : r.kind = .ioRequest) :
    u.hostRequest port p r = u.unsupported port (u.hostPacket port p r) := by
  unfold State.hostRequest
  rw [hb]
  exact if_pos hk

theorem State.hostRequest_of_bar (hk : r.kind ≠ .ioRequest) {b : Nat} (hbar : u.hostBar port p r = some b) :
    u.hostRequest port p r =
      if u.here (u.homeTile (u.tileEpoch (tileOf port)) p) then
        u.barAccess (u.tileEpoch (tileOf port)) p (.host r.rid) true r b
      else u.endHere port (u.hostPacket port p r) .tileLost := by
  unfold State.hostBar at hbar
  unfold State.hostRequest
  simp only [hb, if_neg hk, hbar]
  rfl

theorem State.hostRequest_of_noBar (hk : r.kind ≠ .ioRequest) (hbar : u.hostBar port p r = none) :
    u.hostRequest port p r = u.hostRoute (u.notePoison port p 32 r.poisoned) port p r := by
  unfold State.hostBar at hbar
  unfold State.hostRequest
  simp only [hb, if_neg hk, hbar]
  rfl
end

variable {v : State}

theorem State.hostRoute_of_dark (h : u.hostAskDark port p r = true) : u.hostRoute v port p r = v.endHere port
    { u.hostPacket port p r with ports := v.leavesBy (u.tileEpoch (tileOf port)) p r.addr.toNat } .blackout :=
  if_pos h

section
variable (hd : u.hostAskDark port p r = false)
include hd

theorem State.hostRoute_of_group {g : Nat} (hg : (if r.kind == .memWrite then r.mc else none) = some g) :
    u.hostRoute v port p r = v.multicast port p 32 g (u.hostPacket port p r) := by
  unfold State.hostRoute
  rw [if_neg (by simp [hd]), hg]

variable (hg : (if r.kind == .memWrite then r.mc else none) = none)
include hg

theorem State.hostRoute_of_entry {x : Nat} (hx : v.amapHit (u.tileEpoch (tileOf port)) p r.addr.toNat = some x) :
    u.hostRoute v port p r = v.toFunction port { u.hostPacket port p r with body := .req { noEcrc r with
      addr := BitVec.ofNat 64 (v.amapTo (u.tileEpoch (tileOf port)) x r.addr.toNat) } }
        (v.amapFunc (u.tileEpoch (tileOf port)) x) := by
  unfold State.hostRoute
  rw [if_neg (by simp [hd]), hg, hx]

theorem State.hostRoute_of_noEntry (hx : v.amapHit (u.tileEpoch (tileOf port)) p r.addr.toNat = none) :
    u.hostRoute v port p r = ((v.count (tileOf port) .tlUnrouted (some port)
      (u.seatOf (u.tileEpoch (tileOf port)) p (.host r.rid) r.pasid)).logAer p 32 .unsupportedRequest).unsupported port
        (u.hostPacket port p r) := by
  unfold State.hostRoute
  rw [if_neg (by simp [hd]), hg, hx]
end
end

/-! ### A bound function's memory request (R161) -/

section
variable {u : State} {port : Nat} {r : Req}

theorem functionMemoryRequest_of_dead (h : u.live? port = false) : functionMemoryRequest port r u = u :=
  if_pos (by simp [h])

section
variable (hl : u.live? port = true) (hv : u.isVfl (u.tileEpoch (tileOf port)) port = false)
  (hp : u.partOfUp (u.tileEpoch (tileOf port)) port = none)
include hl hv hp

theorem functionMemoryRequest_of_held (hh : u.ingressHeld port = true) :
    functionMemoryRequest port r u = u.hold (.functionMemoryRequest port r) :=
  (if_neg (by simp [hl, hv, hp])).trans (if_pos hh)

theorem functionMemoryRequest_of_live (hh : u.ingressHeld port = false) :
    functionMemoryRequest port r u = u.functionRequest port r :=
  (if_neg (by simp [hl, hv, hp])).trans (if_neg (by simp [hh]))
end

/-- The packet of a request that entered on a downstream port, before its function is known. -/
def State.barePacket (u : State) (port : Nat) (r : Req) : Packet :=
  reqPacket (u.tileEpoch (tileOf port)) r (.port port) none none true

/-- Discard on a downstream port: a malformed request, or one of bad ECRC, seen at the owner's virtual port. -/
def State.slotBad (u : State) (port : Nat) (r : Req) : Option State :=
  let e := u.tileEpoch (tileOf port)
  u.badTlp port (u.slotOwner e port) ((u.vdpOf e (u.slotOwner e port) port).getD 0) r (u.portMps e port)

/-- What becomes of a sound request of function `f`. -/
def State.functionOf (u : State) (port : Nat) (r : Req) (f : Nat) : State :=
  let e := u.tileEpoch (tileOf port)
  let p := u.bindPart e f
  let d := u.bindVdp e f
  let own := u.slotOwner e port
  let bare := u.barePacket port r
  let a := u.logAer p d .acsViolation
  if u.bindSw e f = u.switchNum e then
    if r.atBits ≠ 0 then a.unsupported port { bare with seat := a.seatOf e p (.func f) r.pasid }
    else
      let q := reqPacket e r (.func f) (some p) (u.seatOf e p (.func f) r.pasid) (reqOwed r (u.partRo e p))
      if u.vdpDark e p d then u.endHere port q .blackout else u.functionRoute port f r q
  else
    if r.atBits ≠ 0 then u.unsupported port { bare with seat := none }
    else (u.notePoison port own ((u.vdpOf e own port).getD 0) r.poisoned).sendFar port bare
      (fidOf (u.bindSw e f) (u.bindUp e f))

theorem State.functionRequest_of_bad {b : State} (hb : u.slotBad port r = some b) : u.functionRequest port r = b := by
  unfold State.slotBad at hb
  unfold State.functionRequest
  simp only [hb]

section
variable (hb : u.slotBad port r = none)
include hb

theorem State.functionRequest_of_noSource (hs : u.srcFunc (u.tileEpoch (tileOf port)) port r.rid = none) :
    u.functionRequest port r = u.srcInvalid port (u.barePacket port r) := by
  unfold State.slotBad at hb
  unfold State.functionRequest
  simp only [hb, hs]
  rfl

theorem State.functionRequest_of_source {f : Nat} (hs : u.srcFunc (u.tileEpoch (tileOf port)) port r.rid = some f) :
    u.functionRequest port r = u.functionOf port r f := by
  unfold State.slotBad at hb
  unfold State.functionRequest State.functionOf
  simp only [hb, hs]
  by_cases hsw : u.bindSw (u.tileEpoch (tileOf port)) f = u.switchNum (u.tileEpoch (tileOf port))
  · simp only [hsw, decide_true, if_true]
    rfl
  · simp only [hsw, decide_false, if_false]
    rfl
end
end

/-! ### A host's configuration request (R153) -/

section
variable {u : State} {port p : Nat} {q : CfgReq}

theorem hostConfigRequest_of_dead (h : u.live? port = false) : hostConfigRequest port q u = u :=
  if_pos (by simp [h])

theorem hostConfigRequest_of_held (hl : u.live? port = true) (hh : u.ingressHeld port = true) :
    hostConfigRequest port q u = u.hold (.hostConfigRequest port q) :=
  (if_neg (by simp [hl])).trans (if_pos hh)

theorem hostConfigRequest_of_live (hl : u.live? port = true) (hh : u.ingressHeld port = false)
    (hp : u.partOfUp (u.tileEpoch (tileOf port)) port = some p) : hostConfigRequest port q u =
      if u.ecrcFails (u.tileEpoch (tileOf port)) port q.ecrcBad then
        (u.count (tileOf port) .ecrcErr (some port)).logAer p 32 .ecrc
      else if u.partBlack (tileOf port) p then
        u.synthUr (tileOf port) (u.tileEpoch (tileOf port)) false (.host p) q.rid q.tag 0
      else u.cfgRequest { port := port, e := u.tileEpoch (tileOf port), p := p, q := q } := by
  unfold hostConfigRequest
  rw [if_neg (by simp [hl]), if_neg (by simp [hh]), hp]

variable {k : CfgAsk}

theorem State.cfgRequest_of_type0 (h : k.q.type1 = false) : u.cfgRequest k =
    if k.q.devfn = 0 then u.cfgBridge k 32 else if k.q.devfn = 1 then u.cfgFab k else u.cfgUr k :=
  if_pos (by simp [h])

theorem State.cfgRequest_of_internalBus (h : k.q.type1 = true) (hb : k.q.bus = (u.vport k.p 32).sec) : u.cfgRequest k =
    if u.vdpEn k.e k.p (k.q.devfn / 8) = true ∧ k.q.devfn % 8 = 0 then u.cfgBridge k (k.q.devfn / 8) else u.cfgUr k :=
  (if_neg (by simp [h])).trans ((if_pos hb).trans (if_congr (by simp) rfl rfl))

theorem State.cfgRequest_of_otherBus (h : k.q.type1 = true) (hb : k.q.bus ≠ (u.vport k.p 32).sec) : u.cfgRequest k =
    match ((((List.range 32).filter fun d => u.vdpEn k.e k.p d).find? fun d => (u.vport k.p d).sec == k.q.bus).bind
        fun d => u.boundFn k.e k.p d k.q.devfn) with
      | some f => u.cfgBound k f
      | none => u.cfgUr k :=
  (if_neg (by simp [h])).trans (if_neg hb)

end

/-- Settles O19: for each request the branches of its meaning, on the state in which its arrival is acknowledged. -/
theorem requestsEnteringAPort : Obligations.RequestsEnteringAPort := by
  intro s
  refine ⟨?host, ?function, ?config, ?dead, ?heldMemory, ?heldConfig⟩
  case host =>
    intro port p r u e hl hh hp seat q dark grp bar v gives
    have gives_of {w} (hw : u.hostRequest port p r = w) : gives w :=
      tlpIn_next ((hostMemoryRequest_of_live hl hh hp).trans hw)
    refine ⟨fun b hb => gives_of (State.hostRequest_of_bad hb), fun hb hk => gives_of (State.hostRequest_of_io hb hk),
      fun hb hk => ?_⟩
    have routes_of {w} (hbar : bar = none) (hw : u.hostRoute v port p r = w) : gives w :=
      gives_of ((State.hostRequest_of_noBar hb hk hbar).trans hw)
    exact ⟨fun b hbar => gives_of (State.hostRequest_of_bar hb hk hbar),
      fun hbar hd => routes_of hbar (State.hostRoute_of_dark hd),
      fun hbar hd g hg => routes_of hbar (State.hostRoute_of_group hd hg),
      fun hbar hd hg x hx => routes_of hbar (State.hostRoute_of_entry hd hg hx),
      fun hbar hd hg hx => routes_of hbar (State.hostRoute_of_noEntry hd hg hx)⟩
  case function =>
    intro port r u e hl hv hp hh own d0 bare gives
    have gives_of {w} (hw : u.functionRequest port r = w) : gives w :=
      tlpIn_next ((functionMemoryRequest_of_live hl hv hp hh).trans hw)
    refine ⟨fun b hb => gives_of (State.functionRequest_of_bad hb),
      fun hb hs => gives_of (State.functionRequest_of_noSource hb hs), fun hb f hs => ?_⟩
    intro p d here seat q
    have source_of {w} (hw : u.functionOf port r f = w) : gives w :=
      gives_of ((State.functionRequest_of_source hb hs).trans hw)
    exact ⟨fun hat hsw => source_of ((if_pos hsw).trans (if_pos hat)),
      fun hat hsw => source_of ((if_neg hsw).trans (if_pos hat)),
      fun hat hsw => source_of ((if_neg hsw).trans (if_neg (not_not.mpr hat))),
      fun hat hsw => source_of ((if_pos hsw).trans (if_neg (not_not.mpr hat)))⟩
  case config =>
    intro port p q u e hl hh hp k ds gives
    have hx := hostConfigRequest_of_live (q := q) hl hh hp
    refine ⟨fun hbad => tlpIn_next (hx.trans (if_pos hbad)),
      fun hgood hd => tlpIn_next (hx.trans ((if_neg (by simp [e, hgood])).trans (if_pos hd))), fun hgood hd => ?_⟩
    have asks_of {w} (hw : u.cfgRequest k = w) : gives w :=
      tlpIn_next (hx.trans ((if_neg (by simp [e, hgood])).trans ((if_neg (by simp [hd])).trans hw)))
    exact ⟨fun h0 => asks_of (State.cfgRequest_of_type0 h0),
      fun h1 hbus => asks_of (State.cfgRequest_of_internalBus h1 hbus),
      fun h1 hbus => asks_of (State.cfgRequest_of_otherBus h1 hbus)⟩
  case dead =>
    intro port r q hd
    exact ⟨congrArg Host.Outcome.next (State.tlpIn_of_dead hd (hostMemoryRequest_of_dead hd) ..),
      congrArg Host.Outcome.next (State.tlpIn_of_dead hd (functionMemoryRequest_of_dead hd) ..),
      congrArg Host.Outcome.next (State.tlpIn_of_dead hd (hostConfigRequest_of_dead hd) ..)⟩
  case heldMemory =>
    intro port r u hl hh
    exact ⟨tlpIn_next (hostMemoryRequest_of_held hl hh),
      fun hv hp => tlpIn_next (functionMemoryRequest_of_held hl hv hp hh)⟩
  case heldConfig =>
    intro port q u hl hh
    exact tlpIn_next (hostConfigRequest_of_held hl hh)

end Sys2Proof.Machine

/-! Resets of functions, buses and partitions, and the controls of the fabric function. -/

namespace Sys2Proof.Machine

/-! ### FUNCTION_LEVEL_RESET (R155) -/

section
variable (u : State) (p f rid tag : Nat) (vfs : List Nat)

/-- The upstream port through which a partition's host asks for a Function Level Reset. -/
def State.flrPort : Nat := u.upPort (u.entryEpoch p) p

/-- The configuration request that asks for a Function Level Reset. -/
def State.flrAsk : CfgAsk :=
  { port := u.flrPort p, e := u.entryEpoch p, p := p
    q := { rid := rid, tag := tag, type1 := true, bus := 0, devfn := 0, reg := 0, be := 15, sriov := none, wr := none } }

/-- Whether the reset's binding entry can be reached behind an enabled virtual port. -/
def State.flrReaches : Prop :=
  u.vdpEn (u.entryEpoch p) p (u.bindVdp (u.entryEpoch p) f) = true ∧
    u.boundFn (u.entryEpoch p) p (u.bindVdp (u.entryEpoch p) f) (u.bindFn (u.entryEpoch p) f) = some f

/-- Whether the reset is of a physical function with a named virtual function of another switch or partition. -/
def State.flrFar : Bool :=
  (u.bindEntries (u.entryEpoch p)).any fun g =>
    !u.bindVf (u.entryEpoch p) f && vfs.contains (u.bindRid (u.entryEpoch p) g) &&
      !(u.bindSw (u.entryEpoch p) g == u.switchNum (u.entryEpoch p) && u.bindPart (u.entryEpoch p) g == p)

/-- The packet that takes the reset to the function. -/
def State.flrPacket : Packet :=
  { id := 0, cls := .nonPosted, origin := .host p, rRid := rid, rTag := tag, part := some p, epoch := u.entryEpoch p
    body := .flr (u.bindRid (u.entryEpoch p) f / 256 % 256) (u.bindRid (u.entryEpoch p) f % 256) }
end

section
variable {u : State} {p f rid tag : Nat} {vfs : List Nat} (hen : u.partEn (u.entryEpoch p) p = true)
  (hl : u.live? (u.flrPort p) = true) (hh : u.ingressHeld (u.flrPort p) = false)
include hen hl hh

theorem functionLevelReset_of_blackout (hd : u.partBlack (tileOf (u.flrPort p)) p = true) :
    functionLevelReset p f rid tag vfs u =
      u.synthUr (tileOf (u.flrPort p)) (u.entryEpoch p) false (.host p) rid tag 0 := by
  unfold State.flrPort at *
  exact (if_neg (by simp [hen, hl])).trans ((if_neg (by simp [hh])).trans (if_pos hd))

section
variable (hd : u.partBlack (tileOf (u.flrPort p)) p = false)
include hd

theorem functionLevelReset_of_unreached (hr : ¬u.flrReaches p f) :
    functionLevelReset p f rid tag vfs u = u.cfgUr (u.flrAsk p rid tag) := by
  unfold State.flrPort at *
  unfold State.flrReaches at hr
  refine (if_neg (by simp [hen, hl])).trans ((if_neg (by simp [hh])).trans ((if_neg (by simp [hd])).trans (if_pos ?_)))
  simpa [imp_iff_not_or] using hr

variable (hr : u.flrReaches p f)
include hr

theorem functionLevelReset_of_reached : functionLevelReset p f rid tag vfs u =
    if u.flrFar p f vfs then
      (u.count (tileOf (u.flrPort p)) .tlFlrWithheld (some (u.flrPort p))).cfgDone (u.flrAsk p rid tag)
        (u.hostRid (u.entryEpoch p) f) .sc []
    else (u.dropCopies (u.entryEpoch p) f).toFunction (u.flrPort p) (u.flrPacket p f rid tag) f := by
  unfold State.flrPort at *
  obtain ⟨hvdp, hbound⟩ := hr
  exact (if_neg (by simp [hen, hl])).trans ((if_neg (by simp [hh])).trans ((if_neg (by simp [hd])).trans
    (if_neg (by simp [hvdp, hbound]))))
end
end

/-! ### SECONDARY_BUS_RESET and PARTITION_RESET (R155, R403) -/

/-- A reading that no run for an element of the list changes reads the same after all of them. -/
theorem State.each_eq_of_mem {α β : Type} (g : State → β) {f : State → α → State} {l : List α}
    (hf : ∀ a ∈ l, ∀ v, g (f v a) = g v) (s : State) : g (s.each l f) = g s := by
  induction l generalizing s with
  | nil => rfl
  | cons a l ih =>
    exact (ih (fun b hb => hf b (List.mem_cons_of_mem a hb)) (f s a)).trans (hf a List.mem_cons_self s)

@[simp] theorem State.vport_modVport_self (s : State) (p d : Nat) (f : VPort → VPort) :
    (s.modVport p d f).vport p d = f (s.vport p d) := tget_tmod_self ..

theorem State.vport_modVport_ne (s : State) (p : Nat) {d k : Nat} (f : VPort → VPort) (h : k ≠ d) :
    (s.modVport p d f).vport p k = s.vport p k := tget_tmod_ne _ _ _ (by unfold vpKey; omega)

@[simp] theorem State.vport_modFab (s : State) (p q d : Nat) (f : FabFn → FabFn) :
    (s.modFab p f).vport q d = s.vport q d := (rfl)

@[simp] theorem State.vport_dropCopies (s : State) (e : Bool) (f p d : Nat) :
    (s.dropCopies e f).vport p d = s.vport p d := (rfl)

@[simp] theorem State.fab_modFab_self (s : State) (p : Nat) (f : FabFn → FabFn) :
    (s.modFab p f).fab p = f (s.fab p) := tget_tmod_self ..

@[simp] theorem State.fab_modVport (s : State) (p d q : Nat) (f : VPort → VPort) :
    (s.modVport p d f).fab q = s.fab q := (rfl)

@[simp] theorem State.fab_dropCopies (s : State) (e : Bool) (f p : Nat) : (s.dropCopies e f).fab p = s.fab p := (rfl)

theorem Changes.modVport {C : List Comp} {z s : State} (h : Changes C z s) {p d f} :
    Changes (.hv :: C) z (s.modVport p d f) := h.upd [.hv] rfl

theorem Changes.modFab {C : List Comp} {z s : State} (h : Changes C z s) {p f} :
    Changes (.hv :: C) z (s.modFab p f) := h.upd [.hv] rfl

theorem Changes.dropCopies {C : List Comp} {z s : State} (h : Changes C z s) {e f} :
    Changes (.hv :: C) z (s.dropCopies e f) := h.upd [.hv] rfl

/-- The vector masks of a partition return to their reset value. -/
def State.dropMasks (s : State) (p : Nat) : State :=
  { s with host := { s.host with msix := s.host.msix.filter fun x => !(x.1 / 65536 == p && x.1 % 16 == 12) } }

@[simp] theorem State.vport_dropMasks (s : State) (p q d : Nat) : (s.dropMasks p).vport q d = s.vport q d := (rfl)

@[simp] theorem State.fab_dropMasks (s : State) (p q : Nat) : (s.dropMasks p).fab q = s.fab q := (rfl)

theorem Changes.dropMasks {C : List Comp} {z s : State} (h : Changes C z s) {p} :
    Changes (.host :: C) z (s.dropMasks p) := h.upd [.host] rfl

theorem Changes.live_eq {C : List Comp} {z s : State} (h : Changes C z s) (hl : .live ∉ C) : s.live = z.live :=
  h .live hl

/-- What a Partition Reset leaves of a virtual bridge: its error log, its bad messages and its DPC status. -/
def VPort.afterReset (v : VPort) : VPort :=
  { aer := v.aer, aerHdr := v.aerHdr, badMsgs := v.badMsgs, dpcStatus := v.dpcStatus, dpcReason := v.dpcReason
    dpcExt := v.dpcExt }

/-- A partition whose virtual bridges a Partition Reset has reset. -/
def State.bridgesReset (s : State) (p : Nat) : State :=
  s.each (List.range 33) fun v d => v.modVport p d VPort.afterReset

/-- A partition whose bridges, fabric function and vector masks a Partition Reset has reset. -/
def State.fabricReset (s : State) (p : Nat) : State :=
  ((s.bridgesReset p).modFab p fun f => { aer := f.aer, aerHdr := f.aerHdr }).dropMasks p

/-- What PARTITION_RESET does before it resets the buses: the copies of the partition's functions are dropped as well. -/
def State.partitionCleared (s : State) (p : Nat) : State :=
  let v := s.fabricReset p
  v.each ((v.bindEntries s.leadEpoch).filter fun f =>
    v.bindSw s.leadEpoch f == v.switchNum s.leadEpoch && v.bindPart s.leadEpoch f == p) fun w f => w.dropCopies s.leadEpoch f

section
variable (s : State) (p : Nat)

theorem State.bridgesReset_fab : (s.bridgesReset p).fab p = s.fab p :=
  State.each_eq (State.fab · p) (fun v d => State.fab_modVport v p d p _) s _

theorem State.bridgesReset_vport_up : (s.bridgesReset p).vport p 32 = (s.vport p 32).afterReset := by
  have hlast : s.bridgesReset p =
      State.modVport (s.each (List.range 32) fun v d => v.modVport p d VPort.afterReset) p 32 VPort.afterReset := by
    simp [State.bridgesReset, State.each, List.range_succ]
  have hdown : (s.each (List.range 32) fun v d => v.modVport p d VPort.afterReset).vport p 32 = s.vport p 32 :=
    State.each_eq_of_mem (State.vport · p 32)
      (fun d hd v => v.vport_modVport_ne p _ (List.mem_range.mp hd).ne') s
  rw [hlast, State.vport_modVport_self, hdown]

theorem State.partitionCleared_fab :
    (s.partitionCleared p).fab p = { aer := (s.fab p).aer, aerHdr := (s.fab p).aerHdr } := by
  calc (s.partitionCleared p).fab p
    _ = (s.fabricReset p).fab p := State.each_eq (State.fab · p) (fun v f => v.fab_dropCopies _ f p) _ _
    _ = { aer := ((s.bridgesReset p).fab p).aer, aerHdr := ((s.bridgesReset p).fab p).aerHdr } := by
      rw [State.fabricReset, State.fab_dropMasks, State.fab_modFab_self]
    _ = _ := by rw [State.bridgesReset_fab]

theorem State.partitionCleared_vport_up : (s.partitionCleared p).vport p 32 = (s.vport p 32).afterReset := by
  calc (s.partitionCleared p).vport p 32
    _ = (s.fabricReset p).vport p 32 := State.each_eq (State.vport · p 32) (fun v f => v.vport_dropCopies _ f p 32) _ _
    _ = (s.vport p 32).afterReset := by
      rw [State.fabricReset, State.vport_dropMasks, State.vport_modFab, State.bridgesReset_vport_up]

theorem State.partitionCleared_changes : Changes [.hv, .host] s (s.partitionCleared p) := by
  have hbridges : Changes [.hv] s (s.bridgesReset p) := changes_each (fun v d => Changes.refl.modVport) s
  have hfabric : Changes [.host, .hv, .hv] s (s.fabricReset p) := hbridges.modFab.dropMasks
  exact (hfabric.each fun v f => Changes.refl.dropCopies).within (by simp)
end

/-! ### Controls of a partition, which do nothing where it is not enabled -/

section
variable {s : State} {p : Nat}

section
variable (h : s.partEn s.leadEpoch p = true)
include h

theorem secondaryBusReset_of_down {d : Nat} (hd : d ≠ 32) : secondaryBusReset p d s = s.busResetDown p d :=
  (if_neg (by simp [h])).trans (if_neg hd)

theorem secondaryBusReset_of_up :
    secondaryBusReset p 32 s = s.each (List.range 32) fun v k => v.busResetDown p k :=
  (if_neg (by simp [h])).trans (if_pos rfl)

theorem partitionReset_of_enabled :
    partitionReset p s = (s.partitionCleared p).each (List.range 32) fun v d => v.busResetDown p d :=
  if_neg (by simp [h])

theorem fabricFunctionPowerState_d3hot :
    fabricFunctionPowerState p true s = s.modFab p fun f => { f with d3hot := true } :=
  (if_neg (by simp [h])).trans (if_pos rfl)

theorem fabricFunctionPowerState_d0 : fabricFunctionPowerState p false s =
    ((s.modFab p fun f => { f with d3hot := false }).msixFlush p).syncIntx p :=
  (if_neg (by simp [h])).trans (if_neg Bool.false_ne_true)

theorem intxControlChange_of_enabled (i m : Bool) : intxControlChange p i m s =
    ((s.modFab p fun f => { f with intDisable := i, msixEnable := m }).syncIntx p).msixFlush p :=
  if_neg (by simp [h])

theorem msixUnmask_vector (v : Nat) :
    msixUnmask p (some v) s = State.msixFlush (if v < 2048 then s.setMsix p (16 * v + 12) 0 else s) p :=
  if_neg (by simp [h])

theorem msixUnmask_function :
    msixUnmask p none s = (s.modFab p fun f => { f with funcMask := false }).msixFlush p :=
  if_neg (by simp [h])
end

section
variable (h : s.partEn s.leadEpoch p = false)
include h

theorem secondaryBusReset_of_disabled (d : Nat) : secondaryBusReset p d s = s := if_pos (by simp [h])

theorem partitionReset_of_disabled : partitionReset p s = s := if_pos (by simp [h])

theorem fabricFunctionPowerState_of_disabled (d3 : Bool) : fabricFunctionPowerState p d3 s = s := if_pos (by simp [h])

theorem intxControlChange_of_disabled (i m : Bool) : intxControlChange p i m s = s := if_pos (by simp [h])

theorem msixUnmask_of_disabled (v : Option Nat) : msixUnmask p v s = s := if_pos (by simp [h])
end
end

/-- Settles O20: a Function Level Reset by the branches of its meaning on the state in which its arrival is acknowledged,
each other command by its branch for an enabled partition. -/
theorem resetsAndFabricFunctionControls : Obligations.ResetsAndFabricFunctionControls := by
  intro s
  refine ⟨?functionReset, ?busDown, ?busUp, ?partition, ?d3hot, ?d0, ?intx, ?vector, ?function, ?disabled⟩
  case functionReset =>
    intro p f rid tag vfs port0 u e port hen hl hh q k reach far gives
    have hx (hd : u.partBlack (tileOf port) p = false) (hr : reach) :=
      functionLevelReset_of_reached (rid := rid) (tag := tag) (vfs := vfs) hen hl hh hd hr
    exact ⟨fun hd => tlpIn_next (functionLevelReset_of_blackout hen hl hh hd),
      fun hd hr => tlpIn_next (functionLevelReset_of_unreached hen hl hh hd hr),
      fun hd hr hfar => tlpIn_next ((hx hd hr).trans (if_pos hfar)),
      fun hd hr hfar => tlpIn_next ((hx hd hr).trans (if_neg (ne_true_of_eq_false hfar)))⟩
  case busDown => exact fun p d h hd => congrArg Host.Outcome.next (secondaryBusReset_of_down h hd)
  case busUp => exact fun p h => congrArg Host.Outcome.next (secondaryBusReset_of_up h)
  case partition =>
    intro p h
    have hup := s.partitionCleared_vport_up p
    have hchg := s.partitionCleared_changes p
    exact ⟨s.partitionCleared p, congrArg Host.Outcome.next (partitionReset_of_enabled h), s.partitionCleared_fab p,
      congrArg VPort.sec hup, congrArg VPort.mse hup, (congrArg VPort.aer hup :), hchg.live_eq (by decide),
      hchg.setsKept (by decide) (by decide)⟩
  case d3hot => exact fun p h => congrArg Host.Outcome.next (fabricFunctionPowerState_d3hot h)
  case d0 => exact fun p h => congrArg Host.Outcome.next (fabricFunctionPowerState_d0 h)
  case intx => exact fun p i m h => congrArg Host.Outcome.next (intxControlChange_of_enabled h i m)
  case vector => exact fun p v h => congrArg Host.Outcome.next (msixUnmask_vector h v)
  case function => exact fun p h => congrArg Host.Outcome.next (msixUnmask_function h)
  case disabled =>
    exact fun p d i m v h => ⟨congrArg Host.Outcome.next (secondaryBusReset_of_disabled h d),
      congrArg Host.Outcome.next (partitionReset_of_disabled h),
      congrArg Host.Outcome.next (fabricFunctionPowerState_of_disabled h i),
      congrArg Host.Outcome.next (intxControlChange_of_disabled h i m),
      congrArg Host.Outcome.next (msixUnmask_of_disabled h v)⟩

end Sys2Proof.Machine

/-! Accesses through an aperture, and the lines of the write-combining buffer. -/

namespace Sys2Proof.Machine

/-! ### A request in BAR4, in the order of R189 -/

/-- The aperture entry that a seat's request hits and that admits it (R189 steps 2 and 3). -/
def State.entryHit (s : State) (e : Bool) (p k : Nat) (w : Req) : Option Nat :=
  (s.apHit e (s.homeTile e p) p (s.bar4Ofs e p w)).filter fun x => s.apAdmits e (s.homeTile e p) x k w

/-- What `gives` says of a memory request of BAR4: of the state that follows for its seat, the entry it hits, its seat's state
and the protection unit (R189). -/
def State.accessEnds (s : State) (e : Bool) (p : Nat) (who : Requester) (w : Req) (gives : State → Prop) : Prop :=
  let n := s.homeTile e p
  let o := s.bar4Ofs e p w
  (s.seatOf e p who w.pasid = none → gives ((s.count n .stUnseated).apUnmapped e p who none w)) ∧
    ∀ k, s.seatOf e p who w.pasid = some k →
      (s.entryHit e p k w = none → gives (s.apUnmapped e p who (some k) w)) ∧
      ∀ x, s.entryHit e p k w = some x →
        (s.puOff n k = true → s.seatCode n k = none → gives (if 1024 ≤ (s.pu.held.countP fun h => h.tile == n && h.queued)
          then s.bar4Fault e p who k (if reqNp w then 0 else 1) 5 0xFFF o w else s.puHold n k (.bar4 p who w e))) ∧
        (∀ code, s.seatCode n k = some code → gives (s.apStopped e p who k code w)) ∧
        (s.puOff n k = false → s.seatCode n k = none →
          (∀ c, s.puFaultOf e n k 1 (if reqNp w then 0 else 1) o w.len = some c →
            gives (s.bar4Fault e p who k (if reqNp w then 0 else 1) c.1 c.2 o w)) ∧
          (s.puFaultOf e n k 1 (if reqNp w then 0 else 1) o w.len = none → gives (s.apAccess e p who k x o w)))

section
variable {s : State} {e : Bool} {p : Nat} {who : Requester} {w : Req}

section
variable {k x : Nat} (hx : s.entryHit e p k w = some x)
include hx

theorem State.bar4Checked_of_stopped {code : Nat} (hc : s.seatCode (s.homeTile e p) k = some code) :
    s.bar4Checked e p who k w = s.apStopped e p who k code w := by
  unfold State.entryHit at hx
  simp only [State.bar4Checked, hx, hc]

theorem State.bar4Checked_of_fault (hc : s.seatCode (s.homeTile e p) k = none) {c : Nat × Nat}
    (hf : s.puFaultOf e (s.homeTile e p) k 1 (if reqNp w then 0 else 1) (s.bar4Ofs e p w) w.len = some c) :
    s.bar4Checked e p who k w = s.bar4Fault e p who k (if reqNp w then 0 else 1) c.1 c.2 (s.bar4Ofs e p w) w := by
  unfold State.entryHit at hx
  simp only [State.bar4Checked, hx, hc, hf]

theorem State.bar4Checked_of_permitted (hc : s.seatCode (s.homeTile e p) k = none)
    (hf : s.puFaultOf e (s.homeTile e p) k 1 (if reqNp w then 0 else 1) (s.bar4Ofs e p w) w.len = none) :
    s.bar4Checked e p who k w = s.apAccess e p who k x (s.bar4Ofs e p w) w := by
  unfold State.entryHit at hx
  simp only [State.bar4Checked, hx, hc, hf]
end

section
variable (hen : s.partEn e p = true) (hn : s.here (s.homeTile e p) = true)
include hen hn

theorem State.bar4_of_unsupported (hr : w.kind ≠ .memRead) (hw : w.kind ≠ .memWrite) :
    s.bar4 e p who w =
      let v := if (s.seatOf e p who w.pasid).isNone then s.count (s.homeTile e p) .stUnseated else s
      if w.kind = .ioRequest then v.bar4Ur e p who w else (v.count (s.homeTile e p) .apBadSize).bar4Ur e p who w :=
  (if_neg (by simp [hen, hn])).trans (if_pos ⟨hr, hw⟩)

theorem State.bar4_of_poisoned (hw : w.kind = .memWrite) (hpo : w.poisoned = true) :
    s.bar4 e p who w = (s.count (s.homeTile e p) .poisonDrop).logFabAer p .poisonedTlp :=
  (if_neg (by simp [hen, hn])).trans ((if_neg (by simp [hw])).trans (if_pos (by simp [hw, hpo])))

section
variable (hk : w.kind = .memRead ∨ w.kind = .memWrite ∧ w.poisoned = false)
include hk

theorem State.bar4_of_unseated (hs : s.seatOf e p who w.pasid = none) :
    s.bar4 e p who w = (s.count (s.homeTile e p) .stUnseated).apUnmapped e p who none w := by
  rcases hk with hk | ⟨hk, hpo⟩ <;> simp [State.bar4, *]

section
variable {k : Nat} (hs : s.seatOf e p who w.pasid = some k)
include hs

theorem State.bar4_of_uncovered (hx : s.entryHit e p k w = none) : s.bar4 e p who w = s.apUnmapped e p who (some k) w := by
  unfold State.entryHit at hx
  rcases hk with hk | ⟨hk, hpo⟩ <;> simp only [State.bar4] <;> simp [*]

theorem State.bar4_of_covered {x : Nat} (hx : s.entryHit e p k w = some x) :
    s.bar4 e p who w =
      if s.puOff (s.homeTile e p) k && (s.seatCode (s.homeTile e p) k).isNone then
        if 1024 ≤ (s.pu.held.countP fun h => h.tile == s.homeTile e p && h.queued) then
          s.bar4Fault e p who k (if reqNp w then 0 else 1) 5 0xFFF (s.bar4Ofs e p w) w
        else s.puHold (s.homeTile e p) k (.bar4 p who w e)
      else s.bar4Checked e p who k w := by
  unfold State.entryHit at hx
  rcases hk with hk | ⟨hk, hpo⟩ <;> simp only [State.bar4] <;> simp [*]
end

theorem State.accessEnds_of_bar4 {gives : State → Prop} (hg : gives (s.bar4 e p who w)) :
    s.accessEnds e p who w gives := by
  refine ⟨fun hs => State.bar4_of_unseated hen hn hk hs ▸ hg, fun k hs =>
    ⟨fun hx => State.bar4_of_uncovered hen hn hk hs hx ▸ hg, fun x hx => ?_⟩⟩
  rw [State.bar4_of_covered hen hn hk hs hx] at hg
  refine ⟨fun hoff hc => ?held, fun code hc => ?stopped, fun hon hc => ?checked⟩
  case held => rwa [if_pos (by simp [hoff, hc])] at hg
  case stopped => rwa [if_neg (by simp [hc]), State.bar4Checked_of_stopped hx hc] at hg
  case checked =>
    rw [if_neg (by simp [hon])] at hg
    exact ⟨fun c hf => State.bar4Checked_of_fault hx hc hf ▸ hg, fun hf => State.bar4Checked_of_permitted hx hc hf ▸ hg⟩
end
end

/-! ### The commands (R175, R176, R177) -/

theorem bar4Write_of_ready {r : Req} (hw : s.barWaits p who r.pasid = false) :
    bar4Write p who r s = s.bar4 (s.entryEpoch p) p who { r with kind := .memWrite } := if_neg (by simp [hw])

theorem bar4Read_of_ready {r : Req} (hw : s.barWaits p who r.pasid = false) :
    bar4Read p who r s = s.bar4 (s.entryEpoch p) p who (if r.kind = .memWrite then { r with kind := .memRead } else r) :=
  if_neg (by simp [hw])

theorem bar4Write_of_waiting {r : Req} (hw : s.barWaits p who r.pasid = true) :
    bar4Write p who r s = s.hold (.bar4Write p who r) := if_pos hw

theorem bar4Read_of_waiting {r : Req} (hw : s.barWaits p who r.pasid = true) :
    bar4Read p who r s = s.hold (.bar4Read p who r) := if_pos hw

theorem readKind_ne_memWrite (r : Req) :
    (if r.kind = .memWrite then { r with kind := .memRead } else r).kind ≠ .memWrite := by
  split
  · exact ReqKind.noConfusion
  · assumption

variable {n l : Nat} {k : WcLine}

theorem wcLineTimeout_of_open (hl : (s.wc.lines.find? fun q => q.id == l && q.tile == n && !q.flushing) = some k) :
    wcLineTimeout n l s = s.sendLine k := by
  simp only [wcLineTimeout, hl]

theorem wcFlushAdmit_of_flushing (hl : (s.wc.lines.find? fun q => q.id == l && q.tile == n && q.flushing) = some k)
    (ho : s.operates n = true) : wcFlushAdmit n l s = ((s.formDue n k.seat).admitLines n).resumePieces n := by
  simp only [wcFlushAdmit, hl, if_pos ho]

theorem wcFlushAdmit_of_none (hl : (s.wc.lines.find? fun q => q.id == l && q.tile == n && q.flushing) = none) :
    wcFlushAdmit n l s = s := by
  simp only [wcFlushAdmit, hl]
end

/-- Settles O22: a memory access by the branches of `State.bar4`, which reads and writes share; each other command by its own
branches. -/
theorem apertureAccesses : Obligations.ApertureAccesses := by
  intro s
  refine ⟨?write, ?read, ?waits, ?timeout, ?flushing, ?arrivals⟩
  case write =>
    intro p who r hen hn hw w e n o hit gives
    have hgives : gives (s.bar4 e p who w) := congrArg Host.Outcome.next (bar4Write_of_ready hw)
    exact ⟨fun hpo => State.bar4_of_poisoned hen hn rfl hpo ▸ hgives,
      fun hpo => State.accessEnds_of_bar4 hen hn (.inr ⟨rfl, hpo⟩) hgives⟩
  case read =>
    intro p who r hen hn hw w e n o hit gives
    have hgives : gives (s.bar4 e p who w) := congrArg Host.Outcome.next (bar4Read_of_ready hw)
    exact ⟨fun hk => hgives.trans (congrArg Host.Outcome.next (State.bar4_of_unsupported hen hn hk (readKind_ne_memWrite r))),
      fun hk => State.accessEnds_of_bar4 hen hn (.inl hk) hgives⟩
  case waits =>
    exact fun p who r hw => ⟨congrArg Host.Outcome.next (bar4Write_of_waiting hw),
      congrArg Host.Outcome.next (bar4Read_of_waiting hw)⟩
  case timeout => exact fun n l k hl => congrArg Host.Outcome.next (wcLineTimeout_of_open hl)
  case flushing =>
    exact fun n l k hl ho => congrArg (Host.Outcome.next ∘ State.releaseArrivals) (wcFlushAdmit_of_flushing hl ho)
  case arrivals =>
    exact fun n l hl => congrArg (Host.Outcome.next ∘ State.releaseArrivals) (wcFlushAdmit_of_none hl)

end Sys2Proof.Machine

/-! Fences, and the containment of aperture entries. -/

namespace Sys2Proof.Machine

section
variable {s : State}

/-! ### A fence read at a doorbell page (R179, R232, R253) -/

section
variable {e : Bool} {p seat : Nat} {who : Requester} {r : Req}

/-- A fence read comes from the page's seat, and the seat is bound to the partition. -/
def State.ownFence (s : State) (e : Bool) (p : Nat) (who : Requester) (seat : Nat) (r : Req) : Prop :=
  s.seatOf e p who r.pasid = some seat ∧ s.bound e seat = true ∧ s.seatPart e seat = p

theorem State.fenceAt_of_foreign (ho : ¬s.ownFence e p who seat r) : s.fenceAt e p who seat r =
    State.barReply (if (s.seatOf e p who r.pasid).isNone then s.count (s.homeTile e p) .stUnseated else s) e p who r .ur [] := by
  unfold State.ownFence at ho
  refine if_pos ?_
  simpa [imp_iff_not_or] using ho

section
variable (ho : s.ownFence e p who seat r)
include ho

theorem State.not_foreign_of_ownFence :
    ¬(s.seatOf e p who r.pasid ≠ some seat ∨ (!(s.bound e seat && s.seatPart e seat == p)) = true) := by
  obtain ⟨hseat, hbound, hpart⟩ := ho
  simp [hseat, hbound, hpart]

theorem State.fenceAt_of_misfit (hf : ¬((r.len = 4 ∨ r.len = 8) ∧ r.addr.toNat % r.len = 0)) :
    s.fenceAt e p who seat r = s.barReply e p who r .ur [] := by
  have hown := State.not_foreign_of_ownFence ho
  exact (if_neg (by simpa using hown)).trans (if_pos (by rw [decide_eq_false hf]; rfl))

variable (hf : (r.len = 4 ∨ r.len = 8) ∧ r.addr.toNat % r.len = 0)
include hf

theorem State.fenceAt_of_fit : s.fenceAt e p who seat r =
    if s.puOff (s.homeTile e p) seat && s.pu.held.any fun h => h.tile == s.homeTile e p && h.seat == seat then
      s.puHold (s.homeTile e p) seat (.fence p who r e)
    else s.fenceAccept e p who seat r := by
  have hown := State.not_foreign_of_ownFence ho
  exact (if_neg (by simpa using hown)).trans (if_neg (by rw [decide_eq_true hf]; exact Bool.false_ne_true))
end

section
variable (hen : s.partEn (s.entryEpoch p) p = true) (hn : s.here (s.homeTile (s.entryEpoch p) p) = true)
include hen hn

theorem fenceRead_of_waiting (hw : s.barWaits p who r.pasid = true) :
    fenceRead p who seat r s = s.hold (.fenceRead p who seat r) :=
  (if_neg (by simp [hen, hn])).trans (if_pos hw)

theorem fenceRead_of_ready (hw : s.barWaits p who r.pasid = false) :
    fenceRead p who seat r s = s.fenceAt (s.entryEpoch p) p who seat { r with kind := .memRead } :=
  (if_neg (by simp [hen, hn])).trans (if_neg (by simp [hw]))
end
end

/-! ### The end of a flush read, and of a fence (R179, R180, R181, R191) -/

/-- A fence of a tile is replaced, and the seat's fences that now wait for nothing complete. -/
def State.putFence (s : State) (n : Nat) (f g : Fence) : State :=
  (s.modWc fun w => { w with fences := w.fences.map fun y => if y.id = f.id then g else y }).completeFences n f.seat

section
variable {n k : Nat} {f : Fence} (hf : (s.wc.fences.find? fun y => y.id == k && y.tile == n && !y.ended) = some f)
include hf

section
variable {j : Nat} {q : ApStream} (hq : (f.reads.find? fun y => y.dest == j) = some q)
include hq

theorem flushReadComplete_good : flushReadComplete n k j .sc false false 0 s =
    s.putFence n f { f with reads := f.reads.filter fun z => z.dest != j } := by
  simp only [flushReadComplete, State.flushDone, hf, hq]
  rfl

theorem flushReadComplete_bad {st : CplStatus} {po : Bool} (hbad : st ≠ .sc ∨ po = true) (c : Nat) :
    flushReadComplete n k j st po false c s = s := by
  have hok : (st == .sc && !po) = false := by rcases hbad with h | h <;> simp [h]
  simp [flushReadComplete, State.flushDone, hf, hq, hok]

theorem flushReadComplete_synthetic (st : CplStatus) (po : Bool) (c : Nat) :
    flushReadComplete n k j st po true c s = s.putFence n f { f with
      reads := f.reads.filter fun z => z.dest != j
      tally := f.tally.add c (if c = 0x06 then [] else q.entries.map (·.1)) } := by
  simp [flushReadComplete, State.flushDone, State.putFence, hf, hq]
end

theorem fenceTimeout_of_waiting : fenceTimeout n k s = (s.modWc fun w => { w with fences := w.fences.map fun y =>
    if y.id = f.id then { y with unconf := !y.reads.isEmpty, ended := true } else y }).completeFences n f.seat := by
  simp only [fenceTimeout, hf]
end

/-! ### The contained-state mailbox (R193, R204) -/

/-- AP_CONT_CTRL as a write with operation `op` leaves it: VALID clear. -/
def State.contLatched (s : State) (agent n op : Nat) (v : Word) : State :=
  s.setLv (apCont agent n) (putField v 15 14 op &&& 0xFFFF#32)

/-- A write of AP_CONT_CTRL acts on the entry and with the operation of the word written. -/
theorem State.apContAct_putField (s : State) (agent n op : Nat) (v : Word) :
    s.apContAct agent n (putField v 15 14 op) =
      let u := s.contLatched agent n op v
      if op % 4 = 1 then u.modWc fun w => { w with contained := tset false w.contained (entKey n (field v 13 0)) false }
      else if op % 4 = 2 then u.contain n (field v 13 0) else u := by
  unfold State.apContAct
  rw [field_putField_self v op (by decide) (by decide), field_putField_ne v op (by decide) (by decide) (.inl (by decide))]
  rfl

theorem State.contain_of_contained {n x : Nat} (h : s.contained n x = true) : s.contain n x = s := if_pos h

theorem State.contain_of_open {n x : Nat} (h : s.contained n x = false) : s.contain n x =
    ((s.flushLines n fun l => l.entry == x).modWc fun w =>
      { w with contained := tset false w.contained (entKey n x) true }).count n .apContained := if_neg (by simp [h])

section
variable {n : Nat} (hn : s.here n = true) (agent : Nat)
include hn

section
variable (v : Word)

theorem apContReadState_of_here : apContReadState agent n v s = s.contLatched agent n 0 v :=
  (if_pos hn).trans (s.apContAct_putField agent n 0 v)

theorem apContClear_of_here : apContClear agent n v s = (s.contLatched agent n 1 v).modWc fun w =>
    { w with contained := tset false w.contained (entKey n (field v 13 0)) false } :=
  (if_pos hn).trans (s.apContAct_putField agent n 1 v)

theorem apContContain_of_here : apContContain agent n v s = (s.contLatched agent n 2 v).contain n (field v 13 0) :=
  (if_pos hn).trans (s.apContAct_putField agent n 2 v)
end

theorem apContDone_of_here : apContDone agent n s =
    (s.setFlag (apCont agent n) 30 (s.contained n (s.fld (apCont agent n) 13 0))).setFlag (apCont agent n) 31 true :=
  if_pos hn
end
end

/-- Settles O23: the branches of the meanings; a write of AP_CONT_CTRL acts by the operation and on the entry of the word as
the command completes it, and latching it leaves the containment of every entry. -/
theorem fencesAndContainedEntries : Obligations.FencesAndContainedEntries := by
  intro s
  refine ⟨?ready, ?waits, ?flushRead, ?timeout, ?readState, ?clear, ?contain, ?done⟩
  case ready =>
    intro p who seat r hen hn hw e n w own fits queued gives
    have hready : exec (.fenceRead p who seat r) s = .next (s.fenceAt e p who seat w) :=
      congrArg Host.Outcome.next (fenceRead_of_ready hen hn hw)
    refine ⟨fun ho => ?foreign, fun ho hf => ?misfit, fun ho hf hq => ?held, fun ho hf hq => ?accepted⟩
    case foreign => exact hready.trans (congrArg Host.Outcome.next (State.fenceAt_of_foreign ho))
    case misfit => exact hready.trans (congrArg Host.Outcome.next (State.fenceAt_of_misfit ho hf))
    all_goals have hfit := hready.trans (congrArg Host.Outcome.next (State.fenceAt_of_fit ho hf))
    case held => exact hfit.trans (congrArg Host.Outcome.next (if_pos ((Bool.and_eq_true ..).mpr hq)))
    case accepted => exact hfit.trans (congrArg Host.Outcome.next (if_neg fun h => hq ((Bool.and_eq_true ..).mp h)))
  case waits => exact fun p who seat r hen hn hw => congrArg Host.Outcome.next (fenceRead_of_waiting hen hn hw)
  case flushRead =>
    intro n k j f q hf hq rest put
    exact ⟨congrArg Host.Outcome.next (flushReadComplete_good hf hq),
      fun st po c hbad => congrArg Host.Outcome.next (flushReadComplete_bad hf hq hbad c),
      fun st po c => congrArg Host.Outcome.next (flushReadComplete_synthetic hf hq st po c)⟩
  case timeout => exact fun n k f hf => congrArg Host.Outcome.next (fenceTimeout_of_waiting hf)
  case readState => exact fun agent n v hn => congrArg Host.Outcome.next (apContReadState_of_here hn agent v)
  case clear => exact fun agent n v hn => congrArg Host.Outcome.next (apContClear_of_here hn agent v)
  case contain =>
    intro agent n v hn u
    have hact : exec (.apContContain agent n v) s = .next (u.contain n (field v 13 0)) :=
      congrArg Host.Outcome.next (apContContain_of_here hn agent v)
    exact ⟨fun h => hact.trans (congrArg Host.Outcome.next (State.contain_of_contained (s := u) h)),
      fun h => hact.trans (congrArg Host.Outcome.next (State.contain_of_open (s := u) h))⟩
  case done => exact fun agent n hn => congrArg Host.Outcome.next (apContDone_of_here hn agent)

end Sys2Proof.Machine

/-! Descriptors that the engine accepts and starts at once. -/

namespace Sys2Proof.Machine

/-! ### From the ring to the start (R209, R213, R214) -/

section
variable {s : State} {ring seat : Nat} {d : Desc} {c : Option CtxInit}

theorem State.engineTake_of_served (h : s.servesDesc ring seat d = true) :
    s.engineTake ring d c = (s.descAt seat d).engineAccept (s.descTile seat d) seat ring d c := by
  simp only [State.servesDesc, Bool.and_eq_true, beq_iff_eq] at h
  obtain ⟨⟨hring, hhere⟩, hcached⟩ := h
  unfold State.engineTake State.descAt
  simp only [hring, hhere, Bool.not_true, Bool.false_eq_true, if_false]
  cases hk : descKey d with
  | none => rfl
  | some key =>
    rw [hk] at hcached
    exact if_pos hcached

variable (ha : s.admits ring seat d c = true)
include ha

theorem State.engineAccept_of_admits :
    (s.descAt seat d).engineAccept (s.descTile seat d) seat ring d c =
      (s.descAt seat d).enginePass (s.descTile seat d) seat ring d c := by
  simp only [State.admits, Bool.and_eq_true, beq_iff_eq] at ha
  obtain ⟨-, ⟨⟨⟨hseat, hdesc⟩, hon⟩, hfree⟩, -⟩ := ha
  simp only [Bool.not_eq_true'] at hon hfree
  simp [State.engineAccept, hseat, hdesc, hon, hfree]

theorem State.enginePass_of_admits (hs : (s.withWr ring seat d c).canStart (s.wrOf ring seat d c) = true) :
    (s.descAt seat d).enginePass (s.descTile seat d) seat ring d c =
      ((s.withWr ring seat d c).startWr (s.wrOf ring seat d c), true) := by
  simp only [State.admits, Bool.and_eq_true, Option.isNone_iff_eq_none] at ha
  obtain ⟨-, -, hlocal⟩ := ha
  unfold State.enginePass
  rw [hlocal]
  exact if_pos hs

/-- An admitted descriptor whose work request may start becomes that work request, and starts. -/
theorem State.engineTake_of_admits (hs : (s.withWr ring seat d c).canStart (s.wrOf ring seat d c) = true) :
    (s.engineTake ring d c).1 = (s.withWr ring seat d c).startWr (s.wrOf ring seat d c) := by
  have hserved : s.servesDesc ring seat d = true := ((Bool.and_eq_true ..).mp ha).1
  rw [State.engineTake_of_served hserved, State.engineAccept_of_admits ha, State.enginePass_of_admits ha hs]
end

/-! ### The start of each opcode (R212) -/

/-- The state in which a work request has taken its outstanding-work index (R216). -/
def State.indexed (s : State) (w : Wr) : State :=
  s.used.modWr w.id fun k => { k with st := .started, slot := s.freeSlot w.tile }

/-- A work request with the outstanding-work index that it takes as it starts (R216). -/
def State.asStarted (s : State) (w : Wr) : Wr := { w with st := .started, slot := s.freeSlot w.tile }

section
variable {s : State} {w : Wr}

theorem State.startWr_of_nop (h : w.d.opcode = 0x00) : s.startWr w = (s.indexed w).startNop (s.asStarted w) := by
  simp [State.startWr, State.indexed, State.asStarted, h]

theorem State.startWr_of_recvPost (h : w.d.opcode = 0x04) : s.startWr w = (s.indexed w).startRecvPost (s.asStarted w) := by
  simp [State.startWr, State.indexed, State.asStarted, h]

theorem State.startWr_of_fence (h : w.d.opcode = 0x08) : s.startWr w = (s.indexed w).startFence (s.asStarted w) := by
  simp [State.startWr, State.indexed, State.asStarted, opAtomic, h]

theorem State.startWr_of_countAdd (h : w.d.opcode = 0x09) : s.startWr w = (s.indexed w).startCountAdd (s.asStarted w) := by
  simp [State.startWr, State.indexed, State.asStarted, opAtomic, h]

theorem State.startWr_of_winOpen (h : w.d.opcode = 0x10) : s.startWr w = (s.indexed w).startWinOpen (s.asStarted w) := by
  simp [State.startWr, State.indexed, State.asStarted, opAtomic, h]

theorem State.startWr_of_winRevoke (h : w.d.opcode = 0x11) : s.startWr w = (s.indexed w).startWinRevoke (s.asStarted w) := by
  simp [State.startWr, State.indexed, State.asStarted, opAtomic, h]

theorem State.startWr_of_qpCreate (h : w.d.opcode = 0x20) : s.startWr w = (s.indexed w).startQpCreate (s.asStarted w) := by
  simp [State.startWr, State.indexed, State.asStarted, opAtomic, h]

theorem State.startWr_of_qpDestroy (h : w.d.opcode = 0x21) : s.startWr w = (s.indexed w).startQpDestroy (s.asStarted w) := by
  simp [State.startWr, State.indexed, State.asStarted, opAtomic, h]
end

/-- A command that hands the engine an admitted descriptor whose work request may start comes to the start of that work
request. -/
theorem engineTake_next {s u : State} {ring seat : Nat} {d : Desc} {c : Option CtxInit} (ha : s.admits ring seat d c = true)
    (hs : (s.withWr ring seat d c).canStart (s.wrOf ring seat d c) = true)
    (hu : (s.withWr ring seat d c).startWr (s.wrOf ring seat d c) = u) :
    (.next (s.engineTake ring d c).1 : Out) = .next u :=
  congrArg Host.Outcome.next ((State.engineTake_of_admits ha hs).trans hu)

/-- Settles O25: each descriptor is taken as its work request, which starts by its opcode. -/
theorem engineCommandsServedAtOnce : Obligations.EngineCommandsServedAtOnce := by
  intro s
  refine ⟨?nop, ?recvPost, ?fence, ?countAdd, ?winOpen, ?winRevoke, ?qpCreate, ?qpDestroy⟩
  case nop => exact fun ring seat d0 ha hs => engineTake_next ha hs (State.startWr_of_nop rfl)
  case recvPost => exact fun ring seat d0 ha hs => engineTake_next ha hs (State.startWr_of_recvPost rfl)
  case fence => exact fun ring seat d0 ha hs => engineTake_next ha hs (State.startWr_of_fence rfl)
  case countAdd => exact fun ring seat d0 ha hs => engineTake_next ha hs (State.startWr_of_countAdd rfl)
  case winOpen => exact fun ring seat d0 ha hs => engineTake_next ha hs (State.startWr_of_winOpen rfl)
  case winRevoke => exact fun ring seat d0 ha hs => engineTake_next ha hs (State.startWr_of_winRevoke rfl)
  case qpCreate => exact fun ring seat d0 c ha hs => engineTake_next ha hs (State.startWr_of_qpCreate rfl)
  case qpDestroy => exact fun ring seat d0 ha hs => engineTake_next ha hs (State.startWr_of_qpDestroy rfl)

end Sys2Proof.Machine

/-! The window table: its initialisation, the fetch of an entry, the steps of a revocation, and the report of rejections. -/

namespace Sys2Proof.Machine

section
variable {s : State}

/-! ### The initialisation (R194, R204) -/

theorem State.winReady_plainWrite (s : State) {o : Nat} (v : Word) (h : 0x0014000C ≠ o) :
    (s.plainWrite o v).winReady = s.winReady := congrArg (bit · 0) (s.lv_plainWrite_ne v h)

theorem windowTableInit_of_ready (v : Word) (h : s.winReady = true) : windowTableInit v s = s.sticky 0x0014000C 2 := if_pos h

theorem windowTableInit_of_notReady (v : Word) (h : s.winReady = false) : windowTableInit v s =
    if bit v 5 then (s.plainWrite 0x00140000 v).setFlag 0x0014000C 1 true else s.plainWrite 0x00140000 v := by
  have hact : (s.plainWrite 0x00140000 v).winInitAct = (s.plainWrite 0x00140000 v).setFlag 0x0014000C 1 true :=
    if_neg (by simp [s.winReady_plainWrite v, h])
  rw [← hact]
  exact if_neg (by simp [h])

/-- The state with every window free and never used, no window cached and no revocation in progress. -/
def State.windowsEmptied (s : State) : State :=
  s.modWin fun w => { w with tbl := [], fresh := [], freed := [], lru := [], revokes := [] }

theorem windowTableInitDone_of_busy (h : s.flag 0x0014000C 1 = true) :
    windowTableInitDone s = (s.windowsEmptied.setFlag 0x0014000C 1 false).setFlag 0x0014000C 0 true := if_neg (by simp [h])

theorem windowTableInitDone_of_idle (h : s.flag 0x0014000C 1 = false) : windowTableInitDone s = s := if_pos (by simp [h])

theorem State.regsKept.modWin {t : State} {l : List Nat} (h : s.regsKept t l) {f : WinSt → WinSt} :
    s.regsKept (t.modWin f) l := h

/-! ### The fetch of an entry (R196) -/

section
variable {n i : Nat}

/-- The state in which a fetched entry that is found revoking has a revocation in progress. -/
def State.revocationFound (s : State) (i : Nat) : State :=
  if (s.window i).state = 2 && !s.win.revokes.any fun r => r.index == i then
    s.modWin fun w => { w with revokes := w.revokes ++ [{ index := i, wr := none, seat := none }] } else s

theorem windowFetchDone_of_entry (hn : s.here n = true) (hr : s.winReady = true) (ht : s.winTile i = n)
    (hi : i < 2 ^ s.winN) : windowFetchDone n i s = (s.revocationFound i).fetchDone true n i :=
  if_neg (by simp [hn, hr, ht, hi])

/-! ### The steps of a revocation (R201) -/

/-- The state in which the revocation of a window waits for its flush read. -/
def State.revokeFlushing (s : State) (i : Nat) : State :=
  s.modWin fun x => { x with revokes := x.revokes.map fun r => if r.index = i then { r with flushing := true } else r }

/-- Tile `n` forms the flush read of a window with the entry `w`, through the partition of the window's owner. -/
def State.formWinFlush (s : State) (n i : Nat) (w : WinEnt) : State :=
  let p := s.seatPart s.leadEpoch w.owner
  s.form (s.upForm (s.tileEpoch n) n p (some w.owner) false (s.engClass n) (.winFlush i)) .nonPosted
    (.req (ownReq .memRead w.base 0 [] (s.ffRid p) w.pasid (s.engClass n)))

section
variable (ht : s.winTile i = n) (hn : s.here n = true)
include ht hn

theorem revokeDrained_of_drained (h0 : (s.window i).inflight = 0)
    (hr : (s.win.revokes.any fun r => r.index == i && !r.flushing) = true) :
    let u := s.revokeFlushing i
    revokeDrained n i s =
      if u.canIssue (u.seatPart u.leadEpoch (s.window i).owner) then u.formWinFlush n i (s.window i) else u := by
  intro u
  have hstep : revokeDrained n i s =
      if !u.canIssue (u.seatPart u.leadEpoch (s.window i).owner) then u else u.formWinFlush n i (s.window i) :=
    if_neg (by rw [hr]; simp [ht, hn, h0])
  cases hp : u.canIssue (u.seatPart u.leadEpoch (s.window i).owner) <;> simp [hstep, hp]

theorem revokeFlushDone_of_flushing {r : Revoke}
    (hr : (s.win.revokes.find? fun q => q.index == i && q.flushing) = some r) :
    revokeFlushDone n i s = s.revokeEnd n r := by
  rw [revokeFlushDone, if_neg (by simp [ht, hn]), hr]
end

/-! ### The report of rejections (R203) -/

section
variable {q : WinViol} (ht : s.winTile i = n) (hq : tget none s.win.viol i = some q)
include ht hq

theorem windowViolationIntervalEnd_of_open : windowViolationIntervalEnd n i s =
    if q.n = 0 then s.setWinViol i none
    else (s.event (s.window i).owner 0x0010 (s.window i).owner n (violBody q)).setWinViol i (some { q with n := 0 }) := by
  simp [windowViolationIntervalEnd, ht, hq]
end
end
end

/-- Settles O24: the branches of the meanings; a write of the set-up fields leaves READY, so that the INIT written with them
acts. -/
theorem windowTableAndRevocation : Obligations.WindowTableAndRevocation := by
  intro s
  refine ⟨?init, ?initReady, ?initDone, ?initIdle, ?fetched, ?drained, ?flushed, ?quiet, ?rejections⟩
  case init => exact fun v h => congrArg Host.Outcome.next (windowTableInit_of_notReady v h)
  case initReady => exact fun v h => congrArg Host.Outcome.next (windowTableInit_of_ready v h)
  case initDone =>
    intro h
    refine ⟨_, congrArg Host.Outcome.next (windowTableInitDone_of_busy h), State.flag_setFlag_self _ _ _ (by decide), ?_,
      rfl, rfl, rfl, State.regsKept.refl.modWin.setFlag.setFlag, ⟨rfl, rfl⟩, rfl⟩
    rw [State.flag_setFlag _ _ _ _ _ (by decide), if_neg (by decide), State.flag_setFlag_self _ _ _ (by decide)]
  case initIdle => exact fun h => congrArg Host.Outcome.next (windowTableInitDone_of_idle h)
  case fetched => exact fun n i hn hr ht hi => congrArg Host.Outcome.next (windowFetchDone_of_entry hn hr ht hi)
  case drained => exact fun n i ht hn h0 hr => congrArg Host.Outcome.next (revokeDrained_of_drained ht hn h0 hr)
  case flushed => exact fun n i r ht hn hr => congrArg Host.Outcome.next (revokeFlushDone_of_flushing ht hn hr)
  case quiet =>
    exact fun n i q ht hq h0 => congrArg Host.Outcome.next ((windowViolationIntervalEnd_of_open ht hq).trans (if_pos h0))
  case rejections =>
    exact fun n i q ht hq h0 => congrArg Host.Outcome.next ((windowViolationIntervalEnd_of_open ht hq).trans (if_neg h0))

end Sys2Proof.Machine

/-! Descriptors that may not start: lost, parked for their object, ended with a code, or held. -/

namespace Sys2Proof.Machine

section
variable {s : State} {ring seat t : Nat} {d : Desc} {c : Option CtxInit}

/-! ### From the ring to the home tile (R209, R347) -/

theorem State.engineTake_of_unowned (h : s.workOwner ring = none) : (s.engineTake ring d c).1 = s := by
  simp only [State.engineTake, h]

theorem State.engineTake_of_lost (hr : s.workOwner ring = some seat) (hn : s.here (s.descTile seat d) = false) :
    (s.engineTake ring d c).1 = s.count (s.seatHome s.leadEpoch seat) .tileDrop none (some seat) := by
  simp [State.engineTake, hr, hn]

theorem State.not_beyond_of_lt {isWin : Bool} {n : Nat} (hlt : n < 2 ^ (if isWin then s.winN else s.qpQ)) :
    ¬(if isWin then 2 ^ s.winN ≤ n else 2 ^ s.qpQ ≤ n) := by
  cases isWin <;> exact Nat.not_le.mpr hlt

theorem State.not_hit_of_miss {isWin : Bool} {n : Nat} (hmiss : s.isCached isWin t n = false ∨
      (s.eng.parked.any fun j => j.isWin == isWin && j.key == n) = true) :
    ¬((s.isCached isWin t n && !s.eng.parked.any fun j => j.isWin == isWin && j.key == n) = true) := by
  rcases hmiss with h | h <;> simp [h]

/-- A window or context that is in its table, while it is not cached or others are parked for it, is missed. -/
theorem State.engineTake_of_miss {isWin : Bool} {n : Nat} (hr : s.workOwner ring = some seat)
    (hn : s.here (s.descTile seat d) = true) (hk : descKey d = some (isWin, n))
    (hmiss : s.isCached isWin (s.descTile seat d) n = false ∨
      (s.eng.parked.any fun j => j.isWin == isWin && j.key == n) = true)
    (hlt : n < 2 ^ (if isWin then s.winN else s.qpQ)) :
    (s.engineTake ring d c).1 = if s.missUsed (s.descTile seat d) < 256 then
        s.park (s.descTile seat d) isWin n (.desc ring d c)
      else (s.sticky (missStatus (s.descTile seat d)) 9).pauseRing ring := by
  simp only [State.engineTake, hr, hn, hk, Bool.not_true, Bool.false_eq_true, if_false,
    if_neg (State.not_hit_of_miss hmiss), if_neg (State.not_beyond_of_lt hlt)]
  split <;> rfl

/-! ### At the engine (R213, R214, R253) -/

theorem State.engineAccept_of_code {code : Nat} (hl : opListed d.opcode = true)
    (h : ((s.seatCode t seat).orElse fun _ => s.descCode t seat d c) = some code) :
    s.engineAccept t seat ring d c = (s.failDesc t seat ring d c code, true) := by
  simp only [State.engineAccept, hl, if_true, h]

theorem State.engineAccept_of_puOff (hs : s.seatCode t seat = none) (hd : s.descCode t seat d c = none)
    (hoff : s.puOff t seat = true) (hchk : (localRange d).isSome = true ∨ d.opcode = 0x10) :
    s.engineAccept t seat ring d c =
      (if d.opcode = 0x10 then (s.puHold t seat (.work ring d c)).pauseRing ring
        else s.puHold t seat (.work ring d c), true) := by
  have hheld : (s.puOff t seat && ((localRange d).isSome || d.opcode == 0x10)) = true := by simpa [hoff] using hchk
  simp only [State.engineAccept, hs, hd, ite_self, Option.orElse_none, if_pos hheld]

/-- An admitted descriptor that may not start takes a hold entry of its tile, or, where none is free, stops its ring. -/
theorem State.engineTake_of_stalled (ha : s.admits ring seat d c = true)
    (hs : (s.withWr ring seat d c).canStart (s.wrOf ring seat d c) = false) :
    (s.engineTake ring d c).1 =
      if ((s.descAt seat d).eng.wrs.countP fun j => j.tile == s.descTile seat d && j.st == .held) < 8192 then
        (s.withWr ring seat d c).askShown (s.wrOf ring seat d c)
      else ((s.descAt seat d).sticky (holdStatus (s.descTile seat d)) 14).pauseRing ring := by
  have hserved : s.servesDesc ring seat d = true := ((Bool.and_eq_true ..).mp ha).1
  rw [State.engineTake_of_served hserved, State.engineAccept_of_admits ha]
  simp only [State.admits, Bool.and_eq_true, Option.isNone_iff_eq_none] at ha
  obtain ⟨-, -, hlocal⟩ := ha
  simp only [State.withWr, State.wrOf] at hs
  simp only [State.enginePass, hlocal, hs, Bool.false_eq_true, if_false, ← Nat.not_lt, ite_not]
  split <;> rfl
end

/-! ### The fourteen descriptor commands (R212) -/

/-- The descriptor commands, each with its opcode and the context that it carries. -/
def descCommands (ring : Nat) (d : Desc) (k : CtxInit) : List (Nat × Option CtxInit × Instr) :=
  [(0x00, none, .nop ring d), (0x01, none, .write ring d), (0x02, none, .read ring d), (0x03, none, .send ring d),
    (0x04, none, .recvPost ring d), (0x05, none, .fetchAdd8 ring d), (0x06, none, .cmpSwap8 ring d),
    (0x07, none, .cmpSwap16 ring d), (0x08, none, .fence ring d), (0x09, none, .countAdd ring d),
    (0x10, none, .winOpen ring d), (0x11, none, .winRevoke ring d), (0x20, some k, .qpCreate ring d k),
    (0x21, none, .qpDestroy ring d)]

/-- Each descriptor command hands the engine its descriptor, under an opcode that R212 lists. -/
theorem exec_descCommands (s : State) (ring : Nat) (d : Desc) (k : CtxInit) : ∀ x ∈ descCommands ring d k,
    opListed x.1 = true ∧ exec x.2.2 s = .next (s.engineTake ring { d with opcode := x.1 } x.2.1).1 := by
  simp only [descCommands, List.forall_mem_cons]
  exact ⟨⟨rfl, rfl⟩, ⟨rfl, rfl⟩, ⟨rfl, rfl⟩, ⟨rfl, rfl⟩, ⟨rfl, rfl⟩, ⟨rfl, rfl⟩, ⟨rfl, rfl⟩, ⟨rfl, rfl⟩,
    ⟨rfl, rfl⟩, ⟨rfl, rfl⟩, ⟨rfl, rfl⟩, ⟨rfl, rfl⟩, ⟨rfl, rfl⟩, ⟨rfl, rfl⟩, List.forall_mem_nil _⟩

/-- Settles O27: every descriptor command is its descriptor taken by the engine, and each clause one branch of that. -/
theorem heldAndFailedDescriptors : Obligations.HeldAndFailedDescriptors := by
  intro s ring seat d0 k x hx d c t u gives
  obtain ⟨hl, hexec⟩ := exec_descCommands s ring d0 k x hx
  have hgives {v : State} (h : (s.engineTake ring d c).1 = v) : gives v :=
    hexec.trans (congrArg Host.Outcome.next h)
  have hserve (hserved : s.servesDesc ring seat d = true) {r : State × Bool}
      (h : u.engineAccept t seat ring d c = r) : gives r.1 :=
    hgives (congrArg Prod.fst ((State.engineTake_of_served hserved).trans h))
  refine ⟨?unowned, ?lost, ?missed, ?failed, ?unitOff, ?stalled⟩
  case unowned => exact fun hr => hgives (State.engineTake_of_unowned hr)
  case lost => exact fun hr hn => hgives (State.engineTake_of_lost hr hn)
  case missed => exact fun hr hn isWin n hk hmiss hlt => hgives (State.engineTake_of_miss hr hn hk hmiss hlt)
  case failed => exact fun hserved code hcode => hserve hserved (State.engineAccept_of_code hl hcode)
  case unitOff =>
    exact fun hserved hs hd hoff hchk => hserve hserved (State.engineAccept_of_puOff hs hd hoff hchk)
  case stalled => exact fun ha hs => hgives (State.engineTake_of_stalled ha hs)

end Sys2Proof.Machine

/-! Descriptors that move data, as they start, and the start of held work. -/

namespace Sys2Proof.Machine

section
variable {s : State} {w : Wr}

/-! ### The start of each opcode (R215, R217, R220) -/

theorem State.startWr_of_write (h : w.d.opcode = 0x01) : s.startWr w = (s.indexed w).startWrite (s.asStarted w) := by
  simp [State.startWr, State.indexed, State.asStarted, h]

theorem State.startWr_of_read (h : w.d.opcode = 0x02) : s.startWr w = (s.indexed w).startRead (s.asStarted w) := by
  simp [State.startWr, State.indexed, State.asStarted, h]

theorem State.startWr_of_send (h : w.d.opcode = 0x03) : s.startWr w = (s.indexed w).startSend (s.asStarted w) := by
  simp [State.startWr, State.indexed, State.asStarted, h]

theorem State.startWr_of_atomic (h : opAtomic w.d.opcode = true) :
    s.startWr w = (s.indexed w).gatherWr (s.asStarted w) (operandLen w.d.opcode) := by
  have hop : 5 ≤ w.d.opcode ∧ w.d.opcode ≤ 7 := of_decide_eq_true h
  have hne {n : Nat} (hn : n < 5) : w.d.opcode ≠ n := by omega
  simp [State.startWr, State.startAtomic, State.indexed, State.asStarted, h, hne]

/-! ### WORK_REQUEST_START (R214, R219) -/

section
variable {id : Nat} (hw : s.wr id = some w) (hn : s.here w.tile = true)
include hw hn

theorem workRequestStart_of_startable (hs : s.canStart w = true) : workRequestStart id s =
    if w.d.trig = true ∧ ((s.eng.wrs.takeWhile fun k => k.id != id).any fun k =>
        k.d.trig && k.d.trigQpn == w.d.trigQpn && s.canStart k) = true then s
    else s.startWr w := by
  simp only [workRequestStart, hw, hn, hs, Bool.not_true, Bool.false_eq_true, if_false, Bool.and_eq_true]

theorem workRequestStart_of_stalled (hs : s.canStart w = false) : workRequestStart id s = s.askShown w := by
  simp [workRequestStart, hw, hn, hs]
end
end

/-- Settles O26: each descriptor is taken as its work request, which starts by its opcode; a held work request starts by
the branches of its own command. -/
theorem engineCommandsWithPackets : Obligations.EngineCommandsWithPackets := by
  intro s
  refine ⟨?write, ?read, ?send, ?fetchAdd8, ?cmpSwap8, ?cmpSwap16, ?startable, ?stalled⟩
  case write => exact fun ring seat d0 ha hs => engineTake_next ha hs (State.startWr_of_write rfl)
  case read => exact fun ring seat d0 ha hs => engineTake_next ha hs (State.startWr_of_read rfl)
  case send => exact fun ring seat d0 ha hs => engineTake_next ha hs (State.startWr_of_send rfl)
  case fetchAdd8 => exact fun ring seat d0 ha hs => engineTake_next ha hs (State.startWr_of_atomic rfl)
  case cmpSwap8 => exact fun ring seat d0 ha hs => engineTake_next ha hs (State.startWr_of_atomic rfl)
  case cmpSwap16 => exact fun ring seat d0 ha hs => engineTake_next ha hs (State.startWr_of_atomic rfl)
  case startable => exact fun id w hw hn hs => congrArg Host.Outcome.next (workRequestStart_of_startable hw hn hs)
  case stalled => exact fun id w hw hn hs => congrArg Host.Outcome.next (workRequestStart_of_stalled hw hn hs)

end Sys2Proof.Machine

/-! Engine request packets: served at their home tile, refused, or parked. -/

namespace Sys2Proof.Machine

section
variable {s : State} {t : Nat} {h : EngHdr} {data : List Byte}

/-! ### Arrival (R209, R336) -/

section
variable {ea el : Nat} {ew : BitVec 64}

/-- The state in which a packet whose object is cached is served: that object is its home tile's most recently used one. -/
def State.pktAt (s : State) (h : EngHdr) : State := s.touch (s.pktKey h).1 (s.pktKey h).2.2 (s.pktKey h).2.1

/-- The object of a packet stands in its table. -/
def State.pktInTable (s : State) (h : EngHdr) : Prop :=
  (s.pktKey h).2.1 < 2 ^ (if (s.pktKey h).1 then s.winN else s.qpQ)

theorem State.pktInTable_of_servesPkt (hs : s.servesPkt h = true) : s.pktInTable h := by
  simp only [State.servesPkt, Bool.and_eq_true, decide_eq_true_eq] at hs
  obtain ⟨⟨⟨⟨-, hlt⟩, -⟩, -⟩, -⟩ := hs
  unfold State.pktInTable
  split <;> rename_i hw <;> simpa [hw] using hlt

@[simp] theorem State.qpQ_touch (s : State) (isWin : Bool) (t k : Nat) : (s.touch isWin t k).qpQ = s.qpQ := by
  cases isWin <;> rfl

theorem State.dstQpn_lt_of_servesPkt (hs : s.servesPkt h = true)
    (hkey : s.pktKey h = (false, h.dstQpn, s.qpTile h.dstQpn)) : h.dstQpn < 2 ^ (s.pktAt h).qpQ := by
  simpa [State.pktInTable, State.pktAt, hkey] using State.pktInTable_of_servesPkt hs

theorem State.arrivePkt_of_served (hs : s.servesPkt h = true) :
    s.arrivePkt h data ea el ew = (s.pktAt h).servePkt (s.pktKey h).2.2 h data ea el ew := by
  have hk := State.pktInTable_of_servesPkt hs
  simp only [State.servesPkt, Bool.and_eq_true, Bool.not_eq_true'] at hs
  obtain ⟨⟨⟨⟨hhere, -⟩, hblack⟩, hcached⟩, hparked⟩ := hs
  simp only [State.arrivePkt, hhere, hblack, hcached, hparked, if_neg (State.not_beyond_of_lt hk),
    Bool.not_true, Bool.not_false, Bool.and_true, Bool.false_eq_true, if_false, if_true, State.pktAt]

variable (hn : s.here (s.pktKey h).2.2 = true) (hk : s.pktInTable h)
include hn hk

theorem State.arrivePkt_of_blackout
    (hb : ((s.objOwner (s.pktKey h).1 (s.pktKey h).2.1).any fun o => s.seatBlack (s.pktKey h).2.2 o) = true) :
    s.arrivePkt h data ea el ew = s.answer (s.pktKey h).2.2 h 6 0x0A [] := by
  simp only [State.arrivePkt, hn, hb, if_neg (State.not_beyond_of_lt hk), Bool.not_true, Bool.false_eq_true,
    if_false, if_true]

theorem State.arrivePkt_of_miss
    (hb : ((s.objOwner (s.pktKey h).1 (s.pktKey h).2.1).any fun o => s.seatBlack (s.pktKey h).2.2 o) = false)
    (hmiss : s.isCached (s.pktKey h).1 (s.pktKey h).2.2 (s.pktKey h).2.1 = false ∨
      (s.eng.parked.any fun j => j.isWin == (s.pktKey h).1 && j.key == (s.pktKey h).2.1) = true) :
    s.arrivePkt h data ea el ew = if s.missUsed (s.pktKey h).2.2 < 256 then
        s.park (s.pktKey h).2.2 (s.pktKey h).1 (s.pktKey h).2.1 (.pkt h data (BitVec.ofNat 64 ea) el ew)
      else (s.sticky (missStatus (s.pktKey h).2.2) 9).notReadySend (s.pktKey h).2.2 h := by
  simp only [State.arrivePkt, hn, hb, if_neg (State.not_beyond_of_lt hk), if_neg (State.not_hit_of_miss hmiss),
    Bool.not_true, Bool.false_eq_true, if_false]
end

/-! ### Packets that name a window (R198, R216, R220) -/

/-- The index of the window that a packet names. -/
def winIndex (h : EngHdr) : Nat := h.keyOrImm.toNat / 256

/-- The partition of a window's owner. -/
def State.winPart (s : State) (i : Nat) : Nat := s.seatPart s.leadEpoch (s.window i).owner

/-- The state in which a packet that passed its window's checks is in flight. -/
def State.winFlight (s : State) (t : Nat) (h : EngHdr) (data : List Byte) : State :=
  (s.modWindow (winIndex h) fun w => { w with inflight := w.inflight + 1 }).addIssue t (some (winIndex h)) h data

theorem State.winPkt_of_rejected {code : Nat}
    (hc : s.winCheck t h (if h.mtype = 0 then 1 else if h.mtype = 1 then 0 else 2)
      (if h.mtype = 0 then data.length else if h.mtype = 1 then h.length else atomLen (h.aop + 5)) = some code) :
    s.winPkt t h data = s.winReject t h code := by
  simp only [State.winPkt, hc]

theorem State.winPkt_of_write (hm : h.mtype = 0) (hc : s.winCheck t h 1 data.length = none) :
    s.winPkt t h data = (s.winFlight t h data).issueWrite t (s.winPart (winIndex h)) (s.window (winIndex h)).owner
      (s.window (winIndex h)).pasid s.idCtr ((s.window (winIndex h)).base + h.rOffset) data := by
  simp only [State.winPkt, hm, if_true, hc]
  rfl

theorem State.winPkt_of_read (hm : h.mtype = 1) (hc : s.winCheck t h 0 h.length = none) :
    s.winPkt t h data = if h.length = 0 then (s.winFlight t h data).readDone s.idCtr 2 []
      else (s.winFlight t h data).dmaStart t (s.winPart (winIndex h)) (s.window (winIndex h)).owner
        (s.window (winIndex h)).pasid none (some s.idCtr) ((s.window (winIndex h)).base + h.rOffset) h.length := by
  simp only [State.winPkt, hm, one_ne_zero, if_true, if_false, hc]
  rfl

theorem State.winPkt_of_atomic (hm : h.mtype = 4) (hc : s.winCheck t h 2 (atomLen (h.aop + 5)) = none) :
    let u := s.winFlight t h data
    s.winPkt t h data = if u.canIssue (s.winPart (winIndex h)) then
        u.form (u.upForm (u.tileEpoch t) t (s.winPart (winIndex h)) (some (s.window (winIndex h)).owner) false (u.engClass t)
          (.issue s.idCtr)) .nonPosted
          (.req (ownReq .atomicOp ((s.window (winIndex h)).base + h.rOffset) (atomLen (h.aop + 5)) data
            (u.ffRid (s.winPart (winIndex h))) (s.window (winIndex h)).pasid (u.engClass t)))
      else u.issued s.idCtr 0x0A := by
  intro u
  simp only [State.winPkt, hm, OfNat.ofNat_ne_zero, OfNat.ofNat_ne_one, if_false, hc, Bool.not_eq_true',
    ← Bool.not_eq_true, ite_not]
  rfl

/-! ### NOTIFY (R218) -/

theorem State.notifyPkt_of_inTable (hk : h.dstQpn < 2 ^ s.qpQ) : s.notifyPkt t h =
    if (s.qp h.dstQpn).state = 1 ∧ (s.qp h.dstQpn).notifyEn = true ∧ (s.qp h.dstQpn).rSw = h.srcSw ∧
        (s.qp h.dstQpn).rQpn = h.qpn then
      (s.advTrig h.dstQpn 1).answer t h 6 0x00 []
    else s.answer t h 6 0x03 [] := by
  simp only [State.notifyPkt, hk, decide_true, Bool.true_and, Bool.and_eq_true, beq_iff_eq, and_assoc]

/-! ### SEND packets (R217) -/

section
variable {ea el : Nat} {ew : BitVec 64}

/-- A packet comes from the peer of a ready context. -/
def State.fromPeer (s : State) (h : EngHdr) : Prop :=
  (s.qp h.dstQpn).state = 1 ∧ (s.qp h.dstQpn).rSw = h.srcSw ∧ (s.qp h.dstQpn).rQpn = h.qpn

/-- The message of a packet's number that its queue pair is receiving, if it is receiving one. -/
def State.recvOld (s : State) (h : EngHdr) : Option RecvMsg :=
  (s.qp h.dstQpn).recv.find? fun k => k.ssn == h.ssn % 65536

/-- No message of a packet's number is being received, and that number has been consumed. -/
def State.ssnUsed (s : State) (h : EngHdr) : Prop :=
  s.recvOld h = none ∧ 1 ≤ modSub 65536 (s.qp h.dstQpn).ci (h.ssn % 65536) ∧
    modSub 65536 (s.qp h.dstQpn).ci (h.ssn % 65536) ≤ 32768

/-- The message of a packet is being received, or a receive entry is posted for its number. -/
def State.ssnPosted (s : State) (h : EngHdr) : Prop :=
  s.recvOld h ≠ none ∨ (1 ≤ modSub 65536 (s.qp h.dstQpn).pi (h.ssn % 65536) ∧
    modSub 65536 (s.qp h.dstQpn).pi (h.ssn % 65536) ≤ 2 ^ (s.qp h.dstQpn).rqLog2)

/-- The message that a packet belongs to: the one being received, or the one that it opens with a receive entry. -/
def State.recvOf (s : State) (h : EngHdr) (ea el : Nat) (ew : BitVec 64) : RecvMsg :=
  (s.recvOld h).getD {
    ssn := h.ssn % 65536, addr := ea, entryLen := el, wrId := ew, len := h.length, got := 0,
    imm := if h.immV then some h.keyOrImm else none, srcQpn := h.qpn, srcSw := h.srcSw }

/-- The state in which the message of a packet is being received. -/
def State.recvOpened (s : State) (h : EngHdr) (ea el : Nat) (ew : BitVec 64) : State :=
  if (s.recvOld h).isNone then s.modQp h.dstQpn fun k => { k with recv := k.recv ++ [s.recvOf h ea el ew] } else s

/-- The fault that the protection unit finds in the buffer of a message that a packet opens. -/
def State.recvFault (s : State) (t : Nat) (h : EngHdr) (ea el : Nat) (ew : BitVec 64) : Option State :=
  if (s.recvOld h).isNone then (s.recvOpened h ea el ew).puCheck t (s.qp h.dstQpn).owner 0 (s.recvOf h ea el ew).addr
    (s.recvOf h ea el ew).len [1] else none

/-- What a packet of the peer comes to whose message is being received. -/
def State.recvTake (s : State) (t : Nat) (h : EngHdr) (ea el : Nat) (ew : BitVec 64) (data : List Byte) : State :=
  let r := s.recvOf h ea el ew
  let u := s.recvOpened h ea el ew
  let o := (s.qp h.dstQpn).owner
  if r.done then u.answer t h 6 0x03 []
  else if r.entryLen < r.len then (u.answer t h 6 0x03 []).recvEnd t h.dstQpn (h.ssn % 65536) 0x01
  else match s.recvFault t h ea el ew with
    | some x => (x.answer t h 6 0x03 []).recvEnd t h.dstQpn (h.ssn % 65536) 0x02
    | none => (u.addIssue t none h data).issueWrite t (u.seatPart (s.tileEpoch t) o) o (u.seatPasid u.leadEpoch o)
        u.idCtr (r.addr + h.rOffset) data

theorem State.ssnUsed_iff : ((s.recvOld h).isNone && decide (1 ≤ modSub 65536 (s.qp h.dstQpn).ci (h.ssn % 65536) ∧
    modSub 65536 (s.qp h.dstQpn).ci (h.ssn % 65536) ≤ 32768)) = true ↔ s.ssnUsed h := by
  simp [State.ssnUsed]

theorem State.not_ssnPosted_iff : ((s.recvOld h).isNone && !decide (1 ≤ modSub 65536 (s.qp h.dstQpn).pi (h.ssn % 65536) ∧
    modSub 65536 (s.qp h.dstQpn).pi (h.ssn % 65536) ≤ 2 ^ (s.qp h.dstQpn).rqLog2)) = true ↔ ¬s.ssnPosted h := by
  simp only [State.ssnPosted, Bool.and_eq_true, Option.isNone_iff_eq_none, Bool.not_eq_true', decide_eq_false_iff_not,
    ne_eq, not_or, not_not]

variable (hk : h.dstQpn < 2 ^ s.qpQ)
include hk

theorem State.not_fromPeer_iff : (!(decide (h.dstQpn < 2 ^ s.qpQ) && (s.qp h.dstQpn).state == 1 &&
    (s.qp h.dstQpn).rSw == h.srcSw && (s.qp h.dstQpn).rQpn == h.qpn)) = true ↔ ¬s.fromPeer h := by
  simp only [State.fromPeer, hk, decide_true, Bool.true_and, Bool.not_eq_true', ← Bool.not_eq_true, Bool.and_eq_true,
    beq_iff_eq, and_assoc]

theorem State.sendPkt_of_refused (hr : ¬s.fromPeer h ∨ s.ssnUsed h) :
    s.sendPkt t h ea el ew data = s.answer t h 6 0x03 [] := by
  by_cases hp : s.fromPeer h
  · exact (if_neg ((State.not_fromPeer_iff hk).not.mpr (not_not_intro hp))).trans
      (if_pos (State.ssnUsed_iff.mpr (hr.resolve_left (not_not_intro hp))))
  · exact if_pos ((State.not_fromPeer_iff hk).mpr hp)

variable (hp : s.fromPeer h) (hu : ¬s.ssnUsed h)
include hp hu

theorem State.sendPkt_of_fresh : s.sendPkt t h ea el ew data =
    if (s.recvOld h).isNone && !decide (1 ≤ modSub 65536 (s.qp h.dstQpn).pi (h.ssn % 65536) ∧
      modSub 65536 (s.qp h.dstQpn).pi (h.ssn % 65536) ≤ 2 ^ (s.qp h.dstQpn).rqLog2) then s.notReadySend t h
    else if s.puOff t (s.qp h.dstQpn).owner then s.notReadySend t h
    else s.recvTake t h ea el ew data :=
  (if_neg ((State.not_fromPeer_iff hk).not.mpr (not_not_intro hp))).trans (if_neg (State.ssnUsed_iff.not.mpr hu))

theorem State.sendPkt_of_unready (hr : ¬s.ssnPosted h ∨ s.puOff t (s.qp h.dstQpn).owner = true) :
    s.sendPkt t h ea el ew data = s.notReadySend t h := by
  rw [State.sendPkt_of_fresh hk hp hu]
  by_cases hq : s.ssnPosted h
  · rw [if_neg (State.not_ssnPosted_iff.not.mpr (not_not_intro hq)), if_pos (hr.resolve_left (not_not_intro hq))]
  · exact if_pos (State.not_ssnPosted_iff.mpr hq)

theorem State.sendPkt_of_taken (hq : s.ssnPosted h) (hon : s.puOff t (s.qp h.dstQpn).owner = false) :
    s.sendPkt t h ea el ew data = s.recvTake t h ea el ew data := by
  rw [State.sendPkt_of_fresh hk hp hu, if_neg (State.not_ssnPosted_iff.not.mpr (not_not_intro hq)),
    if_neg (by simp [hon])]
end

section
variable {ea el : Nat} {ew : BitVec 64}

theorem State.recvTake_of_ended (hd : (s.recvOf h ea el ew).done = true) :
    s.recvTake t h ea el ew data = (s.recvOpened h ea el ew).answer t h 6 0x03 [] := if_pos hd

variable (hd : (s.recvOf h ea el ew).done = false)
include hd

theorem State.recvTake_of_overlong (hl : (s.recvOf h ea el ew).entryLen < (s.recvOf h ea el ew).len) :
    s.recvTake t h ea el ew data =
      ((s.recvOpened h ea el ew).answer t h 6 0x03 []).recvEnd t h.dstQpn (h.ssn % 65536) 0x01 := by
  simp [State.recvTake, hd, hl]

variable (hl : (s.recvOf h ea el ew).len ≤ (s.recvOf h ea el ew).entryLen)
include hl

theorem State.recvTake_of_fault {x : State} (hf : s.recvFault t h ea el ew = some x) :
    s.recvTake t h ea el ew data = (x.answer t h 6 0x03 []).recvEnd t h.dstQpn (h.ssn % 65536) 0x02 := by
  simp [State.recvTake, hd, hl.not_gt, hf]

theorem State.recvTake_of_noFault (hf : s.recvFault t h ea el ew = none) :
    let u := s.recvOpened h ea el ew
    let o := (s.qp h.dstQpn).owner
    s.recvTake t h ea el ew data = (u.addIssue t none h data).issueWrite t (u.seatPart (s.tileEpoch t) o) o
      (u.seatPasid u.leadEpoch o) u.idCtr ((s.recvOf h ea el ew).addr + h.rOffset) data := by
  simp [State.recvTake, hd, hl.not_gt, hf]
end
end

/-- The commands of request packets, each with its type, its data and the receive entry that comes with it. -/
def pktCommands (h : EngHdr) (data : List Byte) (ea : Addr) (el : Nat) (ew : BitVec 64) :
    List (Nat × List Byte × Addr × Nat × BitVec 64 × Instr) :=
  [(0, data, 0, 0, 0, .engineWritePacket h data), (1, [], 0, 0, 0, .readReq h),
    (3, data, ea, el, ew, .sendPacket h ea el ew data), (4, data, 0, 0, 0, .atomicReq h data), (8, [], 0, 0, 0, .notify h)]

theorem exec_pktCommands (s : State) (h : EngHdr) (data : List Byte) (ea : Addr) (el : Nat) (ew : BitVec 64) :
    ∀ x ∈ pktCommands h data ea el ew, exec x.2.2.2.2.2 s =
      .next (s.arrivePkt { h with mtype := x.1 } x.2.1 x.2.2.1.toNat x.2.2.2.1 x.2.2.2.2.1) := by
  simp only [pktCommands, List.forall_mem_cons]
  exact ⟨rfl, rfl, rfl, rfl, rfl, List.forall_mem_nil _⟩

/-- Settles O28: an arriving packet is refused, parked, or served by its type on the state in which its object is used. -/
theorem enginePacketsAreServed : Obligations.EnginePacketsAreServed := by
  intro s
  refine ⟨?write, ?read, ?atomic, ?notify, ?send, ?unserved⟩
  case write =>
    intro h0 data h v n i p u hs
    have hact : exec (.engineWritePacket h0 data) s = .next (v.winPkt n h data) :=
      congrArg Host.Outcome.next (State.arrivePkt_of_served hs)
    exact ⟨fun code hc => hact.trans (congrArg Host.Outcome.next (State.winPkt_of_rejected hc)),
      fun hc => hact.trans (congrArg Host.Outcome.next (State.winPkt_of_write rfl hc))⟩
  case read =>
    intro h0 h v n i p u hs
    have hact : exec (.readReq h0) s = .next (v.winPkt n h []) :=
      congrArg Host.Outcome.next (State.arrivePkt_of_served hs)
    exact ⟨fun code hc => hact.trans (congrArg Host.Outcome.next (State.winPkt_of_rejected hc)),
      fun hc => hact.trans (congrArg Host.Outcome.next (State.winPkt_of_read rfl hc))⟩
  case atomic =>
    intro h0 data h v n i p u len hs
    have hact : exec (.atomicReq h0 data) s = .next (v.winPkt n h data) :=
      congrArg Host.Outcome.next (State.arrivePkt_of_served hs)
    exact ⟨fun code hc => hact.trans (congrArg Host.Outcome.next (State.winPkt_of_rejected hc)),
      fun hc => hact.trans (congrArg Host.Outcome.next (State.winPkt_of_atomic rfl hc))⟩
  case notify =>
    intro h0 h v n q hs
    have hk : h.dstQpn < 2 ^ v.qpQ := State.dstQpn_lt_of_servesPkt hs rfl
    have hact : exec (.notify h0) s = .next (v.notifyPkt n h) :=
      congrArg Host.Outcome.next (State.arrivePkt_of_served hs)
    exact hact.trans (congrArg Host.Outcome.next (State.notifyPkt_of_inTable hk))
  case send =>
    intro h0 ea el ew data h v n k q m old r u p peer used posted fault gives hs
    have hk : h.dstQpn < 2 ^ v.qpQ := State.dstQpn_lt_of_servesPkt hs rfl
    have hact : gives (v.sendPkt n h ea.toNat el ew data) := congrArg Host.Outcome.next (State.arrivePkt_of_served hs)
    refine ⟨fun hr => ?refused, fun hp hu hr => ?unready, fun hp hu hq hon => ?taken⟩
    case refused => exact hact.trans (congrArg Host.Outcome.next (State.sendPkt_of_refused hk hr))
    case unready => exact hact.trans (congrArg Host.Outcome.next (State.sendPkt_of_unready hk hp hu hr))
    case taken =>
      have htake := hact.trans (congrArg Host.Outcome.next (State.sendPkt_of_taken hk hp hu hq hon))
      exact ⟨fun hd => htake.trans (congrArg Host.Outcome.next (State.recvTake_of_ended hd)),
        fun hd hl => htake.trans (congrArg Host.Outcome.next (State.recvTake_of_overlong hd hl)),
        fun hd hl x hf => htake.trans (congrArg Host.Outcome.next (State.recvTake_of_fault hd hl hf)),
        fun hd hl hf => htake.trans (congrArg Host.Outcome.next (State.recvTake_of_noFault hd hl hf))⟩
  case unserved =>
    intro h0 ea el ew data x hx h k gives hn hk
    have hact := exec_pktCommands s h0 data ea el ew x hx
    exact ⟨fun hb => hact.trans (congrArg Host.Outcome.next (State.arrivePkt_of_blackout hn hk hb)),
      fun hb hmiss => hact.trans (congrArg Host.Outcome.next (State.arrivePkt_of_miss hn hk hb hmiss))⟩

end Sys2Proof.Machine

/-! Answers at the requester, retries and timeouts, the context table, and the completions of DMA reads. -/

namespace Sys2Proof.Machine

section
variable {s : State}

/-! ### Answers at the requester (R215, R216, R220, R223) -/

section
variable {h : EngHdr} (hn : s.here (s.qpTile h.qpn) = true)
include hn

section
variable (hs : s.wrBySlot h = none)
include hs

theorem readResp_of_late (data : List Byte) : readResp h data s = s.count (s.qpTile h.qpn) .rmLateResponse := by
  simp [readResp, hn, hs]

theorem atomicResp_of_late (data : List Byte) : atomicResp h data s = s.count (s.qpTile h.qpn) .rmLateResponse := by
  simp [atomicResp, hn, hs]

theorem engineAck_of_late : engineAck h s = s.count (s.qpTile h.qpn) .rmLateResponse := by
  simp [engineAck, State.answered, hn, hs]

theorem notReady_of_late : notReady h s = s.count (s.qpTile h.qpn) .rmLateResponse := by
  simp [notReady, hn, hs]
end

variable {id : Nat} (hs : s.wrBySlot h = some id)
include hs

theorem engineAck_of_outstanding : engineAck h s = s.wrAnswer id h.code := by
  simp [engineAck, State.answered, hn, hs]

variable {w : Wr} (hw : s.wr id = some w)
include hw

/-- The state in which the part writes an answer's data to the host memory of the seat of a work request. -/
def State.answerWrite (s : State) (t : Nat) (w : Wr) (addr : Nat) (data : List Byte) : State :=
  s.hostWrite (s.tileEpoch t) t (s.seatPart s.leadEpoch w.seat) (some w.seat) false (s.seatPasid s.leadEpoch w.seat)
    .write addr data

theorem readResp_of_outstanding (data : List Byte) : readResp h data s =
    ((s.answerWrite (s.qpTile h.qpn) w (w.d.localAddr.toNat + (h.rOffset - w.d.rOffset)) data).modWr w.id fun k =>
      { k with bytes := k.bytes + data.length }).wrAnswer w.id 0 := by
  simp only [readResp, hn, hs, hw, Bool.not_true, Bool.false_eq_true, if_false, Option.bind_some]
  rfl

theorem atomicResp_of_outstanding (data : List Byte) : atomicResp h data s =
    ((s.answerWrite (s.qpTile h.qpn) w w.d.localAddr.toNat data).modWr w.id fun k =>
      { k with bytes := k.bytes + data.length }).wrAnswer w.id 0 := by
  simp only [atomicResp, hn, hs, hw, Bool.not_true, Bool.false_eq_true, if_false, Option.bind_some]
  rfl

theorem notReady_of_outstanding :
    let made := w.resent.countP fun r => r.1 == h.rOffset
    notReady h s = if made < (s.qp w.d.qpn).retryLimit then
        s.modWr w.id fun k => { k with refused := k.refused ++ [(h.rOffset, made)] }
      else s.wrAnswer w.id 0x05 := by
  simp only [notReady, hn, hs, hw, Bool.not_true, Bool.false_eq_true, if_false, Option.bind_some, ← Nat.not_lt, ite_not]
end

/-! ### Retries, timeouts and destroys (R210, R221, R223) -/

section
variable {id : Nat} {w : Wr} (hw : s.wr id = some w) (hst : w.st = .started) (hn : s.here w.tile = true)
include hw hst hn

/-- The state in which the back-off of the packet at offset `o` of a work request has ended, and its resend is counted. -/
def State.resending (s : State) (id o : Nat) (w : Wr) : State :=
  (s.modWr id fun k => { k with refused := k.refused.filter (fun r => r.1 != o),
                                resent := k.resent ++ [(o, 0)], retries := k.retries + 1 }).count w.tile
    .rmRetry none (some w.seat)

theorem notReadyBackoff_of_refused {o : Nat} (ho : (w.refused.any fun r => r.1 == o) = true) :
    let u := s.resending id o w
    let b := u.rebuild w o
    let r := u.sendEng w.tile b.1 b.2.1 w.seat (u.qp w.d.qpn).ordered b.2.2.1 b.2.2.2
    notReadyBackoff id o s = if r.2 then r.1 else r.1.wrAnswer id 0x07 := by
  simp only [notReadyBackoff, hw, hst, ho, hn, bne_self_eq_false, Bool.not_true, Bool.or_self, Bool.false_eq_true, if_false]
  rfl

theorem workRequestTimeout_of_started : workRequestTimeout id s = if w.owed ≠ 0 then s.finishWr id 0x08 else s := by
  simp [workRequestTimeout, hw, hst, hn]
end

theorem qpDestroyDone_of_idle {n : Nat} (hst : (s.qp n).state = 2) (hw : s.wrsOf n = [])
    (hn : s.here (s.qpTile n) = true) :
    qpDestroyDone n s = match (s.qp n).destroyer with
      | some w => (s.modQp n fun _ => {}).finishWr w 0
      | none => s.modQp n fun _ => {} :=
  if_neg (by simp [hst, hw, hn])

/-! ### The context table (R205, R209, R226) -/

theorem qpTableInit_of_ready (v : Word) (h : s.qpReady = true) : qpTableInit v s = s.sticky 0x0014001C 2 := if_pos h

theorem qpTableInit_of_notReady (v : Word) (h : s.qpReady = false) : qpTableInit v s =
    if bit v 5 then (s.plainWrite 0x00140010 v).setFlag 0x0014001C 1 true else s.plainWrite 0x00140010 v :=
  if_neg (by simp [h])

/-- The state with every context free and none cached. -/
def State.contextsEmptied (s : State) : State := s.modEng fun g => { g with qps := [], lru := [] }

theorem qpTableInitDone_of_busy (h : s.flag 0x0014001C 1 = true) :
    qpTableInitDone s = (s.contextsEmptied.setFlag 0x0014001C 1 false).setFlag 0x0014001C 0 true := if_neg (by simp [h])

theorem State.regsKept.modEng {t : State} {l : List Nat} (h : s.regsKept t l) {f : EngSt → EngSt} :
    s.regsKept (t.modEng f) l := h

theorem contextFetchDone_of_entry {n k : Nat} (hn : s.here n = true) (hr : s.qpReady = true) (ht : s.qpTile k = n)
    (hk : k < 2 ^ s.qpQ) : contextFetchDone n k s = s.fetchDone false n k :=
  if_neg (by simp [hn, hr, ht, hk])

/-! ### Completions of a DMA read (R295) -/

section
variable {id : Nat} {d : Dma} {c : Cpl}

/-- The state in which a DMA read has ended with a code, its outstanding entries dropped. -/
def State.dmaOver (s : State) (id code : Nat) : State := (s.dmaEnd id code).dmaForget id

/-- The piece of a DMA read whose next byte a completion carries. -/
def dmaPieceOf (d : Dma) (c : Cpl) : Option (Nat × Nat) := d.reqs.find? fun r => r.1 == c.addr.toNat && decide (r.1 < r.2)

/-- A completion carries bytes of a piece, and unless they end it, to a 64-byte boundary and with more to come. -/
def cutFits (c : Cpl) (r : Nat × Nat) : Prop :=
  c.data.length ≠ 0 ∧ c.addr.toNat + c.data.length ≤ r.2 ∧
    (c.addr.toNat + c.data.length < r.2 → (c.addr.toNat + c.data.length) % 64 = 0 ∧ c.last = false)

/-- A DMA read with the data of a completion to the piece `r`. -/
def dmaWith (d : Dma) (c : Cpl) (r : Nat × Nat) : Dma :=
  { d with reqs := d.reqs.map fun q => if q = r then (c.addr.toNat + c.data.length, r.2) else q,
           pieces := d.pieces ++ [(c.addr.toNat - d.start, c.data)] }

/-- All data of a DMA read is there. -/
def dmaFull (d : Dma) : Bool := d.reqs.all fun q => q.1 == q.2

/-- The state in which a DMA read stands as `d`, or, when all its data is there, has ended. -/
def State.dmaStands (s : State) (id : Nat) (d : Dma) : State :=
  let u : State := { s with host := { s.host with
    dmas := if dmaFull d then s.host.dmas.filter (fun k => k.id != id)
            else s.host.dmas.map fun k => if k.id = id then d else k } }
  if dmaFull d then u.dmaForget id else u

/-- The data of a DMA read that is complete so far goes to its work request, or all of it to its packet's answer. -/
def State.dmaGives (s : State) (d : Dma) : State :=
  let buf := gather d.pieces (d.pieces.length + 1) 0
  match d.wr, d.issue with
  | some w, _ => s.wrData w buf
  | none, some i => if dmaFull d then s.readDone i 2 buf else s
  | none, none => s

theorem not_cutFits_iff {r : Nat × Nat} : (c.data.length = 0 ∨ r.2 < c.addr.toNat + c.data.length ∨
    (c.addr.toNat + c.data.length < r.2 ∧ ((c.addr.toNat + c.data.length) % 64 ≠ 0 ∨ c.last))) ↔ ¬cutFits c r := by
  simp only [cutFits, not_and_or, Classical.not_imp, ne_eq, not_not, Nat.not_le, Bool.not_eq_false]

variable (hd : (s.host.dmas.find? fun x => x.id == id) = some d)
include hd

theorem dmaReadCompletion_of_error (hc : c.status ≠ .sc) :
    dmaReadCompletion id c s = s.dmaOver id (if d.wr.isSome then 0x02 else 0x03) := by
  simp only [dmaReadCompletion, State.dmaPiece, hd, if_pos hc, State.dmaOver]

variable (hc : c.status = .sc)
include hc

theorem dmaReadCompletion_of_poisoned (hp : c.poisoned = true) : dmaReadCompletion id c s = s.dmaOver id 0x09 := by
  simp [dmaReadCompletion, State.dmaPiece, hd, hc, hp, State.dmaOver]

variable (hp : c.poisoned = false)
include hp

theorem dmaReadCompletion_of_noPiece (hr : dmaPieceOf d c = none) :
    dmaReadCompletion id c s = (s.count d.tile .malformed).dmaOver id 0x08 := by
  unfold dmaPieceOf at hr
  simp only [dmaReadCompletion, State.dmaPiece, hd, hc, hp, hr, ne_eq, not_true, Bool.false_eq_true, if_false, State.dmaOver]

variable {r : Nat × Nat} (hr : dmaPieceOf d c = some r)
include hr

theorem dmaReadCompletion_of_badCut (hcut : ¬cutFits c r) :
    dmaReadCompletion id c s = (s.count d.tile .malformed).dmaOver id 0x08 := by
  unfold dmaPieceOf at hr
  simp only [dmaReadCompletion, State.dmaPiece, hd, hc, hp, hr, ne_eq, not_true, Bool.false_eq_true, if_false]
  exact if_pos (not_cutFits_iff.mpr hcut)

theorem dmaReadCompletion_of_cut (hcut : cutFits c r) :
    dmaReadCompletion id c s = (s.dmaStands id (dmaWith d c r)).dmaGives (dmaWith d c r) := by
  unfold dmaPieceOf at hr
  simp only [dmaReadCompletion, State.dmaPiece, hd, hc, hp, hr, ne_eq, not_true, Bool.false_eq_true, if_false]
  exact if_neg (not_cutFits_iff.not.mpr (not_not_intro hcut))
end
end

/-- Settles O29: the branches of the meanings; an answer goes by the work request that it names, and a completion by the
piece of its DMA read that it fits. -/
theorem engineAnswersAndTables : Obligations.EngineAnswersAndTables := by
  intro s
  refine ⟨?readResp, ?atomicResp, ?late, ?ack, ?notReady, ?backoff, ?timeout, ?destroyed, ?initReady, ?init, ?initDone,
    ?fetched, ?completion⟩
  case readResp =>
    exact fun h data id w hn hs hw => congrArg Host.Outcome.next (readResp_of_outstanding hn hs hw data)
  case atomicResp =>
    exact fun h data id w hn hs hw => congrArg Host.Outcome.next (atomicResp_of_outstanding hn hs hw data)
  case late =>
    exact fun h data hn hs => ⟨congrArg Host.Outcome.next (readResp_of_late hn hs data),
      congrArg Host.Outcome.next (atomicResp_of_late hn hs data), congrArg Host.Outcome.next (engineAck_of_late hn hs),
      congrArg Host.Outcome.next (notReady_of_late hn hs)⟩
  case ack => exact fun h id hn hs => congrArg Host.Outcome.next (engineAck_of_outstanding hn hs)
  case notReady => exact fun h id w hn hs hw => congrArg Host.Outcome.next (notReady_of_outstanding hn hs hw)
  case backoff =>
    exact fun id o w hw hst ho hn => congrArg Host.Outcome.next (notReadyBackoff_of_refused hw hst hn ho)
  case timeout => exact fun id w hw hst hn => congrArg Host.Outcome.next (workRequestTimeout_of_started hw hst hn)
  case destroyed => exact fun n hst hw hn => congrArg Host.Outcome.next (qpDestroyDone_of_idle hst hw hn)
  case initReady => exact fun v h => congrArg Host.Outcome.next (qpTableInit_of_ready v h)
  case init => exact fun v h => congrArg Host.Outcome.next (qpTableInit_of_notReady v h)
  case initDone =>
    intro h
    refine ⟨_, congrArg Host.Outcome.next (qpTableInitDone_of_busy h), State.flag_setFlag_self _ _ _ (by decide), ?_,
      rfl, rfl, rfl, State.regsKept.refl.modEng.setFlag.setFlag, ⟨rfl, rfl⟩⟩
    rw [State.flag_setFlag _ _ _ _ _ (by decide), if_neg (by decide), State.flag_setFlag_self _ _ _ (by decide)]
  case fetched => exact fun n k hn hr ht hk => congrArg Host.Outcome.next (contextFetchDone_of_entry hn hr ht hk)
  case completion =>
    intro id c d hd a n piece cutOk malformed gives
    exact ⟨fun hc => congrArg Host.Outcome.next (dmaReadCompletion_of_error hd hc),
      fun hc hp => congrArg Host.Outcome.next (dmaReadCompletion_of_poisoned hd hc hp),
      fun hc hp =>
        ⟨fun hr => congrArg Host.Outcome.next (dmaReadCompletion_of_noPiece hd hc hp hr),
          fun r hr hcut => congrArg Host.Outcome.next (dmaReadCompletion_of_badCut hd hc hp hr hcut),
          fun r hr hcut => congrArg Host.Outcome.next (dmaReadCompletion_of_cut hd hc hp hr hcut)⟩⟩

end Sys2Proof.Machine

/-! Safety: every command answers a next state, every step keeps the canonical form and the blown fuses, and the state after
reset. -/

namespace Sys2Proof.Machine

/-- Settles O53: each arm of `exec` is the next state that its meaning makes. -/
theorem everyCommandAnswersANextState : Obligations.EveryCommandAnswersANextState := by
  intro c s
  obtain ⟨t, ht, -⟩ := exec_next_keeps c s
  exact ⟨t, ht⟩

/-- What a step keeps when it takes a command off the queue or lets a nanosecond pass: blown fuse bits stay blown, and the
canonical form is kept. -/
theorem step_keeps_fuses_and_wf {s t : State} (h : step s = .next t) : s.fusesKept t ∧ (s.Wf → t.Wf) := by
  unfold step at h
  split at h
  case h_1 =>
    obtain ⟨-, -, -, -, -, hfuses, hwf⟩ := Host.Outcome.next.inj h ▸ tick_keeps s (.refl s)
    exact ⟨hfuses, hwf⟩
  case h_2 c cs _ =>
    obtain ⟨-, -, -, -, -, hfuses, hwf⟩ := exec_keeps h
    exact ⟨hfuses, hwf⟩

/-- Settles O54: it holds of each operation that a step is made of. -/
theorem stepKeepsWf : Obligations.StepKeepsWf :=
  fun _ _ hs h => (step_keeps_fuses_and_wf h).2 hs

/-- Settles O56: it holds of each operation that a step is made of. -/
theorem blownFusesStayBlown : Obligations.BlownFusesStayBlown :=
  fun _ _ h => (step_keeps_fuses_and_wf h).1

/-- Settles O55: the empty table is in canonical form. -/
theorem resetIsWf : Obligations.ResetIsWf :=
  ⟨twf_nil _, twf_nil _, twf_nil _, twf_nil _⟩

/-- No fuse is sensed after reset, so that HK_ID names the part alone (R447). -/
theorem hkId_reset : State.reset.hkId = 0x00011024#32 := by
  have hsensed (i : Nat) : State.reset.boot.sensed.getLsbD i = false := BitVec.getLsbD_zero
  have hpart : State.reset.part = .rh1024 := rfl
  simp only [State.hkId, hsensed, hpart]
  decide

/-- Settles O58: no table of the state after reset lists a word, and an unlisted word reads its reset value. -/
theorem resetRegisters : Obligations.ResetRegisters := by
  refine ⟨fun o => tget_nil _ o, fun e o => ?_, rfl, rfl, rfl, rfl, rfl, rfl, rfl, rfl, rfl, hkId_reset⟩
  cases e <;> exact tget_nil _ o

end Sys2Proof.Machine

/-! The boot, the device resets, the Ilulys restarts and HK_RESET_CTRL. -/

namespace Sys2Proof.Machine

/-! ### Words with bits set or cleared -/

theorem bit_or (v w : Word) (n : Nat) : bit (v ||| w) n = (bit v n || bit w n) := BitVec.getLsbD_or

theorem bit_and (v w : Word) (n : Nat) : bit (v &&& w) n = (bit v n && bit w n) := BitVec.getLsbD_and

/-- Bits set outside a field leave it. -/
theorem field_or_of_clear (v : Word) {w : Word} {hi lo : Nat} (h : field w hi lo = 0) :
    field (v ||| w) hi lo = field v hi lo := by
  refine Nat.eq_of_testBit_eq fun i => ?_
  have hclear : (field w hi lo).testBit i = false := by rw [h, Nat.zero_testBit]
  rw [testBit_field] at hclear
  rw [testBit_field, testBit_field, BitVec.getLsbD_or, Bool.and_or_distrib_left, hclear, Bool.or_false]

/-! ### Boot (R380) -/

section
variable {s : State} {b : BootInput}

theorem bootRun_of_noSupply (ha : s.pwr.vauxA = false) (hb : s.pwr.vauxB = false) : bootRun b s = s :=
  if_pos (by rw [ha, hb]; rfl)

theorem bootRun_of_supply (h : s.pwr.vauxA = true ∨ s.pwr.vauxB = true) : bootRun b s = match s.pwr.due with
    | none => s
    | some .boot => s.bootFull b
    | some .restart => s.restartEnds b
    | some .rejoin => s.rejoin b := by
  refine (if_neg ?_).trans rfl
  rcases h with h | h <;> simp [h]
end

/-! ### Device resets (R398, R400) -/

section
variable {C : List Comp} {z s : State}

theorem Changes.blowsLost (h : Changes C z s) : Changes ([Comp.boot, .freeCtr] ++ C) z s.blowsLost :=
  h.andThen (.within (by decide) (Changes.refl.each fun _ _ => Changes.refl.used.modBoot).modBoot)

theorem Changes.stopsLost (h : Changes C z s) : Changes (.host :: C) z s.stopsLost := h.upd [.host] rfl
end

theorem State.blowsLost_flash (s : State) : s.blowsLost.boot.flash = s.boot.flash :=
  State.each_eq (·.boot.flash) (f := fun u n => u.used.modBoot fun b => { b with
    fuseA := if u.freeBelow 4 % 2 = 1 then b.fuseA ||| BitVec.ofNat 2048 (2 ^ n) else b.fuseA
    fuseB := if u.freeBelow 4 / 2 = 1 then b.fuseB ||| BitVec.ofNat 2048 (2 ^ n) else b.fuseB }) (fun _ _ => rfl) s _

/-- A cold reset leaves no register but the cause off its reset value. -/
theorem State.coldReset_lv (s : State) (cause : Nat) {o : Nat} (h : o ≠ resetCause) :
    (s.deviceReset true cause).lv o = regReset s.part o := by
  have hpart : s.blowsLost.part = s.part := (Changes.refl.blowsLost : Changes _ s _) .part (by decide)
  unfold State.deviceReset
  rw [State.lv_setFld_ne _ _ _ _ h, ← hpart]
  rfl

theorem State.deviceReset_cause (s : State) (cold : Bool) {cause : Nat} (h : cause < 16) :
    (s.deviceReset cold cause).fld resetCause 3 0 = cause :=
  (State.fld_setFld_self _ _ cause (by decide) (by decide)).trans (Nat.mod_eq_of_lt h)

/-! ### HK_RESET_CTRL (R400) -/

/-- What TILE does in a write of HK_RESET_CTRL: the tile it names is lost, or refuses a reset from a port of its own. -/
def State.tileAsked (s : State) (via : Via) (w : Word) : State :=
  if bit w 3 = false ∨ s.part.hasTile (field w 6 4) = false then s
  else if Via.onTile via (field w 6 4) then s.sticky resetCtrl 7 else s.loseTile (field w 6 4)

section
variable {s : State} {via : Via} {v w : Word}

theorem State.resetWrite_of_reset (h : s.ilulysReset = true) : s.resetWrite via w = s := if_pos h

theorem State.resetWrite_of_noKey (hi : s.ilulysReset = false) (hk : field w 31 16 ≠ 0xA5C3) :
    s.resetWrite via w = s.sticky resetCtrl 8 :=
  (if_neg (by simp [hi])).trans (if_pos hk)

theorem State.resetWrite_of_key (hi : s.ilulysReset = false) (hk : field w 31 16 = 0xA5C3) :
    s.resetWrite via w =
      let u := (s.plainWrite resetCtrl w).tileAsked via w
      if bit w 1 then u.resetAsk true else if bit w 0 then u.resetAsk false
      else if bit w 2 then u.ilulysRestart 4 else u := by
  refine (if_neg (by simp [hi])).trans ((if_neg (not_not_intro hk)).trans ?_)
  simp only [State.tileAsked, Bool.or_eq_true, Bool.not_eq_true']

theorem State.tileAsked_of_noTile (h : bit w 3 = false) : s.tileAsked via w = s := if_pos (.inl h)

theorem State.tileAsked_of_own (h : bit w 3 = true) (ht : s.part.hasTile (field w 6 4) = true)
    (hv : Via.onTile via (field w 6 4) = true) : s.tileAsked via w = s.sticky resetCtrl 7 :=
  (if_neg (by simp [h, ht])).trans (if_pos hv)

theorem State.tileAsked_of_other (h : bit w 3 = true) (ht : s.part.hasTile (field w 6 4) = true)
    (hv : Via.onTile via (field w 6 4) = false) : s.tileAsked via w = s.loseTile (field w 6 4) :=
  (if_neg (by simp [h, ht])).trans (if_neg (by simp [hv]))

theorem State.resetAsk_of_blow (h : s.boot.blows ≠ []) (cold : Bool) :
    s.resetAsk cold = s.modBoot fun b => { b with blowReset := some (cold || b.blowReset == some true) } :=
  if_neg (by simpa using h)

theorem State.resetAsk_of_idle (h : s.boot.blows = []) (cold : Bool) :
    s.resetAsk cold = s.deviceReset cold (if cold then 2 else 3) := if_pos (by simp [h])

theorem State.plainWrite_blows (s : State) (o : Nat) (v : Word) : (s.plainWrite o v).boot.blows = s.boot.blows :=
  congrArg BootSt.blows ((Changes.refl.plainWrite : Changes _ s _) .boot (by decide))

/-- The key stands above the bits that a reset command sets. -/
theorem key_or (v : Word) {k : Word} (h : field k 31 16 = 0) : field (v ||| k) 31 16 = field v 31 16 := field_or_of_clear v h

variable (hi : s.ilulysReset = false) (hk : field v 31 16 = 0xA5C3)
include hi hk

theorem coldReset_of_key :
    coldReset via v s = ((s.plainWrite resetCtrl (v ||| 2)).tileAsked via (v ||| 2)).resetAsk true := by
  have hc : bit (v ||| 2) 1 = true := by rw [bit_or]; simp [bit]
  refine (State.resetWrite_of_key hi ((key_or v (by decide)).trans hk)).trans ?_
  simp only [hc, if_true]

theorem warmReset_of_key :
    warmReset via v s = ((s.plainWrite resetCtrl (v ||| 1)).tileAsked via (v ||| 1)).resetAsk (bit v 1) := by
  have hw : bit (v ||| 1) 0 = true := by rw [bit_or]; simp [bit]
  have hc : bit (v ||| 1) 1 = bit v 1 := by rw [bit_or]; simp [bit]
  refine (State.resetWrite_of_key hi ((key_or v (by decide)).trans hk)).trans ?_
  simp only [hw, hc, if_true]
  cases bit v 1 <;> rfl

theorem tileReset_of_key :
    tileReset via v s =
      let u := (s.plainWrite resetCtrl (v ||| 8)).tileAsked via (v ||| 8)
      if bit v 1 then u.resetAsk true else if bit v 0 then u.resetAsk false
      else if bit v 2 then u.ilulysRestart 4 else u := by
  have hbit (n : Nat) (hn : n < 3) : bit (v ||| 8) n = bit v n := by
    rw [bit_or]
    interval_cases n <;> simp [bit]
  refine (State.resetWrite_of_key hi ((key_or v (by decide)).trans hk)).trans ?_
  simp only [hbit 0 (by decide), hbit 1 (by decide), hbit 2 (by decide)]
end

/-! ### The restart of the Ilulys die (R401) -/

section
variable {s : State} {c : Nat}

theorem State.ilulysRestart_of_reset (h : s.ilulysReset = true) : s.ilulysRestart c = s := if_pos h

/-- What an Ilulys restart finds: the service links are lost, with the blows and the stops in progress. -/
def State.dieLost (s : State) : State := (s.each s.running State.svcLost).blowsLost.stopsLost

theorem Changes.dieLost {C : List Comp} {z s : State} (h : Changes C z s) :
    Changes ([Comp.boot, .freeCtr, .host, .live, .pwr, .tel] ++ C) z s.dieLost :=
  h.andThen (.within (by decide) (Changes.refl.each fun _ _ => Changes.refl.svcLost).blowsLost.stopsLost)

/-- A lost service link writes words of its tile only. -/
theorem State.svcLost_lv_of_global (s : State) (t : Nat) {o : Nat} (h : o < 0x01000000) : (s.svcLost t).lv o = s.lv o := by
  by_cases hop : s.operates t = true ∧ s.headless t = false
  · obtain ⟨hop, hh⟩ := hop
    have h1 : o ≠ slaveStatus t := by simp only [slaveStatus, tileBase]; omega
    have h2 : o ≠ tlStatus t := by simp only [tlStatus, tileBase]; omega
    rw [← serviceLinkLoss, serviceLinkLoss_lv hop hh, if_neg h1, if_neg h2]
  · rw [← serviceLinkLoss, serviceLinkLoss_of_idle]
    cases hop' : s.operates t <;> simp_all

theorem State.dieLost_lv_of_global (s : State) {o : Nat} (h : o < 0x01000000) : s.dieLost.lv o = s.lv o := by
  have hrest : Changes [.host, .boot, .freeCtr] (s.each s.running State.svcLost) s.dieLost :=
    .within (by decide) (Changes.refl.blowsLost.stopsLost)
  rw [hrest.lv_eq (by decide) (by decide)]
  exact State.each_eq (·.lv o) (fun v t => v.svcLost_lv_of_global t h) s _

/-- The registers after an Ilulys restart: the cause and the count of restarts, and the boot stage at 0. -/
theorem State.ilulysRestart_fld (hi : s.ilulysReset = false) (hc : c < 16) :
    (s.ilulysRestart c).fld resetCause 3 0 = c ∧
      (s.ilulysRestart c).fld resetCause 15 8 = min 255 (s.fld resetCause 15 8 + 1) := by
  have hlv : s.dieLost.lv resetCause = s.lv resetCause := s.dieLost_lv_of_global (by decide)
  have hread : (s.ilulysRestart c).lv resetCause = putField (putField (s.lv resetCause) 3 0 c) 15 8
      (satAdd 255 (s.fld resetCause 15 8) 1) := by
    let counted := (s.dieLost.setFld resetCause 3 0 c).setFld resetCause 15 8 (satAdd 255 (s.dieLost.fld resetCause 15 8) 1)
    have hfld : s.dieLost.fld resetCause 15 8 = s.fld resetCause 15 8 := congrArg (field · 15 8) hlv
    calc (s.ilulysRestart c).lv resetCause
      _ = (counted.setFld bootStatus 3 0 0).lv resetCause := by rw [State.ilulysRestart, hi]; rfl
      _ = counted.lv resetCause := State.lv_setFld_ne _ _ _ _ (by decide)
      _ = _ := by simp only [counted, State.lv_setFld, if_true, hfld, hlv]
  simp only [State.fld, hread]
  refine ⟨?_, ?_⟩
  · rw [field_putField_ne _ _ (by decide) (by decide) (by decide), field_putField_self _ _ (by decide) (by decide)]
    exact Nat.mod_eq_of_lt hc
  · rw [field_putField_self _ _ (by decide) (by decide)]
    exact Nat.mod_eq_of_lt (by simp only [satAdd]; omega)

theorem State.ilulysRestart_of_running (hi : s.ilulysReset = false) :
    (s.ilulysRestart c).ilulysReset = true ∧ (s.ilulysRestart c).host.bridge = {} := by
  rw [State.ilulysRestart, hi]
  exact ⟨rfl, rfl⟩

theorem Changes.ilulysRestart {C : List Comp} {z s : State} (h : Changes C z s) {c : Nat} :
    Changes ([Comp.boot, .freeCtr, .host, .ilulysReset, .live, .pwr, .tel] ++ C) z (s.ilulysRestart c) := by
  refine h.andThen ?_
  unfold State.ilulysRestart
  split
  · exact .same
  · exact .within (by decide) (Changes.refl.dieLost.setFld.setFld.setFld.modPwr.upd [.ilulysReset, .host] rfl)
end

/-- Settles O44: the branches of the boot and of the writes; a cold reset makes the state anew, and a restart leaves all but
the die's own. -/
theorem bootAndResets : Obligations.BootAndResets := by
  intro s
  refine ⟨?boot, ?noSupply, ?sysReset, ?resets, ?tileReset, ?noKey, ?keyed, ?restart, ?causes, ?inReset⟩
  case boot =>
    intro b h
    have hboot : exec (.boot b) s = .next (bootRun b s) := rfl
    rw [hboot, bootRun_of_supply h]
    exact ⟨fun hd => by rw [hd], fun hd => by rw [hd], fun hd => by rw [hd], fun hd => by rw [hd]⟩
  case noSupply => exact fun b ha hb => congrArg Host.Outcome.next (bootRun_of_noSupply ha hb)
  case sysReset =>
    have hkeeps := State.deviceReset_keeps s true 1 (.refl s)
    exact ⟨_, rfl, s.deviceReset_cause true (by decide), rfl, rfl, rfl, rfl, rfl, rfl, rfl, s.blowsLost_flash, hkeeps.fuses,
      fun o ho => s.coldReset_lv 1 ho⟩
  case resets =>
    intro via v hi hk tile
    exact ⟨congrArg Host.Outcome.next (coldReset_of_key hi hk), congrArg Host.Outcome.next (warmReset_of_key hi hk)⟩
  case tileReset => exact fun via v hi hk => congrArg Host.Outcome.next (tileReset_of_key hi hk)
  case noKey =>
    exact fun via v hi hk => congrArg Host.Outcome.next ((if_neg hk).trans (State.resetWrite_of_noKey hi hk))
  case keyed =>
    intro via v h
    by_cases hk : field v 31 16 = 0xA5C3
    · exact congrArg Host.Outcome.next (if_pos hk)
    · exact congrArg Host.Outcome.next ((if_neg hk).trans (State.resetWrite_of_reset (h.resolve_right hk)))
  case restart =>
    intro c hc hi
    have hchg : Changes _ s (s.ilulysRestart c) := Changes.refl.ilulysRestart
    obtain ⟨hcause, hcount⟩ := State.ilulysRestart_fld hi hc
    obtain ⟨hreset, hbridge⟩ := State.ilulysRestart_of_running (c := c) hi
    exact ⟨_, rfl, hcause, hcount, hreset, hbridge, hchg .pkts (by decide), hchg.setsKept (by decide) (by decide),
      (State.ilulysRestart_keeps s c (.refl s)).fuses⟩
  case causes =>
    intro hi
    exact ⟨rfl, rfl, ⟨_, rfl, (State.ilulysRestart_fld hi (by decide)).1⟩,
      ⟨_, rfl, (State.ilulysRestart_fld hi (by decide)).1⟩⟩
  case inReset =>
    intro c via v hi
    have hrestart (n : Nat) : s.ilulysRestart n = s := State.ilulysRestart_of_reset hi
    have hwrite (w : Word) : s.resetWrite via w = s := State.resetWrite_of_reset hi
    exact ⟨congrArg Host.Outcome.next (hrestart c), congrArg Host.Outcome.next (hrestart 5),
      congrArg Host.Outcome.next (hrestart 8), congrArg Host.Outcome.next (hwrite _),
      congrArg Host.Outcome.next (hwrite _), congrArg Host.Outcome.next (hwrite _)⟩

/-! ### The end of a fuse blow (R382, R400) -/

/-- The state after the first blow of the line ends: its bits, RESULT and DONE. -/
def State.blowEnded (s : State) (verified : Bool) (n : Nat) (ns : List Nat) : State :=
  let one : BitVec 2048 := BitVec.ofNat 2048 (2 ^ n)
  let blown := s.used.modBoot fun b => { b with
    blows := ns
    fuseA := if verified || s.freeBelow 4 % 2 = 1 then b.fuseA ||| one else b.fuseA
    fuseB := if verified || s.freeBelow 4 / 2 = 1 then b.fuseB ||| one else b.fuseB }
  let shown := (blown.setFld fuseProg 15 14 (if verified then 0 else 3)).setFlag fuseProg 31 ns.isEmpty
  if verified then shown.countHk 52 else shown

section
variable {s : State} {ok : Bool} {n : Nat} {ns : List Nat}

theorem State.blowEnded_boot (s : State) (ok : Bool) (n : Nat) (ns : List Nat) :
    (s.blowEnded ok n ns).boot.blows = ns ∧ (s.blowEnded ok n ns).boot.blowReset = s.boot.blowReset ∧
      (s.blowEnded ok n ns).boot.sensed = s.boot.sensed := by
  cases ok <;> exact ⟨rfl, rfl, rfl⟩

variable (h : s.boot.blows = n :: ns)
include h

theorem fuseBlowDone_eq : fuseBlowDone ok s = match s.boot.blowReset with
    | some cold => if ns.isEmpty then (s.blowEnded ok n ns).deviceReset cold (if cold then 2 else 3) else s.blowEnded ok n ns
    | none => s.blowEnded ok n ns := by
  rw [← (s.blowEnded_boot ok n ns).2.1]
  unfold fuseBlowDone
  rw [h]
  rfl

theorem fuseBlowDone_of_goesOn (hr : s.boot.blowReset = none ∨ ns ≠ []) : fuseBlowDone ok s = s.blowEnded ok n ns := by
  rw [fuseBlowDone_eq h]
  split
  case h_1 cold hc => exact if_neg (by simpa [hc] using hr)
  case h_2 => rfl
end

/-- Settles O60: the branches of the write, and the reset that waited for the last blow. -/
theorem resetControlNeedsItsKey : Obligations.ResetControlNeedsItsKey := by
  intro s hi via v
  refine ⟨?noKey, ?resets, ?blowEnds, ?tile⟩
  case noKey =>
    intro hk
    have hwrite (w : Word) (hw : field w 31 16 = 0) :
        s.resetWrite via (v ||| w) = s.sticky resetCtrl 8 :=
      State.resetWrite_of_noKey hi ((key_or v hw).trans_ne hk)
    exact ⟨congrArg Host.Outcome.next (hwrite 2 (by decide)), congrArg Host.Outcome.next (hwrite 1 (by decide)),
      congrArg Host.Outcome.next (hwrite 8 (by decide)),
      congrArg Host.Outcome.next ((if_neg hk).trans (State.resetWrite_of_noKey hi hk))⟩
  case resets =>
    intro hk h3 c w
    have hbit (k : Word) (hb : bit k 3 = false) : bit (v ||| k) 3 = false := by rw [bit_or, h3, hb]; rfl
    have hcold : coldReset via v s = c.resetAsk true :=
      (coldReset_of_key hi hk).trans (by rw [State.tileAsked_of_noTile (hbit 2 (by decide))])
    have hwarm (h1 : bit v 1 = false) : warmReset via v s = w.resetAsk false :=
      (warmReset_of_key hi hk).trans (by rw [State.tileAsked_of_noTile (hbit 1 (by decide)), h1])
    have hblows (o : Nat) (x : Word) : (s.plainWrite o x).boot.blows = s.boot.blows := s.plainWrite_blows o x
    refine ⟨fun hb => ⟨?_, fun h1 => ?_⟩, fun hb => ⟨?_, fun h1 => ?_⟩⟩
    · exact congrArg Host.Outcome.next (hcold.trans (State.resetAsk_of_blow ((hblows _ _).trans_ne hb) true))
    · exact congrArg Host.Outcome.next ((hwarm h1).trans (State.resetAsk_of_blow ((hblows _ _).trans_ne hb) false))
    · exact congrArg Host.Outcome.next (hcold.trans (State.resetAsk_of_idle ((hblows _ _).trans hb) true))
    · exact congrArg Host.Outcome.next ((hwarm h1).trans (State.resetAsk_of_idle ((hblows _ _).trans hb) false))
  case blowEnds =>
    intro n cold ok hb hr
    refine ⟨s.blowEnded ok n [], congrArg Host.Outcome.next ?_, (s.blowEnded_boot ok n []).1⟩
    rw [fuseBlowDone_eq hb, hr]
    rfl
  case tile =>
    intro hk h0 h1 h2 ht
    have hact : tileReset via v s = (s.plainWrite resetCtrl (v ||| 8)).tileAsked via (v ||| 8) :=
      (tileReset_of_key hi hk).trans (by simp [h0, h1, h2])
    have h3 : bit (v ||| 8) 3 = true := by rw [bit_or]; simp [bit]
    have hname : field (v ||| 8) 6 4 = field v 6 4 := field_or_of_clear v (by decide)
    have hpart : (s.plainWrite resetCtrl (v ||| 8)).part.hasTile (field (v ||| 8) 6 4) = true := by
      have hsame : (s.plainWrite resetCtrl (v ||| 8)).part = s.part :=
        (Changes.refl.plainWrite : Changes _ s _) .part (by decide)
      rw [hsame, hname]
      exact ht
    rw [← hname]
    exact ⟨fun hv => congrArg Host.Outcome.next (hact.trans (State.tileAsked_of_own h3 hpart hv)),
      fun hv => congrArg Host.Outcome.next (hact.trans (State.tileAsked_of_other h3 hpart hv))⟩

end Sys2Proof.Machine

/-! The fuses, the attestation mailbox, the flash mailbox and the JTAG port. -/

namespace Sys2Proof.Machine

/-- Two next states are equal answers. -/
theorem next_eq {s t : State} (h : s = t) : (.next s : Out) = .next t := congrArg Host.Outcome.next h

/-! ### Fuses (R382, R388) -/

section
variable {s : State} {via : Via} {v : Word}

theorem fuseSelectDone_of_idle (h : s.boot.fuseRead = false ∨ s.ilulysReset = true) : fuseSelectDone s = s :=
  if_pos (by rcases h with h | h <;> simp [h])

theorem fuseSelectDone_of_read (hr : s.boot.fuseRead = true) (hi : s.ilulysReset = false) :
    fuseSelectDone s = ((s.setLv 0x00020008 (s.fuseWord (s.fld fuseSel 5 0))).setFlag fuseSel 31 true).modBoot fun b =>
      { b with fuseRead := false } :=
  if_neg (by simp [hr, hi])

theorem fuseBlow_of_reset (h : s.ilulysReset = true) : fuseBlow via v s = s := if_pos (by simp [h])

theorem fuseBlow_of_open (hi : s.ilulysReset = false) (ho : s.viaOpen via = true) : fuseBlow via v s = s.fuseProgAct v :=
  if_neg (by simp [hi, ho])

theorem State.fuseProgAct_of_accepted
    (h : ((s.plainWrite fuseProg v).setFlag fuseProg 31 false).blowCode (32 * field v 5 0 + field v 10 6) = 0) :
    s.fuseProgAct v = ((s.plainWrite fuseProg v).setFlag fuseProg 31 false).modBoot fun b =>
      { b with blows := b.blows ++ [32 * field v 5 0 + field v 10 6] } := by
  unfold State.fuseProgAct
  simp only [h]

theorem State.fuseProgAct_of_refused {c : Nat}
    (h : ((s.plainWrite fuseProg v).setFlag fuseProg 31 false).blowCode (32 * field v 5 0 + field v 10 6) = c + 1) :
    s.fuseProgAct v = ((((s.plainWrite fuseProg v).setFlag fuseProg 31 false).setFld fuseProg 15 14 (c + 1)).setFlag
      fuseProg 31 true).countHk 53 := by
  unfold State.fuseProgAct
  simp only [h]

/-- The registers after a blow's end: RESULT and DONE of HK_FUSE_PROG, and no other word changed. -/
theorem State.blowEnded_regs (s : State) (ok : Bool) (n : Nat) (ns : List Nat) :
    (s.blowEnded ok n ns).fld fuseProg 15 14 = (if ok then 0 else 3) ∧
      (s.blowEnded ok n ns).flag fuseProg 31 = ns.isEmpty ∧ s.regsKept (s.blowEnded ok n ns) [fuseProg] := by
  let blown := s.used.modBoot fun b => { b with
    blows := ns
    fuseA := if ok || s.freeBelow 4 % 2 = 1 then b.fuseA ||| BitVec.ofNat 2048 (2 ^ n) else b.fuseA
    fuseB := if ok || s.freeBelow 4 / 2 = 1 then b.fuseB ||| BitVec.ofNat 2048 (2 ^ n) else b.fuseB }
  let resulted := blown.setFld fuseProg 15 14 (if ok then 0 else 3)
  let shown := resulted.setFlag fuseProg 31 ns.isEmpty
  have hlv (o : Nat) : (s.blowEnded ok n ns).lv o = shown.lv o := by
    cases ok
    · rfl
    · exact State.lv_countHk _ _ _
  have hresult : shown.fld fuseProg 15 14 = (if ok then 0 else 3) := by
    rw [State.fld_setFlag_of_outside _ _ (by decide) (.inr (.inl (by decide))),
      State.fld_setFld_self _ _ _ (by decide) (by decide)]
    cases ok <;> rfl
  have hdone : shown.flag fuseProg 31 = ns.isEmpty := State.flag_setFlag_self _ _ _ (by decide)
  have hkept : s.regsKept shown [fuseProg] :=
    State.regsKept.setFlag (State.regsKept.setFld (t := blown) State.regsKept.refl)
  refine ⟨?_, ?_, fun o ho => (hlv o).trans (hkept o ho)⟩
  · rw [State.fld, hlv]
    exact hresult
  · rw [State.flag, hlv]
    exact hdone

theorem State.blowEnded_setsKept (s : State) (ok : Bool) (n : Nat) (ns : List Nat) : s.setsKept (s.blowEnded ok n ns) := by
  cases ok <;> exact ⟨rfl, rfl⟩

theorem State.blowEnded_verified (s : State) (n : Nat) (ns : List Nat) :
    (s.blowEnded true n ns).boot.fuseA = s.boot.fuseA ||| BitVec.ofNat 2048 (2 ^ n) ∧
      (s.blowEnded true n ns).boot.fuseB = s.boot.fuseB ||| BitVec.ofNat 2048 (2 ^ n) := ⟨rfl, rfl⟩

theorem fuseBlowDone_of_idle {ok : Bool} (h : s.boot.blows = []) : fuseBlowDone ok s = s := by
  unfold fuseBlowDone
  rw [h]
end

/-! ### Attestation (R384 to R388) -/

/-- An attestation operation ends: DONE is set. -/
def State.attEnds (s : State) : State := (s.setFlag attCtrl 31 true).modBoot fun b => { b with attOp := none }

/-- The buffer begins with the bytes put. -/
def State.attPut (s : State) (d : List Byte) : State := s.modBoot fun b => { b with att := d ++ b.att.drop d.length }

/-- The operation that loads the modulus ends with its bytes at the head of the buffer. -/
theorem State.attPut_attEnds (s : State) (d : List Byte) :
    (s.attPut d).attEnds.boot.att = d ++ s.boot.att.drop d.length ∧ (s.attPut d).attEnds.boot.attOp = none ∧
      (s.attPut d).attEnds.flag attCtrl 31 = true ∧ s.regsKept (s.attPut d).attEnds [attCtrl] ∧
      s.setsKept (s.attPut d).attEnds :=
  ⟨rfl, rfl, State.flag_setFlag_self (s.attPut d) attCtrl true (by decide),
    State.regsKept.setFlag (t := s.attPut d) State.regsKept.refl, rfl, rfl⟩

section
variable {s : State} {v : Word} {op : Nat}

theorem State.attWrite_of_reset (h : s.ilulysReset = true) : s.attWrite v = s := if_pos h

theorem State.attWrite_of_running (h : s.ilulysReset = false) : s.attWrite v = s.attAct v := if_neg (by simp [h])

theorem attDone_of_idle (h : s.boot.attOp = none) : attDone s = s := by
  unfold attDone
  rw [h]

theorem attDone_of_reset (h : s.ilulysReset = true) : attDone s = s := by
  unfold attDone
  split
  · rfl
  · exact if_pos h

theorem attDone_of_word (hop : s.boot.attOp = some op) (hi : s.ilulysReset = false) (h1 : op ≠ 1) (h2 : op ≠ 2) :
    attDone s = (s.used.setLv 0x00020014 (s.attWord (s.fld attCtrl 7 0))).attEnds := by
  unfold attDone
  simp only [hop, hi, h1, h2, Bool.false_eq_true, if_false]
  rfl

theorem attDone_of_report (hop : s.boot.attOp = some 1) (hi : s.ilulysReset = false) (hkey : s.flag bootStatus 15 = true)
    (hcur : s.curtainState = 0) : attDone s =
      ((s.attPut (s.report ++ Config.rsaSign s.deviceSeed s.report s.boot.attRuns)).attEnds.modBoot fun b =>
        { b with attRuns := b.attRuns + 1 }).countHk 54 := by
  unfold attDone
  simp only [hop, hi, Bool.false_eq_true, if_false, if_true]
  exact if_neg (by simp [hkey, hcur])

theorem attDone_of_modulus (hop : s.boot.attOp = some 2) (hi : s.ilulysReset = false) (hkey : s.flag bootStatus 15 = true) :
    attDone s = (s.attPut (Config.deviceModulus s.deviceSeed)).attEnds := by
  unfold attDone
  simp only [hop, hi, hkey, Bool.false_eq_true, Bool.not_true, if_false, if_true]
  exact if_neg (by decide)

/-- A report and the modulus wait for the key, a report also for the curtain. -/
theorem attDone_of_waits (h : (s.boot.attOp = some 1 ∨ s.boot.attOp = some 2) ∧ s.flag bootStatus 15 = false ∨
    s.boot.attOp = some 1 ∧ s.curtainState ≠ 0) : attDone s = s := by
  unfold attDone
  rcases h with ⟨hop | hop, hkey⟩ | ⟨hop, hcur⟩
  · simp [hop, hkey]
  · simp [hop, hkey]
  · simp [hop, hcur]
end

/-- Settles O41: the branches of each command; a blow's end is the end of the line's first blow. -/
theorem fusesAndAttestation : Obligations.FusesAndAttestation := by
  intro s
  refine ⟨?select, ?selectDone, ?noRead, ?blow, ?verified, ?unverified, ?noBlow, ?attStart, ?word, ?report, ?modulus, ?waits,
    ?devkey, ?inReset⟩
  case select => exact fun v hi => next_eq (if_neg (by simp [hi]))
  case selectDone => exact fun hr hi => next_eq (fuseSelectDone_of_read hr hi)
  case noRead => exact fun hr => next_eq (fuseSelectDone_of_idle (.inl hr))
  case blow =>
    intro via v hi ho
    have hact : fuseBlow via v s = s.fuseProgAct v := fuseBlow_of_open hi ho
    exact ⟨fun hcode => next_eq (hact.trans (State.fuseProgAct_of_accepted hcode)),
      fun c hcode => next_eq (hact.trans (State.fuseProgAct_of_refused hcode))⟩
  case verified =>
    intro n ns hb hr
    obtain ⟨hblows, -, hsensed⟩ := s.blowEnded_boot true n ns
    obtain ⟨hresult, hdone, hkept⟩ := s.blowEnded_regs true n ns
    obtain ⟨hA, hB⟩ := s.blowEnded_verified n ns
    exact ⟨_, next_eq (fuseBlowDone_of_goesOn hb hr), hA, hB, hresult, hdone, hblows, hsensed, hkept,
      s.blowEnded_setsKept true n ns⟩
  case unverified =>
    intro n ns hb hr
    obtain ⟨hblows, -, hsensed⟩ := s.blowEnded_boot false n ns
    obtain ⟨hresult, hdone, hkept⟩ := s.blowEnded_regs false n ns
    exact ⟨_, next_eq (fuseBlowDone_of_goesOn hb hr), hresult, hdone, hblows, hsensed, hkept,
      s.blowEnded_setsKept false n ns⟩
  case noBlow => exact fun ok hb => next_eq (fuseBlowDone_of_idle hb)
  case attStart =>
    intro v hi
    exact ⟨next_eq (State.attWrite_of_running hi),
      next_eq (State.attWrite_of_running hi), next_eq (State.attWrite_of_running hi)⟩
  case word => exact fun op hop h1 h2 hi => next_eq (attDone_of_word hop hi h1 h2)
  case report => exact fun hop hi hkey hcur => next_eq (attDone_of_report hop hi hkey hcur)
  case modulus =>
    exact fun hop hi hkey => ⟨_, next_eq (attDone_of_modulus hop hi hkey), s.attPut_attEnds _⟩
  case waits => exact fun h => next_eq (h.elim attDone_of_idle attDone_of_waits)
  case devkey => exact fun hi => next_eq (if_neg (by simp [hi]))
  case inReset =>
    intro via v hi
    have hatt (w : Word) : (.next (s.attWrite w) : Out) = .next s :=
      next_eq (State.attWrite_of_reset hi)
    exact ⟨next_eq (if_pos hi), next_eq (fuseSelectDone_of_idle (.inr hi)),
      next_eq (fuseBlow_of_reset hi), hatt _, hatt _, hatt _,
      next_eq (attDone_of_reset hi), next_eq (if_pos hi)⟩

/-! ### Flash and JTAG (R375, R388) -/

section
variable {s : State} {v : Word}

theorem State.flashWrite_of_reset (h : s.ilulysReset = true) : s.flashWrite v = s := if_pos h

theorem State.flashWrite_of_running (h : s.ilulysReset = false) : s.flashWrite v = s.flashAct v := if_neg (by simp [h])

theorem flashDone_of_idle (h : s.boot.flashOp = none) : flashDone s = s := by
  unfold flashDone
  rw [h]

theorem flashDone_of_held (h : s.ilulysReset = true ∨ s.pwr.io = false) : flashDone s = s := by
  unfold flashDone
  split
  · rfl
  · exact if_pos (by rcases h with h | h <;> simp [h])

theorem flashDone_of_op {op a : Nat} (hop : s.boot.flashOp = some (op, a)) (hi : s.ilulysReset = false)
    (hio : s.pwr.io = true) : flashDone s =
      let u := if op = 1 then s.flashProgram a else if op = 2 then s.flashErase a else s.flashRead a
      (u.setFlag flashCtrl 31 true).modBoot fun b => { b with flashOp := none } := by
  unfold flashDone
  rw [hop]
  exact if_neg (by simp [hi, hio])

theorem jtagInstruction_eq (p : Bool) (code : Nat) : jtagInstruction p code s = if s.pwr.io then
    s.modBoot fun b => { b with jtag := if p && s.boot.sensed.getLsbD 1708 then none else some code } else s := by
  unfold jtagInstruction
  cases hio : s.pwr.io
  · rw [if_pos (by rfl), if_neg (by decide)]
  · rw [if_neg (by decide), if_pos rfl]
    simp only [State.modBoot]
end

/-- Settles O42: the branches of the flash mailbox and of the JTAG port. -/
theorem flashAndTest : Obligations.FlashAndTest := by
  intro s
  refine ⟨?read, ?program, ?erase, ?done, ?noEnd, ?jtag, ?inReset⟩
  case read => exact fun v hi => next_eq (State.flashWrite_of_running hi)
  case program => exact fun v hi => next_eq (State.flashWrite_of_running hi)
  case erase => exact fun v hi => next_eq (State.flashWrite_of_running hi)
  case done => exact fun op a hop hi hio => next_eq (flashDone_of_op hop hi hio)
  case noEnd =>
    intro h
    exact next_eq (h.elim flashDone_of_idle fun hio => flashDone_of_held (.inr hio))
  case jtag => exact fun p code => next_eq (jtagInstruction_eq p code)
  case inReset =>
    intro v hi
    have hflash (w : Word) : (.next (s.flashWrite w) : Out) = .next s :=
      next_eq (State.flashWrite_of_reset hi)
    exact ⟨hflash _, hflash _, hflash _, next_eq (flashDone_of_held (.inl hi))⟩

end Sys2Proof.Machine

/-! The supply rails, the reference clocks, the straps and the temperatures. -/

namespace Sys2Proof.Machine

/-! ### Rails (R389 to R392) -/

section
variable {s : State}

theorem vauxInputLost_of_both (ha : s.pwr.vauxA = true) (hb : s.pwr.vauxB = true) :
    vauxInputLost false s = ((s.modPwr fun p => { p with vauxA := false }).countHk 56).sticky pwrStatus 2 ∧
      vauxInputLost true s = ((s.modPwr fun p => { p with vauxB := false }).countHk 57).sticky pwrStatus 3 := by
  have hgood : ¬(!s.pwr.vauxA || !s.pwr.vauxB) = true := by simp [ha, hb]
  have hother : ¬(!s.pwr.vauxB || !s.pwr.vauxA) = true := by simp [ha, hb]
  exact ⟨if_neg hgood, if_neg hother⟩

theorem vauxInputLost_of_one (b : Bool) (h : s.pwr.vauxA = false ∨ s.pwr.vauxB = false) : vauxInputLost b s = s := by
  refine if_pos ?_
  rcases h with h | h <;> cases b <;> simp [h]

/-- The loss of VAUX changes the Ilulys die's own, what the tiles say of the lost link, and the channels. -/
theorem Changes.vauxLoss : Changes [.boot, .freeCtr, .host, .ilulysReset, .live, .pwr, .seqLate, .sp, .tel, .tm] s (vauxLoss s) :=
  .within (by decide) ((Changes.refl.dieLost.upd
    [.live, .sp, .seqLate, .ilulysReset, .tm, .host, .tel, .boot, .pwr] rfl).setLv)

theorem vauxLoss_state (s : State) : (vauxLoss s).ilulysReset = true ∧ (vauxLoss s).pwr.vauxA = false ∧
    (vauxLoss s).pwr.vauxB = false ∧ (vauxLoss s).sp = [] ∧ (vauxLoss s).host.bridge = {} ∧
    (vauxLoss s).boot.sensed = 0 ∧ (vauxLoss s).boot.flash = s.dieLost.boot.flash := ⟨rfl, rfl, rfl, rfl, rfl, rfl, rfl⟩

theorem State.dieLost_flash (s : State) : s.dieLost.boot.flash = s.boot.flash := by
  have hlinks : Changes [.live, .pwr, .tel] s (s.each s.running State.svcLost) :=
    .within (by decide) (Changes.refl.each fun _ _ => Changes.refl.svcLost)
  have hboot : (s.each s.running State.svcLost).boot = s.boot := hlinks .boot (by decide)
  exact (State.blowsLost_flash _).trans (congrArg BootSt.flash hboot)
end

/-! ### Reference clocks (R393 to R395) -/

section
variable {s : State} {b w : Bool} {v : Word}

theorem refclkBad_of_bad (h : s.refGood b = false) : refclkBad b w s = s := if_pos (by simp [h])

theorem refclkBad_of_good (h : s.refGood b = true) : refclkBad b w s =
    let u := s.setFlag clkStatus (if b then 2 else 1) false
    let c := u.countHk (if b then 59 else 58)
    if u.refSel ≠ b then u else if u.ilulysReset then u.refHold
      else if c.refGood (!b) then c.refSwitch w else c.refHold := by
  refine (if_neg (by simp [h])).trans ?_
  simp only [bne_iff_ne]

theorem refclkGood_of_off (h : s.flag clkCtrl (if b then 4 else 3) = false) : refclkGood b w s = s := if_pos (by simp [h])

theorem refclkGood_of_on (h : s.flag clkCtrl (if b then 4 else 3) = true) : refclkGood b w s =
    let u := (s.setFlag clkStatus (if b then 2 else 1) true).setFlag clkStatus (if b then 4 else 3) w
    if u.refSel = b then (if u.flag clkStatus 5 then u.setFlag clkStatus 5 false else u)
    else if u.refGood u.refSel || u.ilulysReset then u
    else if u.flag clkStatus 5 then (u.setFlag clkStatus 5 false).refSwitch false
    else u.setFlag clkStatus 0 b := if_neg (by simp [h])

theorem refclkRevert_eq : refclkRevert w s =
    if s.ilulysReset = false ∧ s.flag clkCtrl 1 ∧ s.refSel ≠ s.flag clkCtrl 0 ∧ s.refGood (s.flag clkCtrl 0) then s.refSwitch w
    else s := by
  by_cases h : s.ilulysReset = false ∧ s.flag clkCtrl 1 ∧ s.refSel ≠ s.flag clkCtrl 0 ∧ s.refGood (s.flag clkCtrl 0)
  · obtain ⟨hi, hon, hsel, hgood⟩ := h
    exact (if_neg (by simp [hi, hon, hsel, hgood])).trans (if_pos ⟨hi, hon, hsel, hgood⟩).symm
  · refine (if_pos ?_).trans (if_neg h).symm
    simp only [Bool.or_eq_true, Bool.not_eq_true', beq_iff_eq, or_assoc]
    by_contra hn
    exact h (by simpa using hn)

theorem refclkForce_of_reset (h : s.ilulysReset = true) : refclkForce v w s = s := if_pos h

theorem refclkForce_of_running (h : s.ilulysReset = false) : refclkForce v w s =
    let a := s.plainWrite clkCtrl (v ||| 4)
    let c := if bit v 3 then a else refclkBad false w a
    let u := if bit v 4 then c else refclkBad true w c
    if u.refGood (!u.refSel) then u.refSwitch w else u := by
  have h2 : bit (v ||| 4) 2 = true := by rw [bit_or]; simp [bit]
  have h3 : bit (v ||| 4) 3 = bit v 3 := by rw [bit_or]; simp [bit]
  have h4 : bit (v ||| 4) 4 = bit v 4 := by rw [bit_or]; simp [bit]
  refine (if_neg (by simp [h])).trans ?_
  simp only [State.clkCtrlAct, h2, h3, h4, Bool.true_and]
end

/-! ### Temperatures (R436) -/

section
variable {s : State} {t : Nat} {l : List Int}

theorem tempSample_of_none (h : s.part.hasTile t = false ∨ l = []) : tempSample t l s = s :=
  if_pos (by rcases h with h | h <;> simp [h])

theorem tempSample_of_operates (ht : s.part.hasTile t = true) (hl : l ≠ []) (ho : s.operates t = true) :
    tempSample t l s =
      let u := (s.modPwr fun p => { p with temps := tset 0 p.temps t (hottest l) }).setFld (tlTemp t) 11 0
        (lowBits 12 (hottest l))
      let v := (u.sticky (tlTemp t) 20).modPwr fun p => { p with warned := p.warned ++ [t] }
      if u.warnTh t ≤ hottest l then
        (if u.pwr.warned.contains t then u
          else v.eventMgr 0x0120 t (leBytes 1 t ++ leBytes 1 0 ++ leBytes 2 (lowBits 12 (hottest l))))
      else if hottest l < u.warnTh t - 20 then u.modPwr fun p => { p with warned := p.warned.filter (· != t) }
      else u := by
  have hop : (s.modPwr fun p => { p with temps := tset 0 p.temps t (hottest l) }).operates t = true := ho
  refine (if_neg (by simp [ht, hl])).trans ?_
  exact if_neg (by simp [hop])

theorem tempSample_of_down (ht : s.part.hasTile t = true) (hl : l ≠ []) (ho : s.operates t = false) :
    tempSample t l s =
      let u := s.modPwr fun p => { p with temps := tset 0 p.temps t (hottest l) }
      if hottest l < u.warnTh t then u.modPwr fun p => { p with hot := p.hot.filter (· != t) } else u := by
  have hop : (s.modPwr fun p => { p with temps := tset 0 p.temps t (hottest l) }).operates t = false := ho
  refine (if_neg (by simp [ht, hl])).trans ?_
  exact if_pos (by simp [hop])

theorem tileOvertemp_eq : tileOvertemp t s = if s.operates t then
    (s.modPwr fun p => { p with hot := p.hot.filter (· != t) ++ [t] }).loseTile t else s := by
  unfold tileOvertemp
  cases s.operates t <;> rfl

theorem strapSample_of_latched {g a b : Bool} {x : Nat} (h : s.pwr.strap = some x) : strapSample g a b s = s :=
  if_pos (by rw [h]; rfl)

theorem strapSample_of_first {g a b : Bool} (h : s.pwr.strap = none) :
    strapSample g a b s = s.modPwr fun p => { p with strap := some (if g then 2 * b2n b + b2n a else 0) } :=
  if_neg (by simp [h])
end

/-- Settles O43: the branches of the rails, the clocks, the straps and the temperatures; what the loss of VAUX leaves alone is
outside the components it changes. -/
theorem suppliesAndClocks : Obligations.SuppliesAndClocks := by
  intro s
  refine ⟨?goodTile, rfl, rfl, rfl, ?lostTile, rfl, ?vauxA, ?vauxB, ?oneLost, ?noneLost, ?vaux, ?bad, ?isBad, ?good, ?off,
    ?revert, ?force, ?noForce, ?strap, ?latched, ?temp, ?tempDown, ?noTemp, ?hot, ?relock⟩
  case goodTile => exact fun t => ⟨rfl, rfl, rfl⟩
  case lostTile => exact fun t => ⟨rfl, rfl, rfl⟩
  case vauxA => exact apply_ite Host.Outcome.next (s.pwr.vauxB = true) (vauxInputLost false s) (vauxLoss s)
  case vauxB => exact apply_ite Host.Outcome.next (s.pwr.vauxA = true) (vauxInputLost true s) (vauxLoss s)
  case oneLost => exact fun ha hb => (vauxInputLost_of_both ha hb).imp next_eq next_eq
  case noneLost => exact fun b h => next_eq (vauxInputLost_of_one b h)
  case vaux =>
    have hchg : Changes _ s (vauxLoss s) := .vauxLoss
    obtain ⟨hreset, hA, hB, hsp, hbridge, hsensed, hflash⟩ := vauxLoss_state s
    exact ⟨_, rfl, hreset, hA, hB, hsp, hbridge, hsensed, hflash.trans s.dieLost_flash, hchg .cont (by decide),
      hchg.setsKept (by decide) (by decide), (vauxLoss_keeps s (.refl s)).fuses⟩
  case bad => exact fun b w h => next_eq (refclkBad_of_good h)
  case isBad => exact fun b w h => next_eq (refclkBad_of_bad h)
  case good => exact fun b sp h => next_eq (refclkGood_of_on h)
  case off => exact fun b sp h => next_eq (refclkGood_of_off h)
  case revert => exact fun w => next_eq refclkRevert_eq
  case force => exact fun v w h => next_eq (refclkForce_of_running h)
  case noForce => exact fun v w h => next_eq (refclkForce_of_reset h)
  case strap => exact fun g a b h => next_eq (strapSample_of_first h)
  case latched => exact fun g a b x h => next_eq (strapSample_of_latched h)
  case temp => exact fun t l ht hl ho => next_eq (tempSample_of_operates ht hl ho)
  case tempDown => exact fun t l ht hl ho => next_eq (tempSample_of_down ht hl ho)
  case noTemp => exact fun t l h => next_eq (tempSample_of_none h)
  case hot => exact fun t => next_eq tileOvertemp_eq
  case relock => exact fun t => rfl

end Sys2Proof.Machine

/-! The slot power channels: commands, the tick, trips, starts and timed commands. -/

namespace Sys2Proof.Machine

/-! ### Commands (R356, R357, R359) -/

section
variable {s : State} {ch op e : Nat} {v : Word} {slot : Bool}

theorem State.spCommand_of_reset (h : s.ilulysReset = true) : s.spCommand ch op slot = s := if_pos (by simp [h])

theorem State.spCommand_of_running (hc : ch < 128) (h : s.ilulysReset = false) :
    s.spCommand ch op slot = (s.modSp ch fun k => { k with cmds := k.cmds.erase (op, slot) }).spApply ch op slot :=
  if_neg (by simp [h]; omega)

/-- A command that a slot sends, or one of a channel that no slot owns, is carried out. -/
theorem State.spApply_of_allowed (h : slot = true ∨ s.slotOf ch = none) :
    s.spApply ch 0 slot = s.spEnable ch ∧ s.spApply ch 1 slot = s.spDisable ch := by
  have hno (op : Nat) : ¬(op < 2 ∧ (!slot) = true ∧ (s.slotOf ch).isSome = true) := by
    rintro ⟨-, hslot, hown⟩
    rcases h with h | h <;> simp [h] at hslot hown
  exact ⟨if_neg (hno 0), if_neg (hno 1)⟩

theorem State.spApply_of_owned (hop : op < 2) (h : (s.slotOf ch).isSome = true) :
    s.spApply ch op false = s.spRefuse ch := if_pos ⟨hop, rfl, h⟩

theorem State.spCtrlAct_of_set : s.spCtrlAct ch (v ||| 4) =
    let a := s.plainWrite (spReg ch 0) (v ||| 4)
    let b := if bit v 0 then a.spAccept ch 0 false else a
    let c := if bit v 1 then b.spAccept ch 1 false else b
    if s.flag (spReg ch 0) 2 then c else c.spAccept ch 2 false := by
  have h0 : bit (v ||| 4) 0 = bit v 0 := by rw [bit_or]; simp [bit]
  have h1 : bit (v ||| 4) 1 = bit v 1 := by rw [bit_or]; simp [bit]
  have h2 : bit (v ||| 4) 2 = true := by rw [bit_or]; simp [bit]
  unfold State.spCtrlAct
  simp only [h0, h1, h2]
  cases s.flag (spReg ch 0) 2 <;> rfl

theorem State.spCtrlAct_of_clear : s.spCtrlAct ch (v &&& 3) =
    let a := s.plainWrite (spReg ch 0) (v &&& 3)
    let b := if bit v 0 then a.spAccept ch 0 false else a
    let c := if bit v 1 then b.spAccept ch 1 false else b
    if s.flag (spReg ch 0) 2 then c.spAccept ch 3 false else c := by
  have h0 : bit (v &&& 3) 0 = bit v 0 := by rw [bit_and]; simp [bit]
  have h1 : bit (v &&& 3) 1 = bit v 1 := by rw [bit_and]; simp [bit]
  have h2 : bit (v &&& 3) 2 = false := by rw [bit_and]; simp [bit]
  unfold State.spCtrlAct
  simp only [h0, h1, h2]
  cases s.flag (spReg ch 0) 2 <;> rfl
end

/-! ### The tick (R354, R361, R363) -/

/-- The channel after the samples are stored and what waits for the tick is taken. -/
def State.tickTaken (s : State) (ch vs vo vi : Nat) : State :=
  let a := s.setLv (spReg ch 0x18) (BitVec.ofNat 32 (vs % 4096 + vo % 4096 * 65536))
  (a.setLv (spVin ch)
    (BitVec.ofNat 32 (vi % 4096 + b2n (decide (a.fld 0x00802020 11 0 ≤ vi % 4096)) * 4096))).spTake ch

/-- The model's step, and what it shows in TEMP and LIMITING. -/
def State.tickModelled (b : State) (ch vs vo vi : Nat) (lim : Bool) : State :=
  let c := b.stepModel ch (if b.gateOn ch then vs % 4096 else 0) (vi % 4096 - vo % 4096)
  (c.setLv (spReg ch 0x1C) (BitVec.ofNat 32 (lowBits 16 ((c.spSt ch).temp / 1024)))).setFlag (spStatus ch) 7 (b.gateOn ch && lim)

/-- The trips and power-good of a gate that is on. -/
def State.tickJudged (d : State) (ch vo : Nat) (lim : Bool) : State :=
  let up := d.modSp ch fun k => { k with timer := k.timer + 1 }
  let ok := d.modSp ch fun k => { k with timer := 0 }
  let good := ok.modSp ch fun k => { k with clear := min 2000 (k.clear + 1) }
  if (d.spSt ch).latched then d.trip ch 1
  else if deg (d.ttrip ch) ≤ (d.spSt ch).temp then d.trip ch 2
  else if lim then (if up.faultTo ch ≤ (up.spSt ch).timer then up.trip ch 3 else up.pgLose ch)
  else if vo % 4096 < ok.pgTh ch then ok.pgLose ch
  else if 2000 ≤ (good.spSt ch).clear then good.pgGive ch else good

section
variable {s d : State} {ch vs vo vi : Nat} {lim : Bool}

/-- The tick of a channel of the part: samples, commands, model, and for a gate that is on its trips. -/
theorem slotPowerTick_eq (hc : ch < 128) : slotPowerTick ch vs vo vi lim s =
    let b := s.tickTaken ch vs vo vi
    if b.gateOn ch then (b.tickModelled ch vs vo vi lim).tickJudged ch vo lim else b.tickModelled ch vs vo vi lim := by
  refine (if_neg (Nat.not_le.mpr hc)).trans ?_
  by_cases hon : (s.tickTaken ch vs vo vi).gateOn ch = true
  · exact (if_neg (by rw [Bool.not_eq_true', Bool.not_eq_false]; exact hon)).trans (if_pos hon).symm
  · exact (if_pos (by rw [Bool.not_eq_true', ← Bool.not_eq_true]; exact hon)).trans (if_neg hon).symm

theorem slotPowerTick_of_off (hc : ch < 128) (h : (s.tickTaken ch vs vo vi).gateOn ch = false) :
    slotPowerTick ch vs vo vi lim s = (s.tickTaken ch vs vo vi).tickModelled ch vs vo vi lim :=
  (slotPowerTick_eq hc).trans (if_neg (by simp [h]))

theorem slotPowerTick_of_on (hc : ch < 128) (h : (s.tickTaken ch vs vo vi).gateOn ch = true) :
    slotPowerTick ch vs vo vi lim s =
      ((s.tickTaken ch vs vo vi).tickModelled ch vs vo vi lim).tickJudged ch vo lim :=
  (slotPowerTick_eq hc).trans (if_pos h)

theorem State.tickJudged_of_latched (h : (d.spSt ch).latched = true) : d.tickJudged ch vo lim = d.trip ch 1 := if_pos h

theorem State.tickJudged_of_hot (h : (d.spSt ch).latched = false) (ht : deg (d.ttrip ch) ≤ (d.spSt ch).temp) :
    d.tickJudged ch vo lim = d.trip ch 2 := (if_neg (by simp [h])).trans (if_pos ht)

theorem State.tickJudged_of_cool (h : (d.spSt ch).latched = false) (ht : (d.spSt ch).temp < deg (d.ttrip ch)) :
    d.tickJudged ch vo lim =
      let up := d.modSp ch fun k => { k with timer := k.timer + 1 }
      let ok := d.modSp ch fun k => { k with timer := 0 }
      let good := ok.modSp ch fun k => { k with clear := min 2000 (k.clear + 1) }
      if lim then (if up.faultTo ch ≤ (up.spSt ch).timer then up.trip ch 3 else up.pgLose ch)
      else if vo % 4096 < ok.pgTh ch then ok.pgLose ch
      else if 2000 ≤ (good.spSt ch).clear then good.pgGive ch else good :=
  (if_neg (by simp [h])).trans (if_neg (by omega))

theorem State.spTake_of_reset (h : s.ilulysReset = true) : s.spTake ch = s := if_pos h

/-- The model's step changes the channel's temperature only. -/
theorem State.stepModel_spSt (s : State) (ch vs drop : Nat) :
    ((s.stepModel ch vs drop).spSt ch).timer = (s.spSt ch).timer ∧
      ((s.stepModel ch vs drop).spSt ch).latched = (s.spSt ch).latched := by
  unfold State.stepModel
  dsimp only
  split <;> simp only [State.spSt, State.modSp, State.used, tget_tmod_self, and_self]

theorem Changes.stepModel {C : List Comp} {z : State} (h : Changes C z s) {drop : Nat} :
    Changes ([Comp.sp, .freeCtr] ++ C) z (s.stepModel ch vs drop) := by
  refine h.andThen ?_
  unfold State.stepModel
  dsimp only
  split <;> exact .within (by decide) (Changes.refl.used.upd [.sp] rfl)

theorem lowBits_lt (w : Nat) (i : Int) : lowBits w i < 2 ^ w := by
  have hpos : (0 : Int) < 2 ^ w := Int.pow_pos (by decide)
  have hnonneg := Int.emod_nonneg i hpos.ne'
  have hlt := Int.emod_lt_of_pos i hpos
  simp only [lowBits]
  zify
  rwa [Int.toNat_of_nonneg hnonneg]

/-- A half-word stored reads back. -/
theorem field_ofNat_half {n : Nat} (h : n < 2 ^ 16) : field (BitVec.ofNat 32 n) 15 0 = n := by
  simp only [field, BitVec.toNat_ofNat]
  omega

theorem State.tickModelled_shows (b : State) (ch vs vo vi : Nat) (lim : Bool) :
    let t := b.tickModelled ch vs vo vi lim
    t.lv (spReg ch 0x18) = b.lv (spReg ch 0x18) ∧ (t.spSt ch).timer = (b.spSt ch).timer ∧
      (t.spSt ch).latched = (b.spSt ch).latched ∧ t.fld (spReg ch 0x1C) 15 0 = lowBits 16 ((t.spSt ch).temp / 1024) ∧
      b.setsKept t := by
  let c := b.stepModel ch (if b.gateOn ch then vs % 4096 else 0) (vi % 4096 - vo % 4096)
  have hchg : Changes _ b c := Changes.refl.stepModel
  obtain ⟨htimer, hlatched⟩ := b.stepModel_spSt ch (if b.gateOn ch then vs % 4096 else 0) (vi % 4096 - vo % 4096)
  have hsense : spReg ch 0x18 ≠ spStatus ch ∧ spReg ch 0x18 ≠ spReg ch 0x1C := by simp only [spStatus, spReg]; omega
  have htemp : spReg ch 0x1C ≠ spStatus ch := by simp only [spStatus, spReg]; omega
  refine ⟨?_, htimer, hlatched, ?_, hchg.setsKept (by decide) (by decide)⟩
  · calc (b.tickModelled ch vs vo vi lim).lv (spReg ch 0x18)
      _ = c.lv (spReg ch 0x18) := (State.lv_setFlag_ne _ _ _ hsense.1).trans (State.lv_setLv_ne _ _ hsense.2)
      _ = b.lv (spReg ch 0x18) := hchg.lv_eq (by decide) (by decide) _
  · calc (b.tickModelled ch vs vo vi lim).fld (spReg ch 0x1C) 15 0
      _ = field (BitVec.ofNat 32 (lowBits 16 ((c.spSt ch).temp / 1024))) 15 0 :=
        congrArg (field · 15 0) ((State.lv_setFlag_ne _ _ _ htemp).trans (State.lv_setLv_self _ _ _))
      _ = lowBits 16 ((c.spSt ch).temp / 1024) := field_ofNat_half (lowBits_lt 16 _)
end

/-! ### Timed commands (R368) -/

section
variable {s : State} {e : Nat}

theorem spSeqFire_of_held (h : s.ilulysReset = true ∨ s.flag (spSeq e 3) 9 = false) : spSeqFire e s = s :=
  if_pos (by rcases h with h | h <;> simp [h])

theorem spSeqFire_of_armed (he : e < 32) (hi : s.ilulysReset = false) (ha : s.flag (spSeq e 3) 9 = true) :
    spSeqFire e s = (s.reach (·.tm.ft) (ceilDiv (max (s.seqTime e) s.tm.ft) 1000 * 1000)).seqFires e :=
  if_neg (by simp [hi, ha]; omega)
end

/-- Settles O39: the branches of the commands, of the tick and of the sequencers. -/
theorem slotPowerCommandsComplete : Obligations.SlotPowerCommandsComplete := by
  intro s
  have hrun {ch op : Nat} {slot : Bool} (hc : ch < 128) (hi : s.ilulysReset = false) :
      s.spCommand ch op slot = (s.modSp ch fun k => { k with cmds := k.cmds.erase (op, slot) }).spApply ch op slot :=
    State.spCommand_of_running hc hi
  have hwrite {ch : Nat} (hc : ch < 128) (hi : s.ilulysReset = false) : (ch < 128 && !s.ilulysReset) = true := by
    simp [hc, hi]
  refine ⟨?enable, ?disable, ?refused, ?unowned, ?mgrSet, ?mgrClear, ?tick, ?tickInReset, ?arm, ?fire, ?noFire, ?inReset⟩
  case enable => exact fun ch hc hi => next_eq ((hrun hc hi).trans (State.spApply_of_allowed (.inl rfl)).1)
  case disable => exact fun ch hc hi => next_eq ((hrun hc hi).trans (State.spApply_of_allowed (.inl rfl)).2)
  case refused =>
    intro ch hc hi ho
    exact ⟨next_eq ((hrun hc hi).trans (State.spApply_of_owned (by decide) ho)),
      next_eq ((hrun hc hi).trans (State.spApply_of_owned (by decide) ho))⟩
  case unowned =>
    intro ch hc hi ho
    have hown (f : SpSt → SpSt) : (s.modSp ch f).slotOf ch = none := ho
    exact ⟨next_eq ((hrun hc hi).trans (State.spApply_of_allowed (.inr (hown _))).1),
      next_eq ((hrun hc hi).trans (State.spApply_of_allowed (.inr (hown _))).2)⟩
  case mgrSet => exact fun ch v hc hi => next_eq ((if_pos (hwrite hc hi)).trans State.spCtrlAct_of_set)
  case mgrClear => exact fun ch v hc hi => next_eq ((if_pos (hwrite hc hi)).trans State.spCtrlAct_of_clear)
  case tick =>
    intro ch vs vo vi lim hc
    refine ⟨fun hon => next_eq (slotPowerTick_of_off hc hon),
      fun hon hl => next_eq ((slotPowerTick_of_on hc hon).trans (State.tickJudged_of_latched hl)),
      fun hon hl ht => next_eq ((slotPowerTick_of_on hc hon).trans (State.tickJudged_of_hot hl ht)),
      fun hon hl ht hlim => next_eq ((slotPowerTick_of_on hc hon).trans ((State.tickJudged_of_cool hl ht).trans (if_pos hlim))),
      fun hon hl ht hlim => next_eq ((slotPowerTick_of_on hc hon).trans
        ((State.tickJudged_of_cool hl ht).trans (if_neg (by simp [hlim]))))⟩
  case tickInReset =>
    intro ch vs vo vi lim hc hi a u hoff
    have htaken : s.tickTaken ch vs vo vi = u := State.spTake_of_reset hi
    have hsense : u.lv (spReg ch 0x18) = BitVec.ofNat 32 (vs % 4096 + vo % 4096 * 65536) :=
      (State.lv_setLv_ne _ _ (by simp only [spReg, spVin]; omega)).trans (State.lv_setLv_self _ _ _)
    obtain ⟨hkept, htimer, hlatched, htemp, hsets⟩ := u.tickModelled_shows ch vs vo vi lim
    exact ⟨_, next_eq ((slotPowerTick_of_off hc (htaken ▸ hoff)).trans (congrArg (State.tickModelled · ch vs vo vi lim) htaken)), hkept.trans hsense, htimer,
      hlatched, htemp, hsets⟩
  case arm => exact fun e v he hi => next_eq (if_pos (by simp [he, hi]))
  case fire => exact fun e he hi ha => next_eq (spSeqFire_of_armed he hi ha)
  case noFire => exact fun e ha => next_eq (spSeqFire_of_held (.inr ha))
  case inReset =>
    intro ch e v b hi
    exact ⟨next_eq (State.spCommand_of_reset hi), next_eq (State.spCommand_of_reset hi), next_eq (if_neg (by simp [hi])),
      next_eq (if_neg (by simp [hi])), next_eq (if_neg (by simp [hi])), next_eq (spSeqFire_of_held (.inl hi))⟩

/-! ### Trips, starts and retries (R357 to R367) -/

section
variable {s : State} {ch : Nat}

theorem slotPowerTrips_of_off (h : s.gateOn ch = false) :
    fastTripLatch ch s = s ∧ fastTrip ch s = s ∧ thermalTrip ch s = s ∧ faultTimerTrip ch s = s :=
  ⟨if_neg (by simp [h]), if_neg (by simp [h]), if_neg (by simp [h]), if_neg (by simp [h])⟩

theorem fastTrip_of_latched (hc : ch < 128) (h : s.gateOn ch = true) (hl : (s.spSt ch).latched = true) :
    fastTrip ch s = s.trip ch 1 := if_pos (by simp [hc, h, hl])

theorem fastTrip_of_unlatched (hl : (s.spSt ch).latched = false) : fastTrip ch s = s := if_neg (by simp [hl])

theorem faultTimerTrip_of_on (hc : ch < 128) (h : s.gateOn ch = true) :
    faultTimerTrip ch s = if s.flag (spStatus ch) 7 then s.trip ch 3 else s := by
  unfold faultTimerTrip
  simp only [hc, h, decide_true, Bool.true_and]

theorem State.heldStart_eq : s.heldStart ch = if (s.spSt ch).heldEnable = true ∧ s.ilulysReset = false then
    (s.modSp ch fun k => { k with heldEnable := false }).spEnable ch else s := by
  unfold State.heldStart
  simp only [Bool.and_eq_true, Bool.not_eq_true']

theorem stoppingGateOff_of_stopping (hc : ch < 128) (h : s.spState ch = 5) :
    stoppingGateOff ch s = (s.gateOff ch 0).heldStart ch := if_neg (by simp [h]; omega)

theorem stoppingGateOff_of_other (h : s.spState ch ≠ 5) : stoppingGateOff ch s = s := if_pos (by simp [h])

theorem vinStart_of_waiting (hc : ch < 128) (h : s.spState ch = 0) (hw : s.flag (spStatus ch) 14 = true)
    (hi : s.ilulysReset = false) : vinStart ch s = (if s.vinOk ch then s.ramp ch else s) ∧
      vinLowTimeout ch s = s.startFail ch 4 24 := by
  refine ⟨?_, if_pos (by simp [hc, h, hw, hi])⟩
  unfold vinStart
  simp only [hc, h, hw, hi, decide_true, Bool.true_and, Bool.not_false, Bool.and_true]

theorem vinStart_of_other (h : s.flag (spStatus ch) 14 = false ∨ s.ilulysReset = true) :
    vinStart ch s = s ∧ vinLowTimeout ch s = s :=
  ⟨if_neg (by rcases h with h | h <;> simp [h]), if_neg (by rcases h with h | h <;> simp [h])⟩

theorem powerGood_of_clear (hc : ch < 128) (h : s.spState ch = 1 ∨ s.spState ch = 2) (hl : s.flag (spStatus ch) 7 = false)
    (hv : s.pgTh ch ≤ s.fld (spReg ch 0x18) 27 16) :
    powerGood ch s = (s.modSp ch fun k => { k with clear := 2000 }).pgGive ch :=
  if_pos (by simp [hc, h, hl, hv])

theorem powerGood_of_low (h : s.flag (spStatus ch) 7 = true ∨ s.fld (spReg ch 0x18) 27 16 < s.pgTh ch) :
    powerGood ch s = s := if_neg (by rcases h with h | h <;> simp [h])

theorem perstDeassert_eq (hc : ch < 128) : perstDeassert ch s =
    if s.spState ch = 2 ∧ s.flag (spStatus ch) 6 then s.setFlag (spStatus ch) 8 false else s := by
  unfold perstDeassert
  simp only [hc, decide_true, Bool.true_and, Bool.and_eq_true, decide_eq_true_eq]

theorem retryStart_of_cooling (hc : ch < 128) (h : s.spState ch = 3) (hi : s.ilulysReset = false) :
    retryStart ch s = if (s.spSt ch).temp * 2 ≤ deg (s.tboard ch) * 2 + deg (s.ttrip ch - s.tboard ch) then
      (s.ramp ch).countHk 19 else s := by
  unfold retryStart
  simp only [hc, h, hi, decide_true, Bool.true_and, Bool.not_false, decide_eq_true_eq]

theorem retryStart_of_other (h : s.spState ch ≠ 3 ∨ s.ilulysReset = true) : retryStart ch s = s :=
  if_neg (by rcases h with h | h <;> simp [h])

theorem attemptsReset_of_running (hc : ch < 128) (hi : s.ilulysReset = false) : attemptsReset ch s =
    if s.flag (spStatus ch) 6 then s.setFld (spStatus ch) 13 10 0 else s := by
  unfold attemptsReset
  simp only [hc, hi, decide_true, Bool.true_and, Bool.not_false, Bool.and_true]

theorem attemptsReset_of_reset (hi : s.ilulysReset = true) : attemptsReset ch s = s := if_neg (by simp [hi])
end

/-- Settles O40: the branches of each event of a channel. -/
theorem slotPowerTripsAndStarts : Obligations.SlotPowerTripsAndStarts := by
  intro s
  refine ⟨?latch, ?fast, ?unlatched, ?off, ?thermal, ?timer, ?stopping, ?notStopping, ?vin, ?noVin, ?good, ?notGood, ?perst,
    ?retry, ?noRetry, ?attempts, ?noAttempts⟩
  case latch => exact fun ch hc h => next_eq (if_pos (by simp [hc, h]))
  case fast => exact fun ch hc h hl => next_eq (fastTrip_of_latched hc h hl)
  case unlatched => exact fun ch hl => next_eq (fastTrip_of_unlatched hl)
  case off =>
    intro ch h
    obtain ⟨hlatch, hfast, hthermal, htimer⟩ := slotPowerTrips_of_off h
    exact ⟨next_eq hlatch, next_eq hfast, next_eq hthermal, next_eq htimer⟩
  case thermal => exact fun ch hc h => next_eq (if_pos (by simp [hc, h]))
  case timer => exact fun ch hc h => next_eq (faultTimerTrip_of_on hc h)
  case stopping => exact fun ch hc h => next_eq ((stoppingGateOff_of_stopping hc h).trans State.heldStart_eq)
  case notStopping => exact fun ch h => next_eq (stoppingGateOff_of_other h)
  case vin => exact fun ch hc h hw hi => (vinStart_of_waiting hc h hw hi).imp next_eq next_eq
  case noVin => exact fun ch h => (vinStart_of_other h).imp next_eq next_eq
  case good => exact fun ch hc h hl hv => next_eq (powerGood_of_clear hc h hl hv)
  case notGood => exact fun ch h => next_eq (powerGood_of_low h)
  case perst => exact fun ch hc => next_eq (perstDeassert_eq hc)
  case retry => exact fun ch hc h hi => next_eq (retryStart_of_cooling hc h hi)
  case noRetry => exact fun ch h => next_eq (retryStart_of_other h)
  case attempts => exact fun ch hc hi => next_eq (attemptsReset_of_running hc hi)
  case noAttempts => exact fun ch hi => next_eq (attemptsReset_of_reset hi)

end Sys2Proof.Machine

/-! The doorbells, the mailboxes and the seat commands. -/

namespace Sys2Proof.Machine

/-! ### Doorbells (R231, R232, R237) -/

section
variable {s : State} {p seat : Nat} {who : Requester} {r : Req} {ring : Option Nat} {act : State → State}

/-- A page access at the present home tile of an enabled partition gets past the first gate. -/
theorem State.pageServed (he : s.partEn (s.entryEpoch p) p = true)
    (hh : s.here (s.homeTile (s.entryEpoch p) p) = true) :
    ¬(!s.partEn (s.entryEpoch p) p || !s.here (s.homeTile (s.entryEpoch p) p)) = true := by simp [he, hh]

/-- A doorbell write of the form that a ring takes. -/
def isBellWrite (r : Req) : Prop := r.kind = .memWrite ∧ r.data.length = 4 ∧ r.addr.toNat % 4 = 0

theorem isBellWrite_iff (r : Req) :
    (r.kind == .memWrite && r.data.length == 4 && r.addr.toNat % 4 == 0) = true ↔ isBellWrite r := by
  simp only [isBellWrite, Bool.and_eq_true, beq_iff_eq, and_assoc]

/-- What a refused doorbell write leaves (R232). -/
def State.bellRefused (s : State) (p seat : Nat) : State :=
  (s.pageRefused (s.entryEpoch p) p (some seat) false).sticky (stStatus (s.homeTile (s.entryEpoch p) p) seat) 6

section
variable (he : s.partEn (s.entryEpoch p) p = true) (hh : s.here (s.homeTile (s.entryEpoch p) p) = true)
include he hh

theorem State.doorbell_of_poisoned (hr : r.poisoned = true) : s.doorbell p who seat r ring = s.poisonedWrite p :=
  (if_neg (State.pageServed he hh)).trans (if_pos hr)

theorem State.doorbell_of_stranger (hr : r.poisoned = false) (hp : s.onPage (s.entryEpoch p) p who seat r = false) :
    s.doorbell p who seat r ring =
      s.pageRefused (s.entryEpoch p) p none (s.seatOf (s.entryEpoch p) p who r.pasid).isNone :=
  (if_neg (State.pageServed he hh)).trans ((if_neg (by simp [hr])).trans (if_pos (by simp [hp])))

theorem State.doorbell_of_page (hr : r.poisoned = false) (hp : s.onPage (s.entryEpoch p) p who seat r = true) :
    s.doorbell p who seat r ring =
      if !(r.kind == .memWrite && r.data.length == 4 && r.addr.toNat % 4 == 0) then s.bellRefused p seat
      else match ring with
        | none => s.bellRefused p seat
        | some q =>
          if s.ringOwner (s.entryEpoch p) q ≠ some seat || !s.takesDb (s.homeTile (s.entryEpoch p) p) seat then
            s.bellRefused p seat
          else if (s.ringSt q).oldOwner.isSome then s.modRing q fun x => { x with heldDb := some (ofBytes (r.data.take 2)) }
          else s.ringBell (s.homeTile (s.entryEpoch p) p) seat q (ofBytes (r.data.take 2)) :=
  (if_neg (State.pageServed he hh)).trans ((if_neg (by simp [hr])).trans ((if_neg (by simp [hp])).trans (by cases ring <;> rfl)))

theorem State.doorbell_of_taken {q : Nat} (hr : r.poisoned = false) (hp : s.onPage (s.entryEpoch p) p who seat r = true)
    (hb : isBellWrite r) (hown : s.ringOwner (s.entryEpoch p) q = some seat)
    (ht : s.takesDb (s.homeTile (s.entryEpoch p) p) seat = true) :
    s.doorbell p who seat r (some q) =
      if (s.ringSt q).oldOwner.isSome then s.modRing q fun x => { x with heldDb := some (ofBytes (r.data.take 2)) }
      else s.ringBell (s.homeTile (s.entryEpoch p) p) seat q (ofBytes (r.data.take 2)) := by
  refine (State.doorbell_of_page he hh hr hp).trans ((if_neg ?_).trans (if_neg ?_))
  · simpa only [Bool.not_eq_true', Bool.not_eq_false] using (isBellWrite_iff r).mpr hb
  · simp [hown, ht]

theorem State.doorbell_of_refused (hr : r.poisoned = false) (hp : s.onPage (s.entryEpoch p) p who seat r = true)
    (h : ∀ q, ring = some q → ¬(isBellWrite r ∧ s.ringOwner (s.entryEpoch p) q = some seat ∧
      s.takesDb (s.homeTile (s.entryEpoch p) p) seat = true)) :
    s.doorbell p who seat r ring = s.bellRefused p seat := by
  rw [State.doorbell_of_page he hh hr hp]
  by_cases hb : isBellWrite r
  · rw [if_neg (by simpa only [Bool.not_eq_true', Bool.not_eq_false] using (isBellWrite_iff r).mpr hb)]
    cases ring with
    | none => rfl
    | some q =>
      refine if_pos ?_
      have hno := h q rfl
      by_cases hown : s.ringOwner (s.entryEpoch p) q = some seat
      · simp_all
      · simp [hown]
  · exact if_pos (by rw [Bool.not_eq_true', ← Bool.not_eq_true, (isBellWrite_iff r)]; exact hb)

theorem State.mailbox_of_poisoned (hr : r.poisoned = true) : s.mailbox p who seat r act = s.poisonedWrite p :=
  (if_neg (State.pageServed he hh)).trans (if_pos hr)

theorem State.mailbox_of_stranger (hr : r.poisoned = false) (hp : s.onPage (s.entryEpoch p) p who seat r = false) :
    s.mailbox p who seat r act =
      s.pageRefused (s.entryEpoch p) p none (s.seatOf (s.entryEpoch p) p who r.pasid).isNone :=
  (if_neg (State.pageServed he hh)).trans ((if_neg (by simp [hr])).trans (if_pos (by simp [hp])))

theorem State.mailbox_of_page (hr : r.poisoned = false) (hp : s.onPage (s.entryEpoch p) p who seat r = true) :
    s.mailbox p who seat r act = act s :=
  (if_neg (State.pageServed he hh)).trans ((if_neg (by simp [hr])).trans (if_neg (by simp [hp])))
end
end

/-! ### Mailboxes (R233, R234) -/

section
variable {s : State} {via : Via} {seat off : Nat} {v : Word}

theorem State.leadEpoch_setLv (s : State) {o : Nat} (v : Word) (h : o ≠ 0x00030004) :
    (s.setLv o v).leadEpoch = s.leadEpoch := congrArg (bit · 5) (State.lv_setLv_ne s v h.symm)

theorem State.mbxTile_setLv (s : State) {o : Nat} (v : Word) (h : o ≠ 0x00030004) :
    (s.setLv o v).mbxTile seat = s.mbxTile seat :=
  congrArg (State.seatHome s · seat) (s.leadEpoch_setLv v h)

theorem State.t2mPostAct_of_free (h : s.t2mFull seat = false) : s.t2mPostAct seat =
    ((s.each (List.range 16) fun x i => x.setLv (stMbx seat i) (tget 0 (x.seatSt seat).t2m i)).setFlag
      (stMbxCtrl seat) 0 true).event 0 0x0001 seat (s.mbxTile seat) [] := by
  refine (if_neg (by simp [h])).trans ?_
  have hkeep : (s.each (List.range 16) fun x i => x.setLv (stMbx seat i) (tget 0 (x.seatSt seat).t2m i)).mbxTile seat =
      s.mbxTile seat :=
    State.each_eq (State.mbxTile · seat) (fun x i => x.mbxTile_setLv _ (by simp only [stMbx]; omega)) s _
  exact congrArg (State.event _ 0 0x0001 seat · []) hkeep

theorem State.t2mPostAct_of_full (h : s.t2mFull seat = true) :
    s.t2mPostAct seat = s.modSeat seat fun q => { q with dropped := true } := if_pos h

theorem State.mbxWrite_of_word (hoff : off < 64) : s.mbxWrite seat (16 + off / 4) v =
    if s.m2tBusy seat then s.sticky (stMbxCtrl seat) 4 else s.setLv (stMbx seat (16 + off / 4)) v := if_neg (by omega)

/-- The words that T2M_ACK and M2T_POST store. -/
theorem mbxCommand_of_open (hv : s.viaOpen via = true) (hh : s.here (s.mbxTile seat) = true) :
    t2mAck via seat v s = s.mbxCtrlWrite seat (v ||| 2) ∧ m2tPost via seat v s = s.mbxCtrlWrite seat (v ||| 8) :=
  ⟨if_pos (by simp [hv, hh]), if_pos (by simp [hv, hh])⟩

theorem mbxM2tWrite_of_open (hv : s.viaOpen via = true) (hh : s.here (s.mbxTile seat) = true) (h4 : off % 4 = 0)
    (hoff : off < 64) : mbxM2tWrite via seat off v s = s.mbxWrite seat (16 + off / 4) v :=
  if_pos (by simp [hv, hh, h4, hoff])
end

/-- Settles O30: the gates of the page in their order, then the branches of each access. -/
theorem doorbellsAndMailboxes : Obligations.DoorbellsAndMailboxes := by
  intro s
  refine ⟨?ring, ?pool, ?atomic, ?t2mWrite, ?t2mPost, ?m2tAck, ?control, ?m2tWrite⟩
  case ring =>
    intro p who seat k r he hh
    refine ⟨fun hr => next_eq (State.doorbell_of_poisoned he hh hr),
      fun hr hp => next_eq (State.doorbell_of_stranger he hh hr hp), fun hr hp => ⟨fun hno => ?_, fun hok => ?_⟩⟩
    · refine next_eq (State.doorbell_of_refused he hh hr hp ?_)
      rintro q hq ⟨⟨hkind, hlen, haddr⟩, hown, htakes⟩
      obtain ⟨hk, hq⟩ := Option.ite_none_right_eq_some.mp hq
      cases hq
      exact hno ⟨hkind, hlen, haddr, hk, hown, htakes⟩
    · obtain ⟨hkind, hlen, haddr, hk, hown, htakes⟩ := hok
      exact next_eq ((congrArg (s.doorbell p who seat r) (if_pos hk)).trans
        (State.doorbell_of_taken he hh hr hp ⟨hkind, hlen, haddr⟩ hown htakes))
  case pool =>
    intro p who seat r he hh
    refine ⟨fun hr => next_eq (State.doorbell_of_poisoned he hh hr),
      fun hr hp => next_eq (State.doorbell_of_stranger he hh hr hp), fun hr hp => ⟨fun hno => ?_, fun hok => ?_⟩⟩
    · refine next_eq (State.doorbell_of_refused he hh hr hp ?_)
      rintro q hq ⟨⟨hkind, hlen, haddr⟩, hown, htakes⟩
      cases hq
      exact hno ⟨hkind, hlen, haddr, hown, htakes⟩
    · obtain ⟨hkind, hlen, haddr, hown, htakes⟩ := hok
      exact next_eq (State.doorbell_of_taken he hh hr hp ⟨hkind, hlen, haddr⟩ hown htakes)
  case atomic => exact fun p who seat r he hh => next_eq (if_neg (State.pageServed he hh))
  case t2mWrite =>
    intro p who seat off r he hh
    refine ⟨fun hr => next_eq (State.mailbox_of_poisoned he hh hr),
      fun hr hp => next_eq (State.mailbox_of_stranger he hh hr hp), fun hr hp => ⟨fun hfull hfits => ?_, fun hno => ?_⟩⟩
    · exact next_eq ((State.mailbox_of_page he hh hr hp).trans (if_neg (by simp [hfull, hfits])))
    · refine next_eq ((State.mailbox_of_page he hh hr hp).trans (if_pos ?_))
      rcases hno with hfull | hfits
      · simp [hfull]
      · simp [hfits]
  case t2mPost =>
    intro p who seat r he hh
    exact ⟨fun hr => next_eq (State.mailbox_of_poisoned he hh hr),
      fun hr hp => next_eq (State.mailbox_of_stranger he hh hr hp), fun hr hp =>
        ⟨fun hfull => next_eq ((State.mailbox_of_page he hh hr hp).trans (State.t2mPostAct_of_free hfull)),
          fun hfull => next_eq ((State.mailbox_of_page he hh hr hp).trans (State.t2mPostAct_of_full hfull))⟩⟩
  case m2tAck =>
    intro p who seat r he hh
    exact ⟨fun hr => next_eq (State.mailbox_of_poisoned he hh hr),
      fun hr hp => next_eq (State.mailbox_of_stranger he hh hr hp),
      fun hr hp => next_eq (State.mailbox_of_page he hh hr hp)⟩
  case control =>
    intro via seat v hv hh x hx
    obtain ⟨hack, hpost⟩ := mbxCommand_of_open (v := v) hv hh
    simp only [List.mem_cons, List.not_mem_nil, or_false] at hx
    rcases hx with rfl | rfl
    · exact next_eq hack
    · exact next_eq hpost
  case m2tWrite =>
    exact fun via seat off v hv hh h4 hoff => next_eq ((mbxM2tWrite_of_open hv hh h4 hoff).trans (State.mbxWrite_of_word hoff))

/-! ### Seat reset, removal, escalation and stop (R239, R240, R299) -/

section
variable {s : State} {via : Via} {t seat r o : Nat} {w : Word}

theorem State.seatCommand_eq (s : State) (seat : Nat) (remove squash : Bool) : s.seatCommand seat remove squash =
    if (s.seatSt seat).st = 1 then s.seatStart s.leadEpoch seat remove squash
    else if (s.seatSt seat).st = 2 ∨ (s.seatSt seat).st = 3 then
      let y := if remove then s.modSeat seat fun q => { q with closing := true } else s
      if squash then y.seatSquash seat else y
    else s := rfl

theorem State.stCtrlWrite_of_open (hv : s.viaOpen via = true) (hh : s.here t = true) (hseat : seat < 4096)
    (hs : seat ≠ 0 ∨ via = .bridge ∨ via = .mgmtPort) : s.stCtrlWrite via t seat w =
      let u := s.plainWrite (stCtrl t seat) w
      let a := if bit w 0 != u.mgrHolds t 2 seat then
        (u.issueStop (if via = .bridge ∨ via = .mgmtPort then 15 else t) 2 seat (bit w 0)).1 else u
      let b := if bit w 1 then a.seatCommand seat false (bit w 2) else a
      let c := if bit w 3 then b.seatCommand seat true (bit w 2) else b
      if bit w 4 then c.seatSquash seat else c := by
  have hrange : decide (4096 ≤ seat) = false := by simpa using hseat
  have hinband (h : ¬(via = .bridge ∨ via = .mgmtPort)) : decide (seat = 0) = false :=
    decide_eq_false (hs.resolve_right h)
  unfold State.stCtrlWrite
  rw [if_neg (by cases via <;> simp [hv, hh, hrange, hinband])]
  cases via <;> rfl

theorem drainTimeout_of_drain (h : (s.seatSt seat).st = 2) : drainTimeout seat s = if s.seatIdle seat then s
    else (s.each s.present fun x t => x.sticky (stStatus t seat) 5).seatSquash seat := by
  unfold drainTimeout
  simp only [h, ne_eq, not_true, decide_false, Bool.false_or]

theorem poolRingHandover_of_busy (ho : (s.ringSt r).oldOwner = some o) (hb : s.ringBusy r = true) :
    poolRingHandover r s = s := by
  unfold poolRingHandover
  rw [ho]
  exact if_pos hb

theorem poolRingHandover_of_idle (ho : (s.ringSt r).oldOwner = some o) (hb : s.ringBusy r = false) :
    let u := (s.setLv (ringReg r 6) 0).modRing r fun q => { q with oldOwner := none, heldDb := none }
    poolRingHandover r s = match (s.ringSt r).heldDb, u.ringOwner u.leadEpoch r with
      | some i, some seat => u.ringBell (u.seatHome u.leadEpoch seat) seat r i
      | _, _ => u := by
  unfold poolRingHandover
  rw [ho]
  exact (if_neg (by simp [hb])).trans rfl
end

/-- Settles O31: the branches of a write of ST_CTRL, and of the end of a drain and of a handover. -/
theorem seatCommandsComplete : Obligations.SeatCommandsComplete := by
  intro s
  refine ⟨?write, ?timeout, ?done, ?handover, ?busy⟩
  case write =>
    intro via t seat v hv hh hseat hs x hx
    have hwrite (w : Word) := State.stCtrlWrite_of_open (w := w) hv hh hseat hs
    simp only [List.mem_cons, List.not_mem_nil, or_false] at hx
    rcases hx with rfl | rfl | rfl | rfl <;> exact next_eq (hwrite _)
  case timeout => exact fun seat h => next_eq (drainTimeout_of_drain h)
  case done =>
    intro seat q hst hidle
    refine next_eq (if_neg ?_)
    simp only [hidle, Bool.not_true, Bool.or_false, decide_eq_true_eq]
    exact fun hn => hst.elim hn.1 hn.2
  case handover => exact fun r o ho hb => next_eq (poolRingHandover_of_idle ho hb)
  case busy => exact fun r o ho hb => next_eq (poolRingHandover_of_busy ho hb)

end Sys2Proof.Machine

/-! The protection units and the schedulers. -/

namespace Sys2Proof.Machine

/-! ### The live path of the protection units (R252 to R255) -/

section
variable {s : State} {t seat id agent r : Nat} {v : Word}

theorem State.puCtrlWrite_of_here (h : s.here t = true) : s.puCtrlWrite t seat v =
    if bit v 0 then s.plainWrite (puCtrl t seat) v
    else ((s.plainWrite (puCtrl t seat) v).setFlag (puStatus t seat) 0 false).releaseHeld t seat := if_neg (by simp [h])

theorem puDisable_of_here (h : s.here t = true) : puDisable t seat v s = s.plainWrite (puCtrl t seat) (v ||| 1) := by
  have hon : bit (v ||| 1) 0 = true := by rw [bit_or]; simp [bit]
  exact (State.puCtrlWrite_of_here h).trans (if_pos hon)

theorem puEnable_of_here (h : s.here t = true) : puEnable t seat v s =
    ((s.plainWrite (puCtrl t seat) (v &&& ~~~1)).setFlag (puStatus t seat) 0 false).releaseHeld t seat := by
  have hoff : bit (v &&& ~~~1) 0 = false := by rw [bit_and]; simp [bit]
  exact (State.puCtrlWrite_of_here h).trans (if_neg (by rw [hoff]; exact Bool.false_ne_true))

theorem puDisabled_of_here (h : s.here t = true) :
    puDisabled t seat s = if s.puOff t seat then s.setFlag (puStatus t seat) 0 true else s := by
  unfold puDisabled
  rw [h, Bool.true_and]

section
variable {a : HeldAcc} (ha : (s.pu.held.find? fun k => k.id == id && k.tile == t) = some a)
include ha

theorem puHoldTimeout_of_fence (h : ∃ p who q e, a.item = .fence p who q e) : puHoldTimeout t id s = s := by
  obtain ⟨p, who, q, e, h⟩ := h
  unfold puHoldTimeout
  rw [ha]
  simp only [h]

theorem puHoldTimeout_of_access (h : ∀ p who q e, a.item ≠ .fence p who q e) : puHoldTimeout t id s =
    State.freeFences (State.heldFault { s with pu := { s.pu with held := s.pu.held.filter fun k => k.id != id } } a) t a.seat := by
  unfold puHoldTimeout
  rw [ha]
  cases hitem : a.item with
  | fence p who q e => exact absurd hitem (h p who q e)
  | bar4 p who q e => simp only [hitem]
  | work ring d c => simp only [hitem]
end

/-- The words of a rule written in both copies. -/
def State.ruleWritten (s : State) (t r : Nat) (w : Nat → Word) (l : List Nat) : State :=
  s.each l fun x i =>
    (x.setConf false (puRule t r i) (w i &&& setMask (puRule t r i))).setConf true (puRule t r i)
      (w i &&& setMask (puRule t r i))

theorem State.conf_ruleWritten (w : Nat → Word) (l : List Nat) (e : Bool) (i : Nat) :
    ∀ s : State, (s.ruleWritten t r w l).conf e (puRule t r i) =
      if i ∈ l then w i &&& setMask (puRule t r i) else s.conf e (puRule t r i) := by
  induction l with
  | nil => exact fun s => rfl
  | cons j l ih =>
    intro s
    refine (ih _).trans ?_
    have hsame : puRule t r i = puRule t r j ↔ i = j := by simp only [puRule]; omega
    by_cases hl : i ∈ l
    · simp [hl]
    · by_cases hj : i = j
      · subst hj
        cases e <;> simp [hl, State.conf_setConf]
      · simp [hl, hj, State.conf_setConf, hsame]

theorem Changes.ruleWritten {C : List Comp} {z : State} (h : Changes C z s) {w : Nat → Word} {l : List Nat} :
    Changes ([Comp.set0, .set1] ++ C) z (s.ruleWritten t r w l) :=
  h.andThen (.within (by decide) (Changes.refl.each fun _ _ => Changes.refl.setConf.setConf))

theorem puEdit_of_refused (h : s.here t = true)
    (hres : s.puEditResult t (field v 11 0) (puDecode fun i => s.lv (puEditData agent t i)) ≠ 0) :
    puEdit agent t v s = s.setLv (puEditSel agent t) (BitVec.ofNat 32 (field v 11 0 +
      s.puEditResult t (field v 11 0) (puDecode fun i => s.lv (puEditData agent t i)) * 2 ^ 24)) :=
  (if_pos h).trans (if_pos hres)

theorem puEdit_of_accepted (h : s.here t = true)
    (hres : s.puEditResult t (field v 11 0) (puDecode fun i => s.lv (puEditData agent t i)) = 0) :
    puEdit agent t v s = ((s.setLv (puEditSel agent t) (BitVec.ofNat 32 (field v 11 0))).ruleWritten t (field v 11 0)
      (fun i => s.lv (puEditData agent t i)) (List.range 5)).setFld 0x00030040 1 0 0 := by
  refine (if_pos h).trans ((if_neg (not_not_intro hres)).trans ?_)
  rw [hres]
  rfl

theorem puEditSel_ne (agent t : Nat) : puEditSel agent t ≠ 0x00030040 := by
  simp only [puEditSel, mbx, tileBase]
  split <;> omega

/-- A small number leaves the top byte of its word at 0. -/
theorem field_ofNat_top {n : Nat} (h : n < 2 ^ 24) : field (BitVec.ofNat 32 n) 31 24 = 0 := by
  simp only [field, BitVec.toNat_ofNat]
  omega

theorem field_lt (v : Word) (hi lo : Nat) : field v hi lo < 2 ^ (hi + 1 - lo) := Nat.mod_lt _ (by positivity)

theorem State.conf_setFld_live (s : State) (o hi lo n : Nat) (e : Bool) (i : Nat) :
    (s.setFld o hi lo n).conf e i = s.conf e i := by cases e <;> rfl

theorem puEdit_accepted_shows (w : Nat → Word) (l : List Nat) (hr : r < 4096) :
    let u := ((s.setLv (puEditSel agent t) (BitVec.ofNat 32 r)).ruleWritten t r w l).setFld 0x00030040 1 0 0
    u.fld (puEditSel agent t) 31 24 = 0 ∧ u.pu = s.pu ∧ u.pkts = s.pkts ∧
      ∀ e i, i ∈ l → u.conf e (puRule t r i) = w i &&& setMask (puRule t r i) := by
  intro u
  have hrule : Changes _ (s.setLv (puEditSel agent t) (BitVec.ofNat 32 r))
      ((s.setLv (puEditSel agent t) (BitVec.ofNat 32 r)).ruleWritten t r w l) := Changes.refl.ruleWritten
  have hall : Changes _ s u := Changes.refl.setLv.ruleWritten.setFld
  have hsel : u.lv (puEditSel agent t) = BitVec.ofNat 32 r :=
    (State.lv_setFld_ne _ _ _ _ (puEditSel_ne agent t)).trans
      ((hrule.lv_eq (by decide) (by decide) _).trans (State.lv_setLv_self _ _ _))
  refine ⟨?_, hall .pu (by decide), hall .pkts (by decide), fun e i hi => ?_⟩
  · rw [State.fld, hsel]
    exact field_ofNat_top (by omega)
  · rw [State.conf_setFld_live, State.conf_ruleWritten, if_pos hi]

theorem puViolationIntervalEnd_of_open {x : PuViol} (h : tget none s.pu.viol (puKey t seat) = some x) :
    puViolationIntervalEnd t seat s = if x.n = 0 then s.setViol (puKey t seat) none
      else (s.puReport t seat x).setViol (puKey t seat) (some { x with n := 0 }) := by
  unfold puViolationIntervalEnd
  rw [h]
end

/-- Settles O32: the branches of the unit's commands; an accepted edit writes five distinct words in each copy. -/
theorem protectionUnitCommands : Obligations.ProtectionUnitCommands := by
  intro s
  refine ⟨?disable, ?disabled, ?enable, ?timeout, ?refused, ?accepted, ?done, ?closes, ?reports⟩
  case disable => exact fun t seat v h => next_eq (puDisable_of_here h)
  case disabled => exact fun t seat h => next_eq (puDisabled_of_here h)
  case enable => exact fun t seat v h => next_eq (puEnable_of_here h)
  case timeout =>
    intro t id a ha
    exact ⟨fun p who q e hitem => next_eq (puHoldTimeout_of_fence ha ⟨p, who, q, e, hitem⟩),
      fun hitem => next_eq (puHoldTimeout_of_access ha hitem)⟩
  case refused => exact fun agent t v h hres => next_eq (puEdit_of_refused h hres)
  case accepted =>
    intro agent t v r w h hres
    obtain ⟨hres0, hpu, hpkts, hrule⟩ := puEdit_accepted_shows (agent := agent) (t := t) (s := s) w (List.range 5)
      (field_lt v 11 0)
    exact ⟨_, next_eq (puEdit_of_accepted h hres), hres0, hpu, hpkts, fun e i hi => hrule e i (List.mem_range.mpr hi)⟩
  case done => exact fun agent t h => next_eq (if_pos h)
  case closes => exact fun t seat x h hn => next_eq ((puViolationIntervalEnd_of_open h).trans (if_pos hn))
  case reports => exact fun t seat x h hn => next_eq ((puViolationIntervalEnd_of_open h).trans (if_neg hn))

/-! ### The scheduler (R264, R266, R271, R278) -/

section
variable {s : State} {t port pb agent : Nat} {v : Word}

theorem schedulePacketStart_of_busy (h : s.portReady port = false) : schedulePacketStart port s = s := if_pos (by simp [h])

theorem schedulePacketStart_of_mgmt {p : Packet} (h : s.portReady port = true)
    (hp : ((s.portQueue port).find? fun p => p.mgmt && !s.stalls port p) = some p) :
    schedulePacketStart port s = s.startPkt port p := by
  refine (if_neg (by simp [h])).trans ?_
  rw [hp]

theorem schedulePacketStart_of_data (h : s.portReady port = true)
    (hp : ((s.portQueue port).find? fun p => p.mgmt && !s.stalls port p) = none) :
    schedulePacketStart port s = if s.portHeld port (s.tileEpoch (tileOf port)) then s
      else match s.portChoice port with
        | some x => s.carry port x
        | none => s := by
  refine (if_neg (by simp [h])).trans ?_
  cases hc : s.portChoice port <;> simp only [hp]

theorem takeover_of_armed (ho : s.operates (pb / 8) = true) (ha : s.flag (scCtrl pb) 3 = true) :
    takeover pb s = (s.reach (·.tileFt (pb / 8)) (s.takeoverTime pb)).takesOver pb := if_neg (by simp [ho, ha])

theorem State.takesOver_eq (r : State) (pb : Nat) : r.takesOver pb =
    let u := (r.setFlag (scCtrl pb) 0 (!r.flag (scCtrl pb) 0)).setFlag (scCtrl pb) 3 false
    let w := (u.sticky (scCtrl pb) 4).modSch fun c => { c with late := c.late.filter (· != pb) }
    if r.sch.late.contains pb then w.sticky (scCtrl pb) 5 else w := rfl

/-- What BACKLOG_READ_DONE leaves. -/
def State.backlogShown (s : State) (agent t : Nat) : State :=
  (s.setLv (backlogSel agent t + 4) (BitVec.ofNat 32 (s.backlog t (s.fld (backlogSel agent t) 11 0) % 2 ^ 18 +
    b2n (s.withheld t (s.fld (backlogSel agent t) 11 0)) * 2 ^ 18))).setFlag (backlogSel agent t) 31 true

theorem backlogReadDone_of_here (h : s.here t = true) : backlogReadDone agent t s = s.backlogShown agent t :=
  if_neg (by simp [h])

theorem State.backlogShown_regs (s : State) (agent t : Nat) :
    (s.backlogShown agent t).lv (backlogSel agent t + 4) =
        BitVec.ofNat 32 (s.backlog t (s.fld (backlogSel agent t) 11 0) % 2 ^ 18 +
          b2n (s.withheld t (s.fld (backlogSel agent t) 11 0)) * 2 ^ 18) ∧
      (s.backlogShown agent t).flag (backlogSel agent t) 31 = true ∧
      s.regsKept (s.backlogShown agent t) [backlogSel agent t, backlogSel agent t + 4] :=
  ⟨(State.lv_setFlag_ne _ _ _ (by omega)).trans (State.lv_setLv_self _ _ _), State.flag_setFlag_self _ _ _ (by decide),
    State.regsKept.refl.setLv.setFlag⟩

theorem Changes.backlogShown : Changes [.live] s (s.backlogShown agent t) :=
  .within (by decide) Changes.refl.setLv.setFlag
end

/-- Settles O33: the branches of the round, of a packet's start, of the takeovers and of the backlog mailbox. -/
theorem schedulingCommands : Obligations.SchedulingCommands := by
  intro s
  refine ⟨?round, ?start, ?control, ?takeover, ?read, ?readDone⟩
  case round => exact fun t h => next_eq (if_neg (by simp [h]))
  case start =>
    intro port
    exact ⟨fun h => next_eq (schedulePacketStart_of_busy h), fun h p hp => next_eq (schedulePacketStart_of_mgmt h hp),
      fun h hp => next_eq (schedulePacketStart_of_data h hp)⟩
  case control =>
    intro pb v h x hx
    simp only [List.mem_cons, List.not_mem_nil, or_false] at hx
    rcases hx with rfl | rfl <;> exact next_eq (if_pos h)
  case takeover => exact fun pb ho ha => next_eq ((takeover_of_armed ho ha).trans (State.takesOver_eq _ pb))
  case read => exact fun agent t v h => next_eq (if_pos h)
  case readDone =>
    intro agent t h
    obtain ⟨hshown, hvalid, hkept⟩ := s.backlogShown_regs agent t
    have hchg : Changes _ s (s.backlogShown agent t) := .backlogShown
    exact ⟨_, next_eq (backlogReadDone_of_here h), hshown, hvalid, hkept, hchg.setsKept (by decide) (by decide),
      hchg .sch (by decide)⟩

end Sys2Proof.Machine

/-! The rings: set-up, fetches, records, shadows and signals. -/

namespace Sys2Proof.Machine

/-! ### Set-up (R283) -/

section
variable {s : State} {r : Nat} {v : Word}

/-- Word 0 of a ring that is neither enabled nor busy, as a write leaves it. -/
def State.word0Open (s : State) (r : Nat) (v : Word) : State :=
  s.setLv (ringReg r 0) ((s.lv (ringReg r 0) &&& ~~~(setupMask ||| 0x300#32)) ||| (v &&& (setupMask ||| 0x300#32)))

/-- Word 0 of a ring that is enabled or busy: the two free fields, and WR_IGNORED where the set-up would change. -/
def State.word0Closed (s : State) (r : Nat) (v : Word) : State :=
  let q := if (v &&& setupMask) != (s.lv (ringReg r 0) &&& setupMask) then s.sticky (ringReg r 7) 4 else s
  q.setLv (ringReg r 0) ((q.lv (ringReg r 0) &&& ~~~0x300#32) ||| (v &&& 0x300#32))

/-- What EN of a write asks of the ring. -/
def State.ringSwitched (u : State) (r : Nat) (on : Bool) : State :=
  if on then (if u.ringEn r then u else u.ringOn r) else if u.ringEn r then u.ringOff r else u

theorem State.ringWord0_of_open (he : s.ringEn r = false) (hb : s.ringBusy r = false) :
    s.ringWord0 r v = (s.word0Open r v).ringSwitched r (bit v 0) := by
  unfold State.ringWord0
  simp only [he, hb]
  rfl

theorem State.ringWord0_of_closed (h : (s.ringEn r || s.ringBusy r) = true) :
    s.ringWord0 r v = (s.word0Closed r v).ringSwitched r (bit v 0) := by
  have hclosed : (!s.ringEn r && !s.ringBusy r) = false := by rw [← Bool.not_or, h]; rfl
  unfold State.ringWord0
  simp only [hclosed]
  rfl

theorem State.ringWrite_word0 (hr : r < 65536) : s.ringWrite r 0 v = s.ringWord0 r v :=
  (if_neg (by omega)).trans (if_pos rfl)

theorem bit_putBit_zero (v : Word) (b : Bool) : bit (putBit v 0 b) 0 = b := bit_putBit_self v b (by decide)

theorem ringEnable_eq (hr : r < 65536) : ringEnable r v s = s.ringWord0 r (putBit v 0 true) := State.ringWrite_word0 hr

theorem ringDisable_eq (hr : r < 65536) : ringDisable r v s = s.ringWord0 r (putBit v 0 false) := State.ringWrite_word0 hr

theorem ringFetchResume_eq (hr : r < 65536) :
    ringFetchResume r v s = s.plainWrite (ringReg r 7) (putBit v 2 true) :=
  (if_neg (by omega)).trans ((if_neg (by decide)).trans (if_neg (by decide)))
end

/-! ### Fetches (R285, R286) -/

section
variable {s : State} {r seat : Nat}

theorem State.fetchStart_of_refused (h : s.canIssue (s.seatPart s.leadEpoch seat) = false) :
    s.fetchStart r seat = s.ringFail r 0 := if_pos (by simp [h])

theorem State.fetchStart_of_open (h : s.canIssue (s.seatPart s.leadEpoch seat) = true) : s.fetchStart r seat =
    let u := s.modRing r fun q => { q with fetching := true, fetchN := s.fetchLen r, paused := false }
    u.hostRead (u.tileEpoch (s.seatHome s.leadEpoch seat)) (s.seatHome s.leadEpoch seat) (s.seatPart s.leadEpoch seat)
      (some seat) (seat == 0) (u.seatPasid s.leadEpoch seat) (.ringFetch r)
      (u.ringBase r + 64 * (u.hwIndex r % u.ringLen r)) (64 * s.fetchLen r) := if_neg (by simp [h])

section
variable (ho : s.workOwner r = some seat)
include ho

theorem ringFetch_of_got (hg : (s.ringSt r).got ≠ []) : ringFetch r s =
    if s.ringPaused r || !s.here (s.seatHome s.leadEpoch seat) then s else s.acceptGot r (s.ringSt r).got.length := by
  unfold ringFetch
  rw [ho]
  exact if_pos (by simpa using hg)

theorem ringFetch_of_empty (hg : (s.ringSt r).got = []) :
    ringFetch r s = if s.canFetch r seat then s.fetchStart r seat else s := by
  unfold ringFetch
  rw [ho]
  exact if_neg (by simp [hg])
end

theorem ringFetchComplete_of_idle {how : DmaEnd} {l : List RingEntry} (h : (s.ringSt r).fetching = false) :
    ringFetchComplete r how l s = s := if_pos (by simp [h])

theorem ringFetchComplete_of_fetch {how : DmaEnd} {l : List RingEntry} (h : (s.ringSt r).fetching = true) :
    ringFetchComplete r how l s =
      let u := s.modRing r fun q => { q with fetching := false }
      match how with
      | .ok =>
        let u := u.modRing r fun q => { q with got := l.take q.fetchN }
        u.acceptGot r (u.ringSt r).got.length
      | .ur => u.ringFail r 0
      | .ca => u.ringFail r 1
      | .poisoned => u.ringFail r 2
      | .timeout => u.ringFail r 3
      | .malformed => u.ringFail r 4 := by
  refine (if_neg (by simp [h])).trans ?_
  cases how <;> rfl
end

/-! ### Records, shadows and signals (R287 to R291) -/

section
variable {s : State} {r seat : Nat}

theorem recordWrite_of_unserved (h : s.servedOwner r = none) : recordWrite r s = s := by
  unfold recordWrite
  rw [h]

section
variable (ho : s.servedOwner r = some seat)
include ho

theorem recordWrite_of_shut (h : s.ringEn r = false ∨ s.here (s.seatHome s.leadEpoch seat) = false) :
    recordWrite r s = s := by
  unfold recordWrite
  rw [ho]
  exact if_pos (by rcases h with h | h <;> simp [h])

theorem recordWrite_of_open (he : s.ringEn r = true) (hh : s.here (s.seatHome s.leadEpoch seat) = true) :
    recordWrite r s =
      if s.ringType r = 1 then
        match (s.ringSt r).recs.find? fun b => b.1 == seat with
        | none => s
        | some b =>
          if s.ringFull r then s.sticky (ringReg r 7) 1
          else (s.modRing r fun q => { q with recs := q.recs.erase b }).recordOut r seat b.2
      else if s.ringType r = 2 then
        match (s.ringSt r).evs with
        | [] => s
        | b :: bs => if s.ringFull r then s else (s.modRing r fun q => { q with evs := bs }).recordOut r seat b
      else s := by
  unfold recordWrite
  rw [ho]
  exact (if_neg (by simp [he, hh])).trans rfl

theorem recordWrite_of_completion {b : Nat × List Byte} (he : s.ringEn r = true)
    (hh : s.here (s.seatHome s.leadEpoch seat) = true) (ht : s.ringType r = 1)
    (hb : ((s.ringSt r).recs.find? fun x => x.1 == seat) = some b) : recordWrite r s =
      if s.ringFull r then s.sticky (ringReg r 7) 1
      else (s.modRing r fun q => { q with recs := q.recs.erase b }).recordOut r seat b.2 := by
  rw [recordWrite_of_open ho he hh, if_pos ht, hb]

theorem recordWrite_of_event {b : List Byte} {bs : List (List Byte)} (he : s.ringEn r = true)
    (hh : s.here (s.seatHome s.leadEpoch seat) = true) (ht : s.ringType r = 2) (hb : (s.ringSt r).evs = b :: bs) :
    recordWrite r s = if s.ringFull r then s else (s.modRing r fun q => { q with evs := bs }).recordOut r seat b := by
  rw [recordWrite_of_open ho he hh, if_neg (by omega), if_pos ht, hb]

/-- A ring without a record of its kind writes none. -/
theorem recordWrite_of_none (h : s.ringType r = 1 ∧ (s.ringSt r).recs = [] ∨ s.ringType r = 2 ∧ (s.ringSt r).evs = []) :
    recordWrite r s = s := by
  by_cases hopen : s.ringEn r = true ∧ s.here (s.seatHome s.leadEpoch seat) = true
  · rw [recordWrite_of_open ho hopen.1 hopen.2]
    rcases h with ⟨ht, hl⟩ | ⟨ht, hl⟩
    · rw [if_pos ht, hl]
      rfl
    · rw [if_neg (by omega), if_pos ht, hl]
  · refine recordWrite_of_shut ho ?_
    rcases Decidable.not_and_iff_or_not.mp hopen with h | h
    · exact .inl (Bool.eq_false_of_not_eq_true h)
    · exact .inr (Bool.eq_false_of_not_eq_true h)

theorem shadowWrite_of_here (hh : s.here (s.seatHome s.leadEpoch seat) = true) : shadowWrite r s = s.shadowOut r seat := by
  unfold shadowWrite
  rw [ho]
  exact if_pos hh

theorem irqModTimeout_of_due (hh : s.here (s.seatHome s.leadEpoch seat) = true) (hi : s.irqRing r = true)
    (hn : (s.ringSt r).sinceSig ≠ 0) : irqModTimeout r s = s.signal r seat := by
  unfold irqModTimeout
  rw [ho]
  exact if_pos (by simp [hh, hi, hn])
end

theorem State.shadowOut_of_due (hf : s.flag (ringReg r 0) 9 = true) (hd : (s.ringSt r).shadowDue = true) :
    s.shadowOut r seat = (s.modRing r fun q => { q with shadowDue := false }).hostWrite
      (s.tileEpoch (s.seatHome s.leadEpoch seat)) (s.seatHome s.leadEpoch seat) (s.seatPart s.leadEpoch seat)
      (some seat) (seat == 0) (s.seatPasid s.leadEpoch seat) .record (s.ringShadow r) (leBytes 4 (s.hwIndex r)) :=
  if_neg (by simp [hf, hd])

theorem State.shadowOut_of_idle (h : s.flag (ringReg r 0) 9 = false ∨ (s.ringSt r).shadowDue = false) :
    s.shadowOut r seat = s := if_pos (by rcases h with h | h <;> simp [h])

theorem shadowWrite_of_idle (h : s.flag (ringReg r 0) 9 = false ∨ (s.ringSt r).shadowDue = false) : shadowWrite r s = s := by
  unfold shadowWrite
  split
  · rw [State.shadowOut_of_idle h, ite_self]
  · rfl

theorem irqModTimeout_of_idle (h : s.irqRing r = false ∨ (s.ringSt r).sinceSig = 0) : irqModTimeout r s = s := by
  unfold irqModTimeout
  split
  · exact if_neg (by rcases h with h | h <;> simp [h])
  · rfl
end

/-- Settles O34: the branches of each ring command. -/
theorem ringsComplete : Obligations.RingsComplete := by
  intro s
  have hsw (u : State) (r : Nat) (v : Word) (b : Bool) : u.ringSwitched r (bit (putBit v 0 b) 0) = u.ringSwitched r b := by
    rw [bit_putBit_zero]
  refine ⟨?enable, ?enableClosed, ?disable, ?disableClosed, ?fetch, ?fetchRefused, ?offer, ?noFetch, ?complete, ?fails,
    ?noComplete, ?resume, ?completion, ?event, ?noRecord, ?shadow, ?noShadow, ?signal, ?noSignal⟩
  case enable =>
    exact fun r v hr he hb => next_eq ((ringEnable_eq hr).trans ((State.ringWord0_of_open he hb).trans (hsw _ r v true)))
  case enableClosed =>
    exact fun r v hr h => next_eq ((ringEnable_eq hr).trans ((State.ringWord0_of_closed h).trans (hsw _ r v true)))
  case disable =>
    exact fun r v hr he hb => next_eq ((ringDisable_eq hr).trans ((State.ringWord0_of_open he hb).trans (hsw _ r v false)))
  case disableClosed =>
    exact fun r v hr h => next_eq ((ringDisable_eq hr).trans ((State.ringWord0_of_closed h).trans (hsw _ r v false)))
  case fetch =>
    exact fun r seat ho hg hc hi => next_eq ((ringFetch_of_empty ho hg).trans ((if_pos hc).trans (State.fetchStart_of_open hi)))
  case fetchRefused =>
    exact fun r seat ho hg hc hi => next_eq ((ringFetch_of_empty ho hg).trans ((if_pos hc).trans (State.fetchStart_of_refused hi)))
  case offer => exact fun r seat ho hg => next_eq (ringFetch_of_got ho hg)
  case noFetch => exact fun r seat ho hg hc => next_eq ((ringFetch_of_empty ho hg).trans (if_neg (by simp [hc])))
  case complete => exact fun r l h => next_eq (ringFetchComplete_of_fetch h)
  case fails =>
    intro r l h
    exact ⟨next_eq (ringFetchComplete_of_fetch h), next_eq (ringFetchComplete_of_fetch h),
      next_eq (ringFetchComplete_of_fetch h), next_eq (ringFetchComplete_of_fetch h), next_eq (ringFetchComplete_of_fetch h)⟩
  case noComplete => exact fun r how l h => next_eq (ringFetchComplete_of_idle h)
  case resume => exact fun r v hr => next_eq (ringFetchResume_eq hr)
  case completion => exact fun r seat b ho he hh ht hb => next_eq (recordWrite_of_completion ho he hh ht hb)
  case event => exact fun r seat b bs ho he hh ht hb => next_eq (recordWrite_of_event ho he hh ht hb)
  case noRecord =>
    intro r h
    refine next_eq ?_
    cases ho : s.servedOwner r with
    | none => exact recordWrite_of_unserved ho
    | some seat =>
      rcases h with h | h | h | h | ⟨seat', ho', h⟩
      · simp [ho] at h
      · exact recordWrite_of_shut ho (.inl h)
      · exact recordWrite_of_none ho (.inl h)
      · exact recordWrite_of_none ho (.inr h)
      · cases ho.symm.trans ho'
        exact recordWrite_of_shut ho (.inr h)
  case shadow => exact fun r seat ho hh hf hd => next_eq ((shadowWrite_of_here ho hh).trans (State.shadowOut_of_due hf hd))
  case noShadow => exact fun r h => next_eq (shadowWrite_of_idle h)
  case signal => exact fun r seat ho hh hi hn => next_eq (irqModTimeout_of_due ho hh hi hn)
  case noSignal => exact fun r h => next_eq (irqModTimeout_of_idle h)

end Sys2Proof.Machine

/-! The counters, snapshots, captures, minute marks and ECC events. -/

namespace Sys2Proof.Machine

theorem ite_not_bool {α : Type} (b : Bool) (x y : α) : (if !b then x else y) = if b then y else x := by
  cases b <;> rfl

/-! ### The counter mailbox (R311 to R314) -/

section
variable {s : State} {agent t k : Nat} {v : Word}

theorem counterReadDone_of_idle (h : s.agentHere agent = false ∨ tget none s.tel.counted agent = none) :
    counterReadDone agent s = s := by
  unfold counterReadDone
  split
  · rfl
  case h_2 c hc => exact if_pos (by rcases h with h | h <;> simp_all)

/-- The mailbox shows a captured counter. -/
def State.counterShown (s : State) (agent : Nat) (c : Ctr × Bool) : State :=
  let low := s.setLv (cntSel agent + 4) (BitVec.ofNat 32 c.1.n)
  let high := low.setLv (cntSel agent + 8)
    (BitVec.ofNat 32 (c.1.n / 2 ^ 32 % 65536 + b2n c.1.ovf * 2 ^ 16 + b2n c.2 * 2 ^ 17))
  (high.setFlag (cntSel agent) 31 true).modTel fun k => { k with counted := tset none k.counted agent none }

theorem counterReadDone_of_captured {c : Ctr × Bool} (h : s.agentHere agent = true)
    (hc : tget none s.tel.counted agent = some c) : counterReadDone agent s = s.counterShown agent c := by
  unfold counterReadDone
  rw [hc]
  exact if_neg (by simp [h])

theorem State.lv_modTel (s : State) (f : TelSt → TelSt) (o : Nat) : (s.modTel f).lv o = s.lv o := rfl

theorem State.counterShown_regs (s : State) (agent : Nat) (c : Ctr × Bool) :
    (s.counterShown agent c).lv (cntSel agent + 4) = BitVec.ofNat 32 c.1.n ∧
      (s.counterShown agent c).lv (cntSel agent + 8) =
        BitVec.ofNat 32 (c.1.n / 2 ^ 32 % 65536 + b2n c.1.ovf * 2 ^ 16 + b2n c.2 * 2 ^ 17) ∧
      (s.counterShown agent c).flag (cntSel agent) 31 = true ∧
      s.regsKept (s.counterShown agent c) [cntSel agent, cntSel agent + 4, cntSel agent + 8] := by
  refine ⟨?low, ?high, ?valid, fun o ho => ?others⟩
  case low =>
    rw [State.counterShown, State.lv_modTel, State.lv_setFlag_ne _ _ _ (by omega), State.lv_setLv_ne _ _ (by omega),
      State.lv_setLv_self]
  case high =>
    rw [State.counterShown, State.lv_modTel, State.lv_setFlag_ne _ _ _ (by omega), State.lv_setLv_self]
  case valid =>
    rw [State.counterShown, State.flag, State.lv_modTel]
    exact State.flag_setFlag_self _ _ _ (by decide)
  case others =>
    exact (State.lv_modTel _ _ o).trans ((State.regsKept.refl.setLv.setLv.setFlag :
      s.regsKept _ [cntSel agent, cntSel agent + 4, cntSel agent + 8]) o ho)

theorem Changes.counterShown {c : Ctr × Bool} : Changes [.live, .tel] s (s.counterShown agent c) :=
  .within (by decide) Changes.refl.setLv.setLv.setFlag.modTel

theorem State.ctr_modTel_counted (s : State) (f : NMap (Option (Ctr × Bool)) → NMap (Option (Ctr × Bool))) :
    (s.modTel fun k => { k with counted := f k.counted }).tel.ctr = s.tel.ctr := rfl

theorem State.counterShown_ctr (s : State) (agent : Nat) (c : Ctr × Bool) :
    (s.counterShown agent c).tel.ctr = s.tel.ctr := by
  have hregs (low high : Word) : Changes [.live] s
      (((s.setLv (cntSel agent + 4) low).setLv (cntSel agent + 8) high).setFlag (cntSel agent) 31 true) :=
    .within (by decide) Changes.refl.setLv.setLv.setFlag
  rw [State.counterShown, State.ctr_modTel_counted _ (tset none · agent none)]
  exact congrArg TelSt.ctr (hregs _ _ .tel (by decide))

theorem counterWrap_of_noted {block i : Nat} {x : Nat × Nat}
    (h : (s.tel.wraps.find? fun x => x.2 == 256 * block + i) = some x) : counterWrap block i s =
      (s.modTel fun k => { k with wraps := k.wraps.erase x }).eventMgr 0x0150
        (if block < 8 then block else 15) (leBytes 2 (x.2 % 65536) ++ leBytes 1 x.1) := by
  unfold counterWrap
  rw [h]

theorem ctProgWrite_of_here (h : s.here t = true) (hk : k < 32) : ctProgWrite t k v s = s.progAct t k v :=
  if_pos (by simp [h, hk])
end

/-! ### Snapshots (R316) -/

section
variable {s : State} {v : Word} {b : Nat}

theorem State.snapAct_of_arm (s : State) (v : Word) : s.snapAct (v ||| 1) =
    let u := s.plainWrite snapCtrl (v ||| 1)
    if u.flag snapCtrl 1 then u
    else ((u.setFlag snapCtrl 1 true).setFlag snapCtrl 2 false).modTel fun k => { k with snapDone := [] } := by
  have h0 : bit (v ||| 1) 0 = true := by rw [bit_or]; simp [bit]
  unfold State.snapAct
  simp only [h0, Bool.true_and]
  exact ite_not_bool _ _ _

theorem snapshot_eq : snapshot b s =
    if s.flag snapCtrl 1 ∧ s.tel.snapDone.contains b = false ∧ s.agentHere b then (s.snapReach b).snapCopy b else s := by
  by_cases h : s.flag snapCtrl 1 ∧ s.tel.snapDone.contains b = false ∧ s.agentHere b
  · obtain ⟨harmed, hnew, hhere⟩ := h
    exact (if_neg (by rw [harmed, hnew, hhere]; decide)).trans (if_pos ⟨harmed, hnew, hhere⟩).symm
  · refine (if_pos ?_).trans (if_neg h).symm
    by_contra hn
    refine h ?_
    simpa only [Bool.or_eq_true, Bool.not_eq_true', not_or, Bool.not_eq_false, Bool.not_eq_true, and_assoc] using hn

theorem snapshotDone_eq : snapshotDone s =
    if s.flag snapCtrl 1 ∧ (8 :: s.present).all s.tel.snapDone.contains then
      (s.setFlag snapCtrl 1 false).setFlag snapCtrl 2 true else s := by
  unfold snapshotDone
  simp only [Bool.and_eq_true]
end

/-! ### Histograms and captures (R319 to R322) -/

section
variable {s : State} {t h c : Nat} {v : Word} {b : List Byte} {bs : List (List Byte)}

theorem histogramClear_of_here (hh : s.here t = true) (hl : h < 8) : histogramClear t h v s =
    (s.plainWrite (ctHist t h) (putBit v 30 true)).modTel fun k =>
      { k with ctr := (List.range 32).foldl (fun m b => tset {} m (ctrKey 4 (256 * t + 32 * h + b)) {}) k.ctr } :=
  (if_pos (by simp [hh, hl])).trans (if_pos (bit_putBit_self v true (by decide)))

theorem captureEnable_of_here (hh : s.here t = true) (hc : c < 4) : captureEnable t c v s =
    let u := s.plainWrite (ctCap t c 0) (putBit v 0 true)
    if s.flag (ctCap t c 0) 0 then u
    else (u.setFld (ctCap t c 7) 15 0 0).modCap t c fun k => { k with countdown := 0 } := by
  refine (if_pos (by simp [hh, hc])).trans ?_
  unfold State.capAct
  simp only [bit_putBit_zero, Bool.true_and]
  exact ite_not_bool _ _ _

theorem captureRecordWrite_of_away (hh : s.here t = false) : captureRecordWrite t c s = s := by
  unfold captureRecordWrite
  dsimp only
  split
  · rfl
  · exact if_pos (by simp [hh])

section
variable (hq : (s.cap t c).queue = b :: bs) (hh : s.here t = true) (hc : c < 4)
include hq hh hc

theorem captureRecordWrite_of_queue : captureRecordWrite t c s =
    let e := s.tileEpoch t
    let p := s.fld (ctCap t c 0) 28 21
    let svc := s.fld (ctCap t c 0) 12 10
    let u := s.modCap t c fun k => { k with queue := bs }
    let i := u.fld (ctCap t c 7) 15 0
    let w := (u.hostWriteAs svc e t p none false none .write (u.addr2 (ctCap t c 3) 128 + i % u.capSize t c * 128) b).setFld
      (ctCap t c 7) 15 0 ((i + 1) % 65536)
    if u.partEn e p = false then u
    else w.hostWriteAs svc e t p none false none .write (w.addr2 (ctCap t c 5) 4) (leBytes 4 ((i + 1) % 65536)) := by
  unfold captureRecordWrite
  dsimp only
  rw [hq]
  refine (if_neg (by rw [hh, decide_eq_false (Nat.not_le.mpr hc)]; decide)).trans ?_
  simp only [Bool.not_eq_true']
  rfl
end
end

/-! ### Minute marks and contributions (R324, R327) -/

/-- A tile's accumulators latched for the mark in progress. -/
def State.boLatched (s : State) (t : Nat) : State :=
  s.modTel fun k =>
    let mine := fun (x : Nat × Bo) => x.1 / 4096 == t
    { k with latched := (k.bo.filter mine).foldl (fun l x => tmod {} l x.1 x.2.plus) k.latched
             bo := k.bo.filter fun x => !mine x
             latchedTiles := k.latchedTiles ++ [t], unqual := k.unqual || !s.flag (slaveStatus t) 8 }

section
variable {s : State} {t : Nat}

theorem Changes.boLatched : Changes [.tel] s (s.boLatched t) := Changes.refl.modTel

theorem State.boLatched_tel (s : State) (t : Nat) : (s.boLatched t).tel.latchedTiles = s.tel.latchedTiles ++ [t] ∧
    (s.boLatched t).tel.bo = s.tel.bo.filter (fun x => !(x.1 / 4096 == t)) ∧
    (s.boLatched t).tel.latched =
      (s.tel.bo.filter fun x => x.1 / 4096 == t).foldl (fun l x => tmod {} l x.1 x.2.plus) s.tel.latched := ⟨rfl, rfl, rfl⟩

theorem minuteMarkLatch_of_away (h : s.here t = false) : minuteMarkLatch t s = s := if_pos (by simp [h])

/-- A tile that meets no new mark latches for the one in progress, or does nothing. -/
theorem minuteMarkLatch_of_mark (h : s.here t = true) (hm : markOf (s.tileFt t) ≤ s.tel.markAt) : minuteMarkLatch t s =
    if s.tel.deferred || s.tel.latchedTiles.contains t || !s.tel.collecting then s else s.boLatched t := by
  refine (if_neg (by simp [h])).trans ?_
  simp only [if_neg (Nat.not_lt.mpr hm)]
  rfl

theorem boContribution_of_none (h : s.tel.latchedTiles.contains t = false ∨ s.tel.gotTiles.contains t = true ∨
    s.here t = false) : boContribution t s = s := by
  refine if_pos ?_
  rcases h with h | h | h <;> rw [h] <;> simp

theorem boContribution_of_latched (hl : s.tel.latchedTiles.contains t = true) (hg : s.tel.gotTiles.contains t = false)
    (hh : s.here t = true) : boContribution t s =
      let u := s.modTel fun k =>
        { k with
          sum := (k.latched.filter fun x => x.1 / 4096 == t).foldl (fun l x => tmod {} l (x.1 % 4096) x.2.plus) k.sum,
          latched := k.latched.filter (fun x => !(x.1 / 4096 == t)), gotTiles := k.gotTiles ++ [t] }
      if u.tel.collecting && u.part.tiles.all u.tel.gotTiles.contains then u.boClose else u :=
  if_neg (by rw [hl, hg, hh]; decide)
end

/-! ### ECC (R342, R343, R352) -/

section
variable {s : State} {t : Nat} {v : Word}

theorem eccUncorrectable_of_operates {st : EccStore} (h : s.operates t = true) : eccUncorrectable t st s =
    let u := s.count t .eccUncorr
    State.eccEffect (u.used.eventMgr 0x0103 t (leBytes 1 (eccIndex st) ++ leBytes 3 0 ++ leBytes 4 u.freeW.toNat)) t st :=
  if_neg (by simp [h])

theorem State.eccCtrlWrite_of_cell (s : State) (t : Nat) (v : Word) : s.eccCtrlWrite t (putBit v 1 true) =
    let u := injCell t (s.plainWrite (tileBase t + 0xE008) (putBit v 1 true))
    if bit v 2 then injTable t u else u := by
  unfold State.eccCtrlWrite
  simp only [bit_putBit_self v true (show 1 < 32 by decide), bit_putBit_ne v true (show 1 < 32 by decide) (show 2 ≠ 1 by decide),
    if_true]

theorem State.eccCtrlWrite_of_table (s : State) (t : Nat) (v : Word) : s.eccCtrlWrite t (putBit v 2 true) =
    let u := s.plainWrite (tileBase t + 0xE008) (putBit v 2 true)
    injTable t (if bit v 1 then injCell t u else u) := by
  unfold State.eccCtrlWrite
  simp only [bit_putBit_self v true (show 2 < 32 by decide), bit_putBit_ne v true (show 2 < 32 by decide) (show 1 ≠ 2 by decide),
    if_true]
end

/-- Settles O37: the branches of each command of the counters, the captures, the meters and the ECC events. -/
theorem countersAndTelemetry : Obligations.CountersAndTelemetry := by
  intro s
  refine ⟨?read, ?readDone, ?noRead, ?wrap, ?prog, ?arm, ?snapshot, ?snapshotDone, ?histogram, ?capture, ?captureOff,
    ?captureWrite, ?latch, ?latched, ?contribution, ?noContribution, ?deadline, ?correctable, ?uncorrectable, ?noEcc, ?scrub,
    ?cell, ?table, ?away⟩
  case read => exact fun agent v => rfl
  case readDone =>
    intro agent c h hc
    obtain ⟨hlow, hhigh, hvalid, hkept⟩ := s.counterShown_regs agent c
    have hchg : Changes _ s (s.counterShown agent c) := .counterShown
    exact ⟨_, next_eq (counterReadDone_of_captured h hc), hlow, hhigh, hvalid, s.counterShown_ctr agent c, hkept,
      hchg.setsKept (by decide) (by decide)⟩
  case noRead => exact fun agent h => next_eq (counterReadDone_of_idle h)
  case wrap => exact fun block i x h => next_eq (counterWrap_of_noted h)
  case prog => exact fun t k v h hk => next_eq (ctProgWrite_of_here h hk)
  case arm => exact fun v => next_eq (s.snapAct_of_arm v)
  case snapshot => exact fun b => next_eq snapshot_eq
  case snapshotDone => exact next_eq snapshotDone_eq
  case histogram => exact fun t h v hh hl => next_eq (histogramClear_of_here hh hl)
  case capture => exact fun t c v hh hc => next_eq (captureEnable_of_here hh hc)
  case captureOff => exact fun t c b bs hq hh hc hp => next_eq ((captureRecordWrite_of_queue hq hh hc).trans (if_pos hp))
  case captureWrite =>
    intro t c b bs e p svc u i hq hh hc hp
    exact next_eq ((captureRecordWrite_of_queue hq hh hc).trans (if_neg (by rw [hp]; decide)))
  case latch =>
    intro t hh hm hd hl hc
    obtain ⟨htiles, hbo, hsum⟩ := s.boLatched_tel t
    have hchg : Changes _ s (s.boLatched t) := .boLatched
    exact ⟨_, next_eq ((minuteMarkLatch_of_mark hh hm).trans (if_neg (by rw [hd, hl, hc]; decide))), htiles, hbo, hsum,
      hchg .live (by decide), hchg.setsKept (by decide) (by decide)⟩
  case latched =>
    exact fun t hh hm hl => next_eq ((minuteMarkLatch_of_mark hh hm).trans (if_pos (by rw [hl]; simp)))
  case contribution => exact fun t hl hg hh => next_eq (boContribution_of_latched hl hg hh)
  case noContribution => exact fun t h => next_eq (boContribution_of_none (h.imp_right .inl))
  case deadline => exact rfl
  case correctable => exact fun t => rfl
  case uncorrectable => exact fun t st h => next_eq (eccUncorrectable_of_operates h)
  case noEcc => exact fun t st h => next_eq (if_pos (by simp [h]))
  case scrub => exact fun t => rfl
  case cell => exact fun t v h => next_eq ((if_pos h).trans (s.eccCtrlWrite_of_cell t v))
  case table => exact fun t v h => next_eq ((if_pos h).trans (s.eccCtrlWrite_of_table t v))
  case away =>
    intro t v k h c hh
    have hno {b : Bool} : ¬(s.here t && b) = true := by simp [hh]
    exact ⟨next_eq (if_neg hno), next_eq (if_neg hno), next_eq (if_neg hno), next_eq (captureRecordWrite_of_away hh),
      next_eq (minuteMarkLatch_of_away hh), next_eq (boContribution_of_none (.inr (.inr hh))),
      next_eq (if_neg (by simp [hh])), next_eq (if_neg (by simp [hh]))⟩

end Sys2Proof.Machine

/-! What no register write takes back: a counter listed once stays listed once, and the command unit holds no command that it
did not hold. One lemma per operation that a register write or a stop can reach. -/

namespace Sys2Proof.Machine

/-! ### The relation and its combinators -/

/-- A counter's key stands at most once in the list of counters. -/
def State.listsOnce (s : State) (k : Nat) : Prop := (s.tel.ctr.filter fun x => x.1 == k).length ≤ 1

/-- From `z` to `s`, no counter is listed twice that was not, and no command appears that was not there. -/
structure Steady (z s : State) : Prop where
  once : ∀ k, z.listsOnce k → s.listsOnce k
  cmds : ∀ c ∈ s.host.cmds, c ∈ z.host.cmds

theorem Steady.refl (z : State) : Steady z z := ⟨fun _ h => h, fun _ h => h⟩

theorem Steady.trans {x y z : State} (h : Steady x y) (k : Steady y z) : Steady x z :=
  ⟨fun i q => k.once i (h.once i q), fun c q => h.cmds c (k.cmds c q)⟩

theorem Steady.ite {z : State} {c : Prop} [Decidable c] {a b : State} (ha : Steady z a) (hb : Steady z b) :
    Steady z (if c then a else b) := by split <;> assumption

theorem Steady.ite_fst {α : Type} {z : State} {c : Prop} [Decidable c] {a b : State × α} (ha : Steady z a.1)
    (hb : Steady z b.1) : Steady z (if c then a else b).1 := by split <;> assumption

/-- A record update that leaves the counters and the commands. -/
theorem Steady.upd {z s : State} {live set0 set1 tm cur core sch arrivals pkts outs idCtr ir hv host tel cont wc win eng pu
    seats ports lanes sp seqLate slots links boot pwr wire freeCtr pending} (hc : host.cmds = s.host.cmds)
    (ht : tel.ctr = s.tel.ctr) :
    Steady z { part := s.part, live := live, set0 := set0, set1 := set1, tm := tm, cur := cur, core := core, sch := sch,
               arrivals := arrivals, pkts := pkts, outs := outs, idCtr := idCtr, ilulysReset := ir, hv := hv, host := host,
               tel := tel, cont := cont, wc := wc, win := win, eng := eng, pu := pu, seats := seats, ports := ports,
               lanes := lanes, sp := sp, seqLate := seqLate, slots := slots, links := links, boot := boot, pwr := pwr,
               wire := wire, freeCtr := freeCtr, pending := pending } ↔
      Steady z s := by
  refine ⟨fun ⟨h1, h2⟩ => ⟨?_, hc ▸ h2⟩, fun ⟨h1, h2⟩ => ⟨?_, ?_⟩⟩
  · simpa only [State.listsOnce, ht] using h1
  · simpa only [State.listsOnce, ht] using h1
  · simpa only [hc] using h2

/-! ### Counters listed once -/

theorem tinsert_perm {α : Type} (k : Nat) (v : α) : ∀ m : NMap α, (tinsert m k v).Perm ((k, v) :: m)
  | [] => .refl _
  | (j, w) :: m => by
    unfold tinsert
    split
    · exact .refl _
    · exact ((tinsert_perm k v m).cons (j, w)).trans (.swap _ _ _)

/-- A table written at a key lists no key twice that it did not. -/
theorem tset_once {α : Type} [DecidableEq α] (d : α) (m : NMap α) (k : Nat) (v : α) {i : Nat}
    (h : (m.filter fun x => x.1 == i).length ≤ 1) : ((tset d m k v).filter fun x => x.1 == i).length ≤ 1 := by
  have hrest : ((terase m k).filter fun x => x.1 == i).length ≤ 1 :=
    ((List.filter_sublist (l := m)).filter _).length_le.trans h
  unfold tset
  split
  · exact hrest
  · rw [((tinsert_perm k v (terase m k)).filter _).length_eq]
    by_cases hk : k = i
    · have hnone : ((terase m k).filter fun x => x.1 == i) = [] :=
        List.filter_eq_nil_iff.mpr fun e he => by simpa [← hk] using mem_terase_ne e he
      rw [List.filter_cons, hnone]
      split <;> simp
    · simpa [hk] using hrest

/-- Counters written one after another. -/
theorem foldl_once {α β : Type} {f : NMap α → β → NMap α} {i : Nat}
    (hf : ∀ m x, (m.filter fun e => e.1 == i).length ≤ 1 → ((f m x).filter fun e => e.1 == i).length ≤ 1) (l : List β) :
    ∀ {m : NMap α}, (m.filter fun e => e.1 == i).length ≤ 1 → ((l.foldl f m).filter fun e => e.1 == i).length ≤ 1 := by
  induction l with
  | nil => exact fun h => h
  | cons x l ih => exact fun h => ih (hf _ x h)

/-- An update of the telemetry state that lists no counter twice. -/
theorem Steady.modTel {z s : State} (h : Steady z s) (f : TelSt → TelSt)
    (hf : ∀ i, (s.tel.ctr.filter fun x => x.1 == i).length ≤ 1 → ((f s.tel).ctr.filter fun x => x.1 == i).length ≤ 1) :
    Steady z (s.modTel f) := h.trans ⟨hf, fun _ q => q⟩

/-! ### The operations -/

theorem State.each_steady {α : Type} {z : State} (s : State) (l : List α) (f : State → α → State) (h : Steady z s)
    (hf : ∀ t a, Steady z t → Steady z (f t a)) : Steady z (s.each l f) := by
  induction l generalizing s with
  | nil => exact h
  | cons a l ih => exact ih (f s a) (hf s a h)

theorem State.setLv_steady {z : State} (s : State) (o : Nat) (v : Word) (h : Steady z s) : Steady z (s.setLv o v) :=
  h.trans ⟨fun _ q => q, fun _ q => q⟩

theorem State.setConf_steady {z : State} (s : State) (e : Bool) (o : Nat) (v : Word) (h : Steady z s) :
    Steady z (s.setConf e o v) := by
  unfold State.setConf
  exact .ite (h.trans ⟨fun _ q => q, fun _ q => q⟩) (h.trans ⟨fun _ q => q, fun _ q => q⟩)

theorem State.modBoot_steady {z : State} (s : State) (f : BootSt → BootSt) (h : Steady z s) : Steady z (s.modBoot f) :=
  h.trans ⟨fun _ q => q, fun _ q => q⟩

theorem State.used_steady {z : State} (s : State) (h : Steady z s) : Steady z s.used := h.trans ⟨fun _ q => q, fun _ q => q⟩

theorem State.emit_steady {z : State} (s : State) (e : Emission) (h : Steady z s) : Steady z (s.emit e) :=
  h.trans ⟨fun _ q => q, fun _ q => q⟩

theorem State.addPkt_steady {z : State} (s : State) (p : Packet) (h : Steady z s) : Steady z (s.addPkt p) :=
  h.trans ⟨fun _ q => q, fun _ q => q⟩

theorem State.lkClean_steady {z : State} (s : State) (h : Steady z s) : Steady z s.lkClean :=
  h.trans ⟨fun _ q => q, fun _ q => q⟩

theorem State.modTel_steady {z : State} (s : State) (f : TelSt → TelSt) (hf : (f s.tel).ctr = s.tel.ctr) (h : Steady z s) :
    Steady z (s.modTel f) := h.modTel f fun _ q => by rwa [hf]

theorem State.bump_steady {z : State} (s : State) (space num k : Nat) (h : Steady z s) : Steady z (s.bump space num k) :=
  h.modTel (fun q => { q with
    ctr := tset {} q.ctr (ctrKey space num) ((s.ctr space num).add k)
    fresh := if space = 0 then s.freshNow ++ [{ key := num, time := s.tm.now, n := k, ovf := (s.ctr space num).ovf }] else q.fresh
    wraps := if (s.ctr space num).n + k < 2 ^ 48 then q.wraps else q.wraps ++ [(space, num)] })
    fun _ q => tset_once _ _ _ _ q

theorem State.blowsLost_steady {z : State} (s : State) (h : Steady z s) : Steady z s.blowsLost := by
  unfold State.blowsLost
  exact State.modBoot_steady _ _ (State.each_steady _ _ _ h fun _ _ ht => State.modBoot_steady _ _ (State.used_steady _ ht))

theorem State.setFld_steady {z : State} (s : State) (o hi lo n : Nat) (hk : Steady z s) :
    Steady z (State.setFld s o hi lo n) := by
  unfold State.setFld
  repeat' with_reducible first | assumption | apply State.setLv_steady

theorem State.setFlag_steady {z : State} (s : State) (o n : Nat) (b : Bool) (hk : Steady z s) :
    Steady z (State.setFlag s o n b) := by
  unfold State.setFlag
  repeat' with_reducible first | assumption | apply State.setLv_steady

theorem State.sticky_steady {z : State} (s : State) (o n : Nat) (hk : Steady z s) :
    Steady z (State.sticky s o n) := by
  unfold State.sticky
  repeat' with_reducible first | assumption | apply State.setFlag_steady

theorem State.plainWrite_steady {z : State} (s : State) (o : Nat) (v : Word) (hk : Steady z s) :
    Steady z (State.plainWrite s o v) := by
  unfold State.plainWrite
  dsimp only
  repeat' with_reducible first | assumption | apply State.setLv_steady | refine Steady.ite ?_ ?_ | split

theorem State.modPkt_steady {z : State} (s : State) (n : Nat) (f : Packet → Packet) (hk : Steady z s) :
    Steady z (State.modPkt s n f) := by
  unfold State.modPkt
  repeat' with_reducible first | assumption | refine Steady.ite ?_ ?_ | simp only [Steady.upd]

theorem State.dropPkt_steady {z : State} (s : State) (n : Nat) (hk : Steady z s) :
    Steady z (State.dropPkt s n) := by
  unfold State.dropPkt
  repeat' with_reducible first | assumption | refine Steady.ite ?_ ?_ | simp only [Steady.upd]

theorem State.modCore_steady {z : State} (s : State) (f : CoreSt → CoreSt) (hk : Steady z s) :
    Steady z (State.modCore s f) := by
  unfold State.modCore
  repeat' with_reducible first | assumption | refine Steady.ite ?_ ?_ | simp only [Steady.upd]

theorem State.lowSeen_steady {z : State} (s : State) (t n : Nat) (hk : Steady z s) :
    Steady z (State.lowSeen s t n) := by
  unfold State.lowSeen
  repeat' with_reducible first | assumption | apply State.sticky_steady | refine Steady.ite ?_ ?_

theorem State.takeCells_steady {z : State} (s : State) (p : Packet) (hk : Steady z s) :
    Steady z (State.takeCells s p) := by
  unfold State.takeCells
  dsimp only
  repeat' with_reducible first | assumption | apply State.modCore_steady | apply State.setFld_steady | refine Steady.ite ?_ ?_

theorem State.enter_steady {z : State} (s : State) (p : Packet) (hk : Steady z s) :
    Steady z (State.enter s p) := by
  unfold State.enter
  dsimp only
  repeat' with_reducible
    first
    | assumption | apply State.addPkt_steady | apply State.lowSeen_steady | apply State.takeCells_steady
    | refine Steady.ite ?_ ?_ | simp only [Steady.upd]

theorem State.freeCells_steady {z : State} (s : State) (p : Packet) (hk : Steady z s) :
    Steady z (State.freeCells s p) := by
  unfold State.freeCells
  dsimp only
  repeat' with_reducible first | assumption | apply State.modCore_steady | apply State.setFld_steady | refine Steady.ite ?_ ?_

theorem State.retire_steady {z : State} (s : State) (p : Packet) (hk : Steady z s) :
    Steady z (State.retire s p) := by
  unfold State.retire
  repeat' with_reducible
    first
    | assumption | apply State.modCore_steady | apply State.dropPkt_steady | apply State.freeCells_steady

theorem State.modVport_steady {z : State} (s : State) (p d : Nat) (f : VPort → VPort) (hk : Steady z s) :
    Steady z (State.modVport s p d f) := by
  unfold State.modVport
  dsimp only
  repeat' with_reducible first | assumption | refine Steady.ite ?_ ?_ | simp only [Steady.upd]

theorem State.logAer_steady {z : State} (s : State) (p d : Nat) (k : AerKind) (hk : Steady z s) :
    Steady z (State.logAer s p d k) := by
  unfold State.logAer
  repeat' with_reducible first | assumption | apply State.used_steady | apply State.modVport_steady

theorem State.modSeat_steady {z : State} (s : State) (seat : Nat) (f : SeatSt → SeatSt) (hk : Steady z s) :
    Steady z (State.modSeat s seat f) := by
  unfold State.modSeat
  repeat' with_reducible first | assumption | refine Steady.ite ?_ ?_ | simp only [Steady.upd]

theorem State.modRing_steady {z : State} (s : State) (r : Nat) (f : RingSt → RingSt) (hk : Steady z s) :
    Steady z (State.modRing s r f) := by
  unfold State.modRing
  dsimp only
  repeat' with_reducible first | assumption | refine Steady.ite ?_ ?_ | simp only [Steady.upd]

theorem State.countN_steady {z : State} (s : State) (t : Nat) (ev : TEv) (port seat : Option Nat) (k : Nat)
    (hk : Steady z s) :
    Steady z (State.countN s t ev port seat k) := by
  unfold State.countN
  dsimp only
  repeat' with_reducible
    first
    | assumption | apply State.sticky_steady | (refine State.each_steady _ _ _ ?_ fun t a ht => ?_)
    | apply State.bump_steady | refine Steady.ite ?_ ?_ | split

theorem State.count_steady {z : State} (s : State) (t : Nat) (ev : TEv) (port : Option Nat := none)
    (seat : Option Nat := none) (hk : Steady z s) :
    Steady z (State.count s t ev port seat) := by
  unfold State.count
  repeat' with_reducible first | assumption | apply State.countN_steady

theorem State.countHk_steady {z : State} (s : State) (idx : Nat) (hk : Steady z s) :
    Steady z (State.countHk s idx) := by
  unfold State.countHk
  repeat' with_reducible first | assumption | apply State.bump_steady

theorem State.modBo_steady {z : State} (s : State) (t : Nat) (seat : Option Nat) (f : Bo → Bo) (hk : Steady z s) :
    Steady z (State.modBo s t seat f) := by
  unfold State.modBo
  dsimp only
  repeat' with_reducible first | assumption | refine Steady.ite ?_ ?_ | simp only [Steady.upd] | split

theorem State.pushRec_steady {z : State} (s : State) (r seat : Nat) (b : List Byte) (hk : Steady z s) :
    Steady z (State.pushRec s r seat b) := by
  unfold State.pushRec
  dsimp only
  repeat' with_reducible first | assumption | apply State.modRing_steady | apply State.sticky_steady | refine Steady.ite ?_ ?_

theorem State.pushEv_steady {z : State} (s : State) (r : Nat) (b : List Byte) (hk : Steady z s) :
    Steady z (State.pushEv s r b) := by
  unfold State.pushEv
  repeat' with_reducible first | assumption | apply State.modRing_steady

theorem State.flushLost_steady {z : State} (s : State) (r owner tile : Nat) (hk : Steady z s) :
    Steady z (State.flushLost s r owner tile) := by
  unfold State.flushLost
  dsimp only
  repeat' with_reducible first | assumption | apply State.setFld_steady | apply State.pushEv_steady | refine Steady.ite ?_ ?_

theorem State.sendRecord_steady {z : State} (s : State) (dst tile : Nat) (b : List Byte) (hk : Steady z s) :
    Steady z (State.sendRecord s dst tile b) := by
  unfold State.sendRecord
  dsimp only
  repeat' with_reducible
    first
    | assumption | apply State.count_steady | apply State.flushLost_steady | apply State.pushEv_steady
    | apply State.setFld_steady | refine Steady.ite ?_ ?_ | split

theorem State.event_steady {z : State} (s : State) (dst type concerned tile : Nat) (body : List Byte) (hk : Steady z s) :
    Steady z (State.event s dst type concerned tile body) := by
  unfold State.event
  repeat' with_reducible first | assumption | apply State.sendRecord_steady

theorem State.eventMgr_steady {z : State} (s : State) (type tile : Nat) (body : List Byte) (hk : Steady z s) :
    Steady z (State.eventMgr s type tile body) := by
  unfold State.eventMgr
  dsimp only
  repeat' with_reducible first | assumption | apply State.event_steady | refine Steady.ite ?_ ?_ | simp only [Steady.upd]

theorem State.modPort_steady {z : State} (s : State) (port : Nat) (f : PortSt → PortSt) (hk : Steady z s) :
    Steady z (State.modPort s port f) := by
  unfold State.modPort
  repeat' with_reducible first | assumption | refine Steady.ite ?_ ?_ | simp only [Steady.upd]

theorem State.modLink_steady {z : State} (s : State) (l : Link) (f : LinkSt → LinkSt) (hk : Steady z s) :
    Steady z (State.modLink s l f) := by
  unfold State.modLink
  repeat' with_reducible first | assumption | refine Steady.ite ?_ ?_ | simp only [Steady.upd]

theorem State.modTm_steady {z : State} (s : State) (f : TimeSt → TimeSt) (hk : Steady z s) :
    Steady z (State.modTm s f) := by
  unfold State.modTm
  repeat' with_reducible first | assumption | refine Steady.ite ?_ ?_ | simp only [Steady.upd]

theorem State.shiftSlaves_steady {z : State} (s : State) (d : Int) (hk : Steady z s) :
    Steady z (State.shiftSlaves s d) := by
  unfold State.shiftSlaves
  repeat' with_reducible first | assumption | apply State.modTm_steady

theorem State.moveFt_steady {z : State} (s : State) (v : Nat) (hk : Steady z s) :
    Steady z (State.moveFt s v) := by
  unfold State.moveFt
  dsimp only
  repeat' with_reducible
    first
    | assumption | apply State.shiftSlaves_steady | apply State.sticky_steady | apply State.modTm_steady

theorem State.lockIfDue_steady {z : State} (s : State) (hk : Steady z s) :
    Steady z (State.lockIfDue s) := by
  unfold State.lockIfDue
  repeat' with_reducible first | assumption | apply State.setFlag_steady | refine Steady.ite ?_ ?_

theorem State.applyTod_steady {z : State} (s : State) (v : Nat) (hk : Steady z s) :
    Steady z (State.applyTod s v) := by
  unfold State.applyTod
  repeat' with_reducible
    first
    | assumption | apply State.lockIfDue_steady | apply State.setFlag_steady | apply State.modTm_steady
    | apply State.moveFt_steady

theorem State.todLoadAct_steady {z : State} (s : State) (hk : Steady z s) :
    Steady z (State.todLoadAct s) := by
  unfold State.todLoadAct
  dsimp only
  repeat' with_reducible first | assumption | apply State.applyTod_steady | apply State.modTm_steady | refine Steady.ite ?_ ?_

theorem State.tmFields_steady {z : State} (s : State) (v : Word) (hk : Steady z s) :
    Steady z (State.tmFields s v) := by
  unfold State.tmFields
  repeat' with_reducible first | assumption | apply State.plainWrite_steady

theorem ftSnap_steady {z : State} (s : State) (hk : Steady z s) :
    Steady z (ftSnap s) := by
  unfold ftSnap
  repeat' with_reducible first | assumption | apply State.modTm_steady | apply State.setFlag_steady | refine Steady.ite ?_ ?_

theorem State.modCur_steady {z : State} (s : State) (f : CurtainSt → CurtainSt) (hk : Steady z s) :
    Steady z (State.modCur s f) := by
  unfold State.modCur
  repeat' with_reducible first | assumption | refine Steady.ite ?_ ?_ | simp only [Steady.upd]

theorem State.setCurtain_steady {z : State} (s : State) (n : Nat) (hk : Steady z s) :
    Steady z (State.setCurtain s n) := by
  unfold State.setCurtain
  repeat' with_reducible first | assumption | apply State.setFld_steady

theorem State.setWrite_steady {z : State} (s : State) (o : Nat) (v : Word) (hk : Steady z s) :
    Steady z (State.setWrite s o v) := by
  unfold State.setWrite
  dsimp only
  repeat' with_reducible
    first
    | assumption | apply State.sticky_steady | apply State.setFld_steady | apply State.lkClean_steady
    | apply State.setConf_steady | refine Steady.ite ?_ ?_

theorem understudyRead_steady {z : State} (v : Word) (s : State) (hk : Steady z s) :
    Steady z (understudyRead v s) := by
  unfold understudyRead
  repeat' with_reducible first | assumption | apply State.modCur_steady | apply State.setLv_steady | refine Steady.ite ?_ ?_

theorem State.checkAct_steady {z : State} (s : State) (hk : Steady z s) :
    Steady z (State.checkAct s) := by
  unfold State.checkAct
  repeat' with_reducible first | assumption | apply State.setFld_steady | refine Steady.ite ?_ ?_

theorem State.armAct_steady {z : State} (s : State) (hk : Steady z s) :
    Steady z (State.armAct s) := by
  unfold State.armAct
  repeat' with_reducible
    first
    | assumption | apply State.modCur_steady | apply State.setCurtain_steady | apply State.sticky_steady
    | apply State.setFld_steady | refine Steady.ite ?_ ?_ | split

theorem State.commitIfReady_steady {z : State} (s : State) (hk : Steady z s) :
    Steady z (State.commitIfReady s) := by
  unfold State.commitIfReady
  repeat' with_reducible first | assumption | apply State.modCur_steady | refine Steady.ite ?_ ?_

theorem State.armedIfReady_steady {z : State} (s : State) (hk : Steady z s) :
    Steady z (State.armedIfReady s) := by
  unfold State.armedIfReady
  repeat' with_reducible first | assumption | apply State.setCurtain_steady | refine Steady.ite ?_ ?_

theorem State.dropCurtain_steady {z : State} (s : State) (hk : Steady z s) :
    Steady z (State.dropCurtain s) := by
  unfold State.dropCurtain
  repeat' with_reducible
    first
    | assumption | (refine State.each_steady _ _ _ ?_ fun t a ht => ?_) | apply State.setFlag_steady

theorem State.abortCurtain_steady {z : State} (s : State) (hk : Steady z s) :
    Steady z (State.abortCurtain s) := by
  unfold State.abortCurtain
  dsimp only
  repeat' with_reducible
    first
    | assumption | apply State.sticky_steady | apply State.setCurtain_steady | apply State.dropCurtain_steady
    | apply State.modCur_steady

theorem State.abortAct_steady {z : State} (s : State) (hk : Steady z s) :
    Steady z (State.abortAct s) := by
  unfold State.abortAct
  repeat' with_reducible
    first
    | assumption | apply State.sticky_steady | apply State.abortCurtain_steady | refine Steady.ite ?_ ?_

theorem State.retireIfDrained_steady {z : State} (s : State) (hk : Steady z s) :
    Steady z (State.retireIfDrained s) := by
  unfold State.retireIfDrained
  repeat' with_reducible first | assumption | apply State.modCur_steady | apply State.setLv_steady | refine Steady.ite ?_ ?_

theorem State.modCap_steady {z : State} (s : State) (t c : Nat) (f : CapSt → CapSt) (hk : Steady z s) :
    Steady z (State.modCap s t c f) := by
  unfold State.modCap
  dsimp only
  repeat' with_reducible first | assumption | refine Steady.ite ?_ ?_ | simp only [Steady.upd]

theorem State.capOne_steady {z : State} (s : State) (t c point : Nat) (p : Packet) (port : Option Nat) (hk : Steady z s) :
    Steady z (State.capOne s t c point p port) := by
  unfold State.capOne
  dsimp only
  repeat' with_reducible
    first
    | assumption | apply State.modCap_steady | apply State.count_steady | apply State.used_steady | refine Steady.ite ?_ ?_

theorem State.capture_steady {z : State} (s : State) (t point : Nat) (p : Packet) (port : Option Nat) (hk : Steady z s) :
    Steady z (State.capture s t point p port) := by
  unfold State.capture
  repeat' with_reducible
    first
    | assumption | (refine State.each_steady _ _ _ ?_ fun t a ht => ?_) | apply State.capOne_steady
    | refine Steady.ite ?_ ?_

theorem State.collectorLost_steady {z : State} (s : State) (hk : Steady z s) :
    Steady z (State.collectorLost s) := by
  unfold State.collectorLost
  dsimp only
  repeat' with_reducible first | assumption | refine Steady.ite ?_ ?_ | simp only [Steady.upd]

theorem State.modSch_steady {z : State} (s : State) (f : SchedSt → SchedSt) (hk : Steady z s) :
    Steady z (State.modSch s f) := by
  unfold State.modSch
  repeat' with_reducible first | assumption | refine Steady.ite ?_ ?_ | simp only [Steady.upd]

theorem State.debit_steady {z : State} (s : State) (k n : Nat) (hk : Steady z s) :
    Steady z (State.debit s k n) := by
  unfold State.debit
  repeat' with_reducible first | assumption | apply State.modSch_steady

theorem State.colour_steady' {z : State} (s : State) (e : Bool) (t m len : Nat) (hk : Steady z s) :
    Steady z (State.colour s e t m len).1 := by
  unfold State.colour
  dsimp only
  repeat' with_reducible first | assumption | apply State.debit_steady | refine Steady.ite ?_ ?_ | refine Steady.ite_fst ?_ ?_

theorem State.colour_steady {z s' : State} (s : State) (e : Bool) (t m len : Nat) {x' : ℕ} (hk : Steady z s)
    (he' : State.colour s e t m len = (s', x')) : Steady z s' := by
  have q := State.colour_steady' s e t m len hk
  rwa [he'] at q

theorem State.setWithheld_steady {z : State} (s : State) (t seat : Nat) (hk : Steady z s) :
    Steady z (State.setWithheld s t seat) := by
  unfold State.setWithheld
  dsimp only
  repeat' with_reducible
    first
    | assumption | apply State.modSch_steady | apply State.sticky_steady | apply State.count_steady
    | refine Steady.ite ?_ ?_

theorem State.countColour_steady {z : State} (s : State) (t : Nat) (seat : Option Nat) (c len : Nat) (hk : Steady z s) :
    Steady z (State.countColour s t seat c len) := by
  unfold State.countColour
  repeat' with_reducible first | assumption | apply State.modBo_steady

theorem State.ingress_steady {z : State} (s : State) (p : Packet) (hk : Steady z s) :
    Steady z (State.ingress s p) := by
  unfold State.ingress
  dsimp only
  repeat' with_reducible
    first
    | assumption | apply State.capture_steady | apply State.enter_steady | apply State.countColour_steady
    | refine State.colour_steady (hk := ?_) (he' := by assumption) | apply State.colour_steady'
    | apply State.setWithheld_steady | refine Steady.ite ?_ ?_ | split

theorem State.ringFail_steady {z : State} (s : State) (r cause : Nat) (hk : Steady z s) :
    Steady z (State.ringFail s r cause) := by
  unfold State.ringFail
  dsimp only
  repeat' with_reducible
    first
    | assumption | apply State.sticky_steady | apply State.modRing_steady | apply State.event_steady
    | refine Steady.ite ?_ ?_ | split

theorem State.form_steady {z : State} (s : State) (f : Forming) (cls : PClass) (b : Body) (hk : Steady z s) :
    Steady z (State.form s f cls b) := by
  unfold State.form
  repeat' with_reducible first | assumption | apply State.ingress_steady

theorem State.dropOwn_steady {z : State} (s : State) (t : Nat) (port seat : Option Nat) (n : Nat) (hk : Steady z s) :
    Steady z (State.dropOwn s t port seat n) := by
  unfold State.dropOwn
  repeat' with_reducible first | assumption | apply State.modBo_steady | apply State.count_steady

theorem State.hostWriteAs_steady {z : State} (s : State) (svc : Nat) (e : Bool) (t p : Nat) (seat : Option Nat)
    (mgmt : Bool) (pasid : Option Nat) (pu : Purpose) (addr : Nat) (data : List Byte) (hk : Steady z s) :
    Steady z (State.hostWriteAs s svc e t p seat mgmt pasid pu addr data) := by
  unfold State.hostWriteAs
  dsimp only
  repeat' with_reducible
    first
    | assumption | apply State.dropOwn_steady | (refine State.each_steady _ _ _ ?_ fun t a ht => ?_)
    | apply State.form_steady | refine Steady.ite ?_ ?_

theorem State.hostWrite_steady {z : State} (s : State) (e : Bool) (t p : Nat) (seat : Option Nat) (mgmt : Bool)
    (pasid : Option Nat) (pu : Purpose) (addr : Nat) (data : List Byte) (hk : Steady z s) :
    Steady z (State.hostWrite s e t p seat mgmt pasid pu addr data) := by
  unfold State.hostWrite
  repeat' with_reducible first | assumption | apply State.hostWriteAs_steady

theorem State.hostRead_steady {z : State} (s : State) (e : Bool) (t p : Nat) (seat : Option Nat) (mgmt : Bool)
    (pasid : Option Nat) (pu : Purpose) (addr len : Nat) (hk : Steady z s) :
    Steady z (State.hostRead s e t p seat mgmt pasid pu addr len) := by
  unfold State.hostRead
  repeat' with_reducible first | assumption | (refine State.each_steady _ _ _ ?_ fun t a ht => ?_) | apply State.form_steady

theorem State.replyBy_steady {z : State} (s : State) (t : Nat) (e mgmt : Bool) (o : Origin) (cid rid tag tc : Nat)
    (st : CplStatus) (data : List Byte) (addr : Addr := 0) (last : Bool := true) (attr : Bool × Bool := (false, false)) (hk : Steady z s) :
    Steady z (State.replyBy s t e mgmt o cid rid tag tc st data addr last attr) := by
  unfold State.replyBy
  repeat' with_reducible
    first
    | assumption | apply State.count_steady | apply State.form_steady | refine Steady.ite ?_ ?_ | split

theorem State.reply_steady {z : State} (s : State) (t : Nat) (e mgmt : Bool) (o : Origin) (rid tag tc : Nat)
    (st : CplStatus) (data : List Byte) (hk : Steady z s) :
    Steady z (State.reply s t e mgmt o rid tag tc st data) := by
  unfold State.reply
  repeat' with_reducible first | assumption | apply State.replyBy_steady

theorem State.replyUr_steady {z : State} (s : State) (t : Nat) (e mgmt : Bool) (o : Origin) (rid tag tc : Nat)
    (port : Option Nat) (attr : Bool × Bool) (hk : Steady z s) :
    Steady z (State.replyUr s t e mgmt o rid tag tc port attr) := by
  unfold State.replyUr
  repeat' with_reducible first | assumption | apply State.replyBy_steady

theorem State.synthUr_steady {z : State} (s : State) (t : Nat) (e mgmt : Bool) (o : Origin) (rid tag tc : Nat)
    (port : Option Nat := none) (attr : Bool × Bool := (false, false)) (hk : Steady z s) :
    Steady z (State.synthUr s t e mgmt o rid tag tc port attr) := by
  unfold State.synthUr
  repeat' with_reducible first | assumption | apply State.replyUr_steady | apply State.count_steady

theorem State.modWc_steady {z : State} (s : State) (f : WcSt → WcSt) (hk : Steady z s) :
    Steady z (State.modWc s f) := by
  unfold State.modWc
  repeat' with_reducible first | assumption | refine Steady.ite ?_ ?_ | simp only [Steady.upd]

theorem State.syncLines_steady {z : State} (s : State) (t : Nat) (hk : Steady z s) :
    Steady z (State.syncLines s t) := by
  unfold State.syncLines
  repeat' with_reducible first | assumption | apply State.setFld_steady

theorem State.tallyDrop_steady {z : State} (s : State) (t seat code len : Nat) (hk : Steady z s) :
    Steady z (State.tallyDrop s t seat code len) := by
  unfold State.tallyDrop
  repeat' with_reducible first | assumption | apply State.modBo_steady | apply State.modWc_steady

theorem State.tallyIds_steady {z : State} (s : State) (t seat code : Nat) (xs ids : List Nat) (hk : Steady z s) :
    Steady z (State.tallyIds s t seat code xs ids) := by
  unfold State.tallyIds
  repeat' with_reducible first | assumption | apply State.modWc_steady

theorem State.tallyStores_steady {z : State} (s : State) (t seat code : Nat) (xs ids : List Nat) (len : Nat)
    (hk : Steady z s) :
    Steady z (State.tallyStores s t seat code xs ids len) := by
  unfold State.tallyStores
  repeat' with_reducible first | assumption | apply State.modBo_steady | apply State.tallyIds_steady

theorem State.noteStream_steady {z : State} (s : State) (t seat dest x a : Nat) (hk : Steady z s) :
    Steady z (State.noteStream s t seat dest x a) := by
  unfold State.noteStream
  dsimp only
  repeat' with_reducible first | assumption | apply State.modWc_steady

theorem State.forgetStreams_steady {z : State} (s : State) (t seat n : Nat) (hk : Steady z s) :
    Steady z (State.forgetStreams s t seat n) := by
  unfold State.forgetStreams
  dsimp only
  repeat' with_reducible first | assumption | apply State.modWc_steady

theorem State.apWrite_steady {z : State} (s : State) (e : Bool) (t x seat a : Nat) (data : List Byte) (be : List Bool)
    (ids : List Nat) (hk : Steady z s) :
    Steady z (State.apWrite s e t x seat a data be ids) := by
  unfold State.apWrite
  dsimp only
  repeat' with_reducible
    first
    | assumption | apply State.count_steady | apply State.tallyStores_steady | apply State.sticky_steady
    | apply State.noteStream_steady | apply State.form_steady | refine Steady.ite ?_ ?_ | split

theorem State.lineDone_steady {z : State} (s : State) (n : Nat) (ids : List Nat) (hk : Steady z s) :
    Steady z (State.lineDone s n ids) := by
  unfold State.lineDone
  repeat' with_reducible first | assumption | apply State.modWc_steady | refine Steady.ite ?_ ?_

theorem State.formLine_steady {z : State} (s : State) (l : WcLine) (hk : Steady z s) :
    Steady z (State.formLine s l) := by
  unfold State.formLine
  dsimp only
  repeat' with_reducible
    first
    | assumption | (refine State.each_steady _ _ _ ?_ fun t a ht => ?_) | apply State.apWrite_steady
    | apply State.syncLines_steady | apply State.lineDone_steady | refine Steady.ite ?_ ?_ | simp only [Steady.upd]

theorem State.formDue_steady {z : State} (s : State) (t seat : Nat) (hk : Steady z s) :
    Steady z (State.formDue s t seat) := by
  unfold State.formDue
  repeat' with_reducible
    first
    | assumption | (refine State.each_steady _ _ _ ?_ fun t a ht => ?_) | apply State.formLine_steady
    | refine Steady.ite ?_ ?_

theorem State.sendLine_steady {z : State} (s : State) (l : WcLine) (hk : Steady z s) :
    Steady z (State.sendLine s l) := by
  unfold State.sendLine
  dsimp only
  repeat' with_reducible
    first
    | assumption | apply State.modWc_steady | apply State.formDue_steady | refine Steady.ite ?_ ?_ | simp only [Steady.upd]

theorem State.lineAdmit_steady {z : State} (s : State) (t n : Nat) (hk : Steady z s) :
    Steady z (State.lineAdmit s t n) := by
  unfold State.lineAdmit
  repeat' with_reducible first | assumption | apply State.syncLines_steady | apply State.modWc_steady

theorem State.flushLines_steady {z : State} (s : State) (t : Nat) (pick : WcLine → Bool) (hk : Steady z s) :
    Steady z (State.flushLines s t pick) := by
  unfold State.flushLines
  dsimp only
  repeat' with_reducible
    first
    | assumption | (refine State.each_steady _ _ _ ?_ fun t a ht => ?_) | apply State.sendLine_steady

theorem State.discardLines_steady {z : State} (s : State) (t : Nat) (pick : Nat → Bool → Bool) (code : Nat)
    (hk : Steady z s) :
    Steady z (State.discardLines s t pick code) := by
  unfold State.discardLines
  dsimp only
  repeat' with_reducible
    first
    | assumption | (refine State.each_steady _ _ _ ?_ fun t a ht => ?_) | apply State.tallyStores_steady
    | apply State.count_steady | apply State.syncLines_steady | apply State.modWc_steady

theorem State.contain_steady {z : State} (s : State) (t x : Nat) (hk : Steady z s) :
    Steady z (State.contain s t x) := by
  unfold State.contain
  dsimp only
  repeat' with_reducible
    first
    | assumption | apply State.flushLines_steady | apply State.count_steady | apply State.modWc_steady
    | refine Steady.ite ?_ ?_

theorem State.completeFence_steady {z : State} (s : State) (f : Fence) (hk : Steady z s) :
    Steady z (State.completeFence s f) := by
  unfold State.completeFence
  dsimp only
  repeat' with_reducible
    first
    | assumption | apply State.modWc_steady | (refine State.each_steady _ _ _ ?_ fun t a ht => ?_)
    | apply State.forgetStreams_steady | apply State.contain_steady | apply State.sticky_steady | apply State.reply_steady
    | refine Steady.ite ?_ ?_

theorem State.completeFences_steady {z : State} (s : State) (t seat : Nat) (hk : Steady z s) :
    Steady z (State.completeFences s t seat) := by
  unfold State.completeFences
  dsimp only
  repeat' with_reducible
    first
    | assumption | (refine State.each_steady _ _ _ ?_ fun t a ht => ?_) | apply State.completeFence_steady

theorem State.takeTally_steady' {z : State} (s : State) (t seat : Nat) (hk : Steady z s) :
    Steady z (State.takeTally s t seat).1 := by
  unfold State.takeTally
  dsimp only
  repeat' with_reducible first | assumption | apply State.modWc_steady

theorem State.takeTally_steady {z s' : State} (s : State) (t seat : Nat) {x' : Tally} (hk : Steady z s)
    (he' : State.takeTally s t seat = (s', x')) : Steady z s' := by
  have q := State.takeTally_steady' s t seat hk
  rwa [he'] at q

theorem State.flushRead_steady {z : State} (s : State) (e : Bool) (t seat fence : Nat) (q : ApStream) (hk : Steady z s) :
    Steady z (State.flushRead s e t seat fence q) := by
  unfold State.flushRead
  dsimp only
  repeat' with_reducible first | assumption | apply State.form_steady

theorem State.flushDone_steady {z : State} (s : State) (t fence stream : Nat) (ok : Bool) (code : Option Nat)
    (atTarget : Bool := true) (hk : Steady z s) :
    Steady z (State.flushDone s t fence stream ok code atTarget) := by
  unfold State.flushDone
  dsimp only
  repeat' with_reducible
    first
    | assumption | apply State.completeFences_steady | apply State.modWc_steady | refine Steady.ite ?_ ?_ | simp only [id]
    | split

theorem State.modWin_steady {z : State} (s : State) (f : WinSt → WinSt) (hk : Steady z s) :
    Steady z (State.modWin s f) := by
  unfold State.modWin
  repeat' with_reducible first | assumption | refine Steady.ite ?_ ?_ | simp only [Steady.upd]

theorem State.modEng_steady {z : State} (s : State) (f : EngSt → EngSt) (hk : Steady z s) :
    Steady z (State.modEng s f) := by
  unfold State.modEng
  repeat' with_reducible first | assumption | refine Steady.ite ?_ ?_ | simp only [Steady.upd]

theorem State.modWindow_steady {z : State} (s : State) (i : Nat) (f : WinEnt → WinEnt) (hk : Steady z s) :
    Steady z (State.modWindow s i f) := by
  unfold State.modWindow
  repeat' with_reducible first | assumption | apply State.modWin_steady

theorem State.modQp_steady {z : State} (s : State) (n : Nat) (f : Qp → Qp) (hk : Steady z s) :
    Steady z (State.modQp s n f) := by
  unfold State.modQp
  repeat' with_reducible first | assumption | apply State.modEng_steady

theorem State.modWr_steady {z : State} (s : State) (id : Nat) (f : Wr → Wr) (hk : Steady z s) :
    Steady z (State.modWr s id f) := by
  unfold State.modWr
  repeat' with_reducible first | assumption | apply State.modEng_steady

theorem State.advTrig_steady {z : State} (s : State) (n k : Nat) (hk : Steady z s) :
    Steady z (State.advTrig s n k) := by
  unfold State.advTrig
  repeat' with_reducible first | assumption | apply State.modQp_steady

theorem State.reapOne_steady {z : State} (s : State) (w : Wr) (hk : Steady z s) :
    Steady z (State.reapOne s w) := by
  unfold State.reapOne
  dsimp only
  repeat' with_reducible
    first
    | assumption | apply State.modEng_steady | apply State.pushRec_steady | apply State.advTrig_steady
    | refine Steady.ite ?_ ?_ | simp only [id] | split

theorem State.reap_steady {z : State} (s : State) (hk : Steady z s) :
    Steady z (State.reap s) := by
  unfold State.reap
  repeat' with_reducible
    first
    | assumption | (refine State.each_steady _ _ _ ?_ fun t a ht => ?_) | apply State.reapOne_steady
    | refine Steady.ite ?_ ?_ | simp only [id] | split

theorem State.finishWr_steady {z : State} (s : State) (id code : Nat) (hk : Steady z s) :
    Steady z (State.finishWr s id code) := by
  unfold State.finishWr
  dsimp only
  repeat' with_reducible
    first
    | assumption | apply State.modWr_steady | apply State.reap_steady | apply State.modEng_steady | refine Steady.ite ?_ ?_
    | simp only [id] | split

theorem State.sendEng_steady' {z : State} (s : State) (t sw home seat : Nat) (ordered : Bool) (h : EngHdr)
    (data : List Byte) (hk : Steady z s) :
    Steady z (State.sendEng s t sw home seat ordered h data).1 := by
  unfold State.sendEng
  repeat' with_reducible
    first
    | assumption | apply State.count_steady | apply State.form_steady | refine Steady.ite ?_ ?_
    | refine Steady.ite_fst ?_ ?_ | split

theorem State.sendEng_steady {z s' : State} (s : State) (t sw home seat : Nat) (ordered : Bool) (h : EngHdr)
    (data : List Byte) {x' : Bool} (hk : Steady z s)
    (he' : State.sendEng s t sw home seat ordered h data = (s', x')) : Steady z s' := by
  have q := State.sendEng_steady' s t sw home seat ordered h data hk
  rwa [he'] at q

theorem State.sendWr_steady {z : State} (s : State) (w : Wr) (sw home : Nat) (h : EngHdr) (data : List Byte)
    (hk : Steady z s) :
    Steady z (State.sendWr s w sw home h data) := by
  unfold State.sendWr
  dsimp only
  repeat' with_reducible
    first
    | assumption | refine State.sendEng_steady ?_ (by assumption) | apply State.sendEng_steady' | apply State.modBo_steady
    | apply State.modWr_steady | refine Steady.ite ?_ ?_

theorem State.answer_steady {z : State} (s : State) (t : Nat) (h : EngHdr) (mtype code : Nat) (data : List Byte)
    (hk : Steady z s) :
    Steady z (State.answer s t h mtype code data) := by
  unfold State.answer
  repeat' with_reducible first | assumption | refine State.sendEng_steady ?_ (by assumption) | apply State.sendEng_steady'

theorem State.settleWr_steady {z : State} (s : State) (id : Nat) (hk : Steady z s) :
    Steady z (State.settleWr s id) := by
  unfold State.settleWr
  dsimp only
  repeat' with_reducible
    first
    | assumption | apply State.sendWr_steady | apply State.modWr_steady | apply State.finishWr_steady
    | refine Steady.ite ?_ ?_ | simp only [id] | split

theorem State.wrAnswer_steady {z : State} (s : State) (id code : Nat) (hk : Steady z s) :
    Steady z (State.wrAnswer s id code) := by
  unfold State.wrAnswer
  repeat' with_reducible first | assumption | apply State.settleWr_steady | apply State.modWr_steady

theorem State.answered_steady {z : State} (s : State) (t : Nat) (h : EngHdr) (code : Nat) (hk : Steady z s) :
    Steady z (State.answered s t h code) := by
  unfold State.answered
  repeat' with_reducible
    first
    | assumption | apply State.wrAnswer_steady | apply State.count_steady | refine Steady.ite ?_ ?_ | simp only [id] | split

theorem State.endEng_steady {z : State} (s : State) (t : Nat) (h : EngHdr) (toHere : Bool) (code : Nat) (hk : Steady z s) :
    Steady z (State.endEng s t h toHere code) := by
  unfold State.endEng
  repeat' with_reducible
    first
    | assumption | apply State.answered_steady | apply State.answer_steady | refine Steady.ite ?_ ?_

theorem State.setCached_steady {z : State} (s : State) (isWin : Bool) (t : Nat) (l : List Nat) (hk : Steady z s) :
    Steady z (State.setCached s isWin t l) := by
  unfold State.setCached
  repeat' with_reducible first | assumption | apply State.modWin_steady | apply State.modEng_steady | refine Steady.ite ?_ ?_

theorem State.tableWrite_steady {z : State} (s : State) (isWin : Bool) (t k : Nat) (hk : Steady z s) :
    Steady z (State.tableWrite s isWin t k) := by
  unfold State.tableWrite
  repeat' with_reducible
    first
    | assumption | apply State.hostWrite_steady | apply State.used_steady | refine Steady.ite ?_ ?_ | split

theorem State.cacheIn_steady {z s' : State} {s : State} {isWin : Bool} {t k : Nat} (hk : Steady z s)
    (he' : s.cacheIn isWin t k = some s') : Steady z s' := by
  have q : ∀ l, Steady z (s.setCached isWin t l) := fun l => State.setCached_steady _ _ _ _ hk
  unfold State.cacheIn at he'
  dsimp only at he'
  generalize (if isWin = true then 16384 else 6144) = lim at he'
  split at he'
  · injection he' with he'; exact he' ▸ q _
  · split at he'
    · injection he' with he'; exact he' ▸ q _
    · obtain ⟨v, -, rfl⟩ := Option.map_eq_some_iff.mp he'
      exact State.setCached_steady _ _ _ _ (.ite hk (State.tableWrite_steady _ _ _ _ hk))

theorem State.cacheInD_steady {z : State} (s : State) (isWin : Bool) (t k : Nat) (d : State) (hk : Steady z s)
    (hd : Steady z d) : Steady z ((s.cacheIn isWin t k).getD d) := by
  cases h : s.cacheIn isWin t k with
  | none => exact hd
  | some s' => exact State.cacheIn_steady hk h

theorem State.winDec_steady {z : State} (s : State) (i : Nat) (hk : Steady z s) :
    Steady z (State.winDec s i) := by
  unfold State.winDec
  repeat' with_reducible first | assumption | apply State.modWindow_steady

theorem State.recvReap_steady {z : State} (s : State) (t n : Nat) (x' : Nat) (hk : Steady z s) :
    Steady z (State.recvReap s t n x') := by
  induction x' generalizing s t n with
  | zero => exact hk
  | succ x' ih =>
    unfold State.recvReap
    try dsimp only
    repeat' with_reducible
      first
      | assumption | apply ih | apply State.pushRec_steady | apply State.modQp_steady | refine Steady.ite ?_ ?_ | split

theorem State.recvEnd_steady {z : State} (s : State) (t n ssn code : Nat) (hk : Steady z s) :
    Steady z (State.recvEnd s t n ssn code) := by
  unfold State.recvEnd
  repeat' with_reducible first | assumption | apply State.recvReap_steady | apply State.modQp_steady

theorem State.recvPlaced_steady {z : State} (s : State) (t : Nat) (h : EngHdr) (n code : Nat) (hk : Steady z s) :
    Steady z (State.recvPlaced s t h n code) := by
  unfold State.recvPlaced
  dsimp only
  repeat' with_reducible
    first
    | assumption | apply State.recvEnd_steady | apply State.modQp_steady | refine Steady.ite ?_ ?_ | split

theorem State.noteWrite_steady {z : State} (s : State) (k : Issue) (hk : Steady z s) :
    Steady z (State.noteWrite s k) := by
  unfold State.noteWrite
  dsimp only
  repeat' with_reducible first | assumption | apply State.modEng_steady | refine Steady.ite ?_ ?_ | split

theorem State.shown_steady {z : State} (s : State) (key : Nat) (hk : Steady z s) :
    Steady z (State.shown s key) := by
  unfold State.shown
  repeat' with_reducible first | assumption | apply State.modEng_steady

theorem State.issued_steady {z : State} (s : State) (id code : Nat) (hk : Steady z s) :
    Steady z (State.issued s id code) := by
  unfold State.issued
  dsimp only
  repeat' with_reducible
    first
    | assumption | apply State.modEng_steady | apply State.noteWrite_steady | apply State.winDec_steady
    | apply State.recvPlaced_steady | apply State.answer_steady | refine Steady.ite ?_ ?_ | simp only [id] | split

theorem State.dmaEnd_steady {z : State} (s : State) (id code : Nat) (hk : Steady z s) :
    Steady z (State.dmaEnd s id code) := by
  unfold State.dmaEnd
  dsimp only
  repeat' with_reducible
    first
    | assumption | apply State.settleWr_steady | apply State.modWr_steady | apply State.issued_steady
    | refine Steady.ite ?_ ?_ | simp only [Steady.upd] | simp only [id] | split

theorem State.countDrop_steady {z : State} (s : State) (t : Nat) (port seat : Option Nat) (len : Nat) (c : EndCause)
    (hk : Steady z s) :
    Steady z (State.countDrop s t port seat len c) := by
  unfold State.countDrop
  dsimp only
  repeat' with_reducible
    first
    | assumption | apply State.count_steady | apply State.modBo_steady | refine Steady.ite ?_ ?_ | split

theorem State.countLost_steady {z : State} (s : State) (t : Nat) (port : Option Nat) (c : EndCause) (hk : Steady z s) :
    Steady z (State.countLost s t port c) := by
  unfold State.countLost
  repeat' with_reducible first | assumption | apply State.count_steady | refine Steady.ite ?_ ?_

theorem State.endRequest_steady {z : State} (s : State) (t : Nat) (epoch mgmt : Bool) (o : Origin) (pu : Purpose)
    (rid tag tc len : Nat) (code : Nat) (port : Option Nat) (attr : Bool × Bool) (hk : Steady z s) :
    Steady z (State.endRequest s t epoch mgmt o pu rid tag tc len code port attr) := by
  unfold State.endRequest
  repeat' with_reducible
    first
    | assumption | apply State.synthUr_steady | apply State.reply_steady | apply State.count_steady
    | apply State.flushDone_steady | apply State.dmaEnd_steady | apply State.issued_steady | apply State.ringFail_steady
    | apply State.shown_steady | refine Steady.ite ?_ ?_ | simp only [id] | split

theorem State.settle_steady {z : State} (s : State) (p : Packet) (cls : Nat) (hk : Steady z s) :
    Steady z (State.settle s p cls) := by
  unfold State.settle
  repeat' with_reducible first | assumption | (refine State.each_steady _ _ _ ?_ fun t a ht => ?_) | apply State.bump_steady

theorem State.apEnded_steady {z : State} (s : State) (p : Packet) (x : Nat) (ids : List Nat) (c : EndCause)
    (hk : Steady z s) :
    Steady z (State.apEnded s p x ids c) := by
  unfold State.apEnded
  repeat' with_reducible first | assumption | apply State.lineAdmit_steady | apply State.tallyIds_steady

theorem State.endPacket_steady {z : State} (s : State) (p : Packet) (c : EndCause) (hk : Steady z s) :
    Steady z (State.endPacket s p c) := by
  unfold State.endPacket
  dsimp only
  repeat' with_reducible
    first
    | assumption | apply State.retire_steady | apply State.settle_steady | apply State.countDrop_steady
    | apply State.issued_steady | apply State.apEnded_steady | apply State.countLost_steady | apply State.flushDone_steady
    | apply State.count_steady | apply State.endRequest_steady | apply State.endEng_steady | refine Steady.ite ?_ ?_
    | simp only [id] | split

theorem State.dropPointer_steady {z : State} (s : State) (p : Packet) (port : Nat) (c : EndCause) (hk : Steady z s) :
    Steady z (State.dropPointer s p port c) := by
  unfold State.dropPointer
  repeat' with_reducible
    first
    | assumption | apply State.endPacket_steady | apply State.countDrop_steady | apply State.modPkt_steady
    | refine Steady.ite ?_ ?_

theorem State.endToPort_steady {z : State} (s : State) (port : Nat) (c : EndCause) (hk : Steady z s) :
    Steady z (State.endToPort s port c) := by
  unfold State.endToPort
  repeat' with_reducible
    first
    | assumption | (refine State.each_steady _ _ _ ?_ fun t a ht => ?_) | apply State.dropPointer_steady
    | refine Steady.ite ?_ ?_ | simp only [id] | split

theorem State.releaseOut_steady {z : State} (s : State) (o : OutEntry) (code : Nat) (hk : Steady z s) :
    Steady z (State.releaseOut s o code) := by
  unfold State.releaseOut
  dsimp only
  repeat' with_reducible first | assumption | apply State.endRequest_steady | refine Steady.ite ?_ ?_ | simp only [Steady.upd]

theorem State.releasePort_steady {z : State} (s : State) (port code : Nat) (hk : Steady z s) :
    Steady z (State.releasePort s port code) := by
  unfold State.releasePort
  repeat' with_reducible
    first
    | assumption | (refine State.each_steady _ _ _ ?_ fun t a ht => ?_) | apply State.releaseOut_steady

theorem State.puReport_steady {z : State} (s : State) (t seat : Nat) (v : PuViol) (hk : Steady z s) :
    Steady z (State.puReport s t seat v) := by
  unfold State.puReport
  dsimp only
  repeat' with_reducible first | assumption | apply State.event_steady | refine Steady.ite ?_ ?_

theorem State.setViol_steady {z : State} (s : State) (key : Nat) (v : Option PuViol) (hk : Steady z s) :
    Steady z (State.setViol s key v) := by
  unfold State.setViol
  dsimp only
  repeat' with_reducible first | assumption | refine Steady.ite ?_ ?_ | simp only [Steady.upd]

theorem State.puFault_steady {z : State} (s : State) (t seat space : Nat) (k : PuKind) (cause rule a len : Nat)
    (hk : Steady z s) :
    Steady z (State.puFault s t seat space k cause rule a len) := by
  unfold State.puFault
  dsimp only
  repeat' with_reducible
    first
    | assumption | apply State.sticky_steady | apply State.count_steady | apply State.setViol_steady
    | apply State.puReport_steady | refine Steady.ite ?_ ?_ | split

theorem State.puCheck_steady {z s' : State} {s : State} {t seat space a len : Nat} {kinds : List PuKind} (hk : Steady z s)
    (he' : s.puCheck t seat space a len kinds = some s') : Steady z s' := by
  obtain ⟨k, -, h⟩ := List.exists_of_findSome?_eq_some he'
  obtain ⟨c, -, rfl⟩ := Option.map_eq_some_iff.mp h
  exact State.puFault_steady _ _ _ _ _ _ _ _ _ hk

theorem State.puCheckB_steady {z s' : State} {s : State} {t seat space a : Nat} {o : Option (Nat × List PuKind)}
    (hk : Steady z s) (he' : (o.bind fun r => s.puCheck t seat space a r.1 r.2) = some s') : Steady z s' := by
  obtain ⟨r, -, h⟩ := Option.bind_eq_some_iff.mp he'
  exact State.puCheck_steady hk h

theorem State.puCheckI_steady {z s' : State} {s : State} {t seat space a len : Nat} {kinds : List PuKind} {b : Prop}
    [Decidable b] (hk : Steady z s) (he' : (if b then s.puCheck t seat space a len kinds else none) = some s') :
    Steady z s' := by
  split at he'
  · exact State.puCheck_steady hk he'
  · simp at he'

theorem State.winInitAct_steady {z : State} (s : State) (hk : Steady z s) :
    Steady z (State.winInitAct s) := by
  unfold State.winInitAct
  repeat' with_reducible first | assumption | apply State.sticky_steady | apply State.setFlag_steady | refine Steady.ite ?_ ?_

theorem windowTableInit_steady {z : State} (v : Word) (s : State) (hk : Steady z s) :
    Steady z (windowTableInit v s) := by
  unfold windowTableInit
  dsimp only
  repeat' with_reducible
    first
    | assumption | apply State.sticky_steady | apply State.plainWrite_steady | apply State.winInitAct_steady
    | refine Steady.ite ?_ ?_

theorem State.winTake_steady {z : State} (s : State) (t : Nat) (hk : Steady z s) :
    Steady z (State.winTake s t) := by
  unfold State.winTake
  repeat' with_reducible first | assumption | apply State.modWin_steady

theorem State.winOpen_steady' {z : State} (s : State) (t seat : Nat) (d : Desc) (hk : Steady z s) :
    Steady z (State.winOpen s t seat d).1 := by
  unfold State.winOpen
  dsimp only
  repeat' with_reducible
    first
    | assumption | refine State.puCheckB_steady ?_ (by assumption) | refine State.puCheckI_steady ?_ (by assumption)
    | refine State.puCheck_steady ?_ (by assumption) | apply State.modWindow_steady | apply State.winTake_steady
    | apply State.tableWrite_steady | apply State.cacheInD_steady | refine State.cacheIn_steady ?_ (by assumption)
    | refine Steady.ite ?_ ?_ | refine Steady.ite_fst ?_ ?_ | split

theorem State.winOpen_steady {z s' : State} (s : State) (t seat : Nat) (d : Desc) {x' : ℕ × ℕ} (hk : Steady z s)
    (he' : State.winOpen s t seat d = (s', x')) : Steady z s' := by
  have q := State.winOpen_steady' s t seat d hk
  rwa [he'] at q

theorem State.revokeWin_steady {z : State} (s : State) (i : Nat) (wr seat : Option Nat) (hk : Steady z s) :
    Steady z (State.revokeWin s i wr seat) := by
  unfold State.revokeWin
  repeat' with_reducible
    first
    | assumption | apply State.modWin_steady | apply State.tableWrite_steady | apply State.modWindow_steady

theorem State.dmaStart_steady {z : State} (s : State) (t part seat : Nat) (pasid : Option Nat) (wr issue : Option Nat)
    (addr len : Nat) (hk : Steady z s) :
    Steady z (State.dmaStart s t part seat pasid wr issue addr len) := by
  unfold State.dmaStart
  dsimp only
  repeat' with_reducible
    first
    | assumption | apply State.hostRead_steady | apply State.dmaEnd_steady | refine Steady.ite ?_ ?_
    | simp only [Steady.upd]

theorem State.askOne_steady {z : State} (s : State) (k : QpWrite) (hk : Steady z s) :
    Steady z (State.askOne s k) := by
  unfold State.askOne
  dsimp only
  repeat' with_reducible
    first
    | assumption | apply State.form_steady | apply State.shown_steady | refine Steady.ite ?_ ?_ | simp only [Steady.upd]

theorem State.askShown_steady {z : State} (s : State) (w : Wr) (hk : Steady z s) :
    Steady z (State.askShown s w) := by
  unfold State.askShown
  repeat' with_reducible
    first
    | assumption | (refine State.each_steady _ _ _ ?_ fun t a ht => ?_) | apply State.askOne_steady
    | refine Steady.ite ?_ ?_

theorem State.gatherWr_steady {z : State} (s : State) (w : Wr) (len : Nat) (hk : Steady z s) :
    Steady z (State.gatherWr s w len) := by
  unfold State.gatherWr
  dsimp only
  repeat' with_reducible first | assumption | apply State.dmaStart_steady | apply State.modWr_steady

theorem State.startNop_steady {z : State} (s : State) (w : Wr) (hk : Steady z s) :
    Steady z (State.startNop s w) := by
  unfold State.startNop
  repeat' with_reducible first | assumption | apply State.finishWr_steady

theorem State.startWrite_steady {z : State} (s : State) (w : Wr) (hk : Steady z s) :
    Steady z (State.startWrite s w) := by
  unfold State.startWrite
  repeat' with_reducible
    first
    | assumption | apply State.settleWr_steady | apply State.gatherWr_steady | refine Steady.ite ?_ ?_

theorem State.startRead_steady {z : State} (s : State) (w : Wr) (hk : Steady z s) :
    Steady z (State.startRead s w) := by
  unfold State.startRead
  dsimp only
  repeat' with_reducible
    first
    | assumption | (refine State.each_steady _ _ _ ?_ fun t a ht => ?_) | apply State.sendWr_steady
    | apply State.settleWr_steady

theorem State.startSend_steady {z : State} (s : State) (w : Wr) (hk : Steady z s) :
    Steady z (State.startSend s w) := by
  unfold State.startSend
  dsimp only
  repeat' with_reducible
    first
    | assumption | apply State.modWr_steady | apply State.modQp_steady | apply State.settleWr_steady
    | apply State.sendWr_steady | apply State.gatherWr_steady | refine Steady.ite ?_ ?_

theorem State.startRecvPost_steady {z : State} (s : State) (w : Wr) (hk : Steady z s) :
    Steady z (State.startRecvPost s w) := by
  unfold State.startRecvPost
  repeat' with_reducible first | assumption | apply State.finishWr_steady | apply State.modQp_steady

theorem State.startAtomic_steady {z : State} (s : State) (w : Wr) (hk : Steady z s) :
    Steady z (State.startAtomic s w) := by
  unfold State.startAtomic
  repeat' with_reducible first | assumption | apply State.gatherWr_steady

theorem State.startFence_steady {z : State} (s : State) (w : Wr) (hk : Steady z s) :
    Steady z (State.startFence s w) := by
  unfold State.startFence
  repeat' with_reducible first | assumption | apply State.finishWr_steady

theorem State.startCountAdd_steady {z : State} (s : State) (w : Wr) (hk : Steady z s) :
    Steady z (State.startCountAdd s w) := by
  unfold State.startCountAdd
  repeat' with_reducible first | assumption | apply State.finishWr_steady | apply State.advTrig_steady

theorem State.startWinOpen_steady {z : State} (s : State) (w : Wr) (hk : Steady z s) :
    Steady z (State.startWinOpen s w) := by
  unfold State.startWinOpen
  dsimp only
  repeat' with_reducible
    first
    | assumption | refine State.winOpen_steady ?_ (by assumption) | apply State.winOpen_steady'
    | apply State.finishWr_steady | apply State.modWr_steady

theorem State.startWinRevoke_steady {z : State} (s : State) (w : Wr) (hk : Steady z s) :
    Steady z (State.startWinRevoke s w) := by
  unfold State.startWinRevoke
  dsimp only
  repeat' with_reducible
    first
    | assumption | apply State.finishWr_steady | apply State.revokeWin_steady | refine Steady.ite ?_ ?_

theorem State.startQpCreate_steady {z : State} (s : State) (w : Wr) (hk : Steady z s) :
    Steady z (State.startQpCreate s w) := by
  unfold State.startQpCreate
  dsimp only
  repeat' with_reducible
    first
    | assumption | apply State.finishWr_steady | apply State.modQp_steady | refine Steady.ite ?_ ?_ | simp only [id] | split

theorem State.squashHeld_steady {z : State} (s : State) (n code : Nat) (hk : Steady z s) :
    Steady z (State.squashHeld s n code) := by
  unfold State.squashHeld
  repeat' with_reducible
    first
    | assumption | (refine State.each_steady _ _ _ ?_ fun t a ht => ?_) | apply State.finishWr_steady

theorem State.startQpDestroy_steady {z : State} (s : State) (w : Wr) (hk : Steady z s) :
    Steady z (State.startQpDestroy s w) := by
  unfold State.startQpDestroy
  repeat' with_reducible first | assumption | apply State.squashHeld_steady | apply State.modQp_steady

theorem State.startWr_steady {z : State} (s : State) (w : Wr) (hk : Steady z s) :
    Steady z (State.startWr s w) := by
  unfold State.startWr
  dsimp only
  repeat' with_reducible
    first
    | assumption | apply State.used_steady | apply State.modWr_steady | apply State.startNop_steady
    | apply State.startWrite_steady | apply State.startRead_steady | apply State.startSend_steady
    | apply State.startRecvPost_steady | apply State.startAtomic_steady | apply State.startFence_steady
    | apply State.startCountAdd_steady | apply State.startWinOpen_steady | apply State.startWinRevoke_steady
    | apply State.startQpCreate_steady | apply State.startQpDestroy_steady | refine Steady.ite ?_ ?_

theorem State.addWr_steady {z : State} (s : State) (w : Wr) (hk : Steady z s) :
    Steady z (State.addWr s w) := by
  unfold State.addWr
  dsimp only
  repeat' with_reducible first | assumption | refine Steady.ite ?_ ?_ | simp only [Steady.upd]

theorem State.failDesc_steady {z : State} (s : State) (t seat ring : Nat) (d : Desc) (c : Option CtxInit) (code : Nat)
    (hk : Steady z s) :
    Steady z (State.failDesc s t seat ring d c code) := by
  unfold State.failDesc
  repeat' with_reducible first | assumption | apply State.reap_steady | apply State.addWr_steady

theorem State.pauseRing_steady {z : State} (s : State) (ring : Nat) (hk : Steady z s) :
    Steady z (State.pauseRing s ring) := by
  unfold State.pauseRing
  repeat' with_reducible first | assumption | apply State.modRing_steady

theorem State.puHold_steady {z : State} (s : State) (t seat : Nat) (it : HeldItem) (hk : Steady z s) :
    Steady z (State.puHold s t seat it) := by
  unfold State.puHold
  dsimp only
  repeat' with_reducible first | assumption | refine Steady.ite ?_ ?_ | simp only [Steady.upd]

theorem State.enginePass_steady' {z : State} (s : State) (t seat ring : Nat) (d : Desc) (c : Option CtxInit)
    (hk : Steady z s) :
    Steady z (State.enginePass s t seat ring d c).1 := by
  unfold State.enginePass
  dsimp only
  repeat' with_reducible
    first
    | assumption | refine State.puCheckB_steady ?_ (by assumption) | refine State.puCheckI_steady ?_ (by assumption)
    | refine State.puCheck_steady ?_ (by assumption) | apply State.failDesc_steady | apply State.addWr_steady
    | apply State.startWr_steady | apply State.pauseRing_steady | apply State.sticky_steady | apply State.askShown_steady
    | refine Steady.ite ?_ ?_ | refine Steady.ite_fst ?_ ?_ | split

theorem State.enginePass_steady {z s' : State} (s : State) (t seat ring : Nat) (d : Desc)
    (c : Option CtxInit) {x' : Bool} (hk : Steady z s)
    (he' : State.enginePass s t seat ring d c = (s', x')) : Steady z s' := by
  have q := State.enginePass_steady' s t seat ring d c hk
  rwa [he'] at q

theorem State.engineAccept_steady' {z : State} (s : State) (t seat ring : Nat) (d : Desc) (c : Option CtxInit)
    (hk : Steady z s) :
    Steady z (State.engineAccept s t seat ring d c).1 := by
  unfold State.engineAccept
  dsimp only
  repeat' with_reducible
    first
    | assumption | apply State.failDesc_steady | apply State.puHold_steady | apply State.pauseRing_steady
    | refine State.enginePass_steady ?_ (by assumption) | apply State.enginePass_steady' | refine Steady.ite ?_ ?_
    | refine Steady.ite_fst ?_ ?_ | split

theorem State.engineAccept_steady {z s' : State} (s : State) (t seat ring : Nat) (d : Desc)
    (c : Option CtxInit) {x' : Bool} (hk : Steady z s)
    (he' : State.engineAccept s t seat ring d c = (s', x')) : Steady z s' := by
  have q := State.engineAccept_steady' s t seat ring d c hk
  rwa [he'] at q

theorem qpTableInit_steady {z : State} (v : Word) (s : State) (hk : Steady z s) :
    Steady z (qpTableInit v s) := by
  unfold qpTableInit
  dsimp only
  repeat' with_reducible
    first
    | assumption | apply State.sticky_steady | apply State.plainWrite_steady | apply State.setFlag_steady
    | refine Steady.ite ?_ ?_

theorem State.bar4Data_steady {z : State} (s : State) (e : Bool) (p : Nat) (who : Requester) (r : Req) (data : List Byte)
    (hk : Steady z s) :
    Steady z (State.bar4Data s e p who r data) := by
  unfold State.bar4Data
  repeat' with_reducible first | assumption | apply State.reply_steady

theorem State.bar4Ur_steady {z : State} (s : State) (e : Bool) (p : Nat) (who : Requester) (r : Req) (hk : Steady z s) :
    Steady z (State.bar4Ur s e p who r) := by
  unfold State.bar4Ur
  repeat' with_reducible first | assumption | apply State.reply_steady

theorem State.apUnmapped_steady {z : State} (s : State) (e : Bool) (p : Nat) (who : Requester) (seat : Option Nat)
    (r : Req) (hk : Steady z s) :
    Steady z (State.apUnmapped s e p who seat r) := by
  unfold State.apUnmapped
  dsimp only
  repeat' with_reducible
    first
    | assumption | apply State.logAer_steady | apply State.count_steady | apply State.bar4Ur_steady
    | apply State.modBo_steady | refine Steady.ite ?_ ?_

theorem State.makeRoom_steady {z : State} (s : State) (t : Nat) (hk : Steady z s) :
    Steady z (State.makeRoom s t) := by
  unfold State.makeRoom
  dsimp only
  repeat' with_reducible
    first
    | assumption | apply State.sticky_steady | apply State.sendLine_steady | refine Steady.ite ?_ ?_ | split

theorem State.putPiece_steady {z : State} (s : State) (k : WcPiece) (l : WcLine) (new : Bool) (hk : Steady z s) :
    Steady z (State.putPiece s k l new) := by
  unfold State.putPiece
  dsimp only
  repeat' with_reducible
    first
    | assumption | apply State.modWc_steady | apply State.syncLines_steady | apply State.sendLine_steady
    | refine Steady.ite ?_ ?_ | simp only [Steady.upd]

theorem State.mergePiece_steady {z : State} (s : State) (k : WcPiece) (hk : Steady z s) :
    Steady z (State.mergePiece s k) := by
  unfold State.mergePiece
  dsimp only
  repeat' with_reducible
    first
    | assumption | apply State.modWc_steady | apply State.flushLines_steady | apply State.putPiece_steady
    | apply State.makeRoom_steady | refine Steady.ite ?_ ?_ | simp only [id] | split

theorem State.wcStore_steady {z : State} (s : State) (e : Bool) (t seat x a : Nat) (r : Req) (hk : Steady z s) :
    Steady z (State.wcStore s e t seat x a r) := by
  unfold State.wcStore
  dsimp only
  repeat' with_reducible
    first
    | assumption | (refine State.each_steady _ _ _ ?_ fun t a ht => ?_) | apply State.mergePiece_steady
    | refine Steady.ite ?_ ?_ | simp only [Steady.upd]

theorem State.apRead_steady {z : State} (s : State) (e : Bool) (p : Nat) (who : Requester) (seat x a : Nat) (r : Req)
    (hk : Steady z s) :
    Steady z (State.apRead s e p who seat x a r) := by
  unfold State.apRead
  dsimp only
  repeat' with_reducible
    first
    | assumption | apply State.count_steady | apply State.bar4Data_steady | apply State.form_steady
    | refine Steady.ite ?_ ?_ | split

theorem State.apAccess_steady {z : State} (s : State) (e : Bool) (p : Nat) (who : Requester) (seat x o : Nat) (r : Req)
    (hk : Steady z s) :
    Steady z (State.apAccess s e p who seat x o r) := by
  unfold State.apAccess
  dsimp only
  repeat' with_reducible
    first
    | assumption | apply State.modBo_steady | apply State.flushLines_steady | apply State.count_steady
    | apply State.bar4Data_steady | apply State.tallyDrop_steady | apply State.sticky_steady | apply State.apRead_steady
    | apply State.apWrite_steady | apply State.wcStore_steady | refine Steady.ite ?_ ?_ | simp only [Steady.upd]

theorem State.apStopped_steady {z : State} (s : State) (e : Bool) (p : Nat) (who : Requester) (seat code : Nat) (r : Req)
    (hk : Steady z s) :
    Steady z (State.apStopped s e p who seat code r) := by
  unfold State.apStopped
  dsimp only
  repeat' with_reducible
    first
    | assumption | apply State.bar4Data_steady | apply State.tallyDrop_steady | apply State.count_steady
    | refine Steady.ite ?_ ?_

theorem State.bar4Fault_steady {z : State} (s : State) (e : Bool) (p : Nat) (who : Requester) (seat k cause rule o : Nat)
    (r : Req) (hk : Steady z s) :
    Steady z (State.bar4Fault s e p who seat k cause rule o r) := by
  unfold State.bar4Fault
  dsimp only
  repeat' with_reducible
    first
    | assumption | apply State.puFault_steady | apply State.bar4Data_steady | apply State.modBo_steady
    | refine Steady.ite ?_ ?_

theorem State.bar4Checked_steady {z : State} (s : State) (e : Bool) (p : Nat) (who : Requester) (seat : Nat) (r : Req)
    (hk : Steady z s) :
    Steady z (State.bar4Checked s e p who seat r) := by
  unfold State.bar4Checked
  dsimp only
  repeat' with_reducible
    first
    | assumption | apply State.apUnmapped_steady | apply State.apStopped_steady | apply State.bar4Fault_steady
    | apply State.apAccess_steady | refine Steady.ite ?_ ?_ | split

theorem State.addFence_steady {z : State} (s : State) (e : Bool) (p : Nat) (who : Requester) (seat : Nat) (r : Req)
    (reads : List ApStream) (y : Tally) (hk : Steady z s) :
    Steady z (State.addFence s e p who seat r reads y) := by
  unfold State.addFence
  dsimp only
  repeat' with_reducible first | assumption | refine Steady.ite ?_ ?_ | simp only [Steady.upd]

theorem State.fenceAccept_steady {z : State} (s : State) (e : Bool) (p : Nat) (who : Requester) (seat : Nat) (r : Req)
    (hk : Steady z s) :
    Steady z (State.fenceAccept s e p who seat r) := by
  unfold State.fenceAccept
  dsimp only
  repeat' with_reducible
    first
    | assumption | apply State.flushLines_steady | refine State.takeTally_steady (hk := ?_) (he' := by assumption)
    | apply State.takeTally_steady' | apply State.completeFences_steady
    | (refine State.each_steady _ _ _ ?_ fun t a ht => ?_) | apply State.addFence_steady | apply State.flushRead_steady

theorem State.heldGo_steady {z : State} (s : State) (h : HeldAcc) (hk : Steady z s) :
    Steady z (State.heldGo s h) := by
  unfold State.heldGo
  repeat' with_reducible
    first
    | assumption | apply State.bar4Checked_steady | apply State.fenceAccept_steady
    | refine State.engineAccept_steady (hk := ?_) (he' := by assumption) | apply State.engineAccept_steady'
    | apply State.puHold_steady | refine Steady.ite ?_ ?_ | split

theorem State.releaseHeld_steady {z : State} (s : State) (t seat : Nat) (hk : Steady z s) :
    Steady z (State.releaseHeld s t seat) := by
  unfold State.releaseHeld
  dsimp only
  repeat' with_reducible
    first
    | assumption | (refine State.each_steady _ _ _ ?_ fun t a ht => ?_) | apply State.heldGo_steady
    | refine Steady.ite ?_ ?_ | simp only [Steady.upd]

theorem State.apContAct_steady {z : State} (s : State) (agent t : Nat) (v : Word) (hk : Steady z s) :
    Steady z (State.apContAct s agent t v) := by
  unfold State.apContAct
  dsimp only
  repeat' with_reducible
    first
    | assumption | apply State.setLv_steady | apply State.modWc_steady | apply State.contain_steady
    | refine Steady.ite ?_ ?_

theorem State.puCtrlWrite_steady {z : State} (s : State) (t seat : Nat) (v : Word) (hk : Steady z s) :
    Steady z (State.puCtrlWrite s t seat v) := by
  unfold State.puCtrlWrite
  dsimp only
  repeat' with_reducible
    first
    | assumption | apply State.plainWrite_steady | apply State.releaseHeld_steady | apply State.setFlag_steady
    | refine Steady.ite ?_ ?_

theorem State.puEditAct_steady {z : State} (s : State) (agent t : Nat) (v : Word) (hk : Steady z s) :
    Steady z (State.puEditAct s agent t v) := by
  unfold State.puEditAct
  dsimp only
  repeat' with_reducible
    first
    | assumption | apply State.setLv_steady | (refine State.each_steady _ _ _ ?_ fun t a ht => ?_)
    | apply State.setConf_steady | apply State.setFld_steady | refine Steady.ite ?_ ?_

theorem State.modSlot_steady {z : State} (s : State) (port : Nat) (f : SlotSt → SlotSt) (hk : Steady z s) :
    Steady z (State.modSlot s port f) := by
  unfold State.modSlot
  repeat' with_reducible first | assumption | refine Steady.ite ?_ ?_ | simp only [Steady.upd]

theorem State.setHops_steady {z : State} (s : State) (t port : Nat) (live : Bool) (hk : Steady z s) :
    Steady z (State.setHops s t port live) := by
  unfold State.setHops
  dsimp only
  repeat' with_reducible
    first
    | assumption | (refine State.each_steady _ _ _ ?_ fun t a ht => ?_) | apply State.sticky_steady
    | apply State.setFlag_steady | refine Steady.ite ?_ ?_

theorem State.dllsc_steady {z : State} (s : State) (port : Nat) (hk : Steady z s) :
    Steady z (State.dllsc s port) := by
  unfold State.dllsc
  repeat' with_reducible
    first
    | assumption | (refine State.each_steady _ _ _ ?_ fun t a ht => ?_) | apply State.modVport_steady

theorem State.ownerAer_steady {z : State} (s : State) (port : Nat) (k : AerKind) (hk : Steady z s) :
    Steady z (State.ownerAer s port k) := by
  unfold State.ownerAer
  dsimp only
  repeat' with_reducible first | assumption | apply State.logAer_steady | refine Steady.ite ?_ ?_ | split

theorem State.endSent_steady {z : State} (s : State) (p : Packet) (port : Nat) (c : EndCause) (hk : Steady z s) :
    Steady z (State.endSent s p port c) := by
  unfold State.endSent
  repeat' with_reducible
    first
    | assumption | apply State.countDrop_steady | apply State.countLost_steady | apply State.endEng_steady
    | refine Steady.ite ?_ ?_ | split

theorem State.modLane_steady {z : State} (s : State) (l : Nat) (f : LaneSt → LaneSt) (hk : Steady z s) :
    Steady z (State.modLane s l f) := by
  unfold State.modLane
  repeat' with_reducible first | assumption | refine Steady.ite ?_ ?_ | simp only [Steady.upd]

theorem State.setEi_steady {z : State} (s : State) (ls : List Nat) (hk : Steady z s) :
    Steady z (State.setEi s ls) := by
  unfold State.setEi
  repeat' with_reducible
    first
    | assumption | (refine State.each_steady _ _ _ ?_ fun t a ht => ?_) | apply State.setFlag_steady

theorem State.lanesDown_steady {z : State} (s : State) (port : Nat) (hk : Steady z s) :
    Steady z (State.lanesDown s port) := by
  unfold State.lanesDown
  repeat' with_reducible
    first
    | assumption | (refine State.each_steady _ _ _ ?_ fun t a ht => ?_) | apply State.setFlag_steady
    | apply State.setFld_steady

theorem State.setPins_steady' {z : State} (s : State) (p pin : Nat) (l : List Nat) (hk : Steady z s) :
    Steady z (State.setPins s p pin l).1 := by
  unfold State.setPins
  dsimp only
  repeat' with_reducible first | assumption | refine Steady.ite ?_ ?_ | refine Steady.ite_fst ?_ ?_ | simp only [Steady.upd]

theorem State.setPins_steady {z s' : State} (s : State) (p pin : Nat) (l : List Nat) {x' : Bool} (hk : Steady z s)
    (he' : State.setPins s p pin l = (s', x')) : Steady z s' := by
  have q := State.setPins_steady' s p pin l hk
  rwa [he'] at q

theorem State.pinsDown_steady {z : State} (s : State) (port : Nat) (hk : Steady z s) :
    Steady z (State.pinsDown s port) := by
  unfold State.pinsDown
  dsimp only
  repeat' with_reducible
    first
    | assumption | (refine State.each_steady _ _ _ ?_ fun t a ht => ?_) | refine State.setPins_steady ?_ (by assumption)
    | apply State.setPins_steady' | apply State.form_steady | refine Steady.ite ?_ ?_

theorem State.clearStatus_steady {z : State} (s : State) (port : Nat) (hk : Steady z s) :
    Steady z (State.clearStatus s port) := by
  unfold State.clearStatus
  repeat' with_reducible first | assumption | apply State.sticky_steady | apply State.setFld_steady

theorem State.pcieDown_steady {z : State} (s : State) (port : Nat) (c : EndCause) (hk : Steady z s) :
    Steady z (State.pcieDown s port c) := by
  unfold State.pcieDown
  dsimp only
  repeat' with_reducible
    first
    | assumption | apply State.count_steady | apply State.clearStatus_steady | apply State.releasePort_steady
    | apply State.endToPort_steady | apply State.pinsDown_steady | apply State.lanesDown_steady | apply State.modPort_steady
    | apply State.modSlot_steady | apply State.dllsc_steady | apply State.ownerAer_steady | refine Steady.ite ?_ ?_

theorem State.vflDown_steady {z : State} (s : State) (port : Nat) (c : EndCause) (hk : Steady z s) :
    Steady z (State.vflDown s port c) := by
  unfold State.vflDown
  dsimp only
  repeat' with_reducible
    first
    | assumption | apply State.count_steady | apply State.clearStatus_steady | apply State.endToPort_steady
    | (refine State.each_steady _ _ _ ?_ fun t a ht => ?_) | apply State.endSent_steady | apply State.releasePort_steady
    | apply State.lanesDown_steady | apply State.modPort_steady | apply State.modLink_steady | apply State.setFld_steady
    | apply State.sticky_steady | apply State.setFlag_steady | apply State.setHops_steady | refine Steady.ite ?_ ?_

theorem State.linkDown_steady {z : State} (s : State) (port : Nat) (c : EndCause) (hk : Steady z s) :
    Steady z (State.linkDown s port c) := by
  unfold State.linkDown
  repeat' with_reducible
    first
    | assumption | apply State.vflDown_steady | apply State.pcieDown_steady | refine Steady.ite ?_ ?_

theorem State.endResident_steady {z : State} (s : State) (t : Nat) (pick : Packet → Bool) (c : EndCause) (hk : Steady z s) :
    Steady z (State.endResident s t pick c) := by
  unfold State.endResident
  repeat' with_reducible
    first
    | assumption | (refine State.each_steady _ _ _ ?_ fun t a ht => ?_) | apply State.endPacket_steady
    | refine Steady.ite ?_ ?_ | simp only [id] | split

theorem State.endWork_steady {z : State} (s : State) (t seat code : Nat) (started : Bool) (hk : Steady z s) :
    Steady z (State.endWork s t seat code started) := by
  unfold State.endWork
  repeat' with_reducible
    first
    | assumption | (refine State.each_steady _ _ _ ?_ fun t a ht => ?_) | apply State.finishWr_steady

theorem State.seatDark_steady {z : State} (s : State) (t seat : Nat) (hk : Steady z s) :
    Steady z (State.seatDark s t seat) := by
  unfold State.seatDark
  dsimp only
  repeat' with_reducible
    first
    | assumption | apply State.endResident_steady | apply State.discardLines_steady | apply State.releaseHeld_steady
    | apply State.endWork_steady

theorem State.partDark_steady {z : State} (s : State) (t p : Nat) (hk : Steady z s) :
    Steady z (State.partDark s t p) := by
  unfold State.partDark
  dsimp only
  repeat' with_reducible
    first
    | assumption | (refine State.each_steady _ _ _ ?_ fun t a ht => ?_) | apply State.dropPointer_steady
    | apply State.endResident_steady | apply State.seatDark_steady | refine Steady.ite ?_ ?_ | simp only [id] | split

theorem State.portDark_steady {z : State} (s : State) (t port : Nat) (hk : Steady z s) :
    Steady z (State.portDark s t port) := by
  unfold State.portDark
  repeat' with_reducible
    first
    | assumption | (refine State.each_steady _ _ _ ?_ fun t a ht => ?_) | apply State.dropPointer_steady
    | refine Steady.ite ?_ ?_ | simp only [id] | split

theorem State.darkRecords_steady {z : State} (s : State) (kind num : Nat) (enter : Bool) (cause acc tile : Nat)
    (hk : Steady z s) :
    Steady z (State.darkRecords s kind num enter cause acc tile) := by
  unfold State.darkRecords
  dsimp only
  repeat' with_reducible first | assumption | (refine State.each_steady _ _ _ ?_ fun t a ht => ?_) | apply State.event_steady

theorem State.upstreamHold_steady {z : State} (s : State) (port : Nat) (hk : Steady z s) :
    Steady z (State.upstreamHold s port) := by
  unfold State.upstreamHold
  dsimp only
  repeat' with_reducible
    first
    | assumption | (refine State.each_steady _ _ _ ?_ fun t a ht => ?_) | apply State.partDark_steady
    | apply State.count_steady | apply State.darkRecords_steady | refine Steady.ite ?_ ?_ | simp only [Steady.upd] | split

theorem State.upstreamFree_steady {z : State} (s : State) (port : Nat) (hk : Steady z s) :
    Steady z (State.upstreamFree s port) := by
  unfold State.upstreamFree
  dsimp only
  repeat' with_reducible
    first
    | assumption | apply State.darkRecords_steady | refine Steady.ite ?_ ?_ | simp only [Steady.upd] | split

theorem State.portDown_steady {z : State} (s : State) (port : Nat) (c : EndCause) (hk : Steady z s) :
    Steady z (State.portDown s port c) := by
  unfold State.portDown
  repeat' with_reducible first | assumption | apply State.upstreamHold_steady | apply State.linkDown_steady

theorem State.showDpc_steady {z : State} (s : State) (port reason ext : Nat) (hk : Steady z s) :
    Steady z (State.showDpc s port reason ext) := by
  unfold State.showDpc
  dsimp only
  repeat' with_reducible
    first
    | assumption | apply State.modVport_steady | refine Steady.ite ?_ ?_ | simp only [Steady.upd] | split

theorem State.portEnter_steady {z : State} (s : State) (port reason ext : Nat) (hk : Steady z s) :
    Steady z (State.portEnter s port reason ext) := by
  unfold State.portEnter
  dsimp only
  repeat' with_reducible
    first
    | assumption | apply State.portDown_steady | apply State.count_steady | apply State.showDpc_steady
    | refine Steady.ite ?_ ?_

theorem State.goDark_steady {z : State} (s : State) (t kind num : Nat) (hk : Steady z s) :
    Steady z (State.goDark s t kind num) := by
  unfold State.goDark
  repeat' with_reducible
    first
    | assumption | apply State.portDark_steady | apply State.portEnter_steady | apply State.partDark_steady
    | apply State.count_steady | apply State.seatDark_steady | refine Steady.ite ?_ ?_

theorem State.applyStop_steady {z : State} (s : State) (t : Nat) (m : StopMsg) (hk : Steady z s) :
    Steady z (State.applyStop s t m) := by
  unfold State.applyStop
  dsimp only
  repeat' with_reducible
    first
    | assumption | apply State.goDark_steady | apply State.upstreamFree_steady | refine Steady.ite ?_ ?_
    | simp only [Steady.upd]

theorem State.stopHolds_steady {z : State} (s : State) (m : StopMsg) (hk : Steady z s) :
    Steady z (State.stopHolds s m) := by
  unfold State.stopHolds
  dsimp only
  repeat' with_reducible
    first
    | assumption | apply State.darkRecords_steady | refine Steady.ite ?_ ?_ | simp only [Steady.upd]

theorem State.stopAt_steady {z : State} (s : State) (t : Nat) (m : StopMsg) (hk : Steady z s) :
    Steady z (State.stopAt s t m) := by
  unfold State.stopAt
  dsimp only
  repeat' with_reducible
    first
    | assumption | apply State.applyStop_steady | apply State.stopHolds_steady | refine Steady.ite ?_ ?_
    | simp only [Steady.upd]

theorem State.issueStop_steady' {z : State} (s : State) (acc kind num : Nat) (on : Bool) (hk : Steady z s) :
    Steady z (State.issueStop s acc kind num on).1 := by
  unfold State.issueStop
  dsimp only
  repeat' with_reducible
    first
    | assumption | apply State.count_steady | apply State.stopAt_steady | refine Steady.ite ?_ ?_
    | refine Steady.ite_fst ?_ ?_ | simp only [Steady.upd]

theorem State.issueStop_steady {z s' : State} (s : State) (acc kind num : Nat) (on : Bool) {x' : Option ℕ} (hk : Steady z s)
    (he' : State.issueStop s acc kind num on = (s', x')) : Steady z s' := by
  have q := State.issueStop_steady' s acc kind num on hk
  rwa [he'] at q

theorem State.mbxCtrlWrite_steady {z : State} (s : State) (seat : Nat) (v : Word) (hk : Steady z s) :
    Steady z (State.mbxCtrlWrite s seat v) := by
  unfold State.mbxCtrlWrite
  dsimp only
  repeat' with_reducible
    first
    | assumption | apply State.plainWrite_steady | apply State.event_steady | apply State.setFlag_steady
    | apply State.sticky_steady | apply State.modSeat_steady | refine Steady.ite ?_ ?_

theorem State.mbxWrite_steady {z : State} (s : State) (seat w : Nat) (v : Word) (hk : Steady z s) :
    Steady z (State.mbxWrite s seat w v) := by
  unfold State.mbxWrite
  repeat' with_reducible first | assumption | apply State.sticky_steady | apply State.setLv_steady | refine Steady.ite ?_ ?_

theorem State.endQps_steady {z : State} (s : State) (seat : Nat) (hk : Steady z s) :
    Steady z (State.endQps s seat) := by
  unfold State.endQps
  repeat' with_reducible
    first
    | assumption | (refine State.each_steady _ _ _ ?_ fun t a ht => ?_) | apply State.modQp_steady
    | apply State.squashHeld_steady

theorem State.scanWindows_steady {z : State} (s : State) (t seat : Nat) (hk : Steady z s) :
    Steady z (State.scanWindows s t seat) := by
  unfold State.scanWindows
  repeat' with_reducible
    first
    | assumption | (refine State.each_steady _ _ _ ?_ fun t a ht => ?_) | apply State.revokeWin_steady

theorem State.squashStarted_steady {z : State} (s : State) (seat : Nat) (hk : Steady z s) :
    Steady z (State.squashStarted s seat) := by
  unfold State.squashStarted
  repeat' with_reducible
    first
    | assumption | (refine State.each_steady _ _ _ ?_ fun t a ht => ?_) | apply State.endWork_steady

theorem State.seatStart_steady {z : State} (s : State) (e : Bool) (seat : Nat) (closing squash : Bool) (hk : Steady z s) :
    Steady z (State.seatStart s e seat closing squash) := by
  unfold State.seatStart
  dsimp only
  repeat' with_reducible
    first
    | assumption | apply State.modSeat_steady | (refine State.each_steady _ _ _ ?_ fun t a ht => ?_)
    | apply State.discardLines_steady | apply State.flushLines_steady | apply State.endWork_steady
    | apply State.releaseHeld_steady | apply State.endQps_steady | apply State.squashStarted_steady
    | apply State.scanWindows_steady | refine Steady.ite ?_ ?_

theorem State.seatSquash_steady {z : State} (s : State) (seat : Nat) (hk : Steady z s) :
    Steady z (State.seatSquash s seat) := by
  unfold State.seatSquash
  dsimp only
  repeat' with_reducible
    first
    | assumption | apply State.modSeat_steady | (refine State.each_steady _ _ _ ?_ fun t a ht => ?_)
    | apply State.discardLines_steady | apply State.squashStarted_steady | refine Steady.ite ?_ ?_

theorem State.seatCommand_steady {z : State} (s : State) (seat : Nat) (remove squash : Bool) (hk : Steady z s) :
    Steady z (State.seatCommand s seat remove squash) := by
  unfold State.seatCommand
  dsimp only
  repeat' with_reducible
    first
    | assumption | apply State.seatStart_steady | apply State.modSeat_steady | apply State.seatSquash_steady
    | refine Steady.ite ?_ ?_

theorem State.stCtrlWrite_steady {z : State} (s : State) (via : Via) (t seat : Nat) (v : Word) (hk : Steady z s) :
    Steady z (State.stCtrlWrite s via t seat v) := by
  unfold State.stCtrlWrite
  dsimp only
  repeat' with_reducible
    first
    | assumption | apply State.plainWrite_steady | refine State.issueStop_steady ?_ (by assumption)
    | apply State.issueStop_steady' | apply State.seatCommand_steady | apply State.seatSquash_steady
    | refine Steady.ite ?_ ?_

theorem State.seeXg_steady {z : State} (s : State) (t x st : Nat) (hk : Steady z s) :
    Steady z (State.seeXg s t x st) := by
  unfold State.seeXg
  repeat' with_reducible first | assumption | apply State.setFlag_steady

theorem State.xgRecord_steady {z : State} (s : State) (x st : Nat) (hk : Steady z s) :
    Steady z (State.xgRecord s x st) := by
  unfold State.xgRecord
  dsimp only
  repeat' with_reducible first | assumption | apply State.count_steady | apply State.eventMgr_steady | refine Steady.ite ?_ ?_

theorem State.crossingDown_steady {z : State} (s : State) (x : Nat) (hk : Steady z s) :
    Steady z (State.crossingDown s x) := by
  unfold State.crossingDown
  dsimp only
  repeat' with_reducible
    first
    | assumption | (refine State.each_steady _ _ _ ?_ fun t a ht => ?_) | apply State.sticky_steady
    | apply State.setFld_steady | apply State.setFlag_steady | apply State.seeXg_steady | apply State.modLink_steady
    | apply State.endPacket_steady | apply State.xgRecord_steady | apply State.modCore_steady | refine Steady.ite ?_ ?_
    | split

theorem State.tileRecords_steady {z : State} (s : State) (t : Nat) (lost : Bool) (hk : Steady z s) :
    Steady z (State.tileRecords s t lost) := by
  unfold State.tileRecords
  dsimp only
  repeat' with_reducible first | assumption | (refine State.each_steady _ _ _ ?_ fun t a ht => ?_) | apply State.event_steady

theorem State.forgetUnits_steady {z : State} (s : State) (t : Nat) (hk : Steady z s) :
    Steady z (State.forgetUnits s t) := by
  unfold State.forgetUnits
  dsimp only
  repeat' with_reducible first | assumption | refine Steady.ite ?_ ?_ | simp only [Steady.upd]

theorem State.stopTile_steady {z : State} (s : State) (t : Nat) (hk : Steady z s) :
    Steady z (State.stopTile s t) := by
  unfold State.stopTile
  dsimp only
  repeat' with_reducible first | assumption | refine Steady.ite ?_ ?_ | simp only [Steady.upd]

theorem State.endLost_steady {z : State} (s : State) (t : Nat) (o : OutEntry) (hk : Steady z s) :
    Steady z (State.endLost s t o) := by
  unfold State.endLost
  dsimp only
  repeat' with_reducible first | assumption | apply State.endRequest_steady | refine Steady.ite ?_ ?_ | simp only [Steady.upd]

theorem State.portsGone_steady {z : State} (s : State) (ports : List Nat) (seen : Nat → Bool) (hk : Steady z s) :
    Steady z (State.portsGone s ports seen) := by
  unfold State.portsGone
  dsimp only
  repeat' with_reducible
    first
    | assumption | (refine State.each_steady _ _ _ ?_ fun t a ht => ?_) | apply State.modVport_steady
    | apply State.ownerAer_steady | refine Steady.ite ?_ ?_

theorem State.hopsGone_steady {z : State} (s : State) (u : Nat) (ports : List Nat) (hk : Steady z s) :
    Steady z (State.hopsGone s u ports) := by
  unfold State.hopsGone
  repeat' with_reducible
    first
    | assumption | (refine State.each_steady _ _ _ ?_ fun t a ht => ?_) | apply State.setHops_steady

theorem State.endTileLost_steady {z : State} (s : State) (ok : Packet → Bool) (hk : Steady z s) :
    Steady z (State.endTileLost s ok) := by
  unfold State.endTileLost
  repeat' with_reducible
    first
    | assumption | (refine State.each_steady _ _ _ ?_ fun t a ht => ?_) | apply State.endPacket_steady
    | refine Steady.ite ?_ ?_ | simp only [id] | split

theorem State.loseOthers_steady {z : State} (s : State) (t : Nat) (hk : Steady z s) :
    Steady z (State.loseOthers s t) := by
  unfold State.loseOthers
  dsimp only
  repeat' with_reducible
    first
    | assumption | apply State.hopsGone_steady | apply State.portsGone_steady
    | (refine State.each_steady _ _ _ ?_ fun t a ht => ?_) | apply State.partDark_steady | apply State.count_steady
    | apply State.endTileLost_steady | apply State.setFlag_steady

theorem State.curtainWithout_steady {z : State} (s : State) (hk : Steady z s) :
    Steady z (State.curtainWithout s) := by
  unfold State.curtainWithout
  repeat' with_reducible
    first
    | assumption | apply State.retireIfDrained_steady | apply State.armedIfReady_steady | apply State.commitIfReady_steady
    | refine Steady.ite ?_ ?_

theorem State.loseTileAs_steady {z : State} (s : State) (t : Nat) (cut : Bool) (hk : Steady z s) :
    Steady z (State.loseTileAs s t cut) := by
  unfold State.loseTileAs
  dsimp only
  repeat' with_reducible
    first
    | assumption | apply State.curtainWithout_steady | apply State.tileRecords_steady
    | (refine State.each_steady _ _ _ ?_ fun t a ht => ?_) | apply State.collectorLost_steady
    | apply State.crossingDown_steady | apply State.setFlag_steady | apply State.count_steady
    | apply State.forgetUnits_steady | apply State.loseOthers_steady | apply State.stopTile_steady
    | apply State.endTileLost_steady | apply State.endLost_steady | apply State.upstreamHold_steady
    | apply State.portsGone_steady | apply State.hopsGone_steady | apply State.stopHolds_steady | refine Steady.ite ?_ ?_
    | simp only [Steady.upd]

theorem State.loseTile_steady {z : State} (s : State) (t : Nat) (hk : Steady z s) :
    Steady z (State.loseTile s t) := by
  unfold State.loseTile
  repeat' with_reducible
    first
    | assumption | apply State.loseTileAs_steady | apply State.stopTile_steady | refine Steady.ite ?_ ?_

theorem State.svcLost_steady {z : State} (s : State) (t : Nat) (hk : Steady z s) :
    Steady z (State.svcLost s t) := by
  unfold State.svcLost
  dsimp only
  repeat' with_reducible
    first
    | assumption | apply State.setFlag_steady | apply State.countHk_steady | apply State.sticky_steady
    | refine Steady.ite ?_ ?_ | simp only [Steady.upd]

theorem State.modPwr_steady {z : State} (s : State) (f : PwrSt → PwrSt) (hk : Steady z s) :
    Steady z (State.modPwr s f) := by
  unfold State.modPwr
  repeat' with_reducible first | assumption | refine Steady.ite ?_ ?_ | simp only [Steady.upd]

theorem State.stopsLost_steady {z : State} (s : State) (hk : Steady z s) :
    Steady z (State.stopsLost s) := by
  unfold State.stopsLost
  dsimp only
  repeat' with_reducible first | assumption | refine Steady.ite ?_ ?_ | simp only [Steady.upd]

theorem State.ilulysRestart_steady {z : State} (s : State) (cause : Nat) (hk : Steady z s) :
    Steady z (State.ilulysRestart s cause) := by
  unfold State.ilulysRestart
  dsimp only
  repeat' with_reducible
    first
    | assumption | apply State.stopsLost_steady | apply State.blowsLost_steady
    | (refine State.each_steady _ _ _ ?_ fun t a ht => ?_) | apply State.svcLost_steady | apply State.setFld_steady
    | apply State.modPwr_steady | refine Steady.ite ?_ ?_ | simp only [Steady.upd]

theorem injCell_steady {z : State} (t : Nat) (s : State) (hk : Steady z s) :
    Steady z (injCell t s) := by
  unfold injCell
  dsimp only
  repeat' with_reducible first | assumption | refine Steady.ite ?_ ?_ | simp only [Steady.upd]

theorem injTable_steady {z : State} (t : Nat) (s : State) (hk : Steady z s) :
    Steady z (injTable t s) := by
  unfold injTable
  dsimp only
  repeat' with_reducible first | assumption | refine Steady.ite ?_ ?_ | simp only [Steady.upd]

theorem State.eccCtrlWrite_steady {z : State} (s : State) (t : Nat) (v : Word) (hk : Steady z s) :
    Steady z (State.eccCtrlWrite s t v) := by
  unfold State.eccCtrlWrite
  dsimp only
  repeat' with_reducible
    first
    | assumption | apply State.plainWrite_steady | apply injCell_steady | apply injTable_steady | refine Steady.ite ?_ ?_

theorem State.countLink_steady {z : State} (s : State) (l : Link) (ev : TEv) (k : Nat := 1) (hk : Steady z s) :
    Steady z (State.countLink s l ev k) := by
  unfold State.countLink
  repeat' with_reducible first | assumption | apply State.countN_steady

theorem State.setEsc_steady {z : State} (s : State) (l : Link) (n r : Nat) (hk : Steady z s) :
    Steady z (State.setEsc s l n r) := by
  unfold State.setEsc
  repeat' with_reducible first | assumption | apply State.setFld_steady | refine Steady.ite ?_ ?_ | split

theorem State.setStopped_steady {z : State} (s : State) (l : Link) (b : Bool) (hk : Steady z s) :
    Steady z (State.setStopped s l b) := by
  unfold State.setStopped
  dsimp only
  repeat' with_reducible
    first
    | assumption | apply State.modLink_steady | apply State.setEi_steady | apply State.setFlag_steady
    | refine Steady.ite ?_ ?_ | split

theorem State.otherRetrain_steady {z : State} (s : State) (l : Link) (hk : Steady z s) :
    Steady z (State.otherRetrain s l) := by
  unfold State.otherRetrain
  dsimp only
  repeat' with_reducible
    first
    | assumption | apply State.setEsc_steady | apply State.modLink_steady | apply State.setStopped_steady
    | refine Steady.ite ?_ ?_

theorem State.mapWire_steady {z : State} (s : State) (t g u wire : Nat) (hk : Steady z s) :
    Steady z (State.mapWire s t g u wire) := by
  unfold State.mapWire
  dsimp only
  repeat' with_reducible first | assumption | apply State.setFld_steady | apply State.modLink_steady | refine Steady.ite ?_ ?_

theorem State.wireFails_steady {z : State} (s : State) (t g wire : Nat) (hk : Steady z s) :
    Steady z (State.wireFails s t g wire) := by
  unfold State.wireFails
  dsimp only
  repeat' with_reducible
    first
    | assumption | apply State.mapWire_steady | apply State.otherRetrain_steady | apply State.countLink_steady
    | apply State.crossingDown_steady | apply State.setFlag_steady | apply State.xgRecord_steady | apply State.seeXg_steady
    | refine Steady.ite ?_ ?_ | split

theorem State.lkInject_steady {z : State} (s : State) (port : Nat) (v : Word) (hk : Steady z s) :
    Steady z (State.lkInject s port v) := by
  unfold State.lkInject
  repeat' with_reducible first | assumption | apply State.modLink_steady | refine Steady.ite ?_ ?_

theorem State.xgCtrlAct_steady {z : State} (s : State) (t g : Nat) (v : Word) (hk : Steady z s) :
    Steady z (State.xgCtrlAct s t g v) := by
  unfold State.xgCtrlAct
  dsimp only
  repeat' with_reducible
    first
    | assumption | apply State.plainWrite_steady | apply State.wireFails_steady | refine Steady.ite ?_ ?_ | split

theorem State.coreCtrlAct_steady {z : State} (s : State) (t : Nat) (v : Word) (hk : Steady z s) :
    Steady z (State.coreCtrlAct s t v) := by
  unfold State.coreCtrlAct
  dsimp only
  repeat' with_reducible
    first
    | assumption | apply State.plainWrite_steady | apply State.modCore_steady | refine Steady.ite ?_ ?_

theorem State.ticketAct_steady {z : State} (s : State) (agent t : Nat) (v : Word) (hk : Steady z s) :
    Steady z (State.ticketAct s agent t v) := by
  unfold State.ticketAct
  repeat' with_reducible first | assumption | apply State.setLv_steady

theorem State.takeoverAct_steady {z : State} (s : State) (pb : Nat) (v : Word) (hk : Steady z s) :
    Steady z (State.takeoverAct s pb v) := by
  unfold State.takeoverAct
  dsimp only
  repeat' with_reducible
    first
    | assumption | apply State.plainWrite_steady | apply State.modSch_steady | apply State.setFlag_steady
    | refine Steady.ite ?_ ?_

theorem State.backlogAct_steady {z : State} (s : State) (agent t : Nat) (v : Word) (hk : Steady z s) :
    Steady z (State.backlogAct s agent t v) := by
  unfold State.backlogAct
  repeat' with_reducible first | assumption | apply State.setLv_steady

theorem State.modSp_steady {z : State} (s : State) (ch : Nat) (f : SpSt → SpSt) (hk : Steady z s) :
    Steady z (State.modSp s ch f) := by
  unfold State.modSp
  repeat' with_reducible first | assumption | refine Steady.ite ?_ ?_ | simp only [Steady.upd]

theorem State.spAccept_steady {z : State} (s : State) (ch op : Nat) (fromSlot : Bool) (hk : Steady z s) :
    Steady z (State.spAccept s ch op fromSlot) := by
  unfold State.spAccept
  repeat' with_reducible first | assumption | apply State.modSp_steady

theorem State.spCtrlAct_steady {z : State} (s : State) (ch : Nat) (v : Word) (hk : Steady z s) :
    Steady z (State.spCtrlAct s ch v) := by
  unfold State.spCtrlAct
  dsimp only
  repeat' with_reducible
    first
    | assumption | apply State.plainWrite_steady | apply State.spAccept_steady | refine Steady.ite ?_ ?_

theorem State.spCfgAct_steady {z : State} (s : State) (ch o : Nat) (v : Word) (hk : Steady z s) :
    Steady z (State.spCfgAct s ch o v) := by
  unfold State.spCfgAct
  dsimp only
  repeat' with_reducible
    first
    | assumption | apply State.plainWrite_steady | apply State.modSp_steady | refine Steady.ite ?_ ?_

theorem State.seqAct_steady {z : State} (s : State) (e : Nat) (v : Word) (hk : Steady z s) :
    Steady z (State.seqAct s e v) := by
  unfold State.seqAct
  dsimp only
  repeat' with_reducible first | assumption | apply State.plainWrite_steady | refine Steady.ite ?_ ?_ | simp only [Steady.upd]

theorem State.advanceCounts_steady {z : State} (s : State) (lane : Nat) (hk : Steady z s) :
    Steady z (State.advanceCounts s lane) := by
  unfold State.advanceCounts
  dsimp only
  repeat' with_reducible first | assumption | apply State.modLane_steady | apply State.used_steady | refine Steady.ite ?_ ?_

theorem State.startRetrain_steady {z : State} (s : State) (port : Nat) (hk : Steady z s) :
    Steady z (State.startRetrain s port) := by
  unfold State.startRetrain
  repeat' with_reducible
    first
    | assumption | apply State.otherRetrain_steady | apply State.modPort_steady | refine Steady.ite ?_ ?_

theorem quadPllLol_steady {z : State} (q : Nat) (s : State) (hk : Steady z s) :
    Steady z (quadPllLol q s) := by
  unfold quadPllLol
  dsimp only
  repeat' with_reducible
    first
    | assumption | apply State.count_steady | apply State.sticky_steady | apply State.setFlag_steady
    | apply State.setEi_steady | apply State.modLane_steady | (refine State.each_steady _ _ _ ?_ fun t a ht => ?_)
    | apply State.startRetrain_steady | refine Steady.ite ?_ ?_

theorem State.genChange_steady {z : State} (s was : State) (lane : Nat) (hk : Steady z s) :
    Steady z (State.genChange s was lane) := by
  unfold State.genChange
  repeat' with_reducible first | assumption | apply State.emit_steady | refine Steady.ite ?_ ?_

theorem State.laneCtrlAct_steady {z : State} (s : State) (lane : Nat) (v : Word) (hk : Steady z s) :
    Steady z (State.laneCtrlAct s lane v) := by
  unfold State.laneCtrlAct
  dsimp only
  repeat' with_reducible
    first
    | assumption | apply State.plainWrite_steady | apply State.advanceCounts_steady | apply State.setFlag_steady
    | apply State.setEi_steady | apply State.genChange_steady | refine Steady.ite ?_ ?_

theorem State.marginAct_steady {z : State} (s : State) (lane : Nat) (v : Word) (hk : Steady z s) :
    Steady z (State.marginAct s lane v) := by
  unfold State.marginAct
  repeat' with_reducible first | assumption | apply State.plainWrite_steady | apply State.advanceCounts_steady

theorem State.downForTest_steady {z : State} (s : State) (port : Nat) (hk : Steady z s) :
    Steady z (State.downForTest s port) := by
  unfold State.downForTest
  dsimp only
  repeat' with_reducible
    first
    | assumption | apply State.portDown_steady | (refine State.each_steady _ _ _ ?_ fun t a ht => ?_)
    | apply State.setFld_steady

theorem State.testMode_steady {z : State} (s : State) (lane : Nat) (was : Bool) (hk : Steady z s) :
    Steady z (State.testMode s lane was) := by
  unfold State.testMode
  dsimp only
  repeat' with_reducible
    first
    | assumption | apply State.setFld_steady | apply State.downForTest_steady
    | (refine State.each_steady _ _ _ ?_ fun t a ht => ?_) | apply State.setEi_steady | refine Steady.ite ?_ ?_ | split

theorem State.testAct_steady {z : State} (s : State) (lane : Nat) (v : Word) (hk : Steady z s) :
    Steady z (State.testAct s lane v) := by
  unfold State.testAct
  dsimp only
  repeat' with_reducible
    first
    | assumption | apply State.plainWrite_steady | apply State.advanceCounts_steady | apply State.modLane_steady
    | apply State.emit_steady | apply State.setFlag_steady | apply State.testMode_steady | apply State.setEi_steady
    | apply State.genChange_steady | refine Steady.ite ?_ ?_

theorem State.laneMbxAct_steady {z : State} (s : State) (agent pb : Nat) (v : Word) (hk : Steady z s) :
    Steady z (State.laneMbxAct s agent pb v) := by
  unfold State.laneMbxAct
  repeat' with_reducible first | assumption | apply State.setLv_steady

theorem State.cntAct_steady {z : State} (s : State) (agent : Nat) (v : Word) (hk : Steady z s) :
    Steady z (State.cntAct s agent v) := by
  unfold State.cntAct
  dsimp only
  have hw (w : Word) (c : Option (Ctr × Bool)) : Steady z ((s.used.setLv (cntSel agent) w).modTel fun k =>
      { k with counted := tset none k.counted agent c }) :=
    State.modTel_steady _ _ rfl (State.setLv_steady _ _ _ (State.used_steady _ hk))
  exact .ite ((hw _ _).modTel _ fun _ q => tset_once _ _ _ _ q) (hw _ _)

theorem State.progAct_steady {z : State} (s : State) (t k : Nat) (v : Word) (hk : Steady z s) :
    Steady z (State.progAct s t k v) := by
  have hw : Steady z (s.plainWrite (ctProg t k) v) := State.plainWrite_steady _ _ _ hk
  unfold State.progAct
  exact .ite hw (hw.modTel _ fun _ q => tset_once {} _ (ctrKey 0 (256 * t + 128 + k)) {} q)

theorem State.snapAct_steady {z : State} (s : State) (v : Word) (hk : Steady z s) :
    Steady z (State.snapAct s v) := by
  unfold State.snapAct
  dsimp only
  repeat' with_reducible
    first
    | assumption | apply State.plainWrite_steady | refine State.modTel_steady _ _ rfl ?_ | apply State.setFlag_steady
    | refine Steady.ite ?_ ?_

/-- A histogram cleared. -/
theorem Steady.histCleared {z s : State} (hs : Steady z s) (t h : Nat) (l : List Nat) : Steady z (s.modTel fun k =>
    { k with ctr := l.foldl (fun m b => tset {} m (ctrKey 4 (256 * t + 32 * h + b)) {}) k.ctr }) :=
  hs.modTel _ fun _ q => foldl_once (fun m b hm => tset_once {} m (ctrKey 4 (256 * t + 32 * h + b)) {} hm) l q

theorem State.histAct_steady {z : State} (s : State) (t h : Nat) (v : Word) (hk : Steady z s) :
    Steady z (State.histAct s t h v) := by
  have hw : Steady z (s.plainWrite (ctHist t h) v) := State.plainWrite_steady _ _ _ hk
  unfold State.histAct
  dsimp only
  exact .ite (hw.histCleared t h _) hw

theorem State.capAct_steady {z : State} (s : State) (t c : Nat) (v : Word) (hk : Steady z s) :
    Steady z (State.capAct s t c v) := by
  unfold State.capAct
  dsimp only
  repeat' with_reducible
    first
    | assumption | apply State.plainWrite_steady | apply State.modCap_steady | apply State.setFld_steady
    | refine Steady.ite ?_ ?_

theorem State.boWrite_steady {z : State} (s : State) (r : List Byte) (hk : Steady z s) :
    Steady z (State.boWrite s r) := by
  unfold State.boWrite
  dsimp only
  repeat' with_reducible
    first
    | assumption | apply State.hostWrite_steady | apply State.setFld_steady | refine Steady.ite ?_ ?_

theorem State.boPump_steady {z : State} (s : State) (x' : Nat) (hk : Steady z s) :
    Steady z (State.boPump s x') := by
  induction x' generalizing s with
  | zero => exact hk
  | succ x' ih =>
    unfold State.boPump
    try dsimp only
    repeat' with_reducible
      first
      | assumption | apply ih | apply State.boWrite_steady | refine State.modTel_steady _ _ rfl ?_ | refine Steady.ite ?_ ?_
      | split

theorem State.boDrain_steady {z : State} (s : State) (hk : Steady z s) :
    Steady z (State.boDrain s) := by
  unfold State.boDrain
  repeat' with_reducible first | assumption | apply State.boPump_steady

theorem State.boIndexAct_steady {z : State} (s : State) (v : Word) (hk : Steady z s) :
    Steady z (State.boIndexAct s v) := by
  unfold State.boIndexAct
  repeat' with_reducible first | assumption | apply State.boDrain_steady | apply State.plainWrite_steady

theorem State.boCfgAct_steady {z : State} (s : State) (v : Word) (hk : Steady z s) :
    Steady z (State.boCfgAct s v) := by
  unfold State.boCfgAct
  repeat' with_reducible first | assumption | apply State.boDrain_steady | apply State.plainWrite_steady

theorem State.ringOn_steady {z : State} (s : State) (r : Nat) (hk : Steady z s) :
    Steady z (State.ringOn s r) := by
  unfold State.ringOn
  dsimp only
  repeat' with_reducible
    first
    | assumption | apply State.setFlag_steady | apply State.setLv_steady | apply State.modRing_steady
    | refine Steady.ite ?_ ?_

theorem State.ringOff_steady {z : State} (s : State) (r : Nat) (hk : Steady z s) :
    Steady z (State.ringOff s r) := by
  unfold State.ringOff
  dsimp only
  repeat' with_reducible
    first
    | assumption | apply State.setFlag_steady | apply State.modRing_steady | apply State.setFld_steady
    | refine Steady.ite ?_ ?_

theorem State.ringWord0_steady {z : State} (s : State) (r : Nat) (v : Word) (hk : Steady z s) :
    Steady z (State.ringWord0 s r v) := by
  unfold State.ringWord0
  dsimp only
  repeat' with_reducible
    first
    | assumption | apply State.sticky_steady | apply State.setLv_steady | apply State.ringOn_steady
    | apply State.ringOff_steady | refine Steady.ite ?_ ?_

theorem State.ringWrite_steady {z : State} (s : State) (r w : Nat) (v : Word) (hk : Steady z s) :
    Steady z (State.ringWrite s r w v) := by
  unfold State.ringWrite
  repeat' with_reducible
    first
    | assumption | apply State.ringWord0_steady | apply State.sticky_steady | apply State.plainWrite_steady
    | refine Steady.ite ?_ ?_

theorem State.setMsix_steady {z : State} (s : State) (p o : Nat) (v : Word) (hk : Steady z s) :
    Steady z (State.setMsix s p o v) := by
  unfold State.setMsix
  dsimp only
  repeat' with_reducible first | assumption | refine Steady.ite ?_ ?_ | simp only [Steady.upd]

theorem State.setPba_steady {z : State} (s : State) (p v : Nat) (b : Bool) (hk : Steady z s) :
    Steady z (State.setPba s p v b) := by
  unfold State.setPba
  dsimp only
  repeat' with_reducible first | assumption | refine Steady.ite ?_ ?_ | simp only [Steady.upd]

theorem State.msixSend_steady {z : State} (s : State) (p vec : Nat) (seat : Option Nat) (hk : Steady z s) :
    Steady z (State.msixSend s p vec seat) := by
  unfold State.msixSend
  dsimp only
  repeat' with_reducible first | assumption | apply State.hostWrite_steady

theorem State.msixFlush_steady {z : State} (s : State) (p : Nat) (hk : Steady z s) :
    Steady z (State.msixFlush s p) := by
  unfold State.msixFlush
  repeat' with_reducible
    first
    | assumption | (refine State.each_steady _ _ _ ?_ fun t a ht => ?_) | apply State.msixSend_steady
    | apply State.setPba_steady

theorem State.deviceReset_steady {z : State} (s : State) (cold : Bool) (cause : Nat) :
    Steady z (s.deviceReset cold cause) := by
  unfold State.deviceReset
  dsimp only
  have hnew : ∀ t : State, t.tel = {} → t.host = {} → Steady z t := fun t ht hh =>
    ⟨fun _ _ => by simp [State.listsOnce, ht], fun c q => by simp [hh] at q⟩
  repeat' with_reducible
    first
    | (refine State.each_steady _ _ _ ?_ fun t a ht => ?_) | apply State.setLv_steady | apply State.setFld_steady
    | refine Steady.ite ?_ ?_ | assumption | exact hnew _ rfl rfl

theorem State.resetAsk_steady {z : State} (s : State) (cold : Bool) (hk : Steady z s) :
    Steady z (State.resetAsk s cold) := by
  unfold State.resetAsk
  repeat' with_reducible
    first
    | assumption | apply State.deviceReset_steady | refine State.modBoot_steady _ _ ?_ | refine Steady.ite ?_ ?_

theorem State.resetCtrlAct_steady {z : State} (s : State) (via : Via) (v : Word) (hk : Steady z s) :
    Steady z (State.resetCtrlAct s via v) := by
  unfold State.resetCtrlAct
  dsimp only
  repeat' with_reducible
    first
    | assumption | apply State.sticky_steady | apply State.plainWrite_steady | apply State.loseTile_steady
    | apply State.resetAsk_steady | apply State.ilulysRestart_steady | refine Steady.ite ?_ ?_

theorem State.refSwitch_steady {z : State} (s : State) (within : Bool) (hk : Steady z s) :
    Steady z (State.refSwitch s within) := by
  unfold State.refSwitch
  dsimp only
  repeat' with_reducible
    first
    | assumption | apply State.setFlag_steady | apply State.sticky_steady | apply State.setFld_steady
    | apply State.modPwr_steady | refine Steady.ite ?_ ?_

theorem State.refHold_steady {z : State} (s : State) (hk : Steady z s) :
    Steady z (State.refHold s) := by
  unfold State.refHold
  dsimp only
  repeat' with_reducible
    first
    | assumption | apply State.setFlag_steady | (refine State.each_steady _ _ _ ?_ fun t a ht => ?_)
    | apply quadPllLol_steady | apply State.portDown_steady | apply State.modPwr_steady

theorem refclkBad_steady {z : State} (b within : Bool) (s : State) (hk : Steady z s) :
    Steady z (refclkBad b within s) := by
  unfold refclkBad
  dsimp only
  repeat' with_reducible
    first
    | assumption | apply State.setFlag_steady | apply State.refHold_steady | apply State.countHk_steady
    | apply State.refSwitch_steady | refine Steady.ite ?_ ?_

theorem State.clkCtrlAct_steady {z : State} (s : State) (v : Word) (within : Bool) (hk : Steady z s) :
    Steady z (State.clkCtrlAct s v within) := by
  unfold State.clkCtrlAct
  dsimp only
  repeat' with_reducible
    first
    | assumption | apply State.plainWrite_steady | apply refclkBad_steady | apply State.refSwitch_steady
    | refine Steady.ite ?_ ?_

theorem State.fuseSelAct_steady {z : State} (s : State) (v : Word) (hk : Steady z s) :
    Steady z (State.fuseSelAct s v) := by
  unfold State.fuseSelAct
  repeat' with_reducible
    first
    | assumption | refine State.modBoot_steady _ _ ?_ | apply State.setFlag_steady | apply State.plainWrite_steady

theorem State.fuseProgAct_steady {z : State} (s : State) (v : Word) (hk : Steady z s) :
    Steady z (State.fuseProgAct s v) := by
  unfold State.fuseProgAct
  dsimp only
  repeat' with_reducible
    first
    | assumption | apply State.setFlag_steady | apply State.plainWrite_steady | refine State.modBoot_steady _ _ ?_
    | apply State.countHk_steady | apply State.setFld_steady | refine Steady.ite ?_ ?_ | split

theorem State.attAct_steady {z : State} (s : State) (v : Word) (hk : Steady z s) :
    Steady z (State.attAct s v) := by
  unfold State.attAct
  repeat' with_reducible
    first
    | assumption | refine State.modBoot_steady _ _ ?_ | apply State.setFlag_steady | apply State.plainWrite_steady

theorem State.flashAct_steady {z : State} (s : State) (v : Word) (hk : Steady z s) :
    Steady z (State.flashAct s v) := by
  unfold State.flashAct
  dsimp only
  repeat' with_reducible
    first
    | assumption | apply State.setFlag_steady | apply State.plainWrite_steady | refine State.modBoot_steady _ _ ?_
    | apply State.sticky_steady | refine Steady.ite ?_ ?_

theorem State.instWrite_steady {z : State} (s : State) (agent o : Nat) (v : Word) (hk : Steady z s) :
    Steady z (State.instWrite s agent o v) := by
  unfold State.instWrite
  repeat' with_reducible first | assumption | apply State.setLv_steady | refine Steady.ite ?_ ?_ | split

theorem State.stopAct_steady {z : State} (s : State) (agent t : Nat) (v : Word) (hk : Steady z s) :
    Steady z (State.stopAct s agent t v) := by
  unfold State.stopAct
  dsimp only
  repeat' with_reducible
    first
    | assumption | apply State.setLv_steady | refine State.issueStop_steady ?_ (by assumption)
    | apply State.issueStop_steady' | apply State.setFlag_steady | refine Steady.ite ?_ ?_ | simp only [Steady.upd]
    | simp only [id] | split

theorem State.ilulysWrite_steady {z : State} (s : State) (via : Via) (o : Nat) (v : Word) (hk : Steady z s) :
    Steady z (State.ilulysWrite s via o v) := by
  unfold State.ilulysWrite
  dsimp only
  repeat' with_reducible
    first
    | assumption | apply State.fuseSelAct_steady | apply State.fuseProgAct_steady | apply State.attAct_steady
    | apply State.flashAct_steady | apply State.clkCtrlAct_steady | apply State.used_steady
    | apply State.resetCtrlAct_steady | apply State.tmFields_steady | apply State.todLoadAct_steady
    | apply State.checkAct_steady | apply State.armAct_steady | apply State.abortAct_steady | apply ftSnap_steady
    | apply understudyRead_steady | apply State.spCtrlAct_steady | apply State.spCfgAct_steady
    | apply State.plainWrite_steady | apply State.seqAct_steady | refine Steady.ite ?_ ?_

theorem State.globalWrite_steady {z : State} (s : State) (agent : Nat) (o : Nat) (v : Word) (hk : Steady z s) :
    Steady z (State.globalWrite s agent o v) := by
  unfold State.globalWrite
  dsimp only
  repeat' with_reducible
    first
    | assumption | apply State.cntAct_steady | apply State.snapAct_steady | apply State.boCfgAct_steady
    | apply State.boIndexAct_steady | apply windowTableInit_steady | apply State.sticky_steady
    | apply State.plainWrite_steady | apply qpTableInit_steady | apply State.mbxCtrlWrite_steady
    | apply State.mbxWrite_steady | apply State.ringWrite_steady | refine Steady.ite ?_ ?_

theorem State.tileWrite_steady {z : State} (s : State) (via : Via) (agent t r : Nat) (v : Word) (hk : Steady z s) :
    Steady z (State.tileWrite s via agent t r v) := by
  unfold State.tileWrite
  dsimp only
  repeat' with_reducible
    first
    | assumption | apply State.ticketAct_steady | apply State.coreCtrlAct_steady | apply State.xgCtrlAct_steady
    | apply State.apContAct_steady | apply State.backlogAct_steady | apply State.stopAct_steady | apply State.progAct_steady
    | apply State.histAct_steady | apply State.capAct_steady | apply State.eccCtrlWrite_steady
    | apply State.stCtrlWrite_steady | apply State.puCtrlWrite_steady | apply State.puEditAct_steady
    | apply State.instWrite_steady | apply State.plainWrite_steady | refine Steady.ite ?_ ?_

theorem State.pbWrite_steady {z : State} (s : State) (agent pb r : Nat) (v : Word) (hk : Steady z s) :
    Steady z (State.pbWrite s agent pb r v) := by
  unfold State.pbWrite
  dsimp only
  repeat' with_reducible
    first
    | assumption | apply State.laneCtrlAct_steady | apply State.testAct_steady | apply State.marginAct_steady
    | apply State.laneMbxAct_steady | apply State.instWrite_steady | apply State.lkInject_steady
    | apply State.takeoverAct_steady | apply State.plainWrite_steady | refine Steady.ite ?_ ?_

theorem State.msixWrite_steady {z : State} (s : State) (p o : Nat) (v : Word) (hk : Steady z s) :
    Steady z (State.msixWrite s p o v) := by
  unfold State.msixWrite
  repeat' with_reducible
    first
    | assumption | apply State.msixFlush_steady | apply State.setMsix_steady | refine Steady.ite ?_ ?_

theorem State.regWrite_steady {z : State} (s : State) (via : Via) (o : Nat) (v : Word) (hk : Steady z s) :
    Steady z (State.regWrite s via o v) := by
  unfold State.regWrite
  dsimp only
  repeat' with_reducible
    first
    | assumption | apply State.msixWrite_steady | apply State.setWrite_steady | apply State.ilulysWrite_steady
    | apply State.globalWrite_steady | apply State.tileWrite_steady | apply State.pbWrite_steady | refine Steady.ite ?_ ?_
    | split

end Sys2Proof.Machine

/-! The command unit on a ring of commands. -/

namespace Sys2Proof.Machine

theorem State.issueStop_cmds (s : State) (acc kind num : Nat) (on : Bool) :
    ∀ c ∈ (s.issueStop acc kind num on).1.host.cmds, c ∈ s.host.cmds :=
  (State.issueStop_steady' s acc kind num on (.refl s)).cmds

/-! ### One command (R298) -/

/-- What a command does as it starts. -/
def State.cmdActs (s : State) (id : Nat) (c : Cmd) : State :=
  let o := c.offset.toNat
  if isReg c then
    if o % 4 ≠ 0 ∨ 0x10000000 ≤ o then s.cmdEnds id 0x01 0
    else if s.lostReg o then s.cmdEnds id 0x07 0
    else if c.opcode = 0x40 then (s.regWrite .command o c.data).cmdEnds id 0 0
    else s.cmdEnds id 0 (s.regRead .command o)
  else if c.opcode = 0x42 then
    if c.kind % 4 = 3 then s.cmdEnds id 0x0C 0
    else
      let r := s.issueStop s.mgrTile (c.kind % 4) (c.target % 4096) (!c.clear)
      match r.2 with
      | some n => r.1.modCmd id fun k => { k with stop := some n }
      | none => r.1.cmdEnds id 0 0
  else if c.opcode = 0x43 ∨ c.opcode = 0x44 then s
  else s.cmdEnds id 0x0C 0

/-- What becomes of a started command that no earlier one precedes on its ring. -/
def State.cmdRest (s : State) (id : Nat) : State :=
  match s.host.cmds.find? fun c => c.id == id with
  | none => s
  | some c =>
    if c.result.isSome || !c.started then s
    else if c.cmd.opcode = 0x43 then s.cmdEnds id 0 0
    else if c.cmd.opcode = 0x44 then (if waitTime c.cmd ≤ s.tm.ft then s.cmdEnds id 0 0 else s)
    else match c.stop with
      | some n => if s.host.stops.any fun m => m.id == n then s else s.cmdEnds id 0 0
      | none => s

section
variable {s : State} {r id code : Nat} {c : Cmd} {d : Word}

/-- The command as the unit takes it, before it starts. -/
def State.waiting (s : State) (r : Nat) (c : Cmd) : State :=
  { s with idCtr := s.idCtr + 1, host := { s.host with cmds := [{ id := s.idCtr, ring := r, cmd := c }] } }

theorem State.cmdStart_waiting (s : State) (r : Nat) (c : Cmd) :
    (s.waiting r c).cmdStart { id := s.idCtr, ring := r, cmd := c } = (s.taking r c).cmdActs s.idCtr c := by
  have hmark : ((s.waiting r c).modCmd s.idCtr fun k => { k with started := true }) = s.taking r c := by
    simp only [State.modCmd, State.waiting, State.taking, State.taken, List.map, if_true]
  rw [← hmark]
  rfl

theorem State.cmdGo_waiting (s : State) (r : Nat) (c : Cmd) :
    (s.waiting r c).cmdGo s.idCtr = ((s.taking r c).cmdActs s.idCtr c).cmdRest s.idCtr := by
  have hfind : ((s.waiting r c).host.cmds.find? fun k => k.id == s.idCtr) = some { id := s.idCtr, ring := r, cmd := c } := by
    simp [State.waiting]
  have hfirst : ((s.waiting r c).host.cmds.takeWhile fun k => k.id != s.idCtr) = [] := by
    simp [State.waiting]
  unfold State.cmdGo State.cmdRest
  rw [hfind]
  simp only [hfirst, List.filter_nil, List.any_nil, List.all_nil, Bool.not_false, Bool.and_self, if_true,
    State.cmdStart_waiting] <;> rfl

/-- An idle unit runs the command it takes, then writes the record that is due. -/
theorem State.cmdTake_of_idle (h : s.host.cmds = []) :
    s.cmdTake r c = (((s.taking r c).cmdActs s.idCtr c).cmdRest s.idCtr).recordsOut := by
  have htake : s.cmdTake r c = (s.waiting r c).pump := by
    unfold State.cmdTake State.waiting
    rw [h]
    rfl
  rw [htake, ← State.cmdGo_waiting]
  rfl

theorem State.command_of_ring {op : Nat} (hr : s.cmdRing r = true) (h : s.host.cmds = []) :
    s.command r c op = (((s.taking r { c with opcode := op }).cmdActs s.idCtr { c with opcode := op }).cmdRest
      s.idCtr).recordsOut := (if_pos hr).trans (State.cmdTake_of_idle h)

theorem State.command_of_other {op : Nat} (hr : s.cmdRing r = false) : s.command r c op = s := if_neg (by simp [hr])

/-- A completed command is done with. -/
theorem State.cmdRest_cmdEnds (s : State) (id code : Nat) (d : Word) :
    (s.cmdEnds id code d).cmdRest id = s.cmdEnds id code d := by
  unfold State.cmdRest
  split
  · rfl
  case h_2 k hk =>
    refine if_pos ?_
    obtain ⟨j, -, rfl⟩ := List.mem_map.mp (List.mem_of_find?_eq_some hk)
    have hid := List.find?_some hk
    by_cases hj : j.id = id
    · simp [hj]
    · simp [hj] at hid

theorem State.cmdRest_taking (s : State) (r : Nat) (c : Cmd) : (s.taking r c).cmdRest s.idCtr =
    if c.opcode = 0x43 then (s.taking r c).cmdEnds s.idCtr 0 0
    else if c.opcode = 0x44 then (if waitTime c ≤ s.tm.ft then (s.taking r c).cmdEnds s.idCtr 0 0 else s.taking r c)
    else s.taking r c := by
  have hfind : ((s.taking r c).host.cmds.find? fun k => k.id == s.idCtr) = some (s.taken r c) := by
    simp [State.taking, State.taken]
  unfold State.cmdRest
  rw [hfind]
  rfl

theorem State.cmdEnds_of_none (h : (s.host.cmds.find? fun k => k.id == id) = none) : s.cmdEnds id code d = s := by
  have hsame : (s.host.cmds.map fun k => if k.id = id then { k with result := some (k.result.getD (code, d)) } else k) =
      s.host.cmds := by
    refine (List.map_congr_left (g := fun k => k) fun k hk => if_neg ?_).trans (List.map_id' _)
    simpa using List.find?_eq_none.mp h k hk
  unfold State.cmdEnds State.modCmd
  rw [hsame]

/-- A stop that is issued completes its command once it holds everywhere. -/
theorem State.cmdRest_stop {u : State} {n : Nat} (hc : c.opcode = 0x42) (hu : ∀ k ∈ u.host.cmds, k = s.taken r c) :
    let v := u.modCmd s.idCtr fun k => { k with stop := some n }
    v.cmdRest s.idCtr = if v.host.stops.any fun m => m.id == n then v else v.cmdEnds s.idCtr 0 0 := by
  intro v
  cases hfind : (v.host.cmds.find? fun k => k.id == s.idCtr) with
  | none =>
    rw [State.cmdEnds_of_none hfind, ite_self]
    unfold State.cmdRest
    rw [hfind]
  | some k =>
    obtain ⟨j, hj, rfl⟩ := List.mem_map.mp (List.mem_of_find?_eq_some hfind)
    cases hu j hj
    unfold State.cmdRest
    rw [hfind]
    simp only [State.taken, if_true, Option.isSome_none, Bool.not_true, Bool.or_self, Bool.false_eq_true, if_false, hc]
    rfl
end

/-! ### The opcodes -/

section
variable {s : State} {id : Nat} {c : Cmd}

theorem State.cmdActs_of_badOffset (hc : c.opcode = 0x40 ∨ c.opcode = 0x41)
    (h : c.offset.toNat % 4 ≠ 0 ∨ 0x10000000 ≤ c.offset.toNat) : s.cmdActs id c = s.cmdEnds id 0x01 0 :=
  (if_pos (by rcases hc with h | h <;> simp [isReg, h])).trans (if_pos h)

theorem State.cmdActs_of_reg (hc : c.opcode = 0x40 ∨ c.opcode = 0x41) (h4 : c.offset.toNat % 4 = 0)
    (hlt : c.offset.toNat < 0x10000000) : s.cmdActs id c =
      if s.lostReg c.offset.toNat then s.cmdEnds id 0x07 0
      else if c.opcode = 0x40 then (s.regWrite .command c.offset.toNat c.data).cmdEnds id 0 0
      else s.cmdEnds id 0 (s.regRead .command c.offset.toNat) :=
  (if_pos (by rcases hc with h | h <;> simp [isReg, h])).trans (if_neg (by omega))

theorem State.cmdActs_of_stop (hc : c.opcode = 0x42) : s.cmdActs id c =
    if c.kind % 4 = 3 then s.cmdEnds id 0x0C 0
    else
      let r := s.issueStop s.mgrTile (c.kind % 4) (c.target % 4096) (!c.clear)
      match r.2 with
      | some n => r.1.modCmd id fun k => { k with stop := some n }
      | none => r.1.cmdEnds id 0 0 := (if_neg (by simp [isReg, hc])).trans (if_pos hc)

theorem State.cmdActs_of_wait (hc : c.opcode = 0x43 ∨ c.opcode = 0x44) : s.cmdActs id c = s :=
  (if_neg (by rcases hc with h | h <;> simp [isReg, h])).trans
    ((if_neg (by rcases hc with h | h <;> simp [h])).trans (if_pos hc))

theorem State.issueStop_ignored {acc kind num : Nat} {on : Bool} (h : s.stopIgnored kind num = true) :
    (s.issueStop acc kind num on).2 = none := congrArg Prod.snd (if_pos h)

theorem State.issueStop_issued {acc kind num : Nat} {on : Bool} (h : s.stopIgnored kind num = false) :
    (s.issueStop acc kind num on).2 = some s.host.stopCtr := congrArg Prod.snd (if_neg (by simp [h]))
end

/-- Settles O35: an idle unit starts the command it takes, which its opcode completes, or which waits. -/
theorem managementCommandsComplete : Obligations.ManagementCommandsComplete := by
  intro s
  refine ⟨?write, ?read, ?badOffset, ?lost, ?stopKind, ?stopIgnored, ?stopIssued, ?barrier, ?waitPast, ?waits, ?reached,
    ?notReached, ?otherRing⟩
  case write =>
    intro r c d hr hc h4 hlt hlost
    have hact : (s.taking r d).cmdActs s.idCtr d =
        ((s.taking r d).regWrite .command c.offset.toNat c.data).cmdEnds s.idCtr 0 0 :=
      (State.cmdActs_of_reg (c := d) (.inl rfl) h4 hlt).trans ((if_neg (by rw [Bool.not_eq_true]; exact hlost)).trans (if_pos rfl))
    exact next_eq ((State.command_of_ring hr hc).trans (by rw [hact, State.cmdRest_cmdEnds]))
  case read =>
    intro r c d hr hc h4 hlt hlost
    have hact : (s.taking r d).cmdActs s.idCtr d =
        (s.taking r d).cmdEnds s.idCtr 0 ((s.taking r d).regRead .command c.offset.toNat) :=
      (State.cmdActs_of_reg (c := d) (.inr rfl) h4 hlt).trans
        ((if_neg (by rw [Bool.not_eq_true]; exact hlost)).trans (if_neg (show ¬(0x41 : Nat) = 0x40 by decide)))
    exact next_eq ((State.command_of_ring hr hc).trans (by rw [hact, State.cmdRest_cmdEnds]))
  case badOffset =>
    intro r c d d' hr hc ho
    have hread : (s.taking r d).cmdActs s.idCtr d = (s.taking r d).cmdEnds s.idCtr 0x01 0 :=
      State.cmdActs_of_badOffset (.inr rfl) ho
    have hwrite : (s.taking r d').cmdActs s.idCtr d' = (s.taking r d').cmdEnds s.idCtr 0x01 0 :=
      State.cmdActs_of_badOffset (.inl rfl) ho
    exact ⟨next_eq ((State.command_of_ring hr hc).trans (by rw [hread, State.cmdRest_cmdEnds])),
      next_eq ((State.command_of_ring hr hc).trans (by rw [hwrite, State.cmdRest_cmdEnds]))⟩
  case lost =>
    intro r c d d' hr hc h4 hlt hlost
    have hread : (s.taking r d).cmdActs s.idCtr d = (s.taking r d).cmdEnds s.idCtr 0x07 0 :=
      (State.cmdActs_of_reg (c := d) (.inr rfl) h4 hlt).trans (if_pos hlost)
    have hwrite : (s.taking r d').cmdActs s.idCtr d' = (s.taking r d').cmdEnds s.idCtr 0x07 0 :=
      (State.cmdActs_of_reg (c := d') (.inl rfl) h4 hlt).trans (if_pos hlost)
    exact ⟨next_eq ((State.command_of_ring hr hc).trans (by rw [hread, State.cmdRest_cmdEnds])),
      next_eq ((State.command_of_ring hr hc).trans (by rw [hwrite, State.cmdRest_cmdEnds]))⟩
  case stopKind =>
    intro r c d hr hc hk
    have hact : (s.taking r d).cmdActs s.idCtr d = (s.taking r d).cmdEnds s.idCtr 0x0C 0 :=
      (State.cmdActs_of_stop rfl).trans (if_pos hk)
    exact next_eq ((State.command_of_ring hr hc).trans (by rw [hact, State.cmdRest_cmdEnds]))
  case stopIgnored =>
    intro r c d u x hr hc hk hign
    have hnone : x.2 = none := State.issueStop_ignored hign
    have hact : u.cmdActs s.idCtr d = x.1.cmdEnds s.idCtr 0 0 := by
      refine (State.cmdActs_of_stop rfl).trans ((if_neg hk).trans ?_)
      simp only [show (u.issueStop u.mgrTile (d.kind % 4) (d.target % 4096) (!d.clear)).2 = none from hnone]
      rfl
    exact next_eq ((State.command_of_ring hr hc).trans (by rw [hact, State.cmdRest_cmdEnds]))
  case stopIssued =>
    intro r c d u v hr hc hk hign
    have hsome : (u.issueStop u.mgrTile (d.kind % 4) (d.target % 4096) (!d.clear)).2 = some s.host.stopCtr :=
      State.issueStop_issued hign
    have hact : u.cmdActs s.idCtr d = v := by
      refine (State.cmdActs_of_stop rfl).trans ((if_neg hk).trans ?_)
      simp only [hsome]
      rfl
    have hcmds : ∀ k ∈ (u.issueStop u.mgrTile (c.kind % 4) (c.target % 4096) (!c.clear)).1.host.cmds, k = s.taken r d :=
      fun k hk => List.mem_singleton.mp (State.issueStop_cmds _ _ _ _ _ k hk)
    exact next_eq ((State.command_of_ring hr hc).trans (by rw [hact, State.cmdRest_stop rfl hcmds]))
  case barrier =>
    intro r c d hr hc
    have hact : (s.taking r d).cmdActs s.idCtr d = s.taking r d := State.cmdActs_of_wait (.inl rfl)
    exact next_eq ((State.command_of_ring hr hc).trans (by rw [hact, State.cmdRest_taking, if_pos rfl]))
  case waitPast =>
    intro r c d hr hc ht
    have hact : (s.taking r d).cmdActs s.idCtr d = s.taking r d := State.cmdActs_of_wait (.inr rfl)
    have hrest : (s.taking r d).cmdRest s.idCtr = (s.taking r d).cmdEnds s.idCtr 0 0 :=
      (State.cmdRest_taking s r d).trans ((if_neg (show ¬(0x44 : Nat) = 0x43 by decide)).trans ((if_pos rfl).trans (if_pos ht)))
    exact next_eq ((State.command_of_ring hr hc).trans (by rw [hact, hrest]))
  case waits =>
    intro r c d hr hc ht
    have hact : (s.taking r d).cmdActs s.idCtr d = s.taking r d := State.cmdActs_of_wait (.inr rfl)
    have hrest : (s.taking r d).cmdRest s.idCtr = s.taking r d :=
      (State.cmdRest_taking s r d).trans ((if_neg (show ¬(0x44 : Nat) = 0x43 by decide)).trans ((if_pos rfl).trans (if_neg (Nat.not_le.mpr ht))))
    have hout : (s.taking r d).recordsOut = s.taking r d := by
      have hfind : ((s.taking r d).host.cmds.find? fun k => k.id == s.idCtr) = some (s.taken r d) := by
        simp [State.taking, State.taken]
      refine (show (s.taking r d).recordsOut = (s.taking r d).cmdOut s.idCtr from rfl).trans ?_
      unfold State.cmdOut
      rw [hfind]
      rfl
    exact next_eq ((State.command_of_ring hr hc).trans (by rw [hact, hrest, hout]))
  case reached =>
    intro r c h
    refine next_eq ?_
    unfold waitFtReached
    rw [h]
  case notReached =>
    intro r h
    refine next_eq ?_
    unfold waitFtReached
    rw [List.find?_eq_none.mpr fun k hk hn => ?_]
    simp only [Bool.and_eq_true, beq_iff_eq, and_assoc, Option.isNone_iff_eq_none] at hn
    obtain ⟨hring, hstart, hop, hres⟩ := hn
    exact h k hk hring hstart hop hres
  case otherRing =>
    intro r c hr
    have hno (op : Nat) : s.command r c op = s := State.command_of_other hr
    exact ⟨next_eq (hno _), next_eq (hno _), next_eq (hno _), next_eq (hno _), next_eq (hno _)⟩

end Sys2Proof.Machine

/-! An ignored stop written to TL_STOP: the tile at which it is counted. -/

namespace Sys2Proof.Machine

/-! ### The command unit lists no counter twice -/

section
variable {s : State} {k id : Nat}

theorem State.cmdEnds_once {code : Nat} {d : Word} (h : s.listsOnce k) : (s.cmdEnds id code d).listsOnce k := h

theorem State.modCmd_once {f : CmdRun → CmdRun} (h : s.listsOnce k) : (s.modCmd id f).listsOnce k := h

theorem State.issueStop_once {acc kind num : Nat} {on : Bool} (h : s.listsOnce k) :
    (s.issueStop acc kind num on).1.listsOnce k := (State.issueStop_steady' s acc kind num on (.refl s)).once k h

theorem State.regWrite_once {via : Via} {o : Nat} {v : Word} (h : s.listsOnce k) : (s.regWrite via o v).listsOnce k :=
  (State.regWrite_steady s via o v (.refl s)).once k h

theorem State.ite_once {c : Prop} [Decidable c] {t : State} (hs : s.listsOnce k) (ht : t.listsOnce k) :
    (if c then s else t).listsOnce k := by split <;> assumption

theorem State.cmdActs_once {c : Cmd} (h : s.listsOnce k) : (s.cmdActs id c).listsOnce k := by
  have hstop : (match (s.issueStop s.mgrTile (c.kind % 4) (c.target % 4096) (!c.clear)).2 with
      | some n => (s.issueStop s.mgrTile (c.kind % 4) (c.target % 4096) (!c.clear)).1.modCmd id fun k => { k with stop := some n }
      | none => (s.issueStop s.mgrTile (c.kind % 4) (c.target % 4096) (!c.clear)).1.cmdEnds id 0 0).listsOnce k := by
    split
    · exact State.modCmd_once (State.issueStop_once h)
    · exact State.cmdEnds_once (State.issueStop_once h)
  exact State.ite_once
    (State.ite_once h (State.ite_once h (State.ite_once (State.cmdEnds_once (State.regWrite_once h)) h)))
    (State.ite_once (State.ite_once h hstop) (State.ite_once h h))

theorem State.cmdStart_once {c : CmdRun} (h : s.listsOnce k) : (s.cmdStart c).listsOnce k :=
  State.cmdActs_once (s := s.modCmd c.id fun k => { k with started := true }) (c := c.cmd) h

theorem State.cmdGo_once (h : s.listsOnce k) : (s.cmdGo id).listsOnce k := by
  unfold State.cmdGo
  split
  · exact h
  case h_2 c hc =>
    have hstart : (if !c.started && !((s.host.cmds.takeWhile fun k => k.id != id).filter fun k => k.ring == c.ring).any
        fun a => cmdHolds a c then s.cmdStart c else s).listsOnce k := State.ite_once (State.cmdStart_once h) h
    dsimp only
    split
    · exact hstart
    · refine State.ite_once hstart (State.ite_once (State.ite_once hstart hstart)
        (State.ite_once (State.ite_once hstart hstart) ?_))
      split
      · exact State.ite_once hstart hstart
      · exact hstart

theorem State.cmdOut_once (h : s.listsOnce k) : (s.cmdOut id).listsOnce k := by
  unfold State.cmdOut
  split
  · exact h
  · split
    · exact h
    · exact State.ite_once h (State.ite_once ((State.pushRec_steady _ _ _ _ (.refl _)).once k h) h)

theorem State.each_once {α : Type} {f : State → α → State} (hf : ∀ t a, t.listsOnce k → (f t a).listsOnce k) (l : List α) :
    ∀ {s : State}, s.listsOnce k → (s.each l f).listsOnce k := by
  induction l with
  | nil => exact fun h => h
  | cons a l ih => exact fun h => ih (hf _ a h)

theorem State.pump_once (h : s.listsOnce k) : s.pump.listsOnce k :=
  State.each_once (fun _ _ ht => State.cmdOut_once ht) _ (State.each_once (fun _ _ ht => State.cmdGo_once ht) _ h)

theorem State.listsOnce_of_tel {t : State} (hs : t.listsOnce k) (h : s.tel = t.tel) : s.listsOnce k := by
  unfold State.listsOnce
  rw [h]
  exact hs

theorem State.pump_of_idle (h : s.host.cmds = []) : s.pump = s := by
  simp only [State.pump, State.each, h, List.map_nil, List.foldl_nil]
end

/-! ### The counterexample -/

/-- TL_STOP_IGNORED of tile 1. -/
def ignoredAt1 : Nat := ctrKey 0 (256 * 1 + TEv.stopIgnored.idx)

/-- A part whose tiles run and whose list of counters names that of tile 1 twice. -/
def doubled : State := { cont := { lost := [] }, tel := { ctr := [(ignoredAt1, {}), (ignoredAt1, {})] } }

/-- A stop of partition 256, which does not exist. -/
def noTarget : Word := 0x1100

/-- Tile 1 as agent writes TL_STOP of tile 0: the model counts at tile 0, and tile 1's counter stays as it was. -/
theorem stopAct_doubled : ¬((doubled.stopAct 1 0 (putBit noTarget 14 false)).pump).listsOnce ignoredAt1 := by
  have hidle : (doubled.stopAct 1 0 (putBit noTarget 14 false)).host.cmds = [] := by decide +kernel
  rw [State.pump_of_idle hidle]
  unfold State.listsOnce
  decide +kernel

/-- Counting at tile 1 writes its counter, which is then listed once. -/
theorem count_doubled : (doubled.count 1 .stopIgnored).listsOnce ignoredAt1 := by
  unfold State.listsOnce
  decide +kernel

/-- Refutes O59: a stop that an agent below 8 writes to another tile's TL_STOP is counted at the tile written, and the statement
counts it at the agent; no command that the unit may hold makes up for the difference. -/
theorem not_ignoredStopsHaveNoEffect : ¬ Obligations.IgnoredStopsHaveNoEffect := by
  intro h
  obtain ⟨hstop, -⟩ := h doubled
  obtain ⟨u, hu, -, -, -, -, htel, -⟩ := hstop 1 0 noTarget false (by decide +kernel) (by decide)
    (.inr (.inr (.inr (.inr ⟨by decide, by decide⟩))))
  have hrun : exec (.tlStopApply 1 0 noTarget) doubled = .next (doubled.stopAct 1 0 (putBit noTarget 14 false)).pump :=
    next_eq (if_pos (by decide +kernel))
  have hsame : (doubled.stopAct 1 0 (putBit noTarget 14 false)).pump = u.pump :=
    Host.Outcome.next.inj (hrun.symm.trans hu)
  rw [if_pos (show 1 < 8 by decide)] at htel
  have honce : u.listsOnce ignoredAt1 := State.listsOnce_of_tel count_doubled htel
  refine stopAct_doubled ?_
  rw [hsame]
  exact State.pump_once honce

end Sys2Proof.Machine
